-- ==== Sys2Proof/Word.lean ====
section
/-!
DEFINITION. The machine's words: 32-bit registers and instruction words, 64-bit pairs and addresses, bytes (R3, R4).
-/
namespace Sys2Proof

/-- A 32-bit register or instruction word (R90, R128). -/
abbrev Word := BitVec 32

/-- A 64-bit value: a register pair, an address, a program counter (R4). -/
abbrev DWord := BitVec 64

/-- One byte. -/
abbrev Byte := BitVec 8

end Sys2Proof
end

