-- ==== Sys2Proof/Syntax.lean ====
section
/-!
DEFINITION. The instructions and events of the C960: one constructor of `Instr` for each row of the opcode table.
Operands are decoded (R94): no constructor carries a raw encoding field that the spec gives a structure.
-/
namespace Sys2Proof

/-- A register of one of the three files (R94, R128): uniform s0–s63, affine a0–a31, varying v0–v63. -/
inductive Reg where
  | s (i : Fin 64)
  | a (i : Fin 32)
  | v (i : Fin 64)
  deriving DecidableEq, Repr

/-- A source operand byte (R94): a register, or a six-bit immediate that is sign-extended when read. -/
inductive Operand where
  | reg (r : Reg)
  | imm (n : BitVec 6)
  deriving DecidableEq, Repr

/-- A source that accepts the s file and the immediate file. -/
inductive UniformOp where
  | s (i : Fin 64)
  | imm (n : BitVec 6)
  deriving DecidableEq, Repr

/-- A source that accepts the s, a and immediate files (PROMV, R138). -/
inductive SaOp where
  | s (i : Fin 64)
  | a (i : Fin 32)
  | imm (n : BitVec 6)
  deriving DecidableEq, Repr

/-- A source that accepts the s, v and immediate files (THS.RAISE, R349). -/
inductive SvOp where
  | s (i : Fin 64)
  | v (i : Fin 64)
  | imm (n : BitVec 6)
  deriving DecidableEq, Repr

/-- A register of the s or the v file. -/
inductive SvReg where
  | s (i : Fin 64)
  | v (i : Fin 64)
  deriving DecidableEq, Repr

/-- The even s pair s(2k):s(2k+1) (R4), by its k. -/
structure SPair where
  k : Fin 32
  deriving DecidableEq, Repr

/-- The even v pair v(2k):v(2k+1) (R4), by its k. -/
structure VPair where
  k : Fin 32
  deriving DecidableEq, Repr

/-- An even pair of the s or the v file (R4), by its k. -/
inductive Pair where
  | s (k : Fin 32)
  | v (k : Fin 32)
  deriving DecidableEq, Repr

/-- A quad of the s or the v file that starts at register 4k (R229, R386). -/
inductive Quad where
  | s (k : Fin 16)
  | v (k : Fin 16)
  deriving DecidableEq, Repr

/-- The integer type of R97: .I32 or .U32. -/
inductive IntTy where
  | i32
  | u32
  deriving DecidableEq, Repr

/-- MOD of ADD and SUB (R97, R172). -/
structure IntMode where
  ty  : IntTy
  sat : Bool
  deriving DecidableEq, Repr

/-- The conditions of CMP and CMPM (R173). -/
inductive Cond where
  | eq | ne | lt | le | gt | ge
  deriving DecidableEq, Repr

/-- The conditions of FCMP and FCMPM (R196). -/
inductive FCond where
  | eq | ne | lt | le | gt | ge | un | ord
  deriving DecidableEq, Repr

/-- The variants of BRM (R177). -/
inductive MaskTest where
  | any | all | none | lane
  deriving DecidableEq, Repr

/-- The roundings of FRND and F2I (R201). -/
inductive RoundSel where
  | rne | rtz | rup | rdn | dyn
  deriving DecidableEq, Repr

/-- The float formats of FCVT (R203). -/
inductive FloatTy where
  | f32 | bf16 | f16 | e4m3 | e5m2
  deriving DecidableEq, Repr

/-- MOD of FCVT (R203). -/
structure CvtMode where
  sat : Bool
  src : FloatTy
  dst : FloatTy
  deriving DecidableEq, Repr

/-- The packed 16-bit types of R208. -/
inductive HalfTy where
  | bf16 | f16
  deriving DecidableEq, Repr

/-- The types of FKEY (R209). -/
inductive KeyTy where
  | i32 | f32 | bf16 | f16
  deriving DecidableEq, Repr

/-- The special registers of R134. -/
inductive XReg where
  | exec | meet | tid | core | gid | tbase | xb | ovh | uhnd | tags | nfmt | fpctl | xstat
  | cvg (n : Fin 8)
  | ths (n : Fin 8)
  | mprog | epc | ecode | eaddr | elane | pw | tick | hcap | perm
  deriving DecidableEq, Repr

/-- Access sizes (R98). -/
inductive Size where
  | b8 | b16 | b32 | b64 | b128
  deriving DecidableEq, Repr

/-- Memory orders (R98). -/
inductive MemOrder where
  | rlx | acq | rel | ar
  deriving DecidableEq, Repr

/-- Scopes (R98): frame, device, domain, system. -/
inductive Scope where
  | frm | dev | dom | sys
  deriving DecidableEq, Repr

/-- MOD of a load from memory (R98), with the remote-scope promotion bit. -/
structure LoadMode where
  prm   : Bool
  ord   : MemOrder
  scope : Scope
  size  : Size
  deriving DecidableEq, Repr

/-- MOD of the other memory instructions and the atomics (R98). -/
structure MemMode where
  ord   : MemOrder
  scope : Scope
  size  : Size
  deriving DecidableEq, Repr

/-- MOD of AFADD, whose size is always .B32 (R239). -/
structure OrderMode where
  ord   : MemOrder
  scope : Scope
  deriving DecidableEq, Repr

/-- The operand records of MMA and MMAS: a in [3:0] and b in [7:4] of field A (R325). -/
structure ObsPair where
  a : Fin 16
  b : Fin 16
  deriving DecidableEq, Repr

/-- The predicates of VDOT (R345). -/
inductive VdotPred where
  | sign | gt | lt
  deriving DecidableEq, Repr

/-- The types of VDOT and VHDR (R339, R345). -/
inductive VerdictTy where
  | bf16 | e4m3 | f4x
  deriving DecidableEq, Repr

/-- MOD of VDOT (R345): `ab2` is the .AB2 abandon mode. -/
structure VdotMode where
  ab2  : Bool
  pred : VdotPred
  ty   : VerdictTy
  deriving DecidableEq, Repr

/-- The operations of REDUCE and SCAN (R358). -/
inductive RedOp where
  | add | min | max | mini | maxi | and | or | xor
  deriving DecidableEq, Repr

/-- The types of REDUCE and SCAN (R358). -/
inductive RedTy where
  | i32 | f32
  deriving DecidableEq, Repr

/-- MOD of REDUCE (R358). -/
structure ReduceMode where
  op : RedOp
  ty : RedTy
  deriving DecidableEq, Repr

/-- MOD of SCAN (R361): `exc` selects .EXC. -/
structure ScanMode where
  exc : Bool
  op  : RedOp
  ty  : RedTy
  deriving DecidableEq, Repr

/-- The variants of SHFL (R362). -/
inductive ShflVar where
  | idx | up | down | xor
  deriving DecidableEq, Repr

/-- A core identifier, 14 bits: DIE, BOARD, FRAME, SLOT (R66). -/
abbrev CoreId := BitVec 14

/-- A context slot or gang slot of a core: the home core and the slot number 0–31 (R75, R119). -/
structure CtxKey where
  core : CoreId
  slot : Fin 32
  deriving DecidableEq, Repr

/-- An access that an agent outside the package makes: to its device memory, a read or write of n bytes, or an atomic (R41, R46,
R215, R220), at an offset; by a host port's BAR0, a read or a write of n bytes of its register space (R48); and a write of n bytes
that the other package makes to its own device memory (R215). -/
inductive OutsideReq where
  | barRead (off n : Nat)
  | barWrite (off n : Nat) (x : DWord)
  | remote (off n : Nat) (x : BitVec 128)
  | read (off n : Nat)
  | write (off n : Nat) (x : BitVec 128)
  | fetchAdd (off n : Nat) (x : BitVec 128)
  | swap (off n : Nat) (x : BitVec 128)
  | cas (off n : Nat) (x y : BitVec 128)
  deriving DecidableEq, Repr

/-- The answer to an ATS translation request (R222, R223): the host physical page base, the page size as its log₂ and
the write permission, or a refusal. -/
inductive AtsAnswer where
  | granted (base log2 : Nat) (write : Bool)
  | refused
  deriving DecidableEq, Repr

/-- The host's response to a PRI page request (R223). -/
inductive PriAnswer where
  | success | absent | present | failure
  deriving DecidableEq, Repr

/-- What the residue check of a matrix operation found (R335): nothing, or a mismatch after `done` terms in a column. -/
inductive Residue where
  | good
  | mismatch (done column : Nat)
  deriving DecidableEq, Repr

/-- A link that trains (R39, R438): a host port, or a YSL port with the packages that it reaches, none when its cable is absent. -/
inductive TrainedLink where
  | host (port : Fin 2)
  | ysl (port : Fin 72) (peers : List Nat)
  deriving DecidableEq, Repr

/-- A cache in which an uncorrectable error is found (R228): a frame's, or the home slice of a line. -/
inductive CacheUnit where
  | frame (frame : Nat)
  | slice
  deriving DecidableEq, Repr

/-- What the module's sensors read every 10 µs (R434, R437, R439): package power and the power at the 54 V input in milliwatts, the
coolant's inlet temperature in °C and its flow in millilitres per minute. -/
structure Measured where
  package : Nat
  input   : Nat
  inlet   : Nat
  flow    : Nat
  deriving DecidableEq, Repr

/-- The fuses of an I/O die (R407): the digests of the four key slots, the revoked slots, and the rollback counter. -/
structure Fuses where
  slots    : Vector (BitVec 512) 4
  revoked  : BitVec 4
  rollback : Nat
  deriving DecidableEq, Repr

/-- The elements that the world outside refuses a job (R44, R227): those that met an uncorrectable error, and those whose
AtomicOp the host's completer refused. -/
structure JobErrors where
  bad     : List Nat
  refused : List Nat
  deriving DecidableEq, Repr

/-- A unit of storage whose errors are counted (R226, R401): an SRAM bank, or a DRAM row by its stack-and-row index
(12 × row + stack). -/
inductive Slice where
  | bank (n : Nat)
  | row (n : Nat)
  deriving DecidableEq, Repr

/-- Gyhouc's choice at the end of a SYSTEM service (R376). -/
inductive ServiceChoice where
  | resume | retire | abort
  deriving DecidableEq, Repr

/-- What Gyhouc's policy does with a pair or column whose self-test failed (R335, R404): nothing yet, retire the pair or
beam, move a pair's threads to the reckoner, or abort the launches concerned. -/
inductive FaultAction where
  | hold | retire | migrate | abort
  deriving DecidableEq, Repr

/-- The quantities whose trip points stop the package (R435). -/
inductive TripCause where
  | power | current | temperature | voltage | heat
  deriving DecidableEq, Repr

/-- A reading of a quantity beyond which the package trips (R435): W, A, °C, mV, W/cm². -/
structure TripReading where
  cause : TripCause
  value : Nat
  deriving DecidableEq, Repr

/-- The clamps of R435 but the package power's, which a measurement decides (R434). -/
inductive ClampKind where
  | junction | current | voltage | heat
  deriving DecidableEq, Repr

/-- The sensors whose readings R435 limits: those of junction temperature, the input current, the core rails of the four compute dies
(R10), and the matrix heat flux of each square millimetre. -/
inductive Sensor where
  | junction (n : Nat)
  | current
  | voltage (die : Fin 4)
  | heat (cell : Nat)
  deriving DecidableEq, Repr

/-- The part of a collective that another package contributes (R367, R368): its rank and the fields the engines compare,
and its elements as raw bytes. -/
structure Peer where
  rank  : Nat
  agree : Bool
  bytes : List Byte
  deriving DecidableEq, Repr

/-- What the debug handler writes of a stopped context (R413): a register of a lane, the STRIDE of an affine register, a
lane's PC, or a special register of a lane. -/
inductive ContextReg where
  | reg (lane : Fin 64) (r : Reg)
  | stride (i : Fin 32)
  | pc (lane : Fin 64)
  | special (lane : Fin 64) (x : XReg)
  deriving DecidableEq, Repr

/-- A register that Gyhouc's services write: register 0–3 (DBPC, DBFLT, DBTID, DBGID) of a launch's comparator (R411), or
one of a stopped context (R413); and RIDX of a launch's barrier log ring (R415). -/
inductive RegTarget where
  | ridx (n : Word)
  | comparator (n : Word) (cmp : Fin 8) (reg : Fin 4)
  | context (key : CtxKey) (f : ContextReg)
  deriving DecidableEq, Repr

/-- A write of Gyhouc policy (R405). -/
inductive PolicyWrite where
  | rdvDefault (cycles : Nat)
  | wdogPersist (micros : Nat)
  | wdogOther (micros : Nat)
  | requireSigned (on : Bool)
  | trust (key : BitVec 512)
  | threshold (n : Nat)
  | samplePeriod (ticks : Nat)
  | powerTarget (watts : Nat)
  | target (kind : ClampKind) (n : Nat)
  | heapLimit (bytes : Nat)
  | queuePriority (port : Fin 2) (queue : Fin 16) (prio : Nat)
  | faultRetirement (a : FaultAction)
  | pageForwarding (on : Bool)
  | stoppedCount (on : Bool)
  deriving DecidableEq, Repr

/-- The instructions and events of the C960: one constructor for each row of the opcode table, the events
first, then the encoded instructions in table order. A 64-bit
form carries its B operand, a 96-bit form its literal; an event carries what the outside did or chose. -/
inductive Instr where
  | linkTraining (link : TrainedLink) (cxl ats pri : Bool)
  | packageReset (image0 image1 : List Byte) (fuses : Fuses) (policy keys : List Byte)
  | getVersion (req : List Byte)
  | getCapabilities (req : List Byte)
  | negotiateAlgorithms (head fixed ext : List Byte)
  | getDigests (req : List Byte)
  | getCertificate (head body : List Byte)
  | challenge (req : List Byte)
  | getMeasurements (req : List Byte)
  | powerTargetWrite (watts : Nat)
  | powerMeasurement (m : Measured)
  | trip (reading : TripReading)
  | load (image : List Byte) (place : Nat)
  | unload (addr : DWord)
  | codeHeapCompaction (object target : Nat)
  | lqbaseWrite (port : Fin 2) (q : Fin 16) (v : DWord)
  | lqctlEnable (port : Fin 2) (q : Fin 16) (log2n : BitVec 5)
  | lqctlDisable (port : Fin 2) (q : Fin 16)
  | lqctlResize (port : Fin 2) (q : Fin 16) (log2n : BitVec 5)
  | lqtailWrite (port : Fin 2) (q : Fin 16) (v : DWord)
  | lqstatClear (port : Fin 2) (q : Fin 16) (v : DWord)
  | ringEntryRead (port : Fin 2) (q : Fin 16) (failed : Bool)
  | launchCheck (order : Nat)
  | launchDispatch (order : Nat)
  | launchDone (n : Word)
  | hostMemoryRequest (port : Fin 2) (req : OutsideReq)
  | atsCompletion (die : Fin 4) (pasid : BitVec 20) (page : Nat) (ans : AtsAnswer)
  | priResponse (die : Fin 4) (pasid : BitVec 20) (page : Nat) (ans : PriAnswer)
  | atsInvalidation (pasid : BitVec 20) (page : Nat) (pages : Nat)
  | hostAtomicCompletion (key : CtxKey) (lane : Nat) (ok : Bool)
  | memoryReply (key : CtxKey) (errors : List Nat) (corrected : List Slice)
  | machineCheck (u : CacheUnit) (pasid : BitVec 20) (line : Nat)
  | scrubPass (stack : Fin 12) (corrected : List Nat)
  | selfTestComplete (n : Nat) (passed : Bool) (choice : FaultAction)
  | linkFailure (port : Fin 72)
  | textFillComplete (launch : Word) (core : CoreId) (error : Bool)
  | instructionFetch (key : CtxKey)
  | spawnMessage (core : CoreId)
  | contextFree (key : CtxKey)
  | drainComplete (core : CoreId) (launch : Word) (w : Nat)
  | rendezvousDeadline (frame entry : Nat)
  | gangPlacement (frame entry : Nat)
  | requestCollectorFlush (frame : Nat)
  | jobDispatch (num : Nat)
  | jobComplete (num : Nat) (errors : JobErrors)
  | collectiveMatch (num : Nat) (peers : List Peer)
  | matrixOperationComplete (core : CoreId) (residue : Residue)
  | mwaitWake (key : CtxKey)
  | mwaitLimitExpiry (key : CtxKey)
  | mwaitPoll (key : CtxKey)
  | userInterrupt (key : CtxKey)
  | trapSlotGrant (board : Nat)
  | systemServiceComplete (key : CtxKey) (choice : ServiceChoice)
  | alloc (key : CtxKey) (place base : Nat)
  | free (key : CtxKey)
  | post (key : CtxKey)
  | nosvc (key : CtxKey)
  | hostkill (n : Word)
  | abortComplete (n : Word)
  | preemption (n : Word)
  | restore (n : Word) (moves : List (CoreId × CoreId))
  | watchdogFire (n : Word)
  | checkpointCountExpiry (key : CtxKey)
  | debugStop (key : CtxKey)
  | debugResume (key : CtxKey)
  | samplingPulse
  | registerWrite (target : RegTarget) (v : DWord)
  | atomicWidthReport (port : Fin 2) (bit : Fin 7)
  | snoop (line : Nat) (bytes : List (Nat × Byte))
  | hostLinkDown (port : Fin 2)
  | domainRequest (pkg : Nat) (pasid : BitVec 20) (req : OutsideReq)
  | clamp (sensor : Sensor) (reading : Nat)
  | debuggerAttach (n : Word)
  | debuggerDetach (n : Word)
  | fencedSliceClear (slice : Slice)
  | policyWrite (w : PolicyWrite)
  | barrierLoggingEnable (n : Word) (base nent : Nat)
  | nopCompact
  | brCompact (disp : BitVec 24)
  | brzCompact (cond : Reg) (disp : BitVec 16)
  | brnzCompact (cond : Reg) (disp : BitVec 16)
  | callCompact (disp : BitVec 24)
  | retCompact
  | addCompact (d : Reg) (a : Operand) (b : Operand)
  | subCompact (d : Reg) (a : Operand) (b : Operand)
  | mulCompact (d : Reg) (a : Operand) (b : Operand)
  | mulhiCompact (d : Reg) (a : Operand) (b : Operand)
  | mulhuCompact (d : Reg) (a : Operand) (b : Operand)
  | absCompact (d : Reg) (a : Operand)
  | minCompact (d : Reg) (a : Operand) (b : Operand)
  | maxCompact (d : Reg) (a : Operand) (b : Operand)
  | minuCompact (d : Reg) (a : Operand) (b : Operand)
  | maxuCompact (d : Reg) (a : Operand) (b : Operand)
  | andCompact (d : Reg) (a : Operand) (b : Operand)
  | orCompact (d : Reg) (a : Operand) (b : Operand)
  | xorCompact (d : Reg) (a : Operand) (b : Operand)
  | andnCompact (d : Reg) (a : Operand) (b : Operand)
  | shlCompact (d : Reg) (a : Operand) (b : Operand)
  | shrCompact (d : Reg) (a : Operand) (b : Operand)
  | sarCompact (d : Reg) (a : Operand) (b : Operand)
  | rolCompact (d : Reg) (a : Operand) (b : Operand)
  | clzCompact (d : Reg) (a : Operand)
  | ctzCompact (d : Reg) (a : Operand)
  | popcCompact (d : Reg) (a : Operand)
  | brevCompact (d : Reg) (a : Operand)
  | mskbCompact (d : Reg) (a : Operand) (b : Operand)
  | sextCompact (d : Reg) (a : Operand) (b : Operand)
  | movCompact (d : Reg) (a : Operand)
  | faddCompact (d : Reg) (a : Operand) (b : Operand)
  | fsubCompact (d : Reg) (a : Operand) (b : Operand)
  | fmulCompact (d : Reg) (a : Operand) (b : Operand)
  | fminCompact (d : Reg) (a : Operand) (b : Operand)
  | fmaxCompact (d : Reg) (a : Operand) (b : Operand)
  | add64 (m : IntMode) (d : Reg) (a : Operand) (b : Operand)
  | add96 (m : IntMode) (d : Reg) (a : Operand) (lit : Word)
  | sub64 (m : IntMode) (d : Reg) (a : Operand) (b : Operand)
  | sub96 (m : IntMode) (d : Reg) (a : Operand) (lit : Word)
  | mul64 (d : Reg) (a : Operand) (b : Operand)
  | mul96 (d : Reg) (a : Operand) (lit : Word)
  | mulhi64 (d : Reg) (a : Operand) (b : Operand)
  | mulhi96 (d : Reg) (a : Operand) (lit : Word)
  | mulhu64 (d : Reg) (a : Operand) (b : Operand)
  | mulhu96 (d : Reg) (a : Operand) (lit : Word)
  | mad64 (d : Reg) (a : Operand) (b : Operand) (c : Operand)
  | mad96 (d : Reg) (a : Operand) (c : Operand) (lit : Word)
  | abs64 (sat : Bool) (d : Reg) (a : Operand)
  | min64 (d : Reg) (a : Operand) (b : Operand)
  | min96 (d : Reg) (a : Operand) (lit : Word)
  | max64 (d : Reg) (a : Operand) (b : Operand)
  | max96 (d : Reg) (a : Operand) (lit : Word)
  | minu64 (d : Reg) (a : Operand) (b : Operand)
  | minu96 (d : Reg) (a : Operand) (lit : Word)
  | maxu64 (d : Reg) (a : Operand) (b : Operand)
  | maxu96 (d : Reg) (a : Operand) (lit : Word)
  | and64 (d : Reg) (a : Operand) (b : Operand)
  | and96 (d : Reg) (a : Operand) (lit : Word)
  | or64 (d : Reg) (a : Operand) (b : Operand)
  | or96 (d : Reg) (a : Operand) (lit : Word)
  | xor64 (d : Reg) (a : Operand) (b : Operand)
  | xor96 (d : Reg) (a : Operand) (lit : Word)
  | andn64 (d : Reg) (a : Operand) (b : Operand)
  | andn96 (d : Reg) (a : Operand) (lit : Word)
  | shl64 (d : Reg) (a : Operand) (b : Operand)
  | shl96 (d : Reg) (a : Operand) (lit : Word)
  | shr64 (d : Reg) (a : Operand) (b : Operand)
  | shr96 (d : Reg) (a : Operand) (lit : Word)
  | sar64 (d : Reg) (a : Operand) (b : Operand)
  | sar96 (d : Reg) (a : Operand) (lit : Word)
  | rol64 (d : Reg) (a : Operand) (b : Operand)
  | rol96 (d : Reg) (a : Operand) (lit : Word)
  | clz64 (d : Reg) (a : Operand)
  | ctz64 (d : Reg) (a : Operand)
  | popc64 (d : Reg) (a : Operand)
  | brev64 (d : Reg) (a : Operand)
  | bfx64 (d : Reg) (a : Operand) (b : Operand) (c : Operand)
  | bfx96 (d : Reg) (a : Operand) (c : Operand) (lit : Word)
  | bfi64 (d : Reg) (a : Operand) (b : Operand) (c : Operand)
  | bfi96 (d : Reg) (a : Operand) (c : Operand) (lit : Word)
  | addc64 (d : Reg) (a : Operand) (b : Operand) (c : Operand)
  | addc96 (d : Reg) (a : Operand) (c : Operand) (lit : Word)
  | subc64 (d : Reg) (a : Operand) (b : Operand) (c : Operand)
  | subc96 (d : Reg) (a : Operand) (c : Operand) (lit : Word)
  | sext64 (d : Reg) (a : Operand) (b : Operand)
  | sext96 (d : Reg) (a : Operand) (lit : Word)
  | mov64 (d : Reg) (a : Operand)
  | sel64 (d : Reg) (a : Operand) (b : Operand) (c : Operand)
  | sel96 (d : Reg) (a : Operand) (c : Operand) (lit : Word)
  | cmp64 (cond : Cond) (ty : IntTy) (d : Reg) (a : Operand) (b : Operand)
  | cmp96 (cond : Cond) (ty : IntTy) (d : Reg) (a : Operand) (lit : Word)
  | cmpm64 (cond : Cond) (ty : IntTy) (d : Reg) (a : Operand) (b : Operand)
  | cmpm96 (cond : Cond) (ty : IntTy) (d : Reg) (a : Operand) (lit : Word)
  | mskb64 (d : Reg) (a : Operand) (b : Operand)
  | mskb96 (d : Reg) (a : Operand) (lit : Word)
  | br64 (disp : BitVec 16)
  | br96 (disp : Word)
  | brz64 (a : Reg) (disp : BitVec 16)
  | brz96 (a : Reg) (disp : Word)
  | brnz64 (a : Reg) (disp : BitVec 16)
  | brnz96 (a : Reg) (disp : Word)
  | brm64 (test : MaskTest) (a : Fin 64) (disp : BitVec 16)
  | brm96 (test : MaskTest) (a : Fin 64) (disp : Word)
  | call64 (link : Pair) (disp : BitVec 16)
  | call96 (link : Pair) (disp : Word)
  | calli (link : Pair) (a : Pair)
  | ret64 (a : Pair)
  | jmpi (a : Pair)
  | nop64
  | iterInit (slot : Fin 2) (d : Reg) (a : SPair)
  | iterNext64 (slot : Fin 2) (disp : BitVec 16)
  | iterNext96 (slot : Fin 2) (disp : Word)
  | iterStep (slot : Fin 2)
  | fadd64 (d : Reg) (a : Operand) (b : Operand)
  | fadd96 (d : Reg) (a : Operand) (lit : Word)
  | fsub64 (d : Reg) (a : Operand) (b : Operand)
  | fsub96 (d : Reg) (a : Operand) (lit : Word)
  | fmul64 (d : Reg) (a : Operand) (b : Operand)
  | fmul96 (d : Reg) (a : Operand) (lit : Word)
  | ffma64 (d : Reg) (a : Operand) (b : Operand) (c : Operand)
  | ffma96 (d : Reg) (a : Operand) (c : Operand) (lit : Word)
  | fmin64 (d : Reg) (a : Operand) (b : Operand)
  | fmin96 (d : Reg) (a : Operand) (lit : Word)
  | fmax64 (d : Reg) (a : Operand) (b : Operand)
  | fmax96 (d : Reg) (a : Operand) (lit : Word)
  | fcmp64 (cond : FCond) (d : Reg) (a : Operand) (b : Operand)
  | fcmp96 (cond : FCond) (d : Reg) (a : Operand) (lit : Word)
  | fcmpm64 (cond : FCond) (d : Reg) (a : Operand) (b : Operand)
  | fcmpm96 (cond : FCond) (d : Reg) (a : Operand) (lit : Word)
  | fclass (d : Reg) (a : Operand)
  | frcp (d : Reg) (a : Operand)
  | frsq (d : Reg) (a : Operand)
  | fsqrt (d : Reg) (a : Operand)
  | fdiv64 (d : Reg) (a : Operand) (b : Operand)
  | fdiv96 (d : Reg) (a : Operand) (lit : Word)
  | fexp2 (d : Reg) (a : Operand)
  | flog2 (d : Reg) (a : Operand)
  | frnd (rm : RoundSel) (d : Reg) (a : Operand)
  | f2i (rm : RoundSel) (ty : IntTy) (d : Reg) (a : Operand)
  | i2f (ty : IntTy) (d : Reg) (a : Operand)
  | fcvt (m : CvtMode) (d : Reg) (a : Operand)
  | f4xp64 (d : Reg) (a : Operand) (b : Operand) (c : Operand)
  | f4xp96 (d : Reg) (a : Operand) (c : Operand) (lit : Word)
  | f4xu64 (d : Reg) (a : Operand) (b : Operand) (c : Operand)
  | f4xu96 (d : Reg) (a : Operand) (c : Operand) (lit : Word)
  | scle (d : Reg) (a : Operand)
  | hadd264 (ty : HalfTy) (d : Reg) (a : Operand) (b : Operand)
  | hadd296 (ty : HalfTy) (d : Reg) (a : Operand) (lit : Word)
  | hmul264 (ty : HalfTy) (d : Reg) (a : Operand) (b : Operand)
  | hmul296 (ty : HalfTy) (d : Reg) (a : Operand) (lit : Word)
  | hfma264 (ty : HalfTy) (d : Reg) (a : Operand) (b : Operand) (c : Operand)
  | hfma296 (ty : HalfTy) (d : Reg) (a : Operand) (c : Operand) (lit : Word)
  | fkey (ty : KeyTy) (d : Reg) (a : Operand)
  | proma64 (d : Reg) (a : UniformOp) (b : UniformOp)
  | proma96 (d : Reg) (a : UniformOp) (lit : Word)
  | promv (d : Reg) (a : SaOp)
  | demf (d : Reg) (a : Fin 64)
  | demc (d : Reg) (a : Fin 64)
  | movxr (x : XReg) (d : Reg)
  | movxw (x : XReg) (a : SvReg)
  | meet64 (disp : BitVec 16)
  | meet96 (disp : Word)
  | ld64 (m : LoadMode) (d : Reg) (a : Pair) (b : Operand) (disp : BitVec 16)
  | ld96 (m : LoadMode) (d : Reg) (a : Pair) (off : Option Reg) (disp : Word)
  | st64 (m : MemMode) (d : Reg) (a : Pair) (b : Operand) (disp : BitVec 16)
  | st96 (m : MemMode) (d : Reg) (a : Pair) (off : Option Reg) (disp : Word)
  | ldl64 (m : MemMode) (d : Reg) (b : Operand) (disp : BitVec 16)
  | ldl96 (m : MemMode) (d : Reg) (off : Option Reg) (disp : Word)
  | stl64 (m : MemMode) (d : Reg) (b : Operand) (disp : BitVec 16)
  | stl96 (m : MemMode) (d : Reg) (off : Option Reg) (disp : Word)
  | pfch64 (scope : Scope) (a : Pair) (b : Operand) (disp : BitVec 16)
  | pfch96 (scope : Scope) (a : Pair) (off : Option Reg) (disp : Word)
  | aadd64 (m : MemMode) (d : Reg) (a : Pair) (b : Operand) (c : Operand)
  | aadd96 (m : MemMode) (d : Reg) (a : Pair) (off : Option Reg) (c : Operand) (disp : Word)
  | afadd64 (m : OrderMode) (d : Reg) (a : Pair) (b : Operand) (c : Operand)
  | afadd96 (m : OrderMode) (d : Reg) (a : Pair) (off : Option Reg) (c : Operand) (disp : Word)
  | amin64 (m : MemMode) (d : Reg) (a : Pair) (b : Operand) (c : Operand)
  | amin96 (m : MemMode) (d : Reg) (a : Pair) (off : Option Reg) (c : Operand) (disp : Word)
  | amax64 (m : MemMode) (d : Reg) (a : Pair) (b : Operand) (c : Operand)
  | amax96 (m : MemMode) (d : Reg) (a : Pair) (off : Option Reg) (c : Operand) (disp : Word)
  | aand64 (m : MemMode) (d : Reg) (a : Pair) (b : Operand) (c : Operand)
  | aand96 (m : MemMode) (d : Reg) (a : Pair) (off : Option Reg) (c : Operand) (disp : Word)
  | aor64 (m : MemMode) (d : Reg) (a : Pair) (b : Operand) (c : Operand)
  | aor96 (m : MemMode) (d : Reg) (a : Pair) (off : Option Reg) (c : Operand) (disp : Word)
  | axor64 (m : MemMode) (d : Reg) (a : Pair) (b : Operand) (c : Operand)
  | axor96 (m : MemMode) (d : Reg) (a : Pair) (off : Option Reg) (c : Operand) (disp : Word)
  | axch64 (m : MemMode) (d : Reg) (a : Pair) (b : Operand) (c : Operand)
  | axch96 (m : MemMode) (d : Reg) (a : Pair) (off : Option Reg) (c : Operand) (disp : Word)
  | acas64 (m : MemMode) (d : Reg) (a : Pair) (b : Operand) (c : Operand) (q : Operand)
  | acas96 (m : MemMode) (d : Reg) (a : Pair) (off : Option Reg) (c : Operand) (q : Operand) (disp : Word)
  | strmOpen (d : Reg) (a : SPair) (st : Fin 8)
  | strmClose (st : Fin 8)
  | fence (scope : Scope)
  | cfl (inv : Bool) (a : Pair) (b : Operand)
  | copy (d : Reg) (a : SPair) (tag : Fin 64)
  | gath (d : Reg) (a : SPair) (tag : Fin 64)
  | scat (d : Reg) (a : SPair) (tag : Fin 64)
  | waitany (d : Reg) (a : SPair)
  | waitall (d : Reg) (a : SPair)
  | ffr (d : Reg) (a : SPair)
  | tagclr (a : SPair)
  | mwait (scope : Scope) (limit : Fin 41) (d : Pair) (a : SPair) (b : SPair)
  | jobst (d : Reg) (tag : Fin 64)
  | gcall64 (a : Operand) (disp : BitVec 16)
  | gcall96 (a : Operand) (disp : Word)
  | gcallI (b : Pair) (a : Operand)
  | gret
  | grow64 (d : Reg) (b : UniformOp)
  | grow96 (d : Reg) (lit : Word)
  | shrink64 (b : UniformOp)
  | shrink96 (lit : Word)
  | obres64 (d : Reg) (n : Fin 16) (b : Fin 64)
  | obres96 (d : Reg) (n : Fin 16) (lit : Word)
  | obrel (n : Fin 16)
  | obldS (d : Reg) (n : Fin 16) (a : SPair)
  | obldV (d : Reg) (n : Fin 16) (a : VPair)
  | mma64 (cv : Option (Fin 8)) (t : BitVec 8) (ab : ObsPair) (b : UniformOp)
  | mma96 (cv : Option (Fin 8)) (t : BitVec 8) (ab : ObsPair) (lit : Word)
  | mmas64 (cv : Option (Fin 8)) (t : BitVec 8) (ab : ObsPair) (b : UniformOp)
  | mmas96 (cv : Option (Fin 8)) (t : BitVec 8) (ab : ObsPair) (lit : Word)
  | accz (t : BitVec 8)
  | accld64 (t : BitVec 8) (a : SPair) (b : UniformOp)
  | accld96 (t : BitVec 8) (a : SPair) (lit : Word)
  | accst64 (t : BitVec 8) (a : SPair) (b : UniformOp)
  | accst96 (t : BitVec 8) (a : SPair) (lit : Word)
  | accrd64 (d : Reg) (t : BitVec 8) (b : UniformOp)
  | accrd96 (d : Reg) (t : BitVec 8) (lit : Word)
  | sign64 (d : Reg) (n : Fin 8) (b : Fin 64)
  | sign96 (d : Reg) (n : Fin 8) (lit : Word)
  | vdot (m : VdotMode) (slot : Fin 8) (d : Reg) (a : Pair) (b : SPair) (c : SPair)
  | vtest (d : Reg) (a : SvReg)
  | vkey (d : Reg) (a : SvReg)
  | vhdr (ty : VerdictTy) (d : Reg) (a : Pair)
  | thsBind (n : Fin 8) (a : SPair)
  | thsRaise64 (d : Pair) (n : Fin 8) (b : SvOp)
  | thsRaise96 (d : Pair) (n : Fin 8) (lit : Word)
  | thsRead (d : Pair) (n : Fin 8)
  | bar64 (scope : Scope) (d : Reg) (a : SPair)
  | reduce (m : ReduceMode) (mask : Option (Fin 64)) (d : Reg) (a : Reg)
  | scan (m : ScanMode) (mask : Option (Fin 64)) (d : Reg) (a : Reg)
  | shfl (var : ShflVar) (d : Reg) (a : Reg) (b : Operand)
  | bsort (desc : Bool) (mask : Option (Fin 64)) (d : Pair) (a : VPair)
  | bmerge (desc : Bool) (mask : Option (Fin 64)) (d : Pair) (a : VPair) (b : VPair)
  | coll (d : Reg) (a : SPair) (tag : Fin 64)
  | trap64 (n : BitVec 8)
  | eret
  | uimask (d : Reg) (a : UniformOp) (b : UniformOp)
  | pulse
  | svc64 (d : Quad) (a : SPair) (b : UniformOp) (n : BitVec 8)
  | svc96 (d : Quad) (a : SPair) (n : BitVec 8) (lit : Word)
  | ckpt64
  | bkpt (n : BitVec 8)
  | launch (d : Pair) (a : SPair)
  | spawn (d : Pair) (a : Fin 64) (b : SPair) (c : SPair)
  | waitfree (d : Reg) (a : Fin 64) (b : Fin 64)
  | join (d : Reg) (a : SPair)
  | leave (d : Reg) (a : SPair)
  | exit64
  | migrateRk (d : Reg)
  | migrateHm (d : Reg)
  | yield
  deriving DecidableEq, Repr

end Sys2Proof
end

