-- ==== Sys2Proof/WellFormed.lean ====
section
/-!
DEFINITION. Well-formed instructions: the illegal combinations of fields that the entries name (R103 and each entry), for
instructions whose operands and modifiers are each legal by themselves. A program's register counts (R22) and the width of
a mask pair (R33) depend on the context and are checked when the instruction executes.
-/
namespace Sys2Proof

/-- A destination: any register but a0 (R94). -/
def Reg.writable (r : Reg) : Bool := r != .a 0

/-- The index of a register in its file. -/
def Reg.idx : Reg → Nat
  | .s i => i.val
  | .a i => i.val
  | .v i => i.val

/-- Whether a register is in the affine file. -/
def Reg.isA : Reg → Bool
  | .a _ => true
  | _ => false

/-- Whether an operand is an affine register. -/
def Operand.isA : Operand → Bool
  | .reg r => r.isA
  | .imm _ => false

/-- The registers that a data operand of a size takes (R229). -/
def Size.regs : Size → Nat
  | .b64 => 2
  | .b128 => 4
  | _ => 1

/-- A data operand of a size (R229): an even pair or an aligned quad of the s or v file, or one register. -/
def Reg.carries (r : Reg) (sz : Size) : Bool :=
  sz.regs == 1 || (r.idx % sz.regs == 0 && !r.isA)

/-- A source data operand: a data operand of the size, or an immediate (R239). -/
def Operand.carries (o : Operand) (sz : Size) : Bool :=
  match o with
  | .reg r => r.carries sz
  | .imm _ => true

/-- Whether a special register has 64 bits (R134); EXEC depends on the group's width. -/
def XReg.wide : XReg → Bool
  | .meet | .tid | .gid | .tbase | .ovh | .uhnd | .tags | .ths _ | .epc | .eaddr | .tick | .perm => true
  | _ => false

/-- Whether MOVXW may write a special register (R134). -/
def XReg.writable : XReg → Bool
  | .meet | .gid | .tbase | .ovh | .uhnd | .nfmt | .fpctl | .xstat | .mprog | .epc | .perm => true
  | _ => false

/-- Whether an operation pairs a value with an index (R358). -/
def RedOp.indexed : RedOp → Bool
  | .mini | .maxi => true
  | _ => false

/-- Whether an operation is defined on floats (R358). -/
def RedOp.onFloats : RedOp → Bool
  | .and | .or | .xor => false
  | _ => true

/-- The combinations that the entries allow. Events have no encoding and are always well formed. -/
def Instr.wellFormed : Instr → Bool
  | .linkTraining _ _ _ _ => true
  | .packageReset _ _ _ _ _ => true
  | .getVersion _ => true
  | .getCapabilities _ => true
  | .negotiateAlgorithms _ _ _ => true
  | .getDigests _ => true
  | .getCertificate _ _ => true
  | .challenge _ => true
  | .getMeasurements _ => true
  | .powerTargetWrite _ => true
  | .powerMeasurement _ => true
  | .trip _ => true
  | .load _ _ => true
  | .unload _ => true
  | .codeHeapCompaction _ _ => true
  | .lqbaseWrite _ _ _ => true
  | .lqctlEnable _ _ _ => true
  | .lqctlDisable _ _ => true
  | .lqctlResize _ _ _ => true
  | .lqtailWrite _ _ _ => true
  | .lqstatClear _ _ _ => true
  | .ringEntryRead _ _ _ => true
  | .launchCheck _ => true
  | .launchDispatch _ => true
  | .launchDone _ => true
  | .hostMemoryRequest _ _ => true
  | .atsCompletion _ _ _ _ => true
  | .priResponse _ _ _ _ => true
  | .atsInvalidation _ _ _ => true
  | .hostAtomicCompletion _ _ _ => true
  | .memoryReply _ _ _ => true
  | .machineCheck _ _ _ => true
  | .scrubPass _ _ => true
  | .selfTestComplete _ _ _ => true
  | .linkFailure _ => true
  | .textFillComplete _ _ _ => true
  | .instructionFetch _ => true
  | .spawnMessage _ => true
  | .contextFree _ => true
  | .drainComplete _ _ _ => true
  | .rendezvousDeadline _ _ => true
  | .gangPlacement _ _ => true
  | .requestCollectorFlush _ => true
  | .jobDispatch _ => true
  | .jobComplete _ _ => true
  | .collectiveMatch _ _ => true
  | .matrixOperationComplete _ _ => true
  | .mwaitWake _ => true
  | .mwaitLimitExpiry _ => true
  | .mwaitPoll _ => true
  | .userInterrupt _ => true
  | .trapSlotGrant _ => true
  | .systemServiceComplete _ _ => true
  | .alloc _ _ _ => true
  | .free _ => true
  | .post _ => true
  | .nosvc _ => true
  | .hostkill _ => true
  | .abortComplete _ => true
  | .preemption _ => true
  | .restore _ _ => true
  | .watchdogFire _ => true
  | .checkpointCountExpiry _ => true
  | .debugStop _ => true
  | .debugResume _ => true
  | .samplingPulse => true
  | .registerWrite _ _ => true
  | .atomicWidthReport _ _ => true
  | .snoop _ _ => true
  | .hostLinkDown _ => true
  | .domainRequest _ _ _ => true
  | .clamp _ _ => true
  | .debuggerAttach _ => true
  | .debuggerDetach _ => true
  | .fencedSliceClear _ => true
  | .policyWrite _ => true
  | .barrierLoggingEnable _ _ _ => true
  | .nopCompact => true
  | .brCompact _ => true
  | .brzCompact _ _ => true
  | .brnzCompact _ _ => true
  | .callCompact _ => true
  | .retCompact => true
  | .addCompact d _ _ => d.writable
  | .subCompact d _ _ => d.writable
  | .mulCompact d _ _ => d.writable
  | .mulhiCompact d _ _ => d.writable
  | .mulhuCompact d _ _ => d.writable
  | .absCompact d _ => d.writable
  | .minCompact d _ _ => d.writable
  | .maxCompact d _ _ => d.writable
  | .minuCompact d _ _ => d.writable
  | .maxuCompact d _ _ => d.writable
  | .andCompact d _ _ => d.writable
  | .orCompact d _ _ => d.writable
  | .xorCompact d _ _ => d.writable
  | .andnCompact d _ _ => d.writable
  | .shlCompact d _ _ => d.writable
  | .shrCompact d _ _ => d.writable
  | .sarCompact d _ _ => d.writable
  | .rolCompact d _ _ => d.writable
  | .clzCompact d _ => d.writable
  | .ctzCompact d _ => d.writable
  | .popcCompact d _ => d.writable
  | .brevCompact d _ => d.writable
  | .mskbCompact d _ _ => d.writable
  | .sextCompact d _ _ => d.writable
  | .movCompact d _ => d.writable
  | .faddCompact d _ _ => d.writable
  | .fsubCompact d _ _ => d.writable
  | .fmulCompact d _ _ => d.writable
  | .fminCompact d _ _ => d.writable
  | .fmaxCompact d _ _ => d.writable
  | .add64 m d a b => d.writable && !(m.sat && (a.isA || b.isA))
  | .add96 m d a _ => d.writable && !(m.sat && (a.isA))
  | .sub64 m d a b => d.writable && !(m.sat && (a.isA || b.isA))
  | .sub96 m d a _ => d.writable && !(m.sat && (a.isA))
  | .mul64 d _ _ => d.writable
  | .mul96 d _ _ => d.writable
  | .mulhi64 d _ _ => d.writable
  | .mulhi96 d _ _ => d.writable
  | .mulhu64 d _ _ => d.writable
  | .mulhu96 d _ _ => d.writable
  | .mad64 d _ _ _ => d.writable
  | .mad96 d _ _ _ => d.writable
  | .abs64 sat d a => d.writable && !(sat && a.isA)
  | .min64 d _ _ => d.writable
  | .min96 d _ _ => d.writable
  | .max64 d _ _ => d.writable
  | .max96 d _ _ => d.writable
  | .minu64 d _ _ => d.writable
  | .minu96 d _ _ => d.writable
  | .maxu64 d _ _ => d.writable
  | .maxu96 d _ _ => d.writable
  | .and64 d _ _ => d.writable
  | .and96 d _ _ => d.writable
  | .or64 d _ _ => d.writable
  | .or96 d _ _ => d.writable
  | .xor64 d _ _ => d.writable
  | .xor96 d _ _ => d.writable
  | .andn64 d _ _ => d.writable
  | .andn96 d _ _ => d.writable
  | .shl64 d _ _ => d.writable
  | .shl96 d _ _ => d.writable
  | .shr64 d _ _ => d.writable
  | .shr96 d _ _ => d.writable
  | .sar64 d _ _ => d.writable
  | .sar96 d _ _ => d.writable
  | .rol64 d _ _ => d.writable
  | .rol96 d _ _ => d.writable
  | .clz64 d _ => d.writable
  | .ctz64 d _ => d.writable
  | .popc64 d _ => d.writable
  | .brev64 d _ => d.writable
  | .bfx64 d _ _ _ => d.writable
  | .bfx96 d _ _ _ => d.writable
  | .bfi64 d _ _ _ => d.writable
  | .bfi96 d _ _ _ => d.writable
  | .addc64 d _ _ _ => d.writable
  | .addc96 d _ _ _ => d.writable
  | .subc64 d _ _ _ => d.writable
  | .subc96 d _ _ _ => d.writable
  | .sext64 d _ _ => d.writable
  | .sext96 d _ _ => d.writable
  | .mov64 d _ => d.writable
  | .sel64 d _ _ _ => d.writable
  | .sel96 d _ _ _ => d.writable
  | .cmp64 _ _ d _ _ => d.writable
  | .cmp96 _ _ d _ _ => d.writable
  | .cmpm64 _ _ d _ _ => d.writable
  | .cmpm96 _ _ d _ _ => d.writable
  | .mskb64 d _ _ => d.writable
  | .mskb96 d _ _ => d.writable
  | .br64 _ => true
  | .br96 _ => true
  | .brz64 _ _ => true
  | .brz96 _ _ => true
  | .brnz64 _ _ => true
  | .brnz96 _ _ => true
  | .brm64 _ _ _ => true
  | .brm96 _ _ _ => true
  | .call64 _ _ => true
  | .call96 _ _ => true
  | .calli _ _ => true
  | .ret64 _ => true
  | .jmpi _ => true
  | .nop64 => true
  | .iterInit _ d _ => d.writable
  | .iterNext64 _ _ => true
  | .iterNext96 _ _ => true
  | .iterStep _ => true
  | .fadd64 d _ _ => d.writable
  | .fadd96 d _ _ => d.writable
  | .fsub64 d _ _ => d.writable
  | .fsub96 d _ _ => d.writable
  | .fmul64 d _ _ => d.writable
  | .fmul96 d _ _ => d.writable
  | .ffma64 d _ _ _ => d.writable
  | .ffma96 d _ _ _ => d.writable
  | .fmin64 d _ _ => d.writable
  | .fmin96 d _ _ => d.writable
  | .fmax64 d _ _ => d.writable
  | .fmax96 d _ _ => d.writable
  | .fcmp64 _ d _ _ => d.writable
  | .fcmp96 _ d _ _ => d.writable
  | .fcmpm64 _ d _ _ => d.writable
  | .fcmpm96 _ d _ _ => d.writable
  | .fclass d _ => d.writable
  | .frcp d _ => d.writable
  | .frsq d _ => d.writable
  | .fsqrt d _ => d.writable
  | .fdiv64 d _ _ => d.writable
  | .fdiv96 d _ _ => d.writable
  | .fexp2 d _ => d.writable
  | .flog2 d _ => d.writable
  | .frnd _ d _ => d.writable
  | .f2i _ _ d _ => d.writable
  | .i2f _ d _ => d.writable
  | .fcvt m d _ => d.writable && m.src != m.dst && !(m.sat && m.dst == .f32)
  | .f4xp64 d _ _ _ => d.writable
  | .f4xp96 d _ _ _ => d.writable
  | .f4xu64 d _ _ _ => d.writable
  | .f4xu96 d _ _ _ => d.writable
  | .scle d _ => d.writable
  | .hadd264 _ d _ _ => d.writable
  | .hadd296 _ d _ _ => d.writable
  | .hmul264 _ d _ _ => d.writable
  | .hmul296 _ d _ _ => d.writable
  | .hfma264 _ d _ _ _ => d.writable
  | .hfma296 _ d _ _ _ => d.writable
  | .fkey _ d _ => d.writable
  | .proma64 d _ _ => d.writable
  | .proma96 d _ _ => d.writable
  | .promv d _ => d.writable
  | .demf d _ => d.writable
  | .demc d _ => d.writable
  | .movxr x d => d.writable && (!x.wide || (d.idx % 2 == 0 && !d.isA))
  | .movxw x a => x.writable && (!x.wide || (match a with | .s i => i.val % 2 == 0 | .v i => i.val % 2 == 0))
  | .meet64 _ => true
  | .meet96 _ => true
  | .ld64 m d _ _ _ => d.writable && (m.ord == .rlx || m.ord == .acq) && (!m.prm || (m.ord == .acq && m.scope == .dev && m.size == .b32)) && d.carries m.size
  | .ld96 m d _ _ _ => d.writable && (m.ord == .rlx || m.ord == .acq) && (!m.prm || (m.ord == .acq && m.scope == .dev && m.size == .b32)) && d.carries m.size
  | .st64 m d _ _ _ => (m.ord == .rlx || m.ord == .rel) && d.carries m.size
  | .st96 m d _ _ _ => (m.ord == .rlx || m.ord == .rel) && d.carries m.size
  | .ldl64 m d _ _ => d.writable && (m.ord == .rlx || m.ord == .acq) && d.carries m.size
  | .ldl96 m d _ _ => d.writable && (m.ord == .rlx || m.ord == .acq) && d.carries m.size
  | .stl64 m d _ _ => (m.ord == .rlx || m.ord == .rel) && d.carries m.size
  | .stl96 m d _ _ => (m.ord == .rlx || m.ord == .rel) && d.carries m.size
  | .pfch64 scope _ _ _ => (scope == .frm || scope == .dev)
  | .pfch96 scope _ _ _ => (scope == .frm || scope == .dev)
  | .aadd64 m d _ _ c => d.writable && (m.size == .b32 || m.size == .b64) && d.carries m.size && c.carries m.size
  | .aadd96 m d _ _ c _ => d.writable && (m.size == .b32 || m.size == .b64) && d.carries m.size && c.carries m.size
  | .afadd64 _ d _ _ _ => d.writable
  | .afadd96 _ d _ _ _ _ => d.writable
  | .amin64 m d _ _ c => d.writable && (m.size == .b32 || m.size == .b64) && d.carries m.size && c.carries m.size
  | .amin96 m d _ _ c _ => d.writable && (m.size == .b32 || m.size == .b64) && d.carries m.size && c.carries m.size
  | .amax64 m d _ _ c => d.writable && (m.size == .b32 || m.size == .b64) && d.carries m.size && c.carries m.size
  | .amax96 m d _ _ c _ => d.writable && (m.size == .b32 || m.size == .b64) && d.carries m.size && c.carries m.size
  | .aand64 m d _ _ c => d.writable && (m.size == .b32 || m.size == .b64) && d.carries m.size && c.carries m.size
  | .aand96 m d _ _ c _ => d.writable && (m.size == .b32 || m.size == .b64) && d.carries m.size && c.carries m.size
  | .aor64 m d _ _ c => d.writable && (m.size == .b32 || m.size == .b64) && d.carries m.size && c.carries m.size
  | .aor96 m d _ _ c _ => d.writable && (m.size == .b32 || m.size == .b64) && d.carries m.size && c.carries m.size
  | .axor64 m d _ _ c => d.writable && (m.size == .b32 || m.size == .b64) && d.carries m.size && c.carries m.size
  | .axor96 m d _ _ c _ => d.writable && (m.size == .b32 || m.size == .b64) && d.carries m.size && c.carries m.size
  | .axch64 m d _ _ c => d.writable && (m.size == .b32 || m.size == .b64) && d.carries m.size && c.carries m.size
  | .axch96 m d _ _ c _ => d.writable && (m.size == .b32 || m.size == .b64) && d.carries m.size && c.carries m.size
  | .acas64 m d _ _ c q => d.writable && (m.size == .b32 || m.size == .b64 || m.size == .b128) && d.carries m.size && c.carries m.size && q.carries m.size
  | .acas96 m d _ _ c q _ => d.writable && (m.size == .b32 || m.size == .b64 || m.size == .b128) && d.carries m.size && c.carries m.size && q.carries m.size
  | .strmOpen d _ _ => d.writable
  | .strmClose _ => true
  | .fence _ => true
  | .cfl _ _ _ => true
  | .copy d _ _ => d.writable
  | .gath d _ _ => d.writable
  | .scat d _ _ => d.writable
  | .waitany d _ => d.writable
  | .waitall d _ => d.writable
  | .ffr d _ => d.writable
  | .tagclr _ => true
  | .mwait scope _ _ _ _ => scope != .frm
  | .jobst d _ => d.writable
  | .gcall64 _ _ => true
  | .gcall96 _ _ => true
  | .gcallI _ _ => true
  | .gret => true
  | .grow64 d _ => d.writable
  | .grow96 d _ => d.writable
  | .shrink64 _ => true
  | .shrink96 _ => true
  | .obres64 d _ _ => d.writable
  | .obres96 d _ _ => d.writable
  | .obrel _ => true
  | .obldS d _ _ => d.writable
  | .obldV d _ _ => d.writable
  | .mma64 _ _ _ _ => true
  | .mma96 _ _ _ _ => true
  | .mmas64 _ _ _ _ => true
  | .mmas96 _ _ _ _ => true
  | .accz _ => true
  | .accld64 _ _ _ => true
  | .accld96 _ _ _ => true
  | .accst64 _ _ _ => true
  | .accst96 _ _ _ => true
  | .accrd64 d _ _ => d.writable
  | .accrd96 d _ _ => d.writable
  | .sign64 d _ _ => d.writable
  | .sign96 d _ _ => d.writable
  | .vdot m slot d _ _ _ => d.writable && (m.pred != .sign || slot == 0)
  | .vtest d _ => d.writable
  | .vkey d _ => d.writable
  | .vhdr _ d _ => d.writable
  | .thsBind _ _ => true
  | .thsRaise64 _ _ _ => true
  | .thsRaise96 _ _ _ => true
  | .thsRead _ _ => true
  | .bar64 scope d _ => d.writable && scope != .sys
  | .reduce m _ d _ => d.writable && (m.ty == .i32 || m.op.onFloats) && (!m.op.indexed || (d.idx % 2 == 0 && !d.isA))
  | .scan m _ d _ => d.writable && (m.ty == .i32 || m.op.onFloats) && !m.op.indexed
  | .shfl _ d _ _ => d.writable
  | .bsort _ _ _ _ => true
  | .bmerge _ _ _ _ _ => true
  | .coll d _ _ => d.writable
  | .trap64 _ => true
  | .eret => true
  | .uimask d _ _ => d.writable
  | .pulse => true
  | .svc64 _ _ _ _ => true
  | .svc96 _ _ _ _ => true
  | .ckpt64 => true
  | .bkpt _ => true
  | .launch _ _ => true
  | .spawn _ _ _ _ => true
  | .waitfree d _ _ => d.writable
  | .join d _ => d.writable
  | .leave d _ => d.writable
  | .exit64 => true
  | .migrateRk d => d.writable
  | .migrateHm d => d.writable
  | .yield => true

/-- Whether an instruction has an encoding; the other constructors are events. -/
def Instr.hasWords : Instr → Bool
  | .linkTraining _ _ _ _ => false
  | .packageReset _ _ _ _ _ => false
  | .getVersion _ => false
  | .getCapabilities _ => false
  | .negotiateAlgorithms _ _ _ => false
  | .getDigests _ => false
  | .getCertificate _ _ => false
  | .challenge _ => false
  | .getMeasurements _ => false
  | .powerTargetWrite _ => false
  | .powerMeasurement _ => false
  | .trip _ => false
  | .load _ _ => false
  | .unload _ => false
  | .codeHeapCompaction _ _ => false
  | .lqbaseWrite _ _ _ => false
  | .lqctlEnable _ _ _ => false
  | .lqctlDisable _ _ => false
  | .lqctlResize _ _ _ => false
  | .lqtailWrite _ _ _ => false
  | .lqstatClear _ _ _ => false
  | .ringEntryRead _ _ _ => false
  | .launchCheck _ => false
  | .launchDispatch _ => false
  | .launchDone _ => false
  | .hostMemoryRequest _ _ => false
  | .atsCompletion _ _ _ _ => false
  | .priResponse _ _ _ _ => false
  | .atsInvalidation _ _ _ => false
  | .hostAtomicCompletion _ _ _ => false
  | .memoryReply _ _ _ => false
  | .machineCheck _ _ _ => false
  | .scrubPass _ _ => false
  | .selfTestComplete _ _ _ => false
  | .linkFailure _ => false
  | .textFillComplete _ _ _ => false
  | .instructionFetch _ => false
  | .spawnMessage _ => false
  | .contextFree _ => false
  | .drainComplete _ _ _ => false
  | .rendezvousDeadline _ _ => false
  | .gangPlacement _ _ => false
  | .requestCollectorFlush _ => false
  | .jobDispatch _ => false
  | .jobComplete _ _ => false
  | .collectiveMatch _ _ => false
  | .matrixOperationComplete _ _ => false
  | .mwaitWake _ => false
  | .mwaitLimitExpiry _ => false
  | .mwaitPoll _ => false
  | .userInterrupt _ => false
  | .trapSlotGrant _ => false
  | .systemServiceComplete _ _ => false
  | .alloc _ _ _ => false
  | .free _ => false
  | .post _ => false
  | .nosvc _ => false
  | .hostkill _ => false
  | .abortComplete _ => false
  | .preemption _ => false
  | .restore _ _ => false
  | .watchdogFire _ => false
  | .checkpointCountExpiry _ => false
  | .debugStop _ => false
  | .debugResume _ => false
  | .samplingPulse => false
  | .registerWrite _ _ => false
  | .atomicWidthReport _ _ => false
  | .snoop _ _ => false
  | .hostLinkDown _ => false
  | .domainRequest _ _ _ => false
  | .clamp _ _ => false
  | .debuggerAttach _ => false
  | .debuggerDetach _ => false
  | .fencedSliceClear _ => false
  | .policyWrite _ => false
  | .barrierLoggingEnable _ _ _ => false
  | .nopCompact => true
  | .brCompact _ => true
  | .brzCompact _ _ => true
  | .brnzCompact _ _ => true
  | .callCompact _ => true
  | .retCompact => true
  | .addCompact _ _ _ => true
  | .subCompact _ _ _ => true
  | .mulCompact _ _ _ => true
  | .mulhiCompact _ _ _ => true
  | .mulhuCompact _ _ _ => true
  | .absCompact _ _ => true
  | .minCompact _ _ _ => true
  | .maxCompact _ _ _ => true
  | .minuCompact _ _ _ => true
  | .maxuCompact _ _ _ => true
  | .andCompact _ _ _ => true
  | .orCompact _ _ _ => true
  | .xorCompact _ _ _ => true
  | .andnCompact _ _ _ => true
  | .shlCompact _ _ _ => true
  | .shrCompact _ _ _ => true
  | .sarCompact _ _ _ => true
  | .rolCompact _ _ _ => true
  | .clzCompact _ _ => true
  | .ctzCompact _ _ => true
  | .popcCompact _ _ => true
  | .brevCompact _ _ => true
  | .mskbCompact _ _ _ => true
  | .sextCompact _ _ _ => true
  | .movCompact _ _ => true
  | .faddCompact _ _ _ => true
  | .fsubCompact _ _ _ => true
  | .fmulCompact _ _ _ => true
  | .fminCompact _ _ _ => true
  | .fmaxCompact _ _ _ => true
  | .add64 _ _ _ _ => true
  | .add96 _ _ _ _ => true
  | .sub64 _ _ _ _ => true
  | .sub96 _ _ _ _ => true
  | .mul64 _ _ _ => true
  | .mul96 _ _ _ => true
  | .mulhi64 _ _ _ => true
  | .mulhi96 _ _ _ => true
  | .mulhu64 _ _ _ => true
  | .mulhu96 _ _ _ => true
  | .mad64 _ _ _ _ => true
  | .mad96 _ _ _ _ => true
  | .abs64 _ _ _ => true
  | .min64 _ _ _ => true
  | .min96 _ _ _ => true
  | .max64 _ _ _ => true
  | .max96 _ _ _ => true
  | .minu64 _ _ _ => true
  | .minu96 _ _ _ => true
  | .maxu64 _ _ _ => true
  | .maxu96 _ _ _ => true
  | .and64 _ _ _ => true
  | .and96 _ _ _ => true
  | .or64 _ _ _ => true
  | .or96 _ _ _ => true
  | .xor64 _ _ _ => true
  | .xor96 _ _ _ => true
  | .andn64 _ _ _ => true
  | .andn96 _ _ _ => true
  | .shl64 _ _ _ => true
  | .shl96 _ _ _ => true
  | .shr64 _ _ _ => true
  | .shr96 _ _ _ => true
  | .sar64 _ _ _ => true
  | .sar96 _ _ _ => true
  | .rol64 _ _ _ => true
  | .rol96 _ _ _ => true
  | .clz64 _ _ => true
  | .ctz64 _ _ => true
  | .popc64 _ _ => true
  | .brev64 _ _ => true
  | .bfx64 _ _ _ _ => true
  | .bfx96 _ _ _ _ => true
  | .bfi64 _ _ _ _ => true
  | .bfi96 _ _ _ _ => true
  | .addc64 _ _ _ _ => true
  | .addc96 _ _ _ _ => true
  | .subc64 _ _ _ _ => true
  | .subc96 _ _ _ _ => true
  | .sext64 _ _ _ => true
  | .sext96 _ _ _ => true
  | .mov64 _ _ => true
  | .sel64 _ _ _ _ => true
  | .sel96 _ _ _ _ => true
  | .cmp64 _ _ _ _ _ => true
  | .cmp96 _ _ _ _ _ => true
  | .cmpm64 _ _ _ _ _ => true
  | .cmpm96 _ _ _ _ _ => true
  | .mskb64 _ _ _ => true
  | .mskb96 _ _ _ => true
  | .br64 _ => true
  | .br96 _ => true
  | .brz64 _ _ => true
  | .brz96 _ _ => true
  | .brnz64 _ _ => true
  | .brnz96 _ _ => true
  | .brm64 _ _ _ => true
  | .brm96 _ _ _ => true
  | .call64 _ _ => true
  | .call96 _ _ => true
  | .calli _ _ => true
  | .ret64 _ => true
  | .jmpi _ => true
  | .nop64 => true
  | .iterInit _ _ _ => true
  | .iterNext64 _ _ => true
  | .iterNext96 _ _ => true
  | .iterStep _ => true
  | .fadd64 _ _ _ => true
  | .fadd96 _ _ _ => true
  | .fsub64 _ _ _ => true
  | .fsub96 _ _ _ => true
  | .fmul64 _ _ _ => true
  | .fmul96 _ _ _ => true
  | .ffma64 _ _ _ _ => true
  | .ffma96 _ _ _ _ => true
  | .fmin64 _ _ _ => true
  | .fmin96 _ _ _ => true
  | .fmax64 _ _ _ => true
  | .fmax96 _ _ _ => true
  | .fcmp64 _ _ _ _ => true
  | .fcmp96 _ _ _ _ => true
  | .fcmpm64 _ _ _ _ => true
  | .fcmpm96 _ _ _ _ => true
  | .fclass _ _ => true
  | .frcp _ _ => true
  | .frsq _ _ => true
  | .fsqrt _ _ => true
  | .fdiv64 _ _ _ => true
  | .fdiv96 _ _ _ => true
  | .fexp2 _ _ => true
  | .flog2 _ _ => true
  | .frnd _ _ _ => true
  | .f2i _ _ _ _ => true
  | .i2f _ _ _ => true
  | .fcvt _ _ _ => true
  | .f4xp64 _ _ _ _ => true
  | .f4xp96 _ _ _ _ => true
  | .f4xu64 _ _ _ _ => true
  | .f4xu96 _ _ _ _ => true
  | .scle _ _ => true
  | .hadd264 _ _ _ _ => true
  | .hadd296 _ _ _ _ => true
  | .hmul264 _ _ _ _ => true
  | .hmul296 _ _ _ _ => true
  | .hfma264 _ _ _ _ _ => true
  | .hfma296 _ _ _ _ _ => true
  | .fkey _ _ _ => true
  | .proma64 _ _ _ => true
  | .proma96 _ _ _ => true
  | .promv _ _ => true
  | .demf _ _ => true
  | .demc _ _ => true
  | .movxr _ _ => true
  | .movxw _ _ => true
  | .meet64 _ => true
  | .meet96 _ => true
  | .ld64 _ _ _ _ _ => true
  | .ld96 _ _ _ _ _ => true
  | .st64 _ _ _ _ _ => true
  | .st96 _ _ _ _ _ => true
  | .ldl64 _ _ _ _ => true
  | .ldl96 _ _ _ _ => true
  | .stl64 _ _ _ _ => true
  | .stl96 _ _ _ _ => true
  | .pfch64 _ _ _ _ => true
  | .pfch96 _ _ _ _ => true
  | .aadd64 _ _ _ _ _ => true
  | .aadd96 _ _ _ _ _ _ => true
  | .afadd64 _ _ _ _ _ => true
  | .afadd96 _ _ _ _ _ _ => true
  | .amin64 _ _ _ _ _ => true
  | .amin96 _ _ _ _ _ _ => true
  | .amax64 _ _ _ _ _ => true
  | .amax96 _ _ _ _ _ _ => true
  | .aand64 _ _ _ _ _ => true
  | .aand96 _ _ _ _ _ _ => true
  | .aor64 _ _ _ _ _ => true
  | .aor96 _ _ _ _ _ _ => true
  | .axor64 _ _ _ _ _ => true
  | .axor96 _ _ _ _ _ _ => true
  | .axch64 _ _ _ _ _ => true
  | .axch96 _ _ _ _ _ _ => true
  | .acas64 _ _ _ _ _ _ => true
  | .acas96 _ _ _ _ _ _ _ => true
  | .strmOpen _ _ _ => true
  | .strmClose _ => true
  | .fence _ => true
  | .cfl _ _ _ => true
  | .copy _ _ _ => true
  | .gath _ _ _ => true
  | .scat _ _ _ => true
  | .waitany _ _ => true
  | .waitall _ _ => true
  | .ffr _ _ => true
  | .tagclr _ => true
  | .mwait _ _ _ _ _ => true
  | .jobst _ _ => true
  | .gcall64 _ _ => true
  | .gcall96 _ _ => true
  | .gcallI _ _ => true
  | .gret => true
  | .grow64 _ _ => true
  | .grow96 _ _ => true
  | .shrink64 _ => true
  | .shrink96 _ => true
  | .obres64 _ _ _ => true
  | .obres96 _ _ _ => true
  | .obrel _ => true
  | .obldS _ _ _ => true
  | .obldV _ _ _ => true
  | .mma64 _ _ _ _ => true
  | .mma96 _ _ _ _ => true
  | .mmas64 _ _ _ _ => true
  | .mmas96 _ _ _ _ => true
  | .accz _ => true
  | .accld64 _ _ _ => true
  | .accld96 _ _ _ => true
  | .accst64 _ _ _ => true
  | .accst96 _ _ _ => true
  | .accrd64 _ _ _ => true
  | .accrd96 _ _ _ => true
  | .sign64 _ _ _ => true
  | .sign96 _ _ _ => true
  | .vdot _ _ _ _ _ _ => true
  | .vtest _ _ => true
  | .vkey _ _ => true
  | .vhdr _ _ _ => true
  | .thsBind _ _ => true
  | .thsRaise64 _ _ _ => true
  | .thsRaise96 _ _ _ => true
  | .thsRead _ _ => true
  | .bar64 _ _ _ => true
  | .reduce _ _ _ _ => true
  | .scan _ _ _ _ => true
  | .shfl _ _ _ _ => true
  | .bsort _ _ _ _ => true
  | .bmerge _ _ _ _ _ => true
  | .coll _ _ _ => true
  | .trap64 _ => true
  | .eret => true
  | .uimask _ _ _ => true
  | .pulse => true
  | .svc64 _ _ _ _ => true
  | .svc96 _ _ _ _ => true
  | .ckpt64 => true
  | .bkpt _ => true
  | .launch _ _ => true
  | .spawn _ _ _ _ => true
  | .waitfree _ _ _ => true
  | .join _ _ => true
  | .leave _ _ => true
  | .exit64 => true
  | .migrateRk _ => true
  | .migrateHm _ => true
  | .yield => true

end Sys2Proof
end

