-- ==== Sys2Proof/Decode.lean ====
section
/-!
DEFINITION. From bytes to instructions and back (R90–R103): the fields of the three formats, the operand and modifier
fields, the opcode map, and the encoder. Decoding is total and rejects by name; every rejection is an ILL case of R103.
The long forms' decoders are marked noncomputable for one reason: compiled Lean cannot build a constructor with fields past
the 245th of an inductive type. The kernel evaluates them, and Machine/Issue.lean gives an equal compiled form.
-/
namespace Sys2Proof

/-- Why a word sequence is no instruction (R103): an unassigned op7, family or FN; an unused field that is not 0; an
operand byte in a file or at an index that its operand does not accept; an unlisted modifier or small field; a combination
that the entry forbids; or too few bytes. -/
inductive Reject where
  | opcode | field | operand | modifier | combination | truncated
  deriving DecidableEq, Repr

/-- A decoding step: a value or the reason of the rejection. -/
abbrev Dec := Except Reject

/-- A field that the entry does not use must be 0 (R95). -/
def unused (x : BitVec 8) : Dec Unit := if x = 0 then .ok () else .error .field

/-- A modifier byte that the entry fixes (R103). -/
def fixed (x y : BitVec 8) : Dec Unit := if x = y then .ok () else .error .modifier

/-! ## Operand bytes (R94) -/

/-- A register byte. -/
def Reg.enc : Reg → BitVec 8
  | .s i => BitVec.ofNat 8 i.val
  | .a i => BitVec.ofNat 8 (64 + i.val)
  | .v i => BitVec.ofNat 8 (128 + i.val)

/-- The register that a byte names; an immediate byte and a32–a63 are rejected. -/
def Reg.dec (x : BitVec 8) : Dec Reg :=
  let i := x.toNat % 64
  have hi : i < 64 := Nat.mod_lt _ (by decide)
  if x.toNat < 64 then .ok (.s ⟨i, hi⟩)
  else if x.toNat < 128 then
    if h : i < 32 then .ok (.a ⟨i, h⟩) else .error .operand
  else if x.toNat < 192 then .ok (.v ⟨i, hi⟩)
  else .error .operand

/-- A source operand byte. -/
def Operand.enc : Operand → BitVec 8
  | .reg r => r.enc
  | .imm n => BitVec.ofNat 8 (192 + n.toNat)

/-- The operand that a byte names. -/
def Operand.dec (x : BitVec 8) : Dec Operand :=
  if x.toNat < 192 then (Reg.dec x).map .reg else .ok (.imm (BitVec.ofNat 6 x.toNat))

/-- An s-file or immediate byte. -/
def UniformOp.enc : UniformOp → BitVec 8
  | .s i => BitVec.ofNat 8 i.val
  | .imm n => BitVec.ofNat 8 (192 + n.toNat)

/-- The s-file or immediate operand that a byte names. -/
def UniformOp.dec (x : BitVec 8) : Dec UniformOp :=
  match Operand.dec x with
  | .ok (.reg (.s i)) => .ok (.s i)
  | .ok (.imm n) => .ok (.imm n)
  | _ => .error .operand

/-- An s-file, a-file or immediate byte. -/
def SaOp.enc : SaOp → BitVec 8
  | .s i => BitVec.ofNat 8 i.val
  | .a i => BitVec.ofNat 8 (64 + i.val)
  | .imm n => BitVec.ofNat 8 (192 + n.toNat)

/-- The s-file, a-file or immediate operand that a byte names. -/
def SaOp.dec (x : BitVec 8) : Dec SaOp :=
  match Operand.dec x with
  | .ok (.reg (.s i)) => .ok (.s i)
  | .ok (.reg (.a i)) => .ok (.a i)
  | .ok (.imm n) => .ok (.imm n)
  | _ => .error .operand

/-- An s-file, v-file or immediate byte. -/
def SvOp.enc : SvOp → BitVec 8
  | .s i => BitVec.ofNat 8 i.val
  | .v i => BitVec.ofNat 8 (128 + i.val)
  | .imm n => BitVec.ofNat 8 (192 + n.toNat)

/-- The s-file, v-file or immediate operand that a byte names. -/
def SvOp.dec (x : BitVec 8) : Dec SvOp :=
  match Operand.dec x with
  | .ok (.reg (.s i)) => .ok (.s i)
  | .ok (.reg (.v i)) => .ok (.v i)
  | .ok (.imm n) => .ok (.imm n)
  | _ => .error .operand

/-- An s-file or v-file byte. -/
def SvReg.enc : SvReg → BitVec 8
  | .s i => BitVec.ofNat 8 i.val
  | .v i => BitVec.ofNat 8 (128 + i.val)

/-- The s-file or v-file register that a byte names. An a-file byte is no operand of the form: ILL comes before MOVXW's TYPE
(R103, R130, R141) (DESIGN CHOICE, log 64). -/
def SvReg.dec (x : BitVec 8) : Dec SvReg :=
  match Reg.dec x with
  | .ok (.s i) => .ok (.s i)
  | .ok (.v i) => .ok (.v i)
  | _ => .error .operand

/-- An s-file byte. -/
def SIdx.enc (i : Fin 64) : BitVec 8 := BitVec.ofNat 8 i.val

/-- The s register that a byte names. -/
def SIdx.dec (x : BitVec 8) : Dec (Fin 64) := if h : x.toNat < 64 then .ok ⟨x.toNat, h⟩ else .error .operand

/-- A v-file byte. -/
def VIdx.enc (i : Fin 64) : BitVec 8 := BitVec.ofNat 8 (128 + i.val)

/-- The v register that a byte names. -/
def VIdx.dec (x : BitVec 8) : Dec (Fin 64) :=
  match Reg.dec x with
  | .ok (.v i) => .ok i
  | _ => .error .operand

/-- The byte of an even pair's first register (R4). -/
def Pair.enc : Pair → BitVec 8
  | .s k => BitVec.ofNat 8 (2 * k.val)
  | .v k => BitVec.ofNat 8 (128 + 2 * k.val)

/-- The even pair that a byte names; an odd first register, an a-file and an immediate byte are rejected (R94). -/
def Pair.dec (x : BitVec 8) : Dec Pair :=
  let k : Fin 32 := ⟨x.toNat % 64 / 2, by omega⟩
  if x.toNat % 2 = 1 then .error .operand
  else if x.toNat < 64 then .ok (.s k)
  else if 128 ≤ x.toNat ∧ x.toNat < 192 then .ok (.v k)
  else .error .operand

/-- The byte of an even s pair. -/
def SPair.enc (p : SPair) : BitVec 8 := BitVec.ofNat 8 (2 * p.k.val)

/-- The even s pair that a byte names. -/
def SPair.dec (x : BitVec 8) : Dec SPair :=
  match Pair.dec x with
  | .ok (.s k) => .ok ⟨k⟩
  | _ => .error .operand

/-- The byte of an even v pair. -/
def VPair.enc (p : VPair) : BitVec 8 := BitVec.ofNat 8 (128 + 2 * p.k.val)

/-- The even v pair that a byte names. -/
def VPair.dec (x : BitVec 8) : Dec VPair :=
  match Pair.dec x with
  | .ok (.v k) => .ok ⟨k⟩
  | _ => .error .operand

/-- The byte of a quad's first register. -/
def Quad.enc : Quad → BitVec 8
  | .s k => BitVec.ofNat 8 (4 * k.val)
  | .v k => BitVec.ofNat 8 (128 + 4 * k.val)

/-- The quad that a byte names; an index that is no multiple of 4 is rejected (R229, R386). -/
def Quad.dec (x : BitVec 8) : Dec Quad :=
  let k : Fin 16 := ⟨x.toNat % 64 / 4, by omega⟩
  if x.toNat % 4 ≠ 0 then .error .operand
  else if x.toNat < 64 then .ok (.s k)
  else if 128 ≤ x.toNat ∧ x.toNat < 192 then .ok (.v k)
  else .error .operand

/-- The byte of stream register v(56+i) (R245). -/
def StreamIdx.enc (i : Fin 8) : BitVec 8 := BitVec.ofNat 8 (184 + i.val)

/-- The stream register that a byte names. -/
def StreamIdx.dec (x : BitVec 8) : Dec (Fin 8) :=
  if h : 184 ≤ x.toNat ∧ x.toNat < 192 then .ok ⟨x.toNat - 184, by omega⟩ else .error .operand

/-- B of a 96-bit memory instruction: a register, or 0xFF for no offset register (R99). -/
def OffReg.enc : Option Reg → BitVec 8
  | some r => r.enc
  | none => 0xFF

/-- The offset register of a 96-bit memory instruction. -/
def OffReg.dec (x : BitVec 8) : Dec (Option Reg) :=
  if x = 0xFF then .ok none else (Reg.dec x).map some

/-! ## Raw numbers -/

/-- A raw byte. -/
def RawByte.enc (x : BitVec 8) : BitVec 8 := x
/-- A raw byte. -/
def RawByte.dec (x : BitVec 8) : Dec (BitVec 8) := .ok x

/-- A raw number below 16 in [3:0]. -/
def Num16.enc (n : Fin 16) : BitVec 8 := BitVec.ofNat 8 n.val
/-- A raw number below 16; [7:4] must be 0. -/
def Num16.dec (x : BitVec 8) : Dec (Fin 16) := if h : x.toNat < 16 then .ok ⟨x.toNat, h⟩ else .error .field

/-- A raw number below 8 in [2:0]. -/
def Num8.enc (n : Fin 8) : BitVec 8 := BitVec.ofNat 8 n.val
/-- A raw number below 8; [7:3] must be 0. -/
def Num8.dec (x : BitVec 8) : Dec (Fin 8) := if h : x.toNat < 8 then .ok ⟨x.toNat, h⟩ else .error .field

/-- A tag number in Q[5:0] (R267). -/
def TagNum.enc (n : Fin 64) : BitVec 8 := BitVec.ofNat 8 n.val
/-- A tag number; Q[7:6] must be 0. -/
def TagNum.dec (x : BitVec 8) : Dec (Fin 64) := if h : x.toNat < 64 then .ok ⟨x.toNat, h⟩ else .error .field

/-- The limit of MWAIT (R270). -/
def Limit.enc (n : Fin 41) : BitVec 8 := BitVec.ofNat 8 n.val
/-- The limit of MWAIT: values of 41 or more are illegal. -/
def Limit.dec (x : BitVec 8) : Dec (Fin 41) := if h : x.toNat < 41 then .ok ⟨x.toNat, h⟩ else .error .modifier

/-- The mask field Q (R96). -/
def QMask.enc : Option (Fin 64) → BitVec 8
  | some i => BitVec.ofNat 8 (128 + i.val)
  | none => 0
/-- The mask field Q: bit 7 selects a mask in s[5:0]; bit 6, and without a mask every bit, must be 0. -/
def QMask.dec (x : BitVec 8) : Dec (Option (Fin 64)) :=
  if x = 0 then .ok none
  else if h : 128 ≤ x.toNat ∧ x.toNat < 192 then .ok (some ⟨x.toNat - 128, by omega⟩)
  else .error .field

/-- The record numbers of MMA and MMAS in A (R325). -/
def ObsPair.enc (p : ObsPair) : BitVec 8 := BitVec.ofNat 8 (16 * p.b.val + p.a.val)
/-- The record numbers of MMA and MMAS. -/
def ObsPair.dec (x : BitVec 8) : Dec ObsPair := .ok ⟨⟨x.toNat % 16, by omega⟩, ⟨x.toNat / 16, by omega⟩⟩

/-- The convergence field of MMA and MMAS (R325). -/
def CvField.enc : Option (Fin 8) → BitVec 8
  | some n => BitVec.ofNat 8 (128 + n.val)
  | none => 0
/-- The convergence field of MMA and MMAS. -/
def CvField.dec (x : BitVec 8) : Dec (Option (Fin 8)) :=
  if x = 0 then .ok none
  else if h : 128 ≤ x.toNat ∧ x.toNat < 136 then .ok (some ⟨x.toNat - 128, by omega⟩)
  else .error .field

/-! ## Modifiers -/

/-- MOD of ADD and SUB (R97). -/
def IntMode.enc (m : IntMode) : BitVec 8 :=
  BitVec.ofNat 8 ((if m.sat then 64 else 0) + (match m.ty with | .i32 => 0 | .u32 => 1))
/-- MOD of ADD and SUB: .I32 or .U32, with or without .SAT. -/
def IntMode.dec (x : BitVec 8) : Dec IntMode :=
  match x.toNat with
  | 0 => .ok ⟨.i32, false⟩ | 1 => .ok ⟨.u32, false⟩ | 64 => .ok ⟨.i32, true⟩ | 65 => .ok ⟨.u32, true⟩
  | _ => .error .modifier

/-- MOD of ABS (R172). -/
def SatBit.enc (b : Bool) : BitVec 8 := if b then 64 else 0
/-- MOD of ABS: .I32, with or without .SAT. -/
def SatBit.dec (x : BitVec 8) : Dec Bool :=
  match x.toNat with | 0 => .ok false | 64 => .ok true | _ => .error .modifier

/-- TYPE .I32 or .U32 (R173). -/
def IntTy.enc : IntTy → BitVec 8 | .i32 => 0 | .u32 => 1
/-- TYPE .I32 or .U32. -/
def IntTy.dec (x : BitVec 8) : Dec IntTy :=
  match x.toNat with | 0 => .ok .i32 | 1 => .ok .u32 | _ => .error .modifier

/-- The condition of CMP and CMPM in Q (R173). -/
def Cond.enc : Cond → BitVec 8 | .eq => 0 | .ne => 1 | .lt => 2 | .le => 3 | .gt => 4 | .ge => 5
/-- The condition of CMP and CMPM: codes 6 and 7 and a nonzero Q[7:3] are illegal. -/
def Cond.dec (x : BitVec 8) : Dec Cond :=
  match x.toNat with
  | 0 => .ok .eq | 1 => .ok .ne | 2 => .ok .lt | 3 => .ok .le | 4 => .ok .gt | 5 => .ok .ge | _ => .error .modifier

/-- The condition of FCMP and FCMPM in Q (R196). -/
def FCond.enc : FCond → BitVec 8
  | .eq => 0 | .ne => 1 | .lt => 2 | .le => 3 | .gt => 4 | .ge => 5 | .un => 6 | .ord => 7
/-- The condition of FCMP and FCMPM. -/
def FCond.dec (x : BitVec 8) : Dec FCond :=
  match x.toNat with
  | 0 => .ok .eq | 1 => .ok .ne | 2 => .ok .lt | 3 => .ok .le | 4 => .ok .gt | 5 => .ok .ge | 6 => .ok .un | 7 => .ok .ord
  | _ => .error .modifier

/-- The slot of an ITER instruction (R186). -/
def Slot.enc (n : Fin 2) : BitVec 8 := BitVec.ofNat 8 n.val
/-- The slot of an ITER instruction. -/
def Slot.dec (x : BitVec 8) : Dec (Fin 2) := if h : x.toNat < 2 then .ok ⟨x.toNat, h⟩ else .error .modifier

/-- The variant of BRM (R177). -/
def MaskTest.enc : MaskTest → BitVec 8 | .any => 0 | .all => 1 | .none => 2 | .lane => 3
/-- The variant of BRM. -/
def MaskTest.dec (x : BitVec 8) : Dec MaskTest :=
  match x.toNat with | 0 => .ok .any | 1 => .ok .all | 2 => .ok .none | 3 => .ok .lane | _ => .error .modifier

/-- The rounding of FRND and F2I in Q (R201). -/
def RoundSel.enc : RoundSel → BitVec 8 | .rne => 0 | .rtz => 1 | .rup => 2 | .rdn => 3 | .dyn => 4
/-- The rounding of FRND and F2I. -/
def RoundSel.dec (x : BitVec 8) : Dec RoundSel :=
  match x.toNat with
  | 0 => .ok .rne | 1 => .ok .rtz | 2 => .ok .rup | 3 => .ok .rdn | 4 => .ok .dyn | _ => .error .modifier

/-- MOD of F2I (R201). -/
def F2iTy.enc : IntTy → BitVec 8 | .i32 => 0x10 | .u32 => 0x11
/-- MOD of F2I. -/
def F2iTy.dec (x : BitVec 8) : Dec IntTy :=
  match x.toNat with | 0x10 => .ok .i32 | 0x11 => .ok .u32 | _ => .error .modifier

/-- MOD of I2F (R201). -/
def I2fTy.enc : IntTy → BitVec 8 | .i32 => 0x02 | .u32 => 0x0A
/-- MOD of I2F. -/
def I2fTy.dec (x : BitVec 8) : Dec IntTy :=
  match x.toNat with | 0x02 => .ok .i32 | 0x0A => .ok .u32 | _ => .error .modifier

/-- The TYPE code of a float format (R97). -/
def FloatTy.code : FloatTy → Nat | .f32 => 2 | .bf16 => 3 | .f16 => 4 | .e4m3 => 5 | .e5m2 => 6
/-- The float format of a TYPE code. -/
def FloatTy.ofCode : Nat → Dec FloatTy
  | 2 => .ok .f32 | 3 => .ok .bf16 | 4 => .ok .f16 | 5 => .ok .e4m3 | 6 => .ok .e5m2 | _ => .error .modifier

/-- MOD of FCVT: SAT << 6 | STYPE << 3 | TYPE (R203). -/
def CvtMode.enc (m : CvtMode) : BitVec 8 :=
  BitVec.ofNat 8 ((if m.sat then 64 else 0) + 8 * m.src.code + m.dst.code)
/-- MOD of FCVT. -/
def CvtMode.dec (x : BitVec 8) : Dec CvtMode :=
  if x.toNat ≥ 128 then .error .modifier
  else do
    let src ← FloatTy.ofCode (x.toNat / 8 % 8)
    let dst ← FloatTy.ofCode (x.toNat % 8)
    pure ⟨decide (x.toNat ≥ 64), src, dst⟩

/-- MOD of the packed 16-bit instructions (R208). -/
def HalfTy.enc : HalfTy → BitVec 8 | .bf16 => 3 | .f16 => 4
/-- MOD of the packed 16-bit instructions. -/
def HalfTy.dec (x : BitVec 8) : Dec HalfTy :=
  match x.toNat with | 3 => .ok .bf16 | 4 => .ok .f16 | _ => .error .modifier

/-- MOD of FKEY (R209). -/
def KeyTy.enc : KeyTy → BitVec 8 | .i32 => 0 | .f32 => 2 | .bf16 => 3 | .f16 => 4
/-- MOD of FKEY. -/
def KeyTy.dec (x : BitVec 8) : Dec KeyTy :=
  match x.toNat with | 0 => .ok .i32 | 2 => .ok .f32 | 3 => .ok .bf16 | 4 => .ok .f16 | _ => .error .modifier

/-- The number of a special register (R134). -/
def XReg.enc : XReg → BitVec 8
  | .exec => 0x00 | .meet => 0x01 | .tid => 0x02 | .core => 0x03 | .gid => 0x04 | .tbase => 0x05 | .xb => 0x06
  | .ovh => 0x07 | .uhnd => 0x08 | .tags => 0x09 | .nfmt => 0x0A | .fpctl => 0x0B | .xstat => 0x0C
  | .cvg n => BitVec.ofNat 8 (0x10 + n.val)
  | .ths n => BitVec.ofNat 8 (0x18 + n.val)
  | .mprog => 0x20 | .epc => 0x21 | .ecode => 0x22 | .eaddr => 0x23 | .elane => 0x24 | .pw => 0x25 | .tick => 0x26
  | .hcap => 0x27 | .perm => 0x28
/-- The special register of a number; every number not listed is illegal (R134). -/
def XReg.dec (x : BitVec 8) : Dec XReg :=
  if h : 0x10 ≤ x.toNat ∧ x.toNat < 0x18 then .ok (.cvg ⟨x.toNat - 0x10, by omega⟩)
  else if h : 0x18 ≤ x.toNat ∧ x.toNat < 0x20 then .ok (.ths ⟨x.toNat - 0x18, by omega⟩)
  else match x.toNat with
    | 0x00 => .ok .exec | 0x01 => .ok .meet | 0x02 => .ok .tid | 0x03 => .ok .core | 0x04 => .ok .gid | 0x05 => .ok .tbase
    | 0x06 => .ok .xb | 0x07 => .ok .ovh | 0x08 => .ok .uhnd | 0x09 => .ok .tags | 0x0A => .ok .nfmt | 0x0B => .ok .fpctl
    | 0x0C => .ok .xstat | 0x20 => .ok .mprog | 0x21 => .ok .epc | 0x22 => .ok .ecode | 0x23 => .ok .eaddr
    | 0x24 => .ok .elane | 0x25 => .ok .pw | 0x26 => .ok .tick | 0x27 => .ok .hcap | 0x28 => .ok .perm
    | _ => .error .modifier

/-- The code of an access size (R98). -/
def Size.code : Size → Nat | .b8 => 0 | .b16 => 1 | .b32 => 2 | .b64 => 3 | .b128 => 4
/-- The access size of a code; 5–7 are illegal. -/
def Size.ofCode : Nat → Dec Size
  | 0 => .ok .b8 | 1 => .ok .b16 | 2 => .ok .b32 | 3 => .ok .b64 | 4 => .ok .b128 | _ => .error .modifier
/-- The code of an order (R98). -/
def MemOrder.code : MemOrder → Nat | .rlx => 0 | .acq => 1 | .rel => 2 | .ar => 3
/-- The order of a code. -/
def MemOrder.ofCode : Nat → MemOrder | 0 => .rlx | 1 => .acq | 2 => .rel | _ => .ar
/-- The code of a scope (R98). -/
def Scope.code : Scope → Nat | .frm => 0 | .dev => 1 | .dom => 2 | .sys => 3
/-- The scope of a code. -/
def Scope.ofCode : Nat → Scope | 0 => .frm | 1 => .dev | 2 => .dom | _ => .sys

/-- MOD of LD: PRM, ORD, SCOPE, SIZE (R98). -/
def LoadMode.enc (m : LoadMode) : BitVec 8 :=
  BitVec.ofNat 8 ((if m.prm then 128 else 0) + 32 * m.ord.code + 8 * m.scope.code + m.size.code)
/-- MOD of LD. -/
def LoadMode.dec (x : BitVec 8) : Dec LoadMode :=
  (Size.ofCode (x.toNat % 8)).map fun sz =>
    ⟨decide (x.toNat ≥ 128), MemOrder.ofCode (x.toNat / 32 % 4), Scope.ofCode (x.toNat / 8 % 4), sz⟩

/-- MOD of the other memory instructions and the atomics (R98). -/
def MemMode.enc (m : MemMode) : BitVec 8 :=
  BitVec.ofNat 8 (32 * m.ord.code + 8 * m.scope.code + m.size.code)
/-- MOD of the other memory instructions and the atomics: PRM must be 0. -/
def MemMode.dec (x : BitVec 8) : Dec MemMode :=
  if x.toNat ≥ 128 then .error .modifier
  else (Size.ofCode (x.toNat % 8)).map fun sz =>
    ⟨MemOrder.ofCode (x.toNat / 32 % 4), Scope.ofCode (x.toNat / 8 % 4), sz⟩

/-- MOD of AFADD: SIZE is .B32 (R239). -/
def OrderMode.enc (m : OrderMode) : BitVec 8 := MemMode.enc ⟨m.ord, m.scope, .b32⟩
/-- MOD of AFADD. -/
def OrderMode.dec (x : BitVec 8) : Dec OrderMode :=
  match MemMode.dec x with
  | .ok ⟨o, sc, .b32⟩ => .ok ⟨o, sc⟩
  | _ => .error .modifier

/-- MOD that holds SCOPE only (R238, R293, R354). -/
def ScopeMod.enc (s : Scope) : BitVec 8 := BitVec.ofNat 8 (8 * s.code)
/-- MOD that holds SCOPE only; the other bits must be 0. -/
def ScopeMod.dec (x : BitVec 8) : Dec Scope :=
  if x.toNat % 8 = 0 ∧ x.toNat < 32 then .ok (Scope.ofCode (x.toNat / 8)) else .error .modifier

/-- MOD of MWAIT: .ACQ, .B64 and a scope (R270). -/
def MwaitMod.enc (s : Scope) : BitVec 8 := BitVec.ofNat 8 (32 + 8 * s.code + 3)
/-- MOD of MWAIT. -/
def MwaitMod.dec (x : BitVec 8) : Dec Scope :=
  if 32 ≤ x.toNat ∧ x.toNat < 64 ∧ x.toNat % 8 = 3 then .ok (Scope.ofCode (x.toNat / 8 % 4)) else .error .modifier

/-- The TYPE code of VDOT and VHDR (R339, R345). -/
def VerdictTy.enc : VerdictTy → BitVec 8 | .bf16 => 3 | .e4m3 => 5 | .f4x => 7
/-- The type of VDOT and VHDR. -/
def VerdictTy.dec (x : BitVec 8) : Dec VerdictTy :=
  match x.toNat with | 3 => .ok .bf16 | 5 => .ok .e4m3 | 7 => .ok .f4x | _ => .error .modifier

/-- MOD of VDOT: AB << 6 | PRED << 4 | TYPE (R345). -/
def VdotMode.enc (m : VdotMode) : BitVec 8 :=
  BitVec.ofNat 8 ((if m.ab2 then 64 else 0) + (match m.pred with | .sign => 0 | .gt => 16 | .lt => 32) + m.ty.enc.toNat)
/-- MOD of VDOT: PRED = 3 and nonzero reserved bits are illegal. -/
def VdotMode.dec (x : BitVec 8) : Dec VdotMode :=
  if x.toNat ≥ 128 then .error .modifier
  else do
    let pred ← match x.toNat / 16 % 4 with
      | 0 => .ok VdotPred.sign | 1 => .ok .gt | 2 => .ok .lt | _ => .error .modifier
    let ty ← VerdictTy.dec (BitVec.ofNat 8 (x.toNat % 16))
    pure ⟨decide (x.toNat ≥ 64), pred, ty⟩

/-- The code of an operation of REDUCE and SCAN (R358). -/
def RedOp.code : RedOp → Nat
  | .add => 0 | .min => 1 | .max => 2 | .mini => 3 | .maxi => 4 | .and => 5 | .or => 6 | .xor => 7
/-- The operation of a code. -/
def RedOp.ofCode : Nat → RedOp
  | 0 => .add | 1 => .min | 2 => .max | 3 => .mini | 4 => .maxi | 5 => .and | 6 => .or | _ => .xor
/-- The code of a type of REDUCE and SCAN (R358). -/
def RedTy.code : RedTy → Nat | .i32 => 0 | .f32 => 2
/-- The type of a code: a TYPE other than 0 or 2 is illegal. -/
def RedTy.ofCode : Nat → Dec RedTy | 0 => .ok .i32 | 2 => .ok .f32 | _ => .error .modifier

/-- MOD of REDUCE: OP << 3 | TYPE (R358). -/
def ReduceMode.enc (m : ReduceMode) : BitVec 8 := BitVec.ofNat 8 (8 * m.op.code + m.ty.code)
/-- MOD of REDUCE: MOD[7:6] must be 0. -/
def ReduceMode.dec (x : BitVec 8) : Dec ReduceMode :=
  if x.toNat ≥ 64 then .error .modifier
  else (RedTy.ofCode (x.toNat % 8)).map fun ty => ⟨RedOp.ofCode (x.toNat / 8), ty⟩

/-- MOD of SCAN: EXC << 6 | OP << 3 | TYPE (R361). -/
def ScanMode.enc (m : ScanMode) : BitVec 8 :=
  BitVec.ofNat 8 ((if m.exc then 64 else 0) + 8 * m.op.code + m.ty.code)
/-- MOD of SCAN: MOD[7] must be 0. -/
def ScanMode.dec (x : BitVec 8) : Dec ScanMode :=
  if x.toNat ≥ 128 then .error .modifier
  else (RedTy.ofCode (x.toNat % 8)).map fun ty => ⟨decide (x.toNat ≥ 64), RedOp.ofCode (x.toNat / 8 % 8), ty⟩

/-- MOD of SHFL (R362). -/
def ShflVar.enc : ShflVar → BitVec 8 | .idx => 0 | .up => 1 | .down => 2 | .xor => 3
/-- MOD of SHFL. -/
def ShflVar.dec (x : BitVec 8) : Dec ShflVar :=
  match x.toNat with | 0 => .ok .idx | 1 => .ok .up | 2 => .ok .down | 3 => .ok .xor | _ => .error .modifier

/-- MOD 0x00 or 0x01 of CFL, BSORT and BMERGE (R294, R363). -/
def Bit0.enc (b : Bool) : BitVec 8 := if b then 1 else 0
/-- MOD 0x00 or 0x01. -/
def Bit0.dec (x : BitVec 8) : Dec Bool :=
  match x.toNat with | 0 => .ok false | 1 => .ok true | _ => .error .modifier

/-! ## The three formats (R90–R93) -/

/-- The fields of a 64-bit or 96-bit instruction (R92). -/
structure Fields where
  d   : BitVec 8
  a   : BitVec 8
  b   : BitVec 8
  c   : BitVec 8
  mod : BitVec 8
  q   : BitVec 8
  deriving DecidableEq, Repr

/-- An instruction as its format gives it: a compact word's op7, D, A and B (R91), or the family, FN and fields of a long
form, with the literal of a 96-bit form (R93). -/
inductive Raw where
  | compact (op7 : BitVec 7) (d a b : BitVec 8)
  | wide (fam : BitVec 6) (fn : BitVec 8) (f : Fields) (lit : Option Word)
  deriving DecidableEq, Repr

/-- Word0 of a long form (R92). -/
def packWord0 (fam : BitVec 6) (len : BitVec 2) (f : Fields) : Word := f.b ++ f.a ++ f.d ++ (fam ++ len)

/-- Word1 of a long form (R92). -/
def packWord1 (fn : BitVec 8) (f : Fields) : Word := f.q ++ f.mod ++ fn ++ f.c

/-- The words of an instruction, word0 first (R90–R93). -/
def Raw.words : Raw → List Word
  | .compact op7 d a b => [b ++ a ++ d ++ (op7.extractLsb' 1 6 ++ (0#1) ++ op7.extractLsb' 0 1)]
  | .wide fam fn f none => [packWord0 fam 2 f, packWord1 fn f]
  | .wide fam fn f (some l) => [packWord0 fam 3 f, packWord1 fn f, l]

/-- Byte i of a word. -/
def wordByte (w : Word) (i : Nat) : BitVec 8 := w.extractLsb' (8 * i) 8

/-- The fields of a long form's two words. -/
def unpackFields (w0 w1 : Word) : Fields :=
  ⟨wordByte w0 1, wordByte w0 2, wordByte w0 3, wordByte w1 0, wordByte w1 2, wordByte w1 3⟩

/-- The instruction at the head of a word sequence, with its length in words (R90). -/
def unpack : List Word → Dec (Raw × Nat)
  | [] => .error .truncated
  | w0 :: rest =>
    match (w0.extractLsb' 0 2).toNat with
    | 2 =>
      match rest with
      | w1 :: _ => .ok (.wide (w0.extractLsb' 2 6) (wordByte w1 1) (unpackFields w0 w1) none, 2)
      | [] => .error .truncated
    | 3 =>
      match rest with
      | w1 :: w2 :: _ => .ok (.wide (w0.extractLsb' 2 6) (wordByte w1 1) (unpackFields w0 w1) (some w2), 3)
      | _ => .error .truncated
    | _ => .ok (.compact (w0.extractLsb' 2 6 ++ w0.extractLsb' 0 1) (wordByte w0 1) (wordByte w0 2) (wordByte w0 3), 1)

/-- The displacement disp16 = {Q, C} of a 64-bit form (R93, R99). -/
def Fields.disp (f : Fields) : BitVec 16 := f.q ++ f.c

/-- The compact opcode space (R100, R101). -/
def decodeCompact (op7 : BitVec 7) (d a b : BitVec 8) : Dec Instr :=
  match op7.toNat with
  | 0x01 => do unused d; unused a; unused b; pure .nopCompact
  | 0x02 => .ok (.brCompact (b ++ a ++ d))
  | 0x03 => do let x ← Reg.dec d; pure (.brzCompact x (b ++ a))
  | 0x04 => do let x ← Reg.dec d; pure (.brnzCompact x (b ++ a))
  | 0x05 => .ok (.callCompact (b ++ a ++ d))
  | 0x06 => do unused d; unused a; unused b; pure .retCompact
  | 0x41 => do let x ← Reg.dec d; let y ← Operand.dec a; let z ← Operand.dec b; pure (.addCompact x y z)
  | 0x42 => do let x ← Reg.dec d; let y ← Operand.dec a; let z ← Operand.dec b; pure (.subCompact x y z)
  | 0x43 => do let x ← Reg.dec d; let y ← Operand.dec a; let z ← Operand.dec b; pure (.mulCompact x y z)
  | 0x44 => do let x ← Reg.dec d; let y ← Operand.dec a; let z ← Operand.dec b; pure (.mulhiCompact x y z)
  | 0x45 => do let x ← Reg.dec d; let y ← Operand.dec a; let z ← Operand.dec b; pure (.mulhuCompact x y z)
  | 0x47 => do unused b; let x ← Reg.dec d; let y ← Operand.dec a; pure (.absCompact x y)
  | 0x48 => do let x ← Reg.dec d; let y ← Operand.dec a; let z ← Operand.dec b; pure (.minCompact x y z)
  | 0x49 => do let x ← Reg.dec d; let y ← Operand.dec a; let z ← Operand.dec b; pure (.maxCompact x y z)
  | 0x4A => do let x ← Reg.dec d; let y ← Operand.dec a; let z ← Operand.dec b; pure (.minuCompact x y z)
  | 0x4B => do let x ← Reg.dec d; let y ← Operand.dec a; let z ← Operand.dec b; pure (.maxuCompact x y z)
  | 0x4C => do let x ← Reg.dec d; let y ← Operand.dec a; let z ← Operand.dec b; pure (.andCompact x y z)
  | 0x4D => do let x ← Reg.dec d; let y ← Operand.dec a; let z ← Operand.dec b; pure (.orCompact x y z)
  | 0x4E => do let x ← Reg.dec d; let y ← Operand.dec a; let z ← Operand.dec b; pure (.xorCompact x y z)
  | 0x4F => do let x ← Reg.dec d; let y ← Operand.dec a; let z ← Operand.dec b; pure (.andnCompact x y z)
  | 0x50 => do let x ← Reg.dec d; let y ← Operand.dec a; let z ← Operand.dec b; pure (.shlCompact x y z)
  | 0x51 => do let x ← Reg.dec d; let y ← Operand.dec a; let z ← Operand.dec b; pure (.shrCompact x y z)
  | 0x52 => do let x ← Reg.dec d; let y ← Operand.dec a; let z ← Operand.dec b; pure (.sarCompact x y z)
  | 0x53 => do let x ← Reg.dec d; let y ← Operand.dec a; let z ← Operand.dec b; pure (.rolCompact x y z)
  | 0x54 => do unused b; let x ← Reg.dec d; let y ← Operand.dec a; pure (.clzCompact x y)
  | 0x55 => do unused b; let x ← Reg.dec d; let y ← Operand.dec a; pure (.ctzCompact x y)
  | 0x56 => do unused b; let x ← Reg.dec d; let y ← Operand.dec a; pure (.popcCompact x y)
  | 0x57 => do unused b; let x ← Reg.dec d; let y ← Operand.dec a; pure (.brevCompact x y)
  | 0x5D => do let x ← Reg.dec d; let y ← Operand.dec a; let z ← Operand.dec b; pure (.mskbCompact x y z)
  | 0x60 => do let x ← Reg.dec d; let y ← Operand.dec a; let z ← Operand.dec b; pure (.sextCompact x y z)
  | 0x61 => do unused b; let x ← Reg.dec d; let y ← Operand.dec a; pure (.movCompact x y)
  | 0x71 => do let x ← Reg.dec d; let y ← Operand.dec a; let z ← Operand.dec b; pure (.faddCompact x y z)
  | 0x72 => do let x ← Reg.dec d; let y ← Operand.dec a; let z ← Operand.dec b; pure (.fsubCompact x y z)
  | 0x73 => do let x ← Reg.dec d; let y ← Operand.dec a; let z ← Operand.dec b; pure (.fmulCompact x y z)
  | 0x75 => do let x ← Reg.dec d; let y ← Operand.dec a; let z ← Operand.dec b; pure (.fminCompact x y z)
  | 0x76 => do let x ← Reg.dec d; let y ← Operand.dec a; let z ← Operand.dec b; pure (.fmaxCompact x y z)
  | _ => .error .opcode

/-- B of a 96-bit form outside the memory and atomic families (R93). -/
def literalB (x : BitVec 8) : Dec Unit := if x = 0xFF then .ok () else .error .field

/-- Family 0x01 in the 64-bit form (R102). -/
noncomputable def decode64Fam01 (fn : Nat) (f : Fields) : Dec Instr :=
  match fn with
  | 0x01 => do unused f.q; unused f.c; let mx ← IntMode.dec f.mod; let dx ← Reg.dec f.d; let ax ← Operand.dec f.a; let bx ← Operand.dec f.b; pure (.add64 mx dx ax bx)
  | 0x02 => do unused f.q; unused f.c; let mx ← IntMode.dec f.mod; let dx ← Reg.dec f.d; let ax ← Operand.dec f.a; let bx ← Operand.dec f.b; pure (.sub64 mx dx ax bx)
  | 0x03 => do unused f.q; unused f.mod; unused f.c; let dx ← Reg.dec f.d; let ax ← Operand.dec f.a; let bx ← Operand.dec f.b; pure (.mul64 dx ax bx)
  | 0x04 => do unused f.q; unused f.mod; unused f.c; let dx ← Reg.dec f.d; let ax ← Operand.dec f.a; let bx ← Operand.dec f.b; pure (.mulhi64 dx ax bx)
  | 0x05 => do unused f.q; unused f.mod; unused f.c; let dx ← Reg.dec f.d; let ax ← Operand.dec f.a; let bx ← Operand.dec f.b; pure (.mulhu64 dx ax bx)
  | 0x06 => do unused f.q; unused f.mod; let dx ← Reg.dec f.d; let ax ← Operand.dec f.a; let bx ← Operand.dec f.b; let cx ← Operand.dec f.c; pure (.mad64 dx ax bx cx)
  | 0x07 => do unused f.q; unused f.c; unused f.b; let satx ← SatBit.dec f.mod; let dx ← Reg.dec f.d; let ax ← Operand.dec f.a; pure (.abs64 satx dx ax)
  | 0x08 => do unused f.q; unused f.mod; unused f.c; let dx ← Reg.dec f.d; let ax ← Operand.dec f.a; let bx ← Operand.dec f.b; pure (.min64 dx ax bx)
  | 0x09 => do unused f.q; unused f.mod; unused f.c; let dx ← Reg.dec f.d; let ax ← Operand.dec f.a; let bx ← Operand.dec f.b; pure (.max64 dx ax bx)
  | 0x0A => do unused f.q; unused f.mod; unused f.c; let dx ← Reg.dec f.d; let ax ← Operand.dec f.a; let bx ← Operand.dec f.b; pure (.minu64 dx ax bx)
  | 0x0B => do unused f.q; unused f.mod; unused f.c; let dx ← Reg.dec f.d; let ax ← Operand.dec f.a; let bx ← Operand.dec f.b; pure (.maxu64 dx ax bx)
  | 0x0C => do unused f.q; unused f.mod; unused f.c; let dx ← Reg.dec f.d; let ax ← Operand.dec f.a; let bx ← Operand.dec f.b; pure (.and64 dx ax bx)
  | 0x0D => do unused f.q; unused f.mod; unused f.c; let dx ← Reg.dec f.d; let ax ← Operand.dec f.a; let bx ← Operand.dec f.b; pure (.or64 dx ax bx)
  | 0x0E => do unused f.q; unused f.mod; unused f.c; let dx ← Reg.dec f.d; let ax ← Operand.dec f.a; let bx ← Operand.dec f.b; pure (.xor64 dx ax bx)
  | 0x0F => do unused f.q; unused f.mod; unused f.c; let dx ← Reg.dec f.d; let ax ← Operand.dec f.a; let bx ← Operand.dec f.b; pure (.andn64 dx ax bx)
  | 0x10 => do unused f.q; unused f.mod; unused f.c; let dx ← Reg.dec f.d; let ax ← Operand.dec f.a; let bx ← Operand.dec f.b; pure (.shl64 dx ax bx)
  | 0x11 => do unused f.q; unused f.mod; unused f.c; let dx ← Reg.dec f.d; let ax ← Operand.dec f.a; let bx ← Operand.dec f.b; pure (.shr64 dx ax bx)
  | 0x12 => do unused f.q; unused f.mod; unused f.c; let dx ← Reg.dec f.d; let ax ← Operand.dec f.a; let bx ← Operand.dec f.b; pure (.sar64 dx ax bx)
  | 0x13 => do unused f.q; unused f.mod; unused f.c; let dx ← Reg.dec f.d; let ax ← Operand.dec f.a; let bx ← Operand.dec f.b; pure (.rol64 dx ax bx)
  | 0x14 => do unused f.q; unused f.mod; unused f.c; unused f.b; let dx ← Reg.dec f.d; let ax ← Operand.dec f.a; pure (.clz64 dx ax)
  | 0x15 => do unused f.q; unused f.mod; unused f.c; unused f.b; let dx ← Reg.dec f.d; let ax ← Operand.dec f.a; pure (.ctz64 dx ax)
  | 0x16 => do unused f.q; unused f.mod; unused f.c; unused f.b; let dx ← Reg.dec f.d; let ax ← Operand.dec f.a; pure (.popc64 dx ax)
  | 0x17 => do unused f.q; unused f.mod; unused f.c; unused f.b; let dx ← Reg.dec f.d; let ax ← Operand.dec f.a; pure (.brev64 dx ax)
  | 0x18 => do unused f.q; unused f.mod; let dx ← Reg.dec f.d; let ax ← Operand.dec f.a; let bx ← Operand.dec f.b; let cx ← Operand.dec f.c; pure (.bfx64 dx ax bx cx)
  | 0x19 => do unused f.q; unused f.mod; let dx ← Reg.dec f.d; let ax ← Operand.dec f.a; let bx ← Operand.dec f.b; let cx ← Operand.dec f.c; pure (.bfi64 dx ax bx cx)
  | 0x1A => do unused f.q; unused f.mod; let dx ← Reg.dec f.d; let ax ← Operand.dec f.a; let bx ← Operand.dec f.b; let cx ← Operand.dec f.c; pure (.sel64 dx ax bx cx)
  | 0x1B => do unused f.c; let condx ← Cond.dec f.q; let tyx ← IntTy.dec f.mod; let dx ← Reg.dec f.d; let ax ← Operand.dec f.a; let bx ← Operand.dec f.b; pure (.cmp64 condx tyx dx ax bx)
  | 0x1C => do unused f.c; let condx ← Cond.dec f.q; let tyx ← IntTy.dec f.mod; let dx ← Reg.dec f.d; let ax ← Operand.dec f.a; let bx ← Operand.dec f.b; pure (.cmpm64 condx tyx dx ax bx)
  | 0x1D => do unused f.q; unused f.mod; unused f.c; let dx ← Reg.dec f.d; let ax ← Operand.dec f.a; let bx ← Operand.dec f.b; pure (.mskb64 dx ax bx)
  | 0x1E => do unused f.q; unused f.mod; let dx ← Reg.dec f.d; let ax ← Operand.dec f.a; let bx ← Operand.dec f.b; let cx ← Operand.dec f.c; pure (.addc64 dx ax bx cx)
  | 0x1F => do unused f.q; unused f.mod; let dx ← Reg.dec f.d; let ax ← Operand.dec f.a; let bx ← Operand.dec f.b; let cx ← Operand.dec f.c; pure (.subc64 dx ax bx cx)
  | 0x20 => do unused f.q; unused f.mod; unused f.c; let dx ← Reg.dec f.d; let ax ← Operand.dec f.a; let bx ← Operand.dec f.b; pure (.sext64 dx ax bx)
  | 0x21 => do unused f.q; unused f.mod; unused f.c; unused f.b; let dx ← Reg.dec f.d; let ax ← Operand.dec f.a; pure (.mov64 dx ax)
  | _ => .error .opcode

/-- Family 0x02 in the 64-bit form (R102). -/
noncomputable def decode64Fam02 (fn : Nat) (f : Fields) : Dec Instr :=
  match fn with
  | 0x01 => do unused f.mod; unused f.b; unused f.a; unused f.d; pure (.br64 f.disp)
  | 0x02 => do unused f.mod; unused f.b; unused f.d; let ax ← Reg.dec f.a; pure (.brz64 ax f.disp)
  | 0x03 => do unused f.mod; unused f.b; unused f.d; let ax ← Reg.dec f.a; pure (.brnz64 ax f.disp)
  | 0x04 => do unused f.b; unused f.d; let testx ← MaskTest.dec f.mod; let ax ← SIdx.dec f.a; pure (.brm64 testx ax f.disp)
  | 0x05 => do unused f.mod; unused f.b; unused f.a; let linkx ← Pair.dec f.d; pure (.call64 linkx f.disp)
  | 0x06 => do unused f.q; unused f.mod; unused f.c; unused f.b; let linkx ← Pair.dec f.d; let ax ← Pair.dec f.a; pure (.calli linkx ax)
  | 0x07 => do unused f.q; unused f.mod; unused f.c; unused f.b; unused f.d; let ax ← Pair.dec f.a; pure (.ret64 ax)
  | 0x08 => do unused f.q; unused f.mod; unused f.c; unused f.b; unused f.d; let ax ← Pair.dec f.a; pure (.jmpi ax)
  | 0x09 => do unused f.q; unused f.c; unused f.b; let slotx ← Slot.dec f.mod; let dx ← Reg.dec f.d; let ax ← SPair.dec f.a; pure (.iterInit slotx dx ax)
  | 0x0A => do unused f.b; unused f.a; unused f.d; let slotx ← Slot.dec f.mod; pure (.iterNext64 slotx f.disp)
  | 0x0B => do unused f.q; unused f.c; unused f.b; unused f.a; unused f.d; let slotx ← Slot.dec f.mod; pure (.iterStep slotx)
  | 0x0C => do unused f.q; unused f.mod; unused f.c; unused f.b; unused f.a; unused f.d; pure (.nop64)
  | _ => .error .opcode

/-- Family 0x03 in the 64-bit form (R102). -/
noncomputable def decode64Fam03 (fn : Nat) (f : Fields) : Dec Instr :=
  match fn with
  | 0x01 => do unused f.q; unused f.c; fixed f.mod 0x02; let dx ← Reg.dec f.d; let ax ← Operand.dec f.a; let bx ← Operand.dec f.b; pure (.fadd64 dx ax bx)
  | 0x02 => do unused f.q; unused f.c; fixed f.mod 0x02; let dx ← Reg.dec f.d; let ax ← Operand.dec f.a; let bx ← Operand.dec f.b; pure (.fsub64 dx ax bx)
  | 0x03 => do unused f.q; unused f.c; fixed f.mod 0x02; let dx ← Reg.dec f.d; let ax ← Operand.dec f.a; let bx ← Operand.dec f.b; pure (.fmul64 dx ax bx)
  | 0x04 => do unused f.q; fixed f.mod 0x02; let dx ← Reg.dec f.d; let ax ← Operand.dec f.a; let bx ← Operand.dec f.b; let cx ← Operand.dec f.c; pure (.ffma64 dx ax bx cx)
  | 0x05 => do unused f.q; unused f.c; fixed f.mod 0x02; let dx ← Reg.dec f.d; let ax ← Operand.dec f.a; let bx ← Operand.dec f.b; pure (.fmin64 dx ax bx)
  | 0x06 => do unused f.q; unused f.c; fixed f.mod 0x02; let dx ← Reg.dec f.d; let ax ← Operand.dec f.a; let bx ← Operand.dec f.b; pure (.fmax64 dx ax bx)
  | 0x07 => do unused f.c; fixed f.mod 0x02; let condx ← FCond.dec f.q; let dx ← Reg.dec f.d; let ax ← Operand.dec f.a; let bx ← Operand.dec f.b; pure (.fcmp64 condx dx ax bx)
  | 0x08 => do unused f.c; fixed f.mod 0x02; let condx ← FCond.dec f.q; let dx ← Reg.dec f.d; let ax ← Operand.dec f.a; let bx ← Operand.dec f.b; pure (.fcmpm64 condx dx ax bx)
  | 0x09 => do unused f.q; unused f.c; unused f.b; fixed f.mod 0x02; let dx ← Reg.dec f.d; let ax ← Operand.dec f.a; pure (.fclass dx ax)
  | 0x0A => do unused f.q; unused f.c; unused f.b; fixed f.mod 0x02; let dx ← Reg.dec f.d; let ax ← Operand.dec f.a; pure (.frcp dx ax)
  | 0x0B => do unused f.q; unused f.c; unused f.b; fixed f.mod 0x02; let dx ← Reg.dec f.d; let ax ← Operand.dec f.a; pure (.frsq dx ax)
  | 0x0C => do unused f.q; unused f.c; unused f.b; fixed f.mod 0x02; let dx ← Reg.dec f.d; let ax ← Operand.dec f.a; pure (.fsqrt dx ax)
  | 0x0D => do unused f.q; unused f.c; fixed f.mod 0x02; let dx ← Reg.dec f.d; let ax ← Operand.dec f.a; let bx ← Operand.dec f.b; pure (.fdiv64 dx ax bx)
  | 0x0E => do unused f.q; unused f.c; unused f.b; fixed f.mod 0x02; let dx ← Reg.dec f.d; let ax ← Operand.dec f.a; pure (.fexp2 dx ax)
  | 0x0F => do unused f.q; unused f.c; unused f.b; fixed f.mod 0x02; let dx ← Reg.dec f.d; let ax ← Operand.dec f.a; pure (.flog2 dx ax)
  | 0x10 => do unused f.c; unused f.b; fixed f.mod 0x02; let rmx ← RoundSel.dec f.q; let dx ← Reg.dec f.d; let ax ← Operand.dec f.a; pure (.frnd rmx dx ax)
  | 0x11 => do unused f.c; unused f.b; let rmx ← RoundSel.dec f.q; let tyx ← F2iTy.dec f.mod; let dx ← Reg.dec f.d; let ax ← Operand.dec f.a; pure (.f2i rmx tyx dx ax)
  | 0x12 => do unused f.q; unused f.c; unused f.b; let tyx ← I2fTy.dec f.mod; let dx ← Reg.dec f.d; let ax ← Operand.dec f.a; pure (.i2f tyx dx ax)
  | 0x13 => do unused f.q; unused f.c; unused f.b; let mx ← CvtMode.dec f.mod; let dx ← Reg.dec f.d; let ax ← Operand.dec f.a; pure (.fcvt mx dx ax)
  | 0x14 => do unused f.q; fixed f.mod 0x17; let dx ← Reg.dec f.d; let ax ← Operand.dec f.a; let bx ← Operand.dec f.b; let cx ← Operand.dec f.c; pure (.f4xp64 dx ax bx cx)
  | 0x15 => do unused f.q; fixed f.mod 0x3A; let dx ← Reg.dec f.d; let ax ← Operand.dec f.a; let bx ← Operand.dec f.b; let cx ← Operand.dec f.c; pure (.f4xu64 dx ax bx cx)
  | 0x16 => do unused f.q; unused f.c; unused f.b; fixed f.mod 0x17; let dx ← Reg.dec f.d; let ax ← Operand.dec f.a; pure (.scle dx ax)
  | 0x17 => do unused f.q; unused f.c; let tyx ← HalfTy.dec f.mod; let dx ← Reg.dec f.d; let ax ← Operand.dec f.a; let bx ← Operand.dec f.b; pure (.hadd264 tyx dx ax bx)
  | 0x18 => do unused f.q; unused f.c; let tyx ← HalfTy.dec f.mod; let dx ← Reg.dec f.d; let ax ← Operand.dec f.a; let bx ← Operand.dec f.b; pure (.hmul264 tyx dx ax bx)
  | 0x19 => do unused f.q; let tyx ← HalfTy.dec f.mod; let dx ← Reg.dec f.d; let ax ← Operand.dec f.a; let bx ← Operand.dec f.b; let cx ← Operand.dec f.c; pure (.hfma264 tyx dx ax bx cx)
  | 0x1A => do unused f.q; unused f.c; unused f.b; let tyx ← KeyTy.dec f.mod; let dx ← Reg.dec f.d; let ax ← Operand.dec f.a; pure (.fkey tyx dx ax)
  | _ => .error .opcode

/-- Family 0x04 in the 64-bit form (R102). -/
noncomputable def decode64Fam04 (fn : Nat) (f : Fields) : Dec Instr :=
  match fn with
  | 0x01 => do unused f.q; unused f.mod; unused f.c; let dx ← Reg.dec f.d; let ax ← UniformOp.dec f.a; let bx ← UniformOp.dec f.b; pure (.proma64 dx ax bx)
  | 0x02 => do unused f.q; unused f.mod; unused f.c; unused f.b; let dx ← Reg.dec f.d; let ax ← SaOp.dec f.a; pure (.promv dx ax)
  | 0x03 => do unused f.q; unused f.mod; unused f.c; unused f.b; let dx ← Reg.dec f.d; let ax ← VIdx.dec f.a; pure (.demf dx ax)
  | 0x04 => do unused f.q; unused f.mod; unused f.c; unused f.b; let dx ← Reg.dec f.d; let ax ← VIdx.dec f.a; pure (.demc dx ax)
  | 0x05 => do unused f.q; unused f.c; unused f.b; unused f.a; let xx ← XReg.dec f.mod; let dx ← Reg.dec f.d; pure (.movxr xx dx)
  | 0x06 => do unused f.q; unused f.c; unused f.b; unused f.d; let xx ← XReg.dec f.mod; let ax ← SvReg.dec f.a; pure (.movxw xx ax)
  | 0x07 => do unused f.mod; unused f.b; unused f.a; unused f.d; pure (.meet64 f.disp)
  | _ => .error .opcode

/-- Family 0x08 in the 64-bit form (R102). -/
noncomputable def decode64Fam08 (fn : Nat) (f : Fields) : Dec Instr :=
  match fn with
  | 0x01 => do let mx ← LoadMode.dec f.mod; let dx ← Reg.dec f.d; let ax ← Pair.dec f.a; let bx ← Operand.dec f.b; pure (.ld64 mx dx ax bx f.disp)
  | 0x02 => do let mx ← MemMode.dec f.mod; let dx ← Reg.dec f.d; let ax ← Pair.dec f.a; let bx ← Operand.dec f.b; pure (.st64 mx dx ax bx f.disp)
  | 0x03 => do unused f.a; let mx ← MemMode.dec f.mod; let dx ← Reg.dec f.d; let bx ← Operand.dec f.b; pure (.ldl64 mx dx bx f.disp)
  | 0x04 => do unused f.a; let mx ← MemMode.dec f.mod; let dx ← Reg.dec f.d; let bx ← Operand.dec f.b; pure (.stl64 mx dx bx f.disp)
  | 0x05 => do unused f.d; let scopex ← ScopeMod.dec f.mod; let ax ← Pair.dec f.a; let bx ← Operand.dec f.b; pure (.pfch64 scopex ax bx f.disp)
  | _ => .error .opcode

/-- Family 0x09 in the 64-bit form (R102). -/
noncomputable def decode64Fam09 (fn : Nat) (f : Fields) : Dec Instr :=
  match fn with
  | 0x01 => do unused f.q; let mx ← MemMode.dec f.mod; let dx ← Reg.dec f.d; let ax ← Pair.dec f.a; let bx ← Operand.dec f.b; let cx ← Operand.dec f.c; pure (.aadd64 mx dx ax bx cx)
  | 0x02 => do unused f.q; let mx ← OrderMode.dec f.mod; let dx ← Reg.dec f.d; let ax ← Pair.dec f.a; let bx ← Operand.dec f.b; let cx ← Operand.dec f.c; pure (.afadd64 mx dx ax bx cx)
  | 0x03 => do unused f.q; let mx ← MemMode.dec f.mod; let dx ← Reg.dec f.d; let ax ← Pair.dec f.a; let bx ← Operand.dec f.b; let cx ← Operand.dec f.c; pure (.amin64 mx dx ax bx cx)
  | 0x04 => do unused f.q; let mx ← MemMode.dec f.mod; let dx ← Reg.dec f.d; let ax ← Pair.dec f.a; let bx ← Operand.dec f.b; let cx ← Operand.dec f.c; pure (.amax64 mx dx ax bx cx)
  | 0x05 => do unused f.q; let mx ← MemMode.dec f.mod; let dx ← Reg.dec f.d; let ax ← Pair.dec f.a; let bx ← Operand.dec f.b; let cx ← Operand.dec f.c; pure (.aand64 mx dx ax bx cx)
  | 0x06 => do unused f.q; let mx ← MemMode.dec f.mod; let dx ← Reg.dec f.d; let ax ← Pair.dec f.a; let bx ← Operand.dec f.b; let cx ← Operand.dec f.c; pure (.aor64 mx dx ax bx cx)
  | 0x07 => do unused f.q; let mx ← MemMode.dec f.mod; let dx ← Reg.dec f.d; let ax ← Pair.dec f.a; let bx ← Operand.dec f.b; let cx ← Operand.dec f.c; pure (.axor64 mx dx ax bx cx)
  | 0x08 => do unused f.q; let mx ← MemMode.dec f.mod; let dx ← Reg.dec f.d; let ax ← Pair.dec f.a; let bx ← Operand.dec f.b; let cx ← Operand.dec f.c; pure (.axch64 mx dx ax bx cx)
  | 0x09 => do let mx ← MemMode.dec f.mod; let dx ← Reg.dec f.d; let ax ← Pair.dec f.a; let bx ← Operand.dec f.b; let cx ← Operand.dec f.c; let qx ← Operand.dec f.q; pure (.acas64 mx dx ax bx cx qx)
  | _ => .error .opcode

/-- Family 0x0A in the 64-bit form (R102). -/
noncomputable def decode64Fam0A (fn : Nat) (f : Fields) : Dec Instr :=
  match fn with
  | 0x01 => do unused f.q; unused f.mod; unused f.c; let dx ← Reg.dec f.d; let ax ← SPair.dec f.a; let stx ← StreamIdx.dec f.b; pure (.strmOpen dx ax stx)
  | 0x02 => do unused f.q; unused f.mod; unused f.c; unused f.b; unused f.d; let stx ← StreamIdx.dec f.a; pure (.strmClose stx)
  | _ => .error .opcode

/-- Family 0x0B in the 64-bit form (R102). -/
noncomputable def decode64Fam0B (fn : Nat) (f : Fields) : Dec Instr :=
  match fn with
  | 0x01 => do unused f.q; unused f.c; unused f.b; unused f.a; unused f.d; let scopex ← ScopeMod.dec f.mod; pure (.fence scopex)
  | 0x02 => do unused f.q; unused f.c; unused f.d; let invx ← Bit0.dec f.mod; let ax ← Pair.dec f.a; let bx ← Operand.dec f.b; pure (.cfl invx ax bx)
  | _ => .error .opcode

/-- Family 0x0C in the 64-bit form (R102). -/
noncomputable def decode64Fam0C (fn : Nat) (f : Fields) : Dec Instr :=
  match fn with
  | 0x01 => do unused f.mod; unused f.c; unused f.b; let dx ← Reg.dec f.d; let ax ← SPair.dec f.a; let tagx ← TagNum.dec f.q; pure (.copy dx ax tagx)
  | 0x02 => do unused f.mod; unused f.c; unused f.b; let dx ← Reg.dec f.d; let ax ← SPair.dec f.a; let tagx ← TagNum.dec f.q; pure (.gath dx ax tagx)
  | 0x03 => do unused f.mod; unused f.c; unused f.b; let dx ← Reg.dec f.d; let ax ← SPair.dec f.a; let tagx ← TagNum.dec f.q; pure (.scat dx ax tagx)
  | 0x04 => do unused f.q; unused f.mod; unused f.c; unused f.b; let dx ← Reg.dec f.d; let ax ← SPair.dec f.a; pure (.waitany dx ax)
  | 0x05 => do unused f.q; unused f.mod; unused f.c; unused f.b; let dx ← Reg.dec f.d; let ax ← SPair.dec f.a; pure (.waitall dx ax)
  | 0x06 => do unused f.q; unused f.mod; unused f.c; unused f.b; let dx ← Reg.dec f.d; let ax ← SPair.dec f.a; pure (.ffr dx ax)
  | 0x07 => do unused f.q; unused f.mod; unused f.c; unused f.b; unused f.d; let ax ← SPair.dec f.a; pure (.tagclr ax)
  | 0x08 => do unused f.c; let scopex ← MwaitMod.dec f.mod; let limitx ← Limit.dec f.q; let dx ← Pair.dec f.d; let ax ← SPair.dec f.a; let bx ← SPair.dec f.b; pure (.mwait scopex limitx dx ax bx)
  | 0x09 => do unused f.mod; unused f.c; unused f.b; unused f.a; let dx ← Reg.dec f.d; let tagx ← TagNum.dec f.q; pure (.jobst dx tagx)
  | _ => .error .opcode

/-- Family 0x10 in the 64-bit form (R102). -/
noncomputable def decode64Fam10 (fn : Nat) (f : Fields) : Dec Instr :=
  match fn with
  | 0x01 => if f.mod = 1 then do unused f.q; unused f.c; unused f.d; fixed f.mod 0x01; let bx ← Pair.dec f.b; let ax ← Operand.dec f.a; pure (.gcallI bx ax)
    else do unused f.mod; unused f.b; unused f.d; let ax ← Operand.dec f.a; pure (.gcall64 ax f.disp)
  | 0x02 => do unused f.q; unused f.mod; unused f.c; unused f.b; unused f.a; unused f.d; pure (.gret)
  | 0x03 => do unused f.q; unused f.mod; unused f.c; unused f.a; let dx ← Reg.dec f.d; let bx ← UniformOp.dec f.b; pure (.grow64 dx bx)
  | 0x04 => do unused f.q; unused f.mod; unused f.c; unused f.a; unused f.d; let bx ← UniformOp.dec f.b; pure (.shrink64 bx)
  | _ => .error .opcode

/-- Family 0x11 in the 64-bit form (R102). -/
noncomputable def decode64Fam11 (fn : Nat) (f : Fields) : Dec Instr :=
  match fn with
  | 0x01 => do unused f.mod; unused f.c; unused f.a; let dx ← Reg.dec f.d; let nx ← Num16.dec f.q; let bx ← SIdx.dec f.b; pure (.obres64 dx nx bx)
  | 0x02 => do unused f.mod; unused f.c; unused f.b; unused f.a; unused f.d; let nx ← Num16.dec f.q; pure (.obrel nx)
  | 0x03 => if f.mod = 1 then do unused f.c; unused f.b; fixed f.mod 0x01; let dx ← Reg.dec f.d; let nx ← Num16.dec f.q; let ax ← VPair.dec f.a; pure (.obldV dx nx ax)
    else do unused f.mod; unused f.c; unused f.b; let dx ← Reg.dec f.d; let nx ← Num16.dec f.q; let ax ← SPair.dec f.a; pure (.obldS dx nx ax)
  | 0x04 => do unused f.mod; unused f.c; let cvx ← CvField.dec f.q; let tx ← RawByte.dec f.d; let abx ← ObsPair.dec f.a; let bx ← UniformOp.dec f.b; pure (.mma64 cvx tx abx bx)
  | 0x05 => do unused f.mod; unused f.c; let cvx ← CvField.dec f.q; let tx ← RawByte.dec f.d; let abx ← ObsPair.dec f.a; let bx ← UniformOp.dec f.b; pure (.mmas64 cvx tx abx bx)
  | 0x06 => do unused f.q; unused f.mod; unused f.c; unused f.b; unused f.a; let tx ← RawByte.dec f.d; pure (.accz tx)
  | 0x07 => do unused f.q; unused f.mod; unused f.c; let tx ← RawByte.dec f.d; let ax ← SPair.dec f.a; let bx ← UniformOp.dec f.b; pure (.accld64 tx ax bx)
  | 0x08 => do unused f.q; unused f.mod; unused f.c; let tx ← RawByte.dec f.d; let ax ← SPair.dec f.a; let bx ← UniformOp.dec f.b; pure (.accst64 tx ax bx)
  | 0x09 => do unused f.q; unused f.mod; unused f.a; let dx ← Reg.dec f.d; let tx ← RawByte.dec f.c; let bx ← UniformOp.dec f.b; pure (.accrd64 dx tx bx)
  | 0x0A => do unused f.mod; unused f.c; unused f.a; let dx ← Reg.dec f.d; let nx ← Num8.dec f.q; let bx ← SIdx.dec f.b; pure (.sign64 dx nx bx)
  | _ => .error .opcode

/-- Family 0x12 in the 64-bit form (R102). -/
noncomputable def decode64Fam12 (fn : Nat) (f : Fields) : Dec Instr :=
  match fn with
  | 0x01 => do let mx ← VdotMode.dec f.mod; let slotx ← Num8.dec f.q; let dx ← Reg.dec f.d; let ax ← Pair.dec f.a; let bx ← SPair.dec f.b; let cx ← SPair.dec f.c; pure (.vdot mx slotx dx ax bx cx)
  | 0x02 => do unused f.q; unused f.mod; unused f.c; unused f.b; let dx ← Reg.dec f.d; let ax ← SvReg.dec f.a; pure (.vtest dx ax)
  | 0x03 => do unused f.q; unused f.mod; unused f.c; unused f.b; let dx ← Reg.dec f.d; let ax ← SvReg.dec f.a; pure (.vkey dx ax)
  | 0x04 => do unused f.q; unused f.c; unused f.b; let tyx ← VerdictTy.dec f.mod; let dx ← Reg.dec f.d; let ax ← Pair.dec f.a; pure (.vhdr tyx dx ax)
  | 0x05 => do unused f.mod; unused f.c; unused f.b; unused f.d; let nx ← Num8.dec f.q; let ax ← SPair.dec f.a; pure (.thsBind nx ax)
  | 0x06 => do unused f.mod; unused f.c; unused f.a; let dx ← Pair.dec f.d; let nx ← Num8.dec f.q; let bx ← SvOp.dec f.b; pure (.thsRaise64 dx nx bx)
  | 0x07 => do unused f.mod; unused f.c; unused f.b; unused f.a; let dx ← Pair.dec f.d; let nx ← Num8.dec f.q; pure (.thsRead dx nx)
  | _ => .error .opcode

/-- Family 0x14 in the 64-bit form (R102). -/
noncomputable def decode64Fam14 (fn : Nat) (f : Fields) : Dec Instr :=
  match fn with
  | 0x01 => do unused f.q; unused f.c; unused f.b; let scopex ← ScopeMod.dec f.mod; let dx ← Reg.dec f.d; let ax ← SPair.dec f.a; pure (.bar64 scopex dx ax)
  | 0x02 => do unused f.c; unused f.b; let mx ← ReduceMode.dec f.mod; let maskx ← QMask.dec f.q; let dx ← Reg.dec f.d; let ax ← Reg.dec f.a; pure (.reduce mx maskx dx ax)
  | 0x03 => do unused f.c; unused f.b; let mx ← ScanMode.dec f.mod; let maskx ← QMask.dec f.q; let dx ← Reg.dec f.d; let ax ← Reg.dec f.a; pure (.scan mx maskx dx ax)
  | 0x04 => do unused f.q; unused f.c; let varx ← ShflVar.dec f.mod; let dx ← Reg.dec f.d; let ax ← Reg.dec f.a; let bx ← Operand.dec f.b; pure (.shfl varx dx ax bx)
  | 0x05 => do unused f.c; unused f.b; let descx ← Bit0.dec f.mod; let maskx ← QMask.dec f.q; let dx ← Pair.dec f.d; let ax ← VPair.dec f.a; pure (.bsort descx maskx dx ax)
  | 0x06 => do unused f.c; let descx ← Bit0.dec f.mod; let maskx ← QMask.dec f.q; let dx ← Pair.dec f.d; let ax ← VPair.dec f.a; let bx ← VPair.dec f.b; pure (.bmerge descx maskx dx ax bx)
  | 0x07 => do unused f.mod; unused f.c; unused f.b; let dx ← Reg.dec f.d; let ax ← SPair.dec f.a; let tagx ← TagNum.dec f.q; pure (.coll dx ax tagx)
  | _ => .error .opcode

/-- Family 0x38 in the 64-bit form (R102). -/
noncomputable def decode64Fam38 (fn : Nat) (f : Fields) : Dec Instr :=
  match fn with
  | 0x01 => do unused f.mod; unused f.c; unused f.b; unused f.a; unused f.d; let nx ← RawByte.dec f.q; pure (.trap64 nx)
  | 0x02 => do unused f.q; unused f.mod; unused f.c; unused f.b; unused f.a; unused f.d; pure (.eret)
  | 0x03 => do unused f.q; unused f.mod; unused f.c; let dx ← Reg.dec f.d; let ax ← UniformOp.dec f.a; let bx ← UniformOp.dec f.b; pure (.uimask dx ax bx)
  | 0x04 => do unused f.q; unused f.mod; unused f.c; unused f.b; unused f.a; unused f.d; pure (.pulse)
  | 0x05 => do unused f.mod; unused f.c; let dx ← Quad.dec f.d; let ax ← SPair.dec f.a; let bx ← UniformOp.dec f.b; let nx ← RawByte.dec f.q; pure (.svc64 dx ax bx nx)
  | 0x06 => do unused f.q; unused f.mod; unused f.c; unused f.b; unused f.a; unused f.d; pure (.ckpt64)
  | 0x07 => do unused f.mod; unused f.c; unused f.b; unused f.a; unused f.d; let nx ← RawByte.dec f.q; pure (.bkpt nx)
  | _ => .error .opcode

/-- Family 0x3A in the 64-bit form (R102). -/
noncomputable def decode64Fam3A (fn : Nat) (f : Fields) : Dec Instr :=
  match fn with
  | 0x01 => do unused f.q; unused f.mod; unused f.c; unused f.b; let dx ← Pair.dec f.d; let ax ← SPair.dec f.a; pure (.launch dx ax)
  | 0x02 => do unused f.q; unused f.mod; let dx ← Pair.dec f.d; let ax ← SIdx.dec f.a; let bx ← SPair.dec f.b; let cx ← SPair.dec f.c; pure (.spawn dx ax bx cx)
  | 0x03 => do unused f.q; unused f.mod; unused f.c; let dx ← Reg.dec f.d; let ax ← SIdx.dec f.a; let bx ← SIdx.dec f.b; pure (.waitfree dx ax bx)
  | 0x04 => do unused f.q; unused f.mod; unused f.c; unused f.b; let dx ← Reg.dec f.d; let ax ← SPair.dec f.a; pure (.join dx ax)
  | 0x05 => do unused f.q; unused f.mod; unused f.c; unused f.b; let dx ← Reg.dec f.d; let ax ← SPair.dec f.a; pure (.leave dx ax)
  | 0x06 => do unused f.q; unused f.mod; unused f.c; unused f.b; unused f.a; unused f.d; pure (.exit64)
  | 0x07 => if f.mod = 1 then do unused f.q; unused f.c; unused f.b; unused f.a; fixed f.mod 0x01; let dx ← Reg.dec f.d; pure (.migrateHm dx)
    else do unused f.q; unused f.mod; unused f.c; unused f.b; unused f.a; let dx ← Reg.dec f.d; pure (.migrateRk dx)
  | 0x08 => do unused f.q; unused f.mod; unused f.c; unused f.b; unused f.a; unused f.d; pure (.yield)
  | _ => .error .opcode

/-- The family space in the 64-bit form (R102). -/
noncomputable def decode64 (fam : BitVec 6) (fn : BitVec 8) (f : Fields) : Dec Instr :=
  match fam.toNat with
  | 0x01 => decode64Fam01 fn.toNat f
  | 0x02 => decode64Fam02 fn.toNat f
  | 0x03 => decode64Fam03 fn.toNat f
  | 0x04 => decode64Fam04 fn.toNat f
  | 0x08 => decode64Fam08 fn.toNat f
  | 0x09 => decode64Fam09 fn.toNat f
  | 0x0A => decode64Fam0A fn.toNat f
  | 0x0B => decode64Fam0B fn.toNat f
  | 0x0C => decode64Fam0C fn.toNat f
  | 0x10 => decode64Fam10 fn.toNat f
  | 0x11 => decode64Fam11 fn.toNat f
  | 0x12 => decode64Fam12 fn.toNat f
  | 0x14 => decode64Fam14 fn.toNat f
  | 0x38 => decode64Fam38 fn.toNat f
  | 0x3A => decode64Fam3A fn.toNat f
  | _ => .error .opcode

/-- Family 0x01 in the 96-bit form (R102). -/
noncomputable def decode96Fam01 (fn : Nat) (f : Fields) (lit : Word) : Dec Instr :=
  match fn with
  | 0x01 => do unused f.q; unused f.c; literalB f.b; let mx ← IntMode.dec f.mod; let dx ← Reg.dec f.d; let ax ← Operand.dec f.a; pure (.add96 mx dx ax lit)
  | 0x02 => do unused f.q; unused f.c; literalB f.b; let mx ← IntMode.dec f.mod; let dx ← Reg.dec f.d; let ax ← Operand.dec f.a; pure (.sub96 mx dx ax lit)
  | 0x03 => do unused f.q; unused f.mod; unused f.c; literalB f.b; let dx ← Reg.dec f.d; let ax ← Operand.dec f.a; pure (.mul96 dx ax lit)
  | 0x04 => do unused f.q; unused f.mod; unused f.c; literalB f.b; let dx ← Reg.dec f.d; let ax ← Operand.dec f.a; pure (.mulhi96 dx ax lit)
  | 0x05 => do unused f.q; unused f.mod; unused f.c; literalB f.b; let dx ← Reg.dec f.d; let ax ← Operand.dec f.a; pure (.mulhu96 dx ax lit)
  | 0x06 => do unused f.q; unused f.mod; literalB f.b; let dx ← Reg.dec f.d; let ax ← Operand.dec f.a; let cx ← Operand.dec f.c; pure (.mad96 dx ax cx lit)
  | 0x08 => do unused f.q; unused f.mod; unused f.c; literalB f.b; let dx ← Reg.dec f.d; let ax ← Operand.dec f.a; pure (.min96 dx ax lit)
  | 0x09 => do unused f.q; unused f.mod; unused f.c; literalB f.b; let dx ← Reg.dec f.d; let ax ← Operand.dec f.a; pure (.max96 dx ax lit)
  | 0x0A => do unused f.q; unused f.mod; unused f.c; literalB f.b; let dx ← Reg.dec f.d; let ax ← Operand.dec f.a; pure (.minu96 dx ax lit)
  | 0x0B => do unused f.q; unused f.mod; unused f.c; literalB f.b; let dx ← Reg.dec f.d; let ax ← Operand.dec f.a; pure (.maxu96 dx ax lit)
  | 0x0C => do unused f.q; unused f.mod; unused f.c; literalB f.b; let dx ← Reg.dec f.d; let ax ← Operand.dec f.a; pure (.and96 dx ax lit)
  | 0x0D => do unused f.q; unused f.mod; unused f.c; literalB f.b; let dx ← Reg.dec f.d; let ax ← Operand.dec f.a; pure (.or96 dx ax lit)
  | 0x0E => do unused f.q; unused f.mod; unused f.c; literalB f.b; let dx ← Reg.dec f.d; let ax ← Operand.dec f.a; pure (.xor96 dx ax lit)
  | 0x0F => do unused f.q; unused f.mod; unused f.c; literalB f.b; let dx ← Reg.dec f.d; let ax ← Operand.dec f.a; pure (.andn96 dx ax lit)
  | 0x10 => do unused f.q; unused f.mod; unused f.c; literalB f.b; let dx ← Reg.dec f.d; let ax ← Operand.dec f.a; pure (.shl96 dx ax lit)
  | 0x11 => do unused f.q; unused f.mod; unused f.c; literalB f.b; let dx ← Reg.dec f.d; let ax ← Operand.dec f.a; pure (.shr96 dx ax lit)
  | 0x12 => do unused f.q; unused f.mod; unused f.c; literalB f.b; let dx ← Reg.dec f.d; let ax ← Operand.dec f.a; pure (.sar96 dx ax lit)
  | 0x13 => do unused f.q; unused f.mod; unused f.c; literalB f.b; let dx ← Reg.dec f.d; let ax ← Operand.dec f.a; pure (.rol96 dx ax lit)
  | 0x18 => do unused f.q; unused f.mod; literalB f.b; let dx ← Reg.dec f.d; let ax ← Operand.dec f.a; let cx ← Operand.dec f.c; pure (.bfx96 dx ax cx lit)
  | 0x19 => do unused f.q; unused f.mod; literalB f.b; let dx ← Reg.dec f.d; let ax ← Operand.dec f.a; let cx ← Operand.dec f.c; pure (.bfi96 dx ax cx lit)
  | 0x1A => do unused f.q; unused f.mod; literalB f.b; let dx ← Reg.dec f.d; let ax ← Operand.dec f.a; let cx ← Operand.dec f.c; pure (.sel96 dx ax cx lit)
  | 0x1B => do unused f.c; literalB f.b; let condx ← Cond.dec f.q; let tyx ← IntTy.dec f.mod; let dx ← Reg.dec f.d; let ax ← Operand.dec f.a; pure (.cmp96 condx tyx dx ax lit)
  | 0x1C => do unused f.c; literalB f.b; let condx ← Cond.dec f.q; let tyx ← IntTy.dec f.mod; let dx ← Reg.dec f.d; let ax ← Operand.dec f.a; pure (.cmpm96 condx tyx dx ax lit)
  | 0x1D => do unused f.q; unused f.mod; unused f.c; literalB f.b; let dx ← Reg.dec f.d; let ax ← Operand.dec f.a; pure (.mskb96 dx ax lit)
  | 0x1E => do unused f.q; unused f.mod; literalB f.b; let dx ← Reg.dec f.d; let ax ← Operand.dec f.a; let cx ← Operand.dec f.c; pure (.addc96 dx ax cx lit)
  | 0x1F => do unused f.q; unused f.mod; literalB f.b; let dx ← Reg.dec f.d; let ax ← Operand.dec f.a; let cx ← Operand.dec f.c; pure (.subc96 dx ax cx lit)
  | 0x20 => do unused f.q; unused f.mod; unused f.c; literalB f.b; let dx ← Reg.dec f.d; let ax ← Operand.dec f.a; pure (.sext96 dx ax lit)
  | _ => .error .opcode

/-- Family 0x02 in the 96-bit form (R102). -/
noncomputable def decode96Fam02 (fn : Nat) (f : Fields) (lit : Word) : Dec Instr :=
  match fn with
  | 0x01 => do unused f.q; unused f.mod; unused f.c; unused f.a; unused f.d; literalB f.b; pure (.br96 lit)
  | 0x02 => do unused f.q; unused f.mod; unused f.c; unused f.d; literalB f.b; let ax ← Reg.dec f.a; pure (.brz96 ax lit)
  | 0x03 => do unused f.q; unused f.mod; unused f.c; unused f.d; literalB f.b; let ax ← Reg.dec f.a; pure (.brnz96 ax lit)
  | 0x04 => do unused f.q; unused f.c; unused f.d; literalB f.b; let testx ← MaskTest.dec f.mod; let ax ← SIdx.dec f.a; pure (.brm96 testx ax lit)
  | 0x05 => do unused f.q; unused f.mod; unused f.c; unused f.a; literalB f.b; let linkx ← Pair.dec f.d; pure (.call96 linkx lit)
  | 0x0A => do unused f.q; unused f.c; unused f.a; unused f.d; literalB f.b; let slotx ← Slot.dec f.mod; pure (.iterNext96 slotx lit)
  | _ => .error .opcode

/-- Family 0x03 in the 96-bit form (R102). -/
noncomputable def decode96Fam03 (fn : Nat) (f : Fields) (lit : Word) : Dec Instr :=
  match fn with
  | 0x01 => do unused f.q; unused f.c; literalB f.b; fixed f.mod 0x02; let dx ← Reg.dec f.d; let ax ← Operand.dec f.a; pure (.fadd96 dx ax lit)
  | 0x02 => do unused f.q; unused f.c; literalB f.b; fixed f.mod 0x02; let dx ← Reg.dec f.d; let ax ← Operand.dec f.a; pure (.fsub96 dx ax lit)
  | 0x03 => do unused f.q; unused f.c; literalB f.b; fixed f.mod 0x02; let dx ← Reg.dec f.d; let ax ← Operand.dec f.a; pure (.fmul96 dx ax lit)
  | 0x04 => do unused f.q; literalB f.b; fixed f.mod 0x02; let dx ← Reg.dec f.d; let ax ← Operand.dec f.a; let cx ← Operand.dec f.c; pure (.ffma96 dx ax cx lit)
  | 0x05 => do unused f.q; unused f.c; literalB f.b; fixed f.mod 0x02; let dx ← Reg.dec f.d; let ax ← Operand.dec f.a; pure (.fmin96 dx ax lit)
  | 0x06 => do unused f.q; unused f.c; literalB f.b; fixed f.mod 0x02; let dx ← Reg.dec f.d; let ax ← Operand.dec f.a; pure (.fmax96 dx ax lit)
  | 0x07 => do unused f.c; literalB f.b; fixed f.mod 0x02; let condx ← FCond.dec f.q; let dx ← Reg.dec f.d; let ax ← Operand.dec f.a; pure (.fcmp96 condx dx ax lit)
  | 0x08 => do unused f.c; literalB f.b; fixed f.mod 0x02; let condx ← FCond.dec f.q; let dx ← Reg.dec f.d; let ax ← Operand.dec f.a; pure (.fcmpm96 condx dx ax lit)
  | 0x0D => do unused f.q; unused f.c; literalB f.b; fixed f.mod 0x02; let dx ← Reg.dec f.d; let ax ← Operand.dec f.a; pure (.fdiv96 dx ax lit)
  | 0x14 => do unused f.q; literalB f.b; fixed f.mod 0x17; let dx ← Reg.dec f.d; let ax ← Operand.dec f.a; let cx ← Operand.dec f.c; pure (.f4xp96 dx ax cx lit)
  | 0x15 => do unused f.q; literalB f.b; fixed f.mod 0x3A; let dx ← Reg.dec f.d; let ax ← Operand.dec f.a; let cx ← Operand.dec f.c; pure (.f4xu96 dx ax cx lit)
  | 0x17 => do unused f.q; unused f.c; literalB f.b; let tyx ← HalfTy.dec f.mod; let dx ← Reg.dec f.d; let ax ← Operand.dec f.a; pure (.hadd296 tyx dx ax lit)
  | 0x18 => do unused f.q; unused f.c; literalB f.b; let tyx ← HalfTy.dec f.mod; let dx ← Reg.dec f.d; let ax ← Operand.dec f.a; pure (.hmul296 tyx dx ax lit)
  | 0x19 => do unused f.q; literalB f.b; let tyx ← HalfTy.dec f.mod; let dx ← Reg.dec f.d; let ax ← Operand.dec f.a; let cx ← Operand.dec f.c; pure (.hfma296 tyx dx ax cx lit)
  | _ => .error .opcode

/-- Family 0x04 in the 96-bit form (R102). -/
noncomputable def decode96Fam04 (fn : Nat) (f : Fields) (lit : Word) : Dec Instr :=
  match fn with
  | 0x01 => do unused f.q; unused f.mod; unused f.c; literalB f.b; let dx ← Reg.dec f.d; let ax ← UniformOp.dec f.a; pure (.proma96 dx ax lit)
  | 0x07 => do unused f.q; unused f.mod; unused f.c; unused f.a; unused f.d; literalB f.b; pure (.meet96 lit)
  | _ => .error .opcode

/-- Family 0x08 in the 96-bit form (R102). -/
noncomputable def decode96Fam08 (fn : Nat) (f : Fields) (lit : Word) : Dec Instr :=
  match fn with
  | 0x01 => do unused f.q; unused f.c; let mx ← LoadMode.dec f.mod; let dx ← Reg.dec f.d; let ax ← Pair.dec f.a; let offx ← OffReg.dec f.b; pure (.ld96 mx dx ax offx lit)
  | 0x02 => do unused f.q; unused f.c; let mx ← MemMode.dec f.mod; let dx ← Reg.dec f.d; let ax ← Pair.dec f.a; let offx ← OffReg.dec f.b; pure (.st96 mx dx ax offx lit)
  | 0x03 => do unused f.q; unused f.c; unused f.a; let mx ← MemMode.dec f.mod; let dx ← Reg.dec f.d; let offx ← OffReg.dec f.b; pure (.ldl96 mx dx offx lit)
  | 0x04 => do unused f.q; unused f.c; unused f.a; let mx ← MemMode.dec f.mod; let dx ← Reg.dec f.d; let offx ← OffReg.dec f.b; pure (.stl96 mx dx offx lit)
  | 0x05 => do unused f.q; unused f.c; unused f.d; let scopex ← ScopeMod.dec f.mod; let ax ← Pair.dec f.a; let offx ← OffReg.dec f.b; pure (.pfch96 scopex ax offx lit)
  | _ => .error .opcode

/-- Family 0x09 in the 96-bit form (R102). -/
noncomputable def decode96Fam09 (fn : Nat) (f : Fields) (lit : Word) : Dec Instr :=
  match fn with
  | 0x01 => do unused f.q; let mx ← MemMode.dec f.mod; let dx ← Reg.dec f.d; let ax ← Pair.dec f.a; let offx ← OffReg.dec f.b; let cx ← Operand.dec f.c; pure (.aadd96 mx dx ax offx cx lit)
  | 0x02 => do unused f.q; let mx ← OrderMode.dec f.mod; let dx ← Reg.dec f.d; let ax ← Pair.dec f.a; let offx ← OffReg.dec f.b; let cx ← Operand.dec f.c; pure (.afadd96 mx dx ax offx cx lit)
  | 0x03 => do unused f.q; let mx ← MemMode.dec f.mod; let dx ← Reg.dec f.d; let ax ← Pair.dec f.a; let offx ← OffReg.dec f.b; let cx ← Operand.dec f.c; pure (.amin96 mx dx ax offx cx lit)
  | 0x04 => do unused f.q; let mx ← MemMode.dec f.mod; let dx ← Reg.dec f.d; let ax ← Pair.dec f.a; let offx ← OffReg.dec f.b; let cx ← Operand.dec f.c; pure (.amax96 mx dx ax offx cx lit)
  | 0x05 => do unused f.q; let mx ← MemMode.dec f.mod; let dx ← Reg.dec f.d; let ax ← Pair.dec f.a; let offx ← OffReg.dec f.b; let cx ← Operand.dec f.c; pure (.aand96 mx dx ax offx cx lit)
  | 0x06 => do unused f.q; let mx ← MemMode.dec f.mod; let dx ← Reg.dec f.d; let ax ← Pair.dec f.a; let offx ← OffReg.dec f.b; let cx ← Operand.dec f.c; pure (.aor96 mx dx ax offx cx lit)
  | 0x07 => do unused f.q; let mx ← MemMode.dec f.mod; let dx ← Reg.dec f.d; let ax ← Pair.dec f.a; let offx ← OffReg.dec f.b; let cx ← Operand.dec f.c; pure (.axor96 mx dx ax offx cx lit)
  | 0x08 => do unused f.q; let mx ← MemMode.dec f.mod; let dx ← Reg.dec f.d; let ax ← Pair.dec f.a; let offx ← OffReg.dec f.b; let cx ← Operand.dec f.c; pure (.axch96 mx dx ax offx cx lit)
  | 0x09 => do let mx ← MemMode.dec f.mod; let dx ← Reg.dec f.d; let ax ← Pair.dec f.a; let offx ← OffReg.dec f.b; let cx ← Operand.dec f.c; let qx ← Operand.dec f.q; pure (.acas96 mx dx ax offx cx qx lit)
  | _ => .error .opcode

/-- Family 0x10 in the 96-bit form (R102). -/
noncomputable def decode96Fam10 (fn : Nat) (f : Fields) (lit : Word) : Dec Instr :=
  match fn with
  | 0x01 => do unused f.q; unused f.mod; unused f.c; unused f.d; literalB f.b; let ax ← Operand.dec f.a; pure (.gcall96 ax lit)
  | 0x03 => do unused f.q; unused f.mod; unused f.c; unused f.a; literalB f.b; let dx ← Reg.dec f.d; pure (.grow96 dx lit)
  | 0x04 => do unused f.q; unused f.mod; unused f.c; unused f.a; unused f.d; literalB f.b; pure (.shrink96 lit)
  | _ => .error .opcode

/-- Family 0x11 in the 96-bit form (R102). -/
noncomputable def decode96Fam11 (fn : Nat) (f : Fields) (lit : Word) : Dec Instr :=
  match fn with
  | 0x01 => do unused f.mod; unused f.c; unused f.a; literalB f.b; let dx ← Reg.dec f.d; let nx ← Num16.dec f.q; pure (.obres96 dx nx lit)
  | 0x04 => do unused f.mod; unused f.c; literalB f.b; let cvx ← CvField.dec f.q; let tx ← RawByte.dec f.d; let abx ← ObsPair.dec f.a; pure (.mma96 cvx tx abx lit)
  | 0x05 => do unused f.mod; unused f.c; literalB f.b; let cvx ← CvField.dec f.q; let tx ← RawByte.dec f.d; let abx ← ObsPair.dec f.a; pure (.mmas96 cvx tx abx lit)
  | 0x07 => do unused f.q; unused f.mod; unused f.c; literalB f.b; let tx ← RawByte.dec f.d; let ax ← SPair.dec f.a; pure (.accld96 tx ax lit)
  | 0x08 => do unused f.q; unused f.mod; unused f.c; literalB f.b; let tx ← RawByte.dec f.d; let ax ← SPair.dec f.a; pure (.accst96 tx ax lit)
  | 0x09 => do unused f.q; unused f.mod; unused f.a; literalB f.b; let dx ← Reg.dec f.d; let tx ← RawByte.dec f.c; pure (.accrd96 dx tx lit)
  | 0x0A => do unused f.mod; unused f.c; unused f.a; literalB f.b; let dx ← Reg.dec f.d; let nx ← Num8.dec f.q; pure (.sign96 dx nx lit)
  | _ => .error .opcode

/-- Family 0x12 in the 96-bit form (R102). -/
noncomputable def decode96Fam12 (fn : Nat) (f : Fields) (lit : Word) : Dec Instr :=
  match fn with
  | 0x06 => do unused f.mod; unused f.c; unused f.a; literalB f.b; let dx ← Pair.dec f.d; let nx ← Num8.dec f.q; pure (.thsRaise96 dx nx lit)
  | _ => .error .opcode

/-- Family 0x38 in the 96-bit form (R102). -/
noncomputable def decode96Fam38 (fn : Nat) (f : Fields) (lit : Word) : Dec Instr :=
  match fn with
  | 0x05 => do unused f.mod; unused f.c; literalB f.b; let dx ← Quad.dec f.d; let ax ← SPair.dec f.a; let nx ← RawByte.dec f.q; pure (.svc96 dx ax nx lit)
  | _ => .error .opcode

/-- The family space in the 96-bit form (R102). -/
noncomputable def decode96 (fam : BitVec 6) (fn : BitVec 8) (f : Fields) (lit : Word) : Dec Instr :=
  match fam.toNat with
  | 0x01 => decode96Fam01 fn.toNat f lit
  | 0x02 => decode96Fam02 fn.toNat f lit
  | 0x03 => decode96Fam03 fn.toNat f lit
  | 0x04 => decode96Fam04 fn.toNat f lit
  | 0x08 => decode96Fam08 fn.toNat f lit
  | 0x09 => decode96Fam09 fn.toNat f lit
  | 0x10 => decode96Fam10 fn.toNat f lit
  | 0x11 => decode96Fam11 fn.toNat f lit
  | 0x12 => decode96Fam12 fn.toNat f lit
  | 0x38 => decode96Fam38 fn.toNat f lit
  | _ => .error .opcode

/-- The fields of an instruction (R91–R93, R100, R102 and each entry's encoding); an event has none. -/
def encodeRaw : Instr → Option Raw
  | .linkTraining _ _ _ _ => none
  | .packageReset _ _ _ _ _ => none
  | .getVersion _ => none
  | .getCapabilities _ => none
  | .negotiateAlgorithms _ _ _ => none
  | .getDigests _ => none
  | .getCertificate _ _ => none
  | .challenge _ => none
  | .getMeasurements _ => none
  | .powerTargetWrite _ => none
  | .powerMeasurement _ => none
  | .trip _ => none
  | .load _ _ => none
  | .unload _ => none
  | .codeHeapCompaction _ _ => none
  | .lqbaseWrite _ _ _ => none
  | .lqctlEnable _ _ _ => none
  | .lqctlDisable _ _ => none
  | .lqctlResize _ _ _ => none
  | .lqtailWrite _ _ _ => none
  | .lqstatClear _ _ _ => none
  | .ringEntryRead _ _ _ => none
  | .launchCheck _ => none
  | .launchDispatch _ => none
  | .launchDone _ => none
  | .hostMemoryRequest _ _ => none
  | .atsCompletion _ _ _ _ => none
  | .priResponse _ _ _ _ => none
  | .atsInvalidation _ _ _ => none
  | .hostAtomicCompletion _ _ _ => none
  | .memoryReply _ _ _ => none
  | .machineCheck _ _ _ => none
  | .scrubPass _ _ => none
  | .selfTestComplete _ _ _ => none
  | .linkFailure _ => none
  | .textFillComplete _ _ _ => none
  | .instructionFetch _ => none
  | .spawnMessage _ => none
  | .contextFree _ => none
  | .drainComplete _ _ _ => none
  | .rendezvousDeadline _ _ => none
  | .gangPlacement _ _ => none
  | .requestCollectorFlush _ => none
  | .jobDispatch _ => none
  | .jobComplete _ _ => none
  | .collectiveMatch _ _ => none
  | .matrixOperationComplete _ _ => none
  | .mwaitWake _ => none
  | .mwaitLimitExpiry _ => none
  | .mwaitPoll _ => none
  | .userInterrupt _ => none
  | .trapSlotGrant _ => none
  | .systemServiceComplete _ _ => none
  | .alloc _ _ _ => none
  | .free _ => none
  | .post _ => none
  | .nosvc _ => none
  | .hostkill _ => none
  | .abortComplete _ => none
  | .preemption _ => none
  | .restore _ _ => none
  | .watchdogFire _ => none
  | .checkpointCountExpiry _ => none
  | .debugStop _ => none
  | .debugResume _ => none
  | .samplingPulse => none
  | .registerWrite _ _ => none
  | .atomicWidthReport _ _ => none
  | .snoop _ _ => none
  | .hostLinkDown _ => none
  | .domainRequest _ _ _ => none
  | .clamp _ _ => none
  | .debuggerAttach _ => none
  | .debuggerDetach _ => none
  | .fencedSliceClear _ => none
  | .policyWrite _ => none
  | .barrierLoggingEnable _ _ _ => none
  | .nopCompact => some (.compact 0x01 0 0 0)
  | .brCompact disp => some (.compact 0x02 (disp.extractLsb' 0 8) (disp.extractLsb' 8 8) (disp.extractLsb' 16 8))
  | .brzCompact cond disp => some (.compact 0x03 cond.enc (disp.extractLsb' 0 8) (disp.extractLsb' 8 8))
  | .brnzCompact cond disp => some (.compact 0x04 cond.enc (disp.extractLsb' 0 8) (disp.extractLsb' 8 8))
  | .callCompact disp => some (.compact 0x05 (disp.extractLsb' 0 8) (disp.extractLsb' 8 8) (disp.extractLsb' 16 8))
  | .retCompact => some (.compact 0x06 0 0 0)
  | .addCompact d a b => some (.compact 0x41 d.enc a.enc b.enc)
  | .subCompact d a b => some (.compact 0x42 d.enc a.enc b.enc)
  | .mulCompact d a b => some (.compact 0x43 d.enc a.enc b.enc)
  | .mulhiCompact d a b => some (.compact 0x44 d.enc a.enc b.enc)
  | .mulhuCompact d a b => some (.compact 0x45 d.enc a.enc b.enc)
  | .absCompact d a => some (.compact 0x47 d.enc a.enc 0)
  | .minCompact d a b => some (.compact 0x48 d.enc a.enc b.enc)
  | .maxCompact d a b => some (.compact 0x49 d.enc a.enc b.enc)
  | .minuCompact d a b => some (.compact 0x4A d.enc a.enc b.enc)
  | .maxuCompact d a b => some (.compact 0x4B d.enc a.enc b.enc)
  | .andCompact d a b => some (.compact 0x4C d.enc a.enc b.enc)
  | .orCompact d a b => some (.compact 0x4D d.enc a.enc b.enc)
  | .xorCompact d a b => some (.compact 0x4E d.enc a.enc b.enc)
  | .andnCompact d a b => some (.compact 0x4F d.enc a.enc b.enc)
  | .shlCompact d a b => some (.compact 0x50 d.enc a.enc b.enc)
  | .shrCompact d a b => some (.compact 0x51 d.enc a.enc b.enc)
  | .sarCompact d a b => some (.compact 0x52 d.enc a.enc b.enc)
  | .rolCompact d a b => some (.compact 0x53 d.enc a.enc b.enc)
  | .clzCompact d a => some (.compact 0x54 d.enc a.enc 0)
  | .ctzCompact d a => some (.compact 0x55 d.enc a.enc 0)
  | .popcCompact d a => some (.compact 0x56 d.enc a.enc 0)
  | .brevCompact d a => some (.compact 0x57 d.enc a.enc 0)
  | .mskbCompact d a b => some (.compact 0x5D d.enc a.enc b.enc)
  | .sextCompact d a b => some (.compact 0x60 d.enc a.enc b.enc)
  | .movCompact d a => some (.compact 0x61 d.enc a.enc 0)
  | .faddCompact d a b => some (.compact 0x71 d.enc a.enc b.enc)
  | .fsubCompact d a b => some (.compact 0x72 d.enc a.enc b.enc)
  | .fmulCompact d a b => some (.compact 0x73 d.enc a.enc b.enc)
  | .fminCompact d a b => some (.compact 0x75 d.enc a.enc b.enc)
  | .fmaxCompact d a b => some (.compact 0x76 d.enc a.enc b.enc)
  | .add64 m d a b => some (.wide 0x01 0x01 ⟨(Reg.enc d), (Operand.enc a), (Operand.enc b), 0, (IntMode.enc m), 0⟩ none)
  | .add96 m d a lit => some (.wide 0x01 0x01 ⟨(Reg.enc d), (Operand.enc a), 0xFF, 0, (IntMode.enc m), 0⟩ (some lit))
  | .sub64 m d a b => some (.wide 0x01 0x02 ⟨(Reg.enc d), (Operand.enc a), (Operand.enc b), 0, (IntMode.enc m), 0⟩ none)
  | .sub96 m d a lit => some (.wide 0x01 0x02 ⟨(Reg.enc d), (Operand.enc a), 0xFF, 0, (IntMode.enc m), 0⟩ (some lit))
  | .mul64 d a b => some (.wide 0x01 0x03 ⟨(Reg.enc d), (Operand.enc a), (Operand.enc b), 0, 0, 0⟩ none)
  | .mul96 d a lit => some (.wide 0x01 0x03 ⟨(Reg.enc d), (Operand.enc a), 0xFF, 0, 0, 0⟩ (some lit))
  | .mulhi64 d a b => some (.wide 0x01 0x04 ⟨(Reg.enc d), (Operand.enc a), (Operand.enc b), 0, 0, 0⟩ none)
  | .mulhi96 d a lit => some (.wide 0x01 0x04 ⟨(Reg.enc d), (Operand.enc a), 0xFF, 0, 0, 0⟩ (some lit))
  | .mulhu64 d a b => some (.wide 0x01 0x05 ⟨(Reg.enc d), (Operand.enc a), (Operand.enc b), 0, 0, 0⟩ none)
  | .mulhu96 d a lit => some (.wide 0x01 0x05 ⟨(Reg.enc d), (Operand.enc a), 0xFF, 0, 0, 0⟩ (some lit))
  | .mad64 d a b c => some (.wide 0x01 0x06 ⟨(Reg.enc d), (Operand.enc a), (Operand.enc b), (Operand.enc c), 0, 0⟩ none)
  | .mad96 d a c lit => some (.wide 0x01 0x06 ⟨(Reg.enc d), (Operand.enc a), 0xFF, (Operand.enc c), 0, 0⟩ (some lit))
  | .abs64 sat d a => some (.wide 0x01 0x07 ⟨(Reg.enc d), (Operand.enc a), 0, 0, (SatBit.enc sat), 0⟩ none)
  | .min64 d a b => some (.wide 0x01 0x08 ⟨(Reg.enc d), (Operand.enc a), (Operand.enc b), 0, 0, 0⟩ none)
  | .min96 d a lit => some (.wide 0x01 0x08 ⟨(Reg.enc d), (Operand.enc a), 0xFF, 0, 0, 0⟩ (some lit))
  | .max64 d a b => some (.wide 0x01 0x09 ⟨(Reg.enc d), (Operand.enc a), (Operand.enc b), 0, 0, 0⟩ none)
  | .max96 d a lit => some (.wide 0x01 0x09 ⟨(Reg.enc d), (Operand.enc a), 0xFF, 0, 0, 0⟩ (some lit))
  | .minu64 d a b => some (.wide 0x01 0x0A ⟨(Reg.enc d), (Operand.enc a), (Operand.enc b), 0, 0, 0⟩ none)
  | .minu96 d a lit => some (.wide 0x01 0x0A ⟨(Reg.enc d), (Operand.enc a), 0xFF, 0, 0, 0⟩ (some lit))
  | .maxu64 d a b => some (.wide 0x01 0x0B ⟨(Reg.enc d), (Operand.enc a), (Operand.enc b), 0, 0, 0⟩ none)
  | .maxu96 d a lit => some (.wide 0x01 0x0B ⟨(Reg.enc d), (Operand.enc a), 0xFF, 0, 0, 0⟩ (some lit))
  | .and64 d a b => some (.wide 0x01 0x0C ⟨(Reg.enc d), (Operand.enc a), (Operand.enc b), 0, 0, 0⟩ none)
  | .and96 d a lit => some (.wide 0x01 0x0C ⟨(Reg.enc d), (Operand.enc a), 0xFF, 0, 0, 0⟩ (some lit))
  | .or64 d a b => some (.wide 0x01 0x0D ⟨(Reg.enc d), (Operand.enc a), (Operand.enc b), 0, 0, 0⟩ none)
  | .or96 d a lit => some (.wide 0x01 0x0D ⟨(Reg.enc d), (Operand.enc a), 0xFF, 0, 0, 0⟩ (some lit))
  | .xor64 d a b => some (.wide 0x01 0x0E ⟨(Reg.enc d), (Operand.enc a), (Operand.enc b), 0, 0, 0⟩ none)
  | .xor96 d a lit => some (.wide 0x01 0x0E ⟨(Reg.enc d), (Operand.enc a), 0xFF, 0, 0, 0⟩ (some lit))
  | .andn64 d a b => some (.wide 0x01 0x0F ⟨(Reg.enc d), (Operand.enc a), (Operand.enc b), 0, 0, 0⟩ none)
  | .andn96 d a lit => some (.wide 0x01 0x0F ⟨(Reg.enc d), (Operand.enc a), 0xFF, 0, 0, 0⟩ (some lit))
  | .shl64 d a b => some (.wide 0x01 0x10 ⟨(Reg.enc d), (Operand.enc a), (Operand.enc b), 0, 0, 0⟩ none)
  | .shl96 d a lit => some (.wide 0x01 0x10 ⟨(Reg.enc d), (Operand.enc a), 0xFF, 0, 0, 0⟩ (some lit))
  | .shr64 d a b => some (.wide 0x01 0x11 ⟨(Reg.enc d), (Operand.enc a), (Operand.enc b), 0, 0, 0⟩ none)
  | .shr96 d a lit => some (.wide 0x01 0x11 ⟨(Reg.enc d), (Operand.enc a), 0xFF, 0, 0, 0⟩ (some lit))
  | .sar64 d a b => some (.wide 0x01 0x12 ⟨(Reg.enc d), (Operand.enc a), (Operand.enc b), 0, 0, 0⟩ none)
  | .sar96 d a lit => some (.wide 0x01 0x12 ⟨(Reg.enc d), (Operand.enc a), 0xFF, 0, 0, 0⟩ (some lit))
  | .rol64 d a b => some (.wide 0x01 0x13 ⟨(Reg.enc d), (Operand.enc a), (Operand.enc b), 0, 0, 0⟩ none)
  | .rol96 d a lit => some (.wide 0x01 0x13 ⟨(Reg.enc d), (Operand.enc a), 0xFF, 0, 0, 0⟩ (some lit))
  | .clz64 d a => some (.wide 0x01 0x14 ⟨(Reg.enc d), (Operand.enc a), 0, 0, 0, 0⟩ none)
  | .ctz64 d a => some (.wide 0x01 0x15 ⟨(Reg.enc d), (Operand.enc a), 0, 0, 0, 0⟩ none)
  | .popc64 d a => some (.wide 0x01 0x16 ⟨(Reg.enc d), (Operand.enc a), 0, 0, 0, 0⟩ none)
  | .brev64 d a => some (.wide 0x01 0x17 ⟨(Reg.enc d), (Operand.enc a), 0, 0, 0, 0⟩ none)
  | .bfx64 d a b c => some (.wide 0x01 0x18 ⟨(Reg.enc d), (Operand.enc a), (Operand.enc b), (Operand.enc c), 0, 0⟩ none)
  | .bfx96 d a c lit => some (.wide 0x01 0x18 ⟨(Reg.enc d), (Operand.enc a), 0xFF, (Operand.enc c), 0, 0⟩ (some lit))
  | .bfi64 d a b c => some (.wide 0x01 0x19 ⟨(Reg.enc d), (Operand.enc a), (Operand.enc b), (Operand.enc c), 0, 0⟩ none)
  | .bfi96 d a c lit => some (.wide 0x01 0x19 ⟨(Reg.enc d), (Operand.enc a), 0xFF, (Operand.enc c), 0, 0⟩ (some lit))
  | .addc64 d a b c => some (.wide 0x01 0x1E ⟨(Reg.enc d), (Operand.enc a), (Operand.enc b), (Operand.enc c), 0, 0⟩ none)
  | .addc96 d a c lit => some (.wide 0x01 0x1E ⟨(Reg.enc d), (Operand.enc a), 0xFF, (Operand.enc c), 0, 0⟩ (some lit))
  | .subc64 d a b c => some (.wide 0x01 0x1F ⟨(Reg.enc d), (Operand.enc a), (Operand.enc b), (Operand.enc c), 0, 0⟩ none)
  | .subc96 d a c lit => some (.wide 0x01 0x1F ⟨(Reg.enc d), (Operand.enc a), 0xFF, (Operand.enc c), 0, 0⟩ (some lit))
  | .sext64 d a b => some (.wide 0x01 0x20 ⟨(Reg.enc d), (Operand.enc a), (Operand.enc b), 0, 0, 0⟩ none)
  | .sext96 d a lit => some (.wide 0x01 0x20 ⟨(Reg.enc d), (Operand.enc a), 0xFF, 0, 0, 0⟩ (some lit))
  | .mov64 d a => some (.wide 0x01 0x21 ⟨(Reg.enc d), (Operand.enc a), 0, 0, 0, 0⟩ none)
  | .sel64 d a b c => some (.wide 0x01 0x1A ⟨(Reg.enc d), (Operand.enc a), (Operand.enc b), (Operand.enc c), 0, 0⟩ none)
  | .sel96 d a c lit => some (.wide 0x01 0x1A ⟨(Reg.enc d), (Operand.enc a), 0xFF, (Operand.enc c), 0, 0⟩ (some lit))
  | .cmp64 cond ty d a b => some (.wide 0x01 0x1B ⟨(Reg.enc d), (Operand.enc a), (Operand.enc b), 0, (IntTy.enc ty), (Cond.enc cond)⟩ none)
  | .cmp96 cond ty d a lit => some (.wide 0x01 0x1B ⟨(Reg.enc d), (Operand.enc a), 0xFF, 0, (IntTy.enc ty), (Cond.enc cond)⟩ (some lit))
  | .cmpm64 cond ty d a b => some (.wide 0x01 0x1C ⟨(Reg.enc d), (Operand.enc a), (Operand.enc b), 0, (IntTy.enc ty), (Cond.enc cond)⟩ none)
  | .cmpm96 cond ty d a lit => some (.wide 0x01 0x1C ⟨(Reg.enc d), (Operand.enc a), 0xFF, 0, (IntTy.enc ty), (Cond.enc cond)⟩ (some lit))
  | .mskb64 d a b => some (.wide 0x01 0x1D ⟨(Reg.enc d), (Operand.enc a), (Operand.enc b), 0, 0, 0⟩ none)
  | .mskb96 d a lit => some (.wide 0x01 0x1D ⟨(Reg.enc d), (Operand.enc a), 0xFF, 0, 0, 0⟩ (some lit))
  | .br64 disp => some (.wide 0x02 0x01 ⟨0, 0, 0, (disp.extractLsb' 0 8), 0, (disp.extractLsb' 8 8)⟩ none)
  | .br96 disp => some (.wide 0x02 0x01 ⟨0, 0, 0xFF, 0, 0, 0⟩ (some disp))
  | .brz64 a disp => some (.wide 0x02 0x02 ⟨0, (Reg.enc a), 0, (disp.extractLsb' 0 8), 0, (disp.extractLsb' 8 8)⟩ none)
  | .brz96 a disp => some (.wide 0x02 0x02 ⟨0, (Reg.enc a), 0xFF, 0, 0, 0⟩ (some disp))
  | .brnz64 a disp => some (.wide 0x02 0x03 ⟨0, (Reg.enc a), 0, (disp.extractLsb' 0 8), 0, (disp.extractLsb' 8 8)⟩ none)
  | .brnz96 a disp => some (.wide 0x02 0x03 ⟨0, (Reg.enc a), 0xFF, 0, 0, 0⟩ (some disp))
  | .brm64 test a disp => some (.wide 0x02 0x04 ⟨0, (SIdx.enc a), 0, (disp.extractLsb' 0 8), (MaskTest.enc test), (disp.extractLsb' 8 8)⟩ none)
  | .brm96 test a disp => some (.wide 0x02 0x04 ⟨0, (SIdx.enc a), 0xFF, 0, (MaskTest.enc test), 0⟩ (some disp))
  | .call64 link disp => some (.wide 0x02 0x05 ⟨(Pair.enc link), 0, 0, (disp.extractLsb' 0 8), 0, (disp.extractLsb' 8 8)⟩ none)
  | .call96 link disp => some (.wide 0x02 0x05 ⟨(Pair.enc link), 0, 0xFF, 0, 0, 0⟩ (some disp))
  | .calli link a => some (.wide 0x02 0x06 ⟨(Pair.enc link), (Pair.enc a), 0, 0, 0, 0⟩ none)
  | .ret64 a => some (.wide 0x02 0x07 ⟨0, (Pair.enc a), 0, 0, 0, 0⟩ none)
  | .jmpi a => some (.wide 0x02 0x08 ⟨0, (Pair.enc a), 0, 0, 0, 0⟩ none)
  | .nop64 => some (.wide 0x02 0x0C ⟨0, 0, 0, 0, 0, 0⟩ none)
  | .iterInit slot d a => some (.wide 0x02 0x09 ⟨(Reg.enc d), (SPair.enc a), 0, 0, (Slot.enc slot), 0⟩ none)
  | .iterNext64 slot disp => some (.wide 0x02 0x0A ⟨0, 0, 0, (disp.extractLsb' 0 8), (Slot.enc slot), (disp.extractLsb' 8 8)⟩ none)
  | .iterNext96 slot disp => some (.wide 0x02 0x0A ⟨0, 0, 0xFF, 0, (Slot.enc slot), 0⟩ (some disp))
  | .iterStep slot => some (.wide 0x02 0x0B ⟨0, 0, 0, 0, (Slot.enc slot), 0⟩ none)
  | .fadd64 d a b => some (.wide 0x03 0x01 ⟨(Reg.enc d), (Operand.enc a), (Operand.enc b), 0, 0x02, 0⟩ none)
  | .fadd96 d a lit => some (.wide 0x03 0x01 ⟨(Reg.enc d), (Operand.enc a), 0xFF, 0, 0x02, 0⟩ (some lit))
  | .fsub64 d a b => some (.wide 0x03 0x02 ⟨(Reg.enc d), (Operand.enc a), (Operand.enc b), 0, 0x02, 0⟩ none)
  | .fsub96 d a lit => some (.wide 0x03 0x02 ⟨(Reg.enc d), (Operand.enc a), 0xFF, 0, 0x02, 0⟩ (some lit))
  | .fmul64 d a b => some (.wide 0x03 0x03 ⟨(Reg.enc d), (Operand.enc a), (Operand.enc b), 0, 0x02, 0⟩ none)
  | .fmul96 d a lit => some (.wide 0x03 0x03 ⟨(Reg.enc d), (Operand.enc a), 0xFF, 0, 0x02, 0⟩ (some lit))
  | .ffma64 d a b c => some (.wide 0x03 0x04 ⟨(Reg.enc d), (Operand.enc a), (Operand.enc b), (Operand.enc c), 0x02, 0⟩ none)
  | .ffma96 d a c lit => some (.wide 0x03 0x04 ⟨(Reg.enc d), (Operand.enc a), 0xFF, (Operand.enc c), 0x02, 0⟩ (some lit))
  | .fmin64 d a b => some (.wide 0x03 0x05 ⟨(Reg.enc d), (Operand.enc a), (Operand.enc b), 0, 0x02, 0⟩ none)
  | .fmin96 d a lit => some (.wide 0x03 0x05 ⟨(Reg.enc d), (Operand.enc a), 0xFF, 0, 0x02, 0⟩ (some lit))
  | .fmax64 d a b => some (.wide 0x03 0x06 ⟨(Reg.enc d), (Operand.enc a), (Operand.enc b), 0, 0x02, 0⟩ none)
  | .fmax96 d a lit => some (.wide 0x03 0x06 ⟨(Reg.enc d), (Operand.enc a), 0xFF, 0, 0x02, 0⟩ (some lit))
  | .fcmp64 cond d a b => some (.wide 0x03 0x07 ⟨(Reg.enc d), (Operand.enc a), (Operand.enc b), 0, 0x02, (FCond.enc cond)⟩ none)
  | .fcmp96 cond d a lit => some (.wide 0x03 0x07 ⟨(Reg.enc d), (Operand.enc a), 0xFF, 0, 0x02, (FCond.enc cond)⟩ (some lit))
  | .fcmpm64 cond d a b => some (.wide 0x03 0x08 ⟨(Reg.enc d), (Operand.enc a), (Operand.enc b), 0, 0x02, (FCond.enc cond)⟩ none)
  | .fcmpm96 cond d a lit => some (.wide 0x03 0x08 ⟨(Reg.enc d), (Operand.enc a), 0xFF, 0, 0x02, (FCond.enc cond)⟩ (some lit))
  | .fclass d a => some (.wide 0x03 0x09 ⟨(Reg.enc d), (Operand.enc a), 0, 0, 0x02, 0⟩ none)
  | .frcp d a => some (.wide 0x03 0x0A ⟨(Reg.enc d), (Operand.enc a), 0, 0, 0x02, 0⟩ none)
  | .frsq d a => some (.wide 0x03 0x0B ⟨(Reg.enc d), (Operand.enc a), 0, 0, 0x02, 0⟩ none)
  | .fsqrt d a => some (.wide 0x03 0x0C ⟨(Reg.enc d), (Operand.enc a), 0, 0, 0x02, 0⟩ none)
  | .fdiv64 d a b => some (.wide 0x03 0x0D ⟨(Reg.enc d), (Operand.enc a), (Operand.enc b), 0, 0x02, 0⟩ none)
  | .fdiv96 d a lit => some (.wide 0x03 0x0D ⟨(Reg.enc d), (Operand.enc a), 0xFF, 0, 0x02, 0⟩ (some lit))
  | .fexp2 d a => some (.wide 0x03 0x0E ⟨(Reg.enc d), (Operand.enc a), 0, 0, 0x02, 0⟩ none)
  | .flog2 d a => some (.wide 0x03 0x0F ⟨(Reg.enc d), (Operand.enc a), 0, 0, 0x02, 0⟩ none)
  | .frnd rm d a => some (.wide 0x03 0x10 ⟨(Reg.enc d), (Operand.enc a), 0, 0, 0x02, (RoundSel.enc rm)⟩ none)
  | .f2i rm ty d a => some (.wide 0x03 0x11 ⟨(Reg.enc d), (Operand.enc a), 0, 0, (F2iTy.enc ty), (RoundSel.enc rm)⟩ none)
  | .i2f ty d a => some (.wide 0x03 0x12 ⟨(Reg.enc d), (Operand.enc a), 0, 0, (I2fTy.enc ty), 0⟩ none)
  | .fcvt m d a => some (.wide 0x03 0x13 ⟨(Reg.enc d), (Operand.enc a), 0, 0, (CvtMode.enc m), 0⟩ none)
  | .f4xp64 d a b c => some (.wide 0x03 0x14 ⟨(Reg.enc d), (Operand.enc a), (Operand.enc b), (Operand.enc c), 0x17, 0⟩ none)
  | .f4xp96 d a c lit => some (.wide 0x03 0x14 ⟨(Reg.enc d), (Operand.enc a), 0xFF, (Operand.enc c), 0x17, 0⟩ (some lit))
  | .f4xu64 d a b c => some (.wide 0x03 0x15 ⟨(Reg.enc d), (Operand.enc a), (Operand.enc b), (Operand.enc c), 0x3A, 0⟩ none)
  | .f4xu96 d a c lit => some (.wide 0x03 0x15 ⟨(Reg.enc d), (Operand.enc a), 0xFF, (Operand.enc c), 0x3A, 0⟩ (some lit))
  | .scle d a => some (.wide 0x03 0x16 ⟨(Reg.enc d), (Operand.enc a), 0, 0, 0x17, 0⟩ none)
  | .hadd264 ty d a b => some (.wide 0x03 0x17 ⟨(Reg.enc d), (Operand.enc a), (Operand.enc b), 0, (HalfTy.enc ty), 0⟩ none)
  | .hadd296 ty d a lit => some (.wide 0x03 0x17 ⟨(Reg.enc d), (Operand.enc a), 0xFF, 0, (HalfTy.enc ty), 0⟩ (some lit))
  | .hmul264 ty d a b => some (.wide 0x03 0x18 ⟨(Reg.enc d), (Operand.enc a), (Operand.enc b), 0, (HalfTy.enc ty), 0⟩ none)
  | .hmul296 ty d a lit => some (.wide 0x03 0x18 ⟨(Reg.enc d), (Operand.enc a), 0xFF, 0, (HalfTy.enc ty), 0⟩ (some lit))
  | .hfma264 ty d a b c => some (.wide 0x03 0x19 ⟨(Reg.enc d), (Operand.enc a), (Operand.enc b), (Operand.enc c), (HalfTy.enc ty), 0⟩ none)
  | .hfma296 ty d a c lit => some (.wide 0x03 0x19 ⟨(Reg.enc d), (Operand.enc a), 0xFF, (Operand.enc c), (HalfTy.enc ty), 0⟩ (some lit))
  | .fkey ty d a => some (.wide 0x03 0x1A ⟨(Reg.enc d), (Operand.enc a), 0, 0, (KeyTy.enc ty), 0⟩ none)
  | .proma64 d a b => some (.wide 0x04 0x01 ⟨(Reg.enc d), (UniformOp.enc a), (UniformOp.enc b), 0, 0, 0⟩ none)
  | .proma96 d a lit => some (.wide 0x04 0x01 ⟨(Reg.enc d), (UniformOp.enc a), 0xFF, 0, 0, 0⟩ (some lit))
  | .promv d a => some (.wide 0x04 0x02 ⟨(Reg.enc d), (SaOp.enc a), 0, 0, 0, 0⟩ none)
  | .demf d a => some (.wide 0x04 0x03 ⟨(Reg.enc d), (VIdx.enc a), 0, 0, 0, 0⟩ none)
  | .demc d a => some (.wide 0x04 0x04 ⟨(Reg.enc d), (VIdx.enc a), 0, 0, 0, 0⟩ none)
  | .movxr x d => some (.wide 0x04 0x05 ⟨(Reg.enc d), 0, 0, 0, (XReg.enc x), 0⟩ none)
  | .movxw x a => some (.wide 0x04 0x06 ⟨0, (SvReg.enc a), 0, 0, (XReg.enc x), 0⟩ none)
  | .meet64 disp => some (.wide 0x04 0x07 ⟨0, 0, 0, (disp.extractLsb' 0 8), 0, (disp.extractLsb' 8 8)⟩ none)
  | .meet96 disp => some (.wide 0x04 0x07 ⟨0, 0, 0xFF, 0, 0, 0⟩ (some disp))
  | .ld64 m d a b disp => some (.wide 0x08 0x01 ⟨(Reg.enc d), (Pair.enc a), (Operand.enc b), (disp.extractLsb' 0 8), (LoadMode.enc m), (disp.extractLsb' 8 8)⟩ none)
  | .ld96 m d a off disp => some (.wide 0x08 0x01 ⟨(Reg.enc d), (Pair.enc a), (OffReg.enc off), 0, (LoadMode.enc m), 0⟩ (some disp))
  | .st64 m d a b disp => some (.wide 0x08 0x02 ⟨(Reg.enc d), (Pair.enc a), (Operand.enc b), (disp.extractLsb' 0 8), (MemMode.enc m), (disp.extractLsb' 8 8)⟩ none)
  | .st96 m d a off disp => some (.wide 0x08 0x02 ⟨(Reg.enc d), (Pair.enc a), (OffReg.enc off), 0, (MemMode.enc m), 0⟩ (some disp))
  | .ldl64 m d b disp => some (.wide 0x08 0x03 ⟨(Reg.enc d), 0, (Operand.enc b), (disp.extractLsb' 0 8), (MemMode.enc m), (disp.extractLsb' 8 8)⟩ none)
  | .ldl96 m d off disp => some (.wide 0x08 0x03 ⟨(Reg.enc d), 0, (OffReg.enc off), 0, (MemMode.enc m), 0⟩ (some disp))
  | .stl64 m d b disp => some (.wide 0x08 0x04 ⟨(Reg.enc d), 0, (Operand.enc b), (disp.extractLsb' 0 8), (MemMode.enc m), (disp.extractLsb' 8 8)⟩ none)
  | .stl96 m d off disp => some (.wide 0x08 0x04 ⟨(Reg.enc d), 0, (OffReg.enc off), 0, (MemMode.enc m), 0⟩ (some disp))
  | .pfch64 scope a b disp => some (.wide 0x08 0x05 ⟨0, (Pair.enc a), (Operand.enc b), (disp.extractLsb' 0 8), (ScopeMod.enc scope), (disp.extractLsb' 8 8)⟩ none)
  | .pfch96 scope a off disp => some (.wide 0x08 0x05 ⟨0, (Pair.enc a), (OffReg.enc off), 0, (ScopeMod.enc scope), 0⟩ (some disp))
  | .aadd64 m d a b c => some (.wide 0x09 0x01 ⟨(Reg.enc d), (Pair.enc a), (Operand.enc b), (Operand.enc c), (MemMode.enc m), 0⟩ none)
  | .aadd96 m d a off c disp => some (.wide 0x09 0x01 ⟨(Reg.enc d), (Pair.enc a), (OffReg.enc off), (Operand.enc c), (MemMode.enc m), 0⟩ (some disp))
  | .afadd64 m d a b c => some (.wide 0x09 0x02 ⟨(Reg.enc d), (Pair.enc a), (Operand.enc b), (Operand.enc c), (OrderMode.enc m), 0⟩ none)
  | .afadd96 m d a off c disp => some (.wide 0x09 0x02 ⟨(Reg.enc d), (Pair.enc a), (OffReg.enc off), (Operand.enc c), (OrderMode.enc m), 0⟩ (some disp))
  | .amin64 m d a b c => some (.wide 0x09 0x03 ⟨(Reg.enc d), (Pair.enc a), (Operand.enc b), (Operand.enc c), (MemMode.enc m), 0⟩ none)
  | .amin96 m d a off c disp => some (.wide 0x09 0x03 ⟨(Reg.enc d), (Pair.enc a), (OffReg.enc off), (Operand.enc c), (MemMode.enc m), 0⟩ (some disp))
  | .amax64 m d a b c => some (.wide 0x09 0x04 ⟨(Reg.enc d), (Pair.enc a), (Operand.enc b), (Operand.enc c), (MemMode.enc m), 0⟩ none)
  | .amax96 m d a off c disp => some (.wide 0x09 0x04 ⟨(Reg.enc d), (Pair.enc a), (OffReg.enc off), (Operand.enc c), (MemMode.enc m), 0⟩ (some disp))
  | .aand64 m d a b c => some (.wide 0x09 0x05 ⟨(Reg.enc d), (Pair.enc a), (Operand.enc b), (Operand.enc c), (MemMode.enc m), 0⟩ none)
  | .aand96 m d a off c disp => some (.wide 0x09 0x05 ⟨(Reg.enc d), (Pair.enc a), (OffReg.enc off), (Operand.enc c), (MemMode.enc m), 0⟩ (some disp))
  | .aor64 m d a b c => some (.wide 0x09 0x06 ⟨(Reg.enc d), (Pair.enc a), (Operand.enc b), (Operand.enc c), (MemMode.enc m), 0⟩ none)
  | .aor96 m d a off c disp => some (.wide 0x09 0x06 ⟨(Reg.enc d), (Pair.enc a), (OffReg.enc off), (Operand.enc c), (MemMode.enc m), 0⟩ (some disp))
  | .axor64 m d a b c => some (.wide 0x09 0x07 ⟨(Reg.enc d), (Pair.enc a), (Operand.enc b), (Operand.enc c), (MemMode.enc m), 0⟩ none)
  | .axor96 m d a off c disp => some (.wide 0x09 0x07 ⟨(Reg.enc d), (Pair.enc a), (OffReg.enc off), (Operand.enc c), (MemMode.enc m), 0⟩ (some disp))
  | .axch64 m d a b c => some (.wide 0x09 0x08 ⟨(Reg.enc d), (Pair.enc a), (Operand.enc b), (Operand.enc c), (MemMode.enc m), 0⟩ none)
  | .axch96 m d a off c disp => some (.wide 0x09 0x08 ⟨(Reg.enc d), (Pair.enc a), (OffReg.enc off), (Operand.enc c), (MemMode.enc m), 0⟩ (some disp))
  | .acas64 m d a b c q => some (.wide 0x09 0x09 ⟨(Reg.enc d), (Pair.enc a), (Operand.enc b), (Operand.enc c), (MemMode.enc m), (Operand.enc q)⟩ none)
  | .acas96 m d a off c q disp => some (.wide 0x09 0x09 ⟨(Reg.enc d), (Pair.enc a), (OffReg.enc off), (Operand.enc c), (MemMode.enc m), (Operand.enc q)⟩ (some disp))
  | .strmOpen d a st => some (.wide 0x0A 0x01 ⟨(Reg.enc d), (SPair.enc a), (StreamIdx.enc st), 0, 0, 0⟩ none)
  | .strmClose st => some (.wide 0x0A 0x02 ⟨0, (StreamIdx.enc st), 0, 0, 0, 0⟩ none)
  | .fence scope => some (.wide 0x0B 0x01 ⟨0, 0, 0, 0, (ScopeMod.enc scope), 0⟩ none)
  | .cfl inv a b => some (.wide 0x0B 0x02 ⟨0, (Pair.enc a), (Operand.enc b), 0, (Bit0.enc inv), 0⟩ none)
  | .copy d a tag => some (.wide 0x0C 0x01 ⟨(Reg.enc d), (SPair.enc a), 0, 0, 0, (TagNum.enc tag)⟩ none)
  | .gath d a tag => some (.wide 0x0C 0x02 ⟨(Reg.enc d), (SPair.enc a), 0, 0, 0, (TagNum.enc tag)⟩ none)
  | .scat d a tag => some (.wide 0x0C 0x03 ⟨(Reg.enc d), (SPair.enc a), 0, 0, 0, (TagNum.enc tag)⟩ none)
  | .waitany d a => some (.wide 0x0C 0x04 ⟨(Reg.enc d), (SPair.enc a), 0, 0, 0, 0⟩ none)
  | .waitall d a => some (.wide 0x0C 0x05 ⟨(Reg.enc d), (SPair.enc a), 0, 0, 0, 0⟩ none)
  | .ffr d a => some (.wide 0x0C 0x06 ⟨(Reg.enc d), (SPair.enc a), 0, 0, 0, 0⟩ none)
  | .tagclr a => some (.wide 0x0C 0x07 ⟨0, (SPair.enc a), 0, 0, 0, 0⟩ none)
  | .mwait scope limit d a b => some (.wide 0x0C 0x08 ⟨(Pair.enc d), (SPair.enc a), (SPair.enc b), 0, (MwaitMod.enc scope), (Limit.enc limit)⟩ none)
  | .jobst d tag => some (.wide 0x0C 0x09 ⟨(Reg.enc d), 0, 0, 0, 0, (TagNum.enc tag)⟩ none)
  | .gcall64 a disp => some (.wide 0x10 0x01 ⟨0, (Operand.enc a), 0, (disp.extractLsb' 0 8), 0, (disp.extractLsb' 8 8)⟩ none)
  | .gcall96 a disp => some (.wide 0x10 0x01 ⟨0, (Operand.enc a), 0xFF, 0, 0, 0⟩ (some disp))
  | .gcallI b a => some (.wide 0x10 0x01 ⟨0, (Operand.enc a), (Pair.enc b), 0, 0x01, 0⟩ none)
  | .gret => some (.wide 0x10 0x02 ⟨0, 0, 0, 0, 0, 0⟩ none)
  | .grow64 d b => some (.wide 0x10 0x03 ⟨(Reg.enc d), 0, (UniformOp.enc b), 0, 0, 0⟩ none)
  | .grow96 d lit => some (.wide 0x10 0x03 ⟨(Reg.enc d), 0, 0xFF, 0, 0, 0⟩ (some lit))
  | .shrink64 b => some (.wide 0x10 0x04 ⟨0, 0, (UniformOp.enc b), 0, 0, 0⟩ none)
  | .shrink96 lit => some (.wide 0x10 0x04 ⟨0, 0, 0xFF, 0, 0, 0⟩ (some lit))
  | .obres64 d n b => some (.wide 0x11 0x01 ⟨(Reg.enc d), 0, (SIdx.enc b), 0, 0, (Num16.enc n)⟩ none)
  | .obres96 d n lit => some (.wide 0x11 0x01 ⟨(Reg.enc d), 0, 0xFF, 0, 0, (Num16.enc n)⟩ (some lit))
  | .obrel n => some (.wide 0x11 0x02 ⟨0, 0, 0, 0, 0, (Num16.enc n)⟩ none)
  | .obldS d n a => some (.wide 0x11 0x03 ⟨(Reg.enc d), (SPair.enc a), 0, 0, 0, (Num16.enc n)⟩ none)
  | .obldV d n a => some (.wide 0x11 0x03 ⟨(Reg.enc d), (VPair.enc a), 0, 0, 0x01, (Num16.enc n)⟩ none)
  | .mma64 cv t ab b => some (.wide 0x11 0x04 ⟨(RawByte.enc t), (ObsPair.enc ab), (UniformOp.enc b), 0, 0, (CvField.enc cv)⟩ none)
  | .mma96 cv t ab lit => some (.wide 0x11 0x04 ⟨(RawByte.enc t), (ObsPair.enc ab), 0xFF, 0, 0, (CvField.enc cv)⟩ (some lit))
  | .mmas64 cv t ab b => some (.wide 0x11 0x05 ⟨(RawByte.enc t), (ObsPair.enc ab), (UniformOp.enc b), 0, 0, (CvField.enc cv)⟩ none)
  | .mmas96 cv t ab lit => some (.wide 0x11 0x05 ⟨(RawByte.enc t), (ObsPair.enc ab), 0xFF, 0, 0, (CvField.enc cv)⟩ (some lit))
  | .accz t => some (.wide 0x11 0x06 ⟨(RawByte.enc t), 0, 0, 0, 0, 0⟩ none)
  | .accld64 t a b => some (.wide 0x11 0x07 ⟨(RawByte.enc t), (SPair.enc a), (UniformOp.enc b), 0, 0, 0⟩ none)
  | .accld96 t a lit => some (.wide 0x11 0x07 ⟨(RawByte.enc t), (SPair.enc a), 0xFF, 0, 0, 0⟩ (some lit))
  | .accst64 t a b => some (.wide 0x11 0x08 ⟨(RawByte.enc t), (SPair.enc a), (UniformOp.enc b), 0, 0, 0⟩ none)
  | .accst96 t a lit => some (.wide 0x11 0x08 ⟨(RawByte.enc t), (SPair.enc a), 0xFF, 0, 0, 0⟩ (some lit))
  | .accrd64 d t b => some (.wide 0x11 0x09 ⟨(Reg.enc d), 0, (UniformOp.enc b), (RawByte.enc t), 0, 0⟩ none)
  | .accrd96 d t lit => some (.wide 0x11 0x09 ⟨(Reg.enc d), 0, 0xFF, (RawByte.enc t), 0, 0⟩ (some lit))
  | .sign64 d n b => some (.wide 0x11 0x0A ⟨(Reg.enc d), 0, (SIdx.enc b), 0, 0, (Num8.enc n)⟩ none)
  | .sign96 d n lit => some (.wide 0x11 0x0A ⟨(Reg.enc d), 0, 0xFF, 0, 0, (Num8.enc n)⟩ (some lit))
  | .vdot m slot d a b c => some (.wide 0x12 0x01 ⟨(Reg.enc d), (Pair.enc a), (SPair.enc b), (SPair.enc c), (VdotMode.enc m), (Num8.enc slot)⟩ none)
  | .vtest d a => some (.wide 0x12 0x02 ⟨(Reg.enc d), (SvReg.enc a), 0, 0, 0, 0⟩ none)
  | .vkey d a => some (.wide 0x12 0x03 ⟨(Reg.enc d), (SvReg.enc a), 0, 0, 0, 0⟩ none)
  | .vhdr ty d a => some (.wide 0x12 0x04 ⟨(Reg.enc d), (Pair.enc a), 0, 0, (VerdictTy.enc ty), 0⟩ none)
  | .thsBind n a => some (.wide 0x12 0x05 ⟨0, (SPair.enc a), 0, 0, 0, (Num8.enc n)⟩ none)
  | .thsRaise64 d n b => some (.wide 0x12 0x06 ⟨(Pair.enc d), 0, (SvOp.enc b), 0, 0, (Num8.enc n)⟩ none)
  | .thsRaise96 d n lit => some (.wide 0x12 0x06 ⟨(Pair.enc d), 0, 0xFF, 0, 0, (Num8.enc n)⟩ (some lit))
  | .thsRead d n => some (.wide 0x12 0x07 ⟨(Pair.enc d), 0, 0, 0, 0, (Num8.enc n)⟩ none)
  | .bar64 scope d a => some (.wide 0x14 0x01 ⟨(Reg.enc d), (SPair.enc a), 0, 0, (ScopeMod.enc scope), 0⟩ none)
  | .reduce m mask d a => some (.wide 0x14 0x02 ⟨(Reg.enc d), (Reg.enc a), 0, 0, (ReduceMode.enc m), (QMask.enc mask)⟩ none)
  | .scan m mask d a => some (.wide 0x14 0x03 ⟨(Reg.enc d), (Reg.enc a), 0, 0, (ScanMode.enc m), (QMask.enc mask)⟩ none)
  | .shfl var d a b => some (.wide 0x14 0x04 ⟨(Reg.enc d), (Reg.enc a), (Operand.enc b), 0, (ShflVar.enc var), 0⟩ none)
  | .bsort desc mask d a => some (.wide 0x14 0x05 ⟨(Pair.enc d), (VPair.enc a), 0, 0, (Bit0.enc desc), (QMask.enc mask)⟩ none)
  | .bmerge desc mask d a b => some (.wide 0x14 0x06 ⟨(Pair.enc d), (VPair.enc a), (VPair.enc b), 0, (Bit0.enc desc), (QMask.enc mask)⟩ none)
  | .coll d a tag => some (.wide 0x14 0x07 ⟨(Reg.enc d), (SPair.enc a), 0, 0, 0, (TagNum.enc tag)⟩ none)
  | .trap64 n => some (.wide 0x38 0x01 ⟨0, 0, 0, 0, 0, (RawByte.enc n)⟩ none)
  | .eret => some (.wide 0x38 0x02 ⟨0, 0, 0, 0, 0, 0⟩ none)
  | .uimask d a b => some (.wide 0x38 0x03 ⟨(Reg.enc d), (UniformOp.enc a), (UniformOp.enc b), 0, 0, 0⟩ none)
  | .pulse => some (.wide 0x38 0x04 ⟨0, 0, 0, 0, 0, 0⟩ none)
  | .svc64 d a b n => some (.wide 0x38 0x05 ⟨(Quad.enc d), (SPair.enc a), (UniformOp.enc b), 0, 0, (RawByte.enc n)⟩ none)
  | .svc96 d a n lit => some (.wide 0x38 0x05 ⟨(Quad.enc d), (SPair.enc a), 0xFF, 0, 0, (RawByte.enc n)⟩ (some lit))
  | .ckpt64 => some (.wide 0x38 0x06 ⟨0, 0, 0, 0, 0, 0⟩ none)
  | .bkpt n => some (.wide 0x38 0x07 ⟨0, 0, 0, 0, 0, (RawByte.enc n)⟩ none)
  | .launch d a => some (.wide 0x3A 0x01 ⟨(Pair.enc d), (SPair.enc a), 0, 0, 0, 0⟩ none)
  | .spawn d a b c => some (.wide 0x3A 0x02 ⟨(Pair.enc d), (SIdx.enc a), (SPair.enc b), (SPair.enc c), 0, 0⟩ none)
  | .waitfree d a b => some (.wide 0x3A 0x03 ⟨(Reg.enc d), (SIdx.enc a), (SIdx.enc b), 0, 0, 0⟩ none)
  | .join d a => some (.wide 0x3A 0x04 ⟨(Reg.enc d), (SPair.enc a), 0, 0, 0, 0⟩ none)
  | .leave d a => some (.wide 0x3A 0x05 ⟨(Reg.enc d), (SPair.enc a), 0, 0, 0, 0⟩ none)
  | .exit64 => some (.wide 0x3A 0x06 ⟨0, 0, 0, 0, 0, 0⟩ none)
  | .migrateRk d => some (.wide 0x3A 0x07 ⟨(Reg.enc d), 0, 0, 0, 0, 0⟩ none)
  | .migrateHm d => some (.wide 0x3A 0x07 ⟨(Reg.enc d), 0, 0, 0, 0x01, 0⟩ none)
  | .yield => some (.wide 0x3A 0x08 ⟨0, 0, 0, 0, 0, 0⟩ none)

/-- The instruction that fields stand for: the opcode map and the entry's operands, then the entry's combinations. -/
noncomputable def decodeRaw (r : Raw) : Dec Instr := do
  let i ← match r with
    | .compact op7 d a b => decodeCompact op7 d a b
    | .wide fam fn f none => decode64 fam fn f
    | .wide fam fn f (some l) => decode96 fam fn f l
  if i.wellFormed then pure i else .error .combination

/-- The instruction at the head of a word sequence, with its length in words. -/
noncomputable def decodeWords (ws : List Word) : Dec (Instr × Nat) := do
  let (r, n) ← unpack ws
  let i ← decodeRaw r
  pure (i, n)

/-- The little-endian words of a byte sequence (R3); bytes that fill no word are dropped. -/
def wordsOfBytes : List Byte → List Word
  | b0 :: b1 :: b2 :: b3 :: rest => (b3 ++ b2 ++ b1 ++ b0) :: wordsOfBytes rest
  | _ => []

/-- The instruction at the head of a byte sequence, with its length in bytes. -/
noncomputable def decodeBytes (bs : List Byte) : Dec (Instr × Nat) :=
  (decodeWords (wordsOfBytes bs)).map fun (i, n) => (i, 4 * n)

/-- The bytes of a word, lowest address first (R3). -/
def bytesOfWord (w : Word) : List Byte := [wordByte w 0, wordByte w 1, wordByte w 2, wordByte w 3]

/-- The bytes of an instruction's words, lowest address first. -/
def bytesOfWords (ws : List Word) : List Byte := ws.flatMap bytesOfWord

/-- The words of an instruction; an event has none. -/
def encode (i : Instr) : List Word :=
  match encodeRaw i with
  | some r => r.words
  | none => []

/-- The three words of an instruction whose bits, numbered from the first word's bit 0, are w. -/
def tableWords (w : Nat) : List Word :=
  [BitVec.ofNat 32 w, BitVec.ofNat 32 (w / 2 ^ 32), BitVec.ofNat 32 (w / 2 ^ 64)]

/-- What the decoder reads from an instruction whose first `nbits` bits are w and whose further bits are 0. -/
noncomputable def decodeTableWord (nbits w : Nat) : Option Instr :=
  match decodeBytes (bytesOfWords (tableWords (w % 2 ^ nbits))) with
  | .ok (i, _) => some i
  | .error _ => none

end Sys2Proof
end

