-- ==== Sys2Proof/Config.lean ====
section
/-!
DEFINITION. What one package fixes and no program changes, and the free values: what the spec leaves open is an opaque
constant, so that no proof can use a value of it (notes/assumptions).
-/
namespace Sys2Proof.Config

/-- A byte whose value the spec leaves open, by the counter State.freeCtr (DESIGN CHOICE, log 2). -/
opaque freeByte : Nat → Byte

/-- A choice that the spec leaves open, by the counter State.freeCtr (DESIGN CHOICE, log 2). -/
opaque freeBool : Nat → Bool

/-- The DRAM bank that holds a row (R226): the spec lays no rows out (DESIGN CHOICE, log 2). -/
opaque rowBank : Nat → Nat

/-- The DRAM row that holds an address of a stack (R226) (DESIGN CHOICE, log 2). -/
opaque rowAt : Nat → Nat

/-- The SRAM bank, among the 16 of its pool, that holds a byte of a core's pool (R217, R226): the spec gives the pools no banks
(DESIGN CHOICE, log 2). -/
opaque poolBank : BitVec 14 → Nat → Nat

/-- Where Gyhouc places an ALLOC block that it completes for a thread which is being saved, an address and a device offset (R387,
R389): its own choice (DESIGN CHOICE, log 2). -/
opaque heapChoice : Nat → Nat × Nat

/-- SHAKE256 with a 64-byte digest (R30, R408): FIPS 202 is not in the spec (DESIGN CHOICE, log 12). -/
opaque shake256 : List Byte → BitVec 512

/-- The parts of a Gyhouc image: its public key, its signature, the bytes that are signed, and its security version (R407): the spec
does not lay the image out (DESIGN CHOICE, log 3). -/
opaque imageKey : List Byte → BitVec 512

/-- The signature of a Gyhouc image (R407) (DESIGN CHOICE, log 3). -/
opaque imageSig : List Byte → List Byte

/-- The bytes of a Gyhouc image that are signed (R407) (DESIGN CHOICE, log 3). -/
opaque imageBody : List Byte → List Byte

/-- The security version of a Gyhouc image (R407) (DESIGN CHOICE, log 3). -/
opaque imageVersion : List Byte → Nat

/-- The four bytes of the SPDM extended algorithm structure of SHAKE256 (R409): the spec gives no identifiers (DESIGN CHOICE, log 3). -/
opaque spdmHashId : BitVec 32

/-- The four bytes of the SPDM extended algorithm structure of SLH-DSA-SHAKE-256f (R409) (DESIGN CHOICE, log 3). -/
opaque spdmSignId : BitVec 32

/-- SLH-DSA-SHAKE-256s verification of a signature over a digest under a public key (R30): FIPS 205 is not in the spec
(DESIGN CHOICE, log 12). -/
opaque slhVerify : BitVec 512 → BitVec 512 → List Byte → Bool

/-- The device's SLH-DSA-SHAKE-256f signature over a message (R409) (DESIGN CHOICE, log 12). -/
opaque slhSign : List Byte → List Byte

/-- The certificate chain that the device's fuses hold (R409) (DESIGN CHOICE, log 12). -/
opaque certChain : List Byte

/-- Compute dies (R10). -/
def dies : Nat := 4
/-- Boards of a die (R11). -/
def boards : Nat := 36
/-- The device memory of a package: 768 GiB (R17, R215). -/
def devBytes : Nat := 768 * 2 ^ 30
/-- Pool bytes of a rod (R72). -/
def rodPool : Nat := 196608
/-- Pool bytes of a beam (R72). -/
def beamPool : Nat := 1048576
/-- Bytes of a beam's operand buffer (R314). -/
def obufBytes : Nat := 512 * 1024
/-- Entries of the pending-launch store, and how many device launches may hold (R57). -/
def pendingMax : Nat := 256
/-- The entries that device launches may hold (R57). -/
def pendingDevice : Nat := 224
/-- Jobs in flight of a frame's scheduler (R251). -/
def jobsMax : Nat := 64
/-- Jobs that a copy engine runs at once (R251). -/
def copyEngineMax : Nat := 16
/-- Jobs that a request collector runs at once (R251). -/
def collectorMax : Nat := 32
/-- Jobs that a collective engine holds (R366). -/
def collectiveMax : Nat := 64
/-- Entries of a rendezvous table (R295). -/
def rdvMax : Nat := 64
/-- Migrated threads of a reckoner (R88). -/
def awayMax : Nat := 256
/-- Trap slots of a reckoner (R378). -/
def trapSlots : Nat := 64
/-- Outstanding ATS requests of a die (R222). -/
def atsMax : Nat := 256
/-- Outstanding page requests of a port (R223). -/
def priMax : Nat := 512
/-- Banks of a frame cache (R12, R217). -/
def cacheBanks : Nat := 16
/-- Lines of 128 bytes in one bank of a frame cache of 1.5 MiB (R12, R217). -/
def bankLines : Nat := 3 * 2 ^ 19 / 128 / cacheBanks
/-- Lines of 128 bytes in an L2 slice of 4 MiB (R12, R217). -/
def l2Lines : Nat := 4 * 2 ^ 20 / 128
/-- Frame cache and L2 of a package (R13). -/
def packageCaches : Nat × Nat := (576 * cacheBanks * bankLines * 128, 144 * l2Lines * 128)
/-- Ways of a frame's micro-TLB, a board's TLB and a die's translation cache (R221). -/
def tlbWays : Fin 3 → Nat
  | 0 => 64
  | 1 => 8
  | _ => 16
/-- Entries of a frame's micro-TLB, a board's TLB and a die's translation cache (R221). -/
def tlbMax : Fin 3 → Nat
  | 0 => 64
  | 1 => 2048
  | _ => 16384
/-- Spare rows of a DRAM bank (R226). -/
def spareRows : Nat := 16
/-- Forwarding entries of a die (R36). -/
def forwardMax : Nat := 256
/-- Gated stores of a lock-step pair (R396). -/
def gateMax : Nat := 64
/-- Pushes of a write stream that are not yet performed (R71). -/
def pushMax : Nat := 8
/-- Arithmetic-clock cycles of a microsecond (R6: 1.7 GHz). -/
def cyclesPerMicro : Nat := 1700

end Sys2Proof.Config
end

