-- ==== Sys2Proof/Machine/State.lean ====
section
/-!
DEFINITION. The machine's state: every piece of state that the spec gives a C960 package, as plain data, and its value
after reset. INVENTORY.md lists each field with the rule that names it.
-/
namespace Sys2Proof.Machine

/-- Bytes of one address space: addresses strictly rising, no byte equal to 0, which an unlisted address reads as. -/
abbrev Mem := List Host.Cell

/-- The fault codes (R388). -/
inductive Code where
  | ill | type | upart | aovf | abnd | nfmt | ovl | bkpt | trapu
  | notmapped | perm | null | align | winperm | memue | hatom | hlink | flink | footprint | cmismatch
  | wdog | hostkill | lsmm | mmaerr
  deriving DecidableEq, Repr

/-- An affine register (R128). -/
structure AReg where
  base   : Word
  stride : Word
  deriving DecidableEq, Repr

/-- The states of a completion tag (R264). -/
inductive TagState where
  | free | pending | set
  deriving DecidableEq, Repr

/-- A completion tag and its status word (R264, R266). -/
structure Tag where
  st     : TagState
  status : Word
  deriving DecidableEq, Repr

/-- The states of an iteration slot (R182). -/
inductive IterState where
  | idle | loaded | active
  deriving DecidableEq, Repr

/-- An iteration slot (R182): `desc` is the 56-byte descriptor, byte 0 lowest. -/
structure IterSlot where
  st   : IterState
  desc : BitVec 448
  body : DWord
  l    : DWord
  e    : DWord
  deriving DecidableEq, Repr

/-- Where a byte is: device memory at an offset (R211), host memory at a physical address, the scratch of a region
(R212), or device memory of another package (R215). -/
inductive Place where
  | dev (off : Nat)
  | host (pa : Nat)
  | scratch (core : CoreId) (launch : Word) (w : Nat) (off : Nat)
  | dom (pkg : Nat) (off : Nat)
  deriving DecidableEq, Repr

/-- The state of a stream register in stream mode (R244, R249): its 64-byte descriptor, the number n of elements popped
or pushed, and the last element delivered. -/
structure Stream where
  desc    : BitVec 512
  n       : Nat
  last    : Word
  deriving DecidableEq, Repr

/-- A push of a write stream that is not yet performed (R71, R248, R249): the stream register, the element's bytes, address
and place, and its value. -/
structure Pushed where
  strm  : Fin 8
  n     : Nat
  va    : DWord
  place : Place
  x     : Word
  deriving DecidableEq, Repr

/-- A pop of a stream register by an instruction (R246): the element, or none past the stream's end. -/
structure Pop where
  reg  : Fin 8
  elem : Option Word
  deriving DecidableEq, Repr

/-- A push to a stream register by an instruction (R246): where the element goes, or none past the stream's end. -/
structure Push where
  reg  : Fin 8
  dest : Option (DWord × Place)
  deriving DecidableEq, Repr

/-- One lane of a gang, or the one lane of a rod or reckoner thread: PC, MEET, TID, GID, the live and held flags
(R54, R86, R123–R127), the lane's values of v0–v63 (R128), and the identity of the caller that a gang-called lane stands for (R295). -/
structure Lane where
  pc     : DWord
  meet   : DWord
  tid    : DWord
  gid    : DWord
  live   : Bool
  held   : Bool
  v      : Vector Word 64
  caller : Option Nat
  deriving DecidableEq, Repr

/-- A lane's part of a VDOT progress record (R352): c, S, M, τs and the finished result; `fault` is the fault that a read of the lane met,
which is delivered when the other lanes have finished (DEDUCED, log 61). -/
structure VdotLane where
  lane : Nat
  c    : Nat
  sum  : Word
  mag  : Word
  tau  : Option Word
  done : Option Word
  fault : Option (Code × DWord)
  deriving DecidableEq, Repr

/-- The VDOT progress record (R352). -/
structure VdotRecord where
  pc    : DWord
  lanes : List VdotLane
  deriving DecidableEq, Repr

/-- The architectural state of a rod or reckoner context or of a gang: what pre-emption saves (R70, R71, R390) and what a
lock-step checkpoint keeps (R399). `pushes` holds the pushes of its write streams that are not yet performed, in program order
(R248, R249, R275). A rod or reckoner thread has one lane; a gang has 32, a WIDTH = 2 group 64. -/
structure Arch where
  s       : Vector Word 64
  a       : Vector AReg 32
  lanes   : List Lane
  vc      : Nat
  tbase   : DWord
  ovh     : DWord
  uhnd    : DWord
  epc     : DWord
  eaddr   : DWord
  ecode   : Word
  elane   : Word
  nfmt    : Word
  fpctl   : Word
  xstat   : Word
  mprog   : Word
  uh      : Bool
  overlay : Bool
  trapSet : BitVec 64
  sysSet  : BitVec 64
  heldSet : BitVec 64
  tags    : Vector Tag 64
  ths     : Vector DWord 8
  iter    : Vector IterSlot 2
  streams : Vector (Option Stream) 8
  pushes  : List Pushed
  link    : Option DWord
  pend    : BitVec 8
  en      : BitVec 8
  mark    : Option (DWord × Word)
  touched : BitVec 64
  vdot    : Option VdotRecord
  deriving DecidableEq, Repr

/-- A lane's fault: the lane, the code and the address that EADDR names (R372, R375). -/
structure LaneFault where
  lane : Nat
  code : Code
  addr : DWord
  deriving DecidableEq, Repr

/-- One access of a parked load, atomic or window store: the lane it belongs to, its address, its place, and the operand
and new-value patterns. `answer` is what a completed host AtomicOp returned (R44). -/
structure Access where
  lane   : Nat
  va     : DWord
  place  : Place
  x      : BitVec 128
  y      : BitVec 128
  answer : Option (BitVec 128)
  deriving DecidableEq, Repr

/-- The read-modify-write operations of family 0x09 (R240). -/
inductive AtomicOp where
  | add | fadd | min | max | and | or | xor | xch | cas
  deriving DecidableEq, Repr

/-- What a parked memory request does when it is performed (R120). -/
inductive RequestKind where
  | load (d : Reg) (prm : Bool)
  | store
  | atomic (op : AtomicOp) (d : Reg)
  | claim (slot : Fin 2) (body : DWord) (taken : DWord) (empty : DWord)
  deriving DecidableEq, Repr

/-- A memory request whose reply has not landed: its accesses, the lanes that already faulted, the PC after it, the
stream pops and pushes that its completion makes, the converged set that issued it, and whether it is performed once for
the gang (R233). -/
structure Request where
  kind   : RequestKind
  size   : Size
  ord    : MemOrder
  scope  : Scope
  pc     : DWord
  next   : DWord
  acc    : List Access
  faults : List LaneFault
  pops   : List Pop
  pushes : List Push
  exec   : BitVec 64
  once   : Bool
  deriving DecidableEq, Repr

/-- A page that an access waits for (R222, R223): die, PASID, 4 KiB page number of the address, and whether a write permission is needed.
`quiet` marks the request of a VDOT sample, for which the host is never asked by PRI and which nothing waits for (R350). -/
structure PageWait where
  die   : Fin 4
  pasid : BitVec 20
  page  : Nat
  write : Bool
  quiet : Bool
  deriving DecidableEq, Repr

/-- Why the machine cannot take a step. -/
inductive Fault where
  /-- Raised by an encoded instruction that is put on the agenda by itself, with no unit that issues it (no context holds
  the issue in hand). The step relation never does so: a fetch always sets the issuing unit. Safe. -/
  | noIssuer
  deriving DecidableEq, Repr

/-- Why an instruction has no meaning. -/
inductive Refusal where
  /-- Raised by a Dispatch arm of an instruction that the model gives no meaning yet. Safe. -/
  | notModelled (mnemonic : String)
  deriving DecidableEq, Repr

/-- A debug stop (R413, R414): the lanes of the stop set, whether BKPT made it, and the comparator or the n of BKPT that it
reports. -/
structure DebugStop where
  set  : BitVec 64
  bkpt : Bool
  num  : Nat
  deriving DecidableEq, Repr

/-- What a context in the state PARKED waits for (R75). -/
inductive Wait where
  | pages (ps : List PageWait)
  | reply (r : Request)
  | gcall (call : DWord) (next : DWord) (pops : List Pop)
  | gcallFree (leaf : DWord) (key : Word) (timeout : Nat) (call : DWord) (next : DWord) (pops : List Pop) (order : Nat)
  | waitfree (core : CoreId) (d : Reg) (old : Word) (next : DWord)
  | barrier (pa : Place) (phase : Word)
  | tags
  | fill
  | mwait (va : DWord) (place : Option Place) (d : Pair) (x : DWord) (scope : Scope) (deadline : Option Nat) (polled : Nat) (next : DWord)
  | grow (n : Nat) (order : Nat) (d : Reg) (next : DWord)
  | spawn (d : Pair) (next : DWord)
  | matrix (op : Nat)
  | obuf
  | round (n : Fin 8)
  | roundBad (code : Code)
  | trapSlot
  | system
  | svc (d : Quad) (a : DWord) (b : Word) (n : BitVec 8) (next : DWord) (slot : Bool)
  | debugWait (stop : DebugStop)
  | stopped (stop : DebugStop)
  | selfTest
  | gate
  deriving DecidableEq, Repr

/-- The states of a context (R75). FREE contexts are not listed; AWAY is a context whose place is a reckoner. -/
inductive CtxState where
  | live
  | parked (w : Wait)
  | draining
  deriving DecidableEq, Repr

/-- What a context is: a rod thread (on its rod or away on its board's reckoner), a gang that a launch placed, or a gang
that a rendezvous entry formed (the frame of the table and the entry's number in it, R295). -/
inductive CtxKind where
  | rod
  | gang
  | called (frame entry : Nat)
  deriving DecidableEq, Repr

/-- The place in a beam's issue order of an instruction of family 0x11 that has issued and waits (R320–R323, R327): its order
among the operations of the engine, the records and the tile that it names, and whether it is a matrix operation. -/
structure Turn where
  order : Nat
  recs  : List (Fin 16)
  tile  : Option Nat
  mma   : Bool
  deriving DecidableEq, Repr

/-- LAST of a sampling entry (R416). -/
inductive LastBranch where
  | none | branch | call | ret
  deriving DecidableEq, Repr

/-- A live context: its identity (`uid` tells it from later contexts of its slot), where it runs, its scheduling state and its architectural state.
`group` is the workgroup of the region that holds it (0xF_FFFF: the leaf region), `index` its gang index in its allocation
(R329), `pair` the second gang slot of a WIDTH = 2 group, `place` the place among a reckoner's 256 that it migrated to (R88, R416);
a thread that is there for a SYSTEM delivery alone has none (R376). `turn` is the place in its beam's issue order of an instruction that waits. `refused` holds the pages whose request the host refused for the
re-execution in hand (R223), `issued` the last issue (R119), `passed` the lanes and the PC that pass the next comparator check (R413). `ckpt` holds the
two lock-step checkpoints, newest first, and `retired` the instructions since the newest (R398, R399). -/
structure Ctx where
  key       : CtxKey
  uid       : Nat
  launch    : Word
  kind      : CtxKind
  group     : Nat
  index     : Nat
  pair      : Option (Fin 32)
  away      : Bool
  place     : Option Nat
  turn      : Option Turn
  st        : CtxState
  arch      : Arch
  refused   : List (PageWait × Code)
  issued    : Option Nat
  yielded   : List CtxKey
  passed    : Option (BitVec 64 × DWord)
  last      : LastBranch
  ckpt      : List Arch
  retired   : Nat
  rollbacks : Nat
  woken     : Bool
  deriving DecidableEq, Repr

/-- Where a launch came from: queue (p, i) of a host port, or a device LAUNCH (the launcher's TID, core and priority). -/
inductive Source where
  | host (port : Fin 2) (queue : Fin 16)
  | device (tid : DWord) (core : CoreId) (prio : Nat)
  deriving DecidableEq, Repr

/-- An entry of the pending-launch store (R57): the 192-byte packet, byte 0 lowest, its source, its arrival order, its
launch number (0 until a host packet is accepted, R59), whether it passed the checks (R58, R62) and its placement map as read,
the pages and refusals that reading its map met (R55), and whether it is rejected. -/
structure Pending where
  order   : Nat
  number  : Word
  pkt     : BitVec 1536
  source  : Source
  pasid   : BitVec 20
  checked : Bool
  map     : List CoreId
  waits   : List PageWait
  refused : List (PageWait × Code)
  dead    : Bool
  deriving DecidableEq, Repr

/-- The states of a dispatched launch that is not final: running, saved by pre-emption (R389), aborting (R377). -/
inductive LaunchState where
  | running
  | saved
  | aborting (code : Code)
  deriving DecidableEq, Repr

/-- A PC comparator (R411): DBPC, DBFLT, DBTID, DBGID. -/
structure Comparator where
  dbpc  : DWord
  dbflt : Word
  dbtid : DWord
  dbgid : DWord
  deriving DecidableEq, Repr

/-- The comparators of a core (R411): each with the number of the launch whose debugger armed it. -/
structure CoreCmps where
  core : CoreId
  cmps : Vector (Word × Comparator) 8
  deriving DecidableEq, Repr

/-- A watchdog timer (R392): the workgroup it guards (`none`: the launch's own) and the TICK of its last credit. -/
structure Timer where
  group : Option Nat
  since : Nat
  spent : Nat
  deriving DecidableEq, Repr

/-- One stamp write that is due (R60): STATE, CODE, the launch number it carries and its TICK. -/
structure StampWrite where
  state : Nat
  code  : BitVec 8
  num   : Word
  tick  : Nat
  deriving DecidableEq, Repr

/-- The stamp of a launch (R60–R63), by the arrival order of its packet: the writes that wait, the pages they wait for and
the refusals met, the latest STATE, whether its writes are suppressed, and whether an MSI-X follows the final write. -/
structure Stamp where
  order   : Nat
  pkt     : BitVec 1536
  source  : Source
  pasid   : BitVec 20
  launch  : Word
  queue   : List StampWrite
  waits   : List PageWait
  refused : List (PageWait × Code)
  top     : Nat
  dead    : Bool
  always  : Bool
  deriving DecidableEq, Repr

/-- A loaded code object (R20–R31), read once from its image at loading: the register counts, WIDTH, NFMTREQ, the kernel
entry offsets, the leaf table (offset, TIMEOUT, BEAMONLY), the overlay segment sizes, and the text section. -/
structure CodeObject where
  addr      : Nat
  size      : Nat
  scnt      : Nat
  acnt      : Nat
  vcnt      : Nat
  width     : Nat
  nfmtreq   : Nat
  kernels   : List Nat
  leaves    : List (Nat × Nat × Bool)
  overlays  : List Nat
  textOff   : Nat
  textSize  : Nat
  deriving DecidableEq, Repr

/-- A forwarding entry (R35, R36): the object it was made for (by its heap address now), and the old range and the new
address. -/
structure Forward where
  die    : Fin 4
  object : Nat
  base   : Nat
  size   : Nat
  target : Nat
  deriving DecidableEq, Repr

/-- The text window of a launch on a core (R104, R105): TBASE, XB and the window's bytes by offset; `bad`: its fill met an uncorrectable
error, and it has no text (R227). -/
structure Window where
  launch : Word
  core   : CoreId
  tbase  : DWord
  xb     : Nat
  bytes  : Mem
  bad    : Bool
  deriving DecidableEq, Repr

/-- A fill of a frame's fill unit (R111): the object, TBASE and XB it reads, and the windows it still has to complete,
oldest fill first; `read`: a window has had its text, so the one read of it met no error. -/
structure Fill where
  frame  : Nat
  object : Nat
  tbase  : DWord
  xb     : Nat
  joined : List (Word × CoreId)
  read   : Bool
  deriving DecidableEq, Repr

/-- An operand-buffer record (R316), sizes and offsets in 64-byte units; `fill` says that an OBLD is in progress. -/
structure ObsRecord where
  v     : Bool
  fill  : Bool
  fmt   : Nat
  dens  : Nat
  klen  : Nat
  base  : Nat
  size  : Nat
  scoff : Nat
  bmoff : Nat
  deriving DecidableEq, Repr

/-- A matrix operation in a beam's engine (R327, R328) or of a convergence round (R331): its number in issue order, the
gang with its allocation and index, the tile, the records, K and the first term, the TICK at which the engine started it,
the terms at which a residue mismatch holds it and the column (R335), its convergence register, and the round members that complete with
it. -/
structure MatrixOp where
  num     : Nat
  key     : CtxKey
  launch  : Word
  w       : Nat
  index   : Nat
  sparse  : Bool
  tile    : Nat
  a       : Fin 16
  b       : Fin 16
  k       : Nat
  k0      : Nat
  started : Option Nat
  check   : Option (Nat × Nat)
  round   : Option (Fin 8)
  members : List (CtxKey × DWord)
  pc      : DWord
  next    : DWord
  deriving DecidableEq, Repr

/-- A convergence register (R329–R331): SIGNED, the declared set M while a round is open, the gang indexes that have
issued their operation, the issued operations that wait for every signature, oldest first, the operation that is performed
for the round, and whether it has completed. -/
structure CvgReg where
  signed    : Word
  mset      : Option Word
  issued    : List Nat
  waiting   : List MatrixOp
  performed : Option MatrixOp
  done      : Bool
  deriving DecidableEq, Repr

/-- A pool region of a workgroup or of a leaf region on a core (R67, R72–R74): its partition word, scratch bytes, PERM
(R213), accumulator tiles by byte offset (R323), operand-buffer records and the bytes of their ranges by buffer offset
(R314), and convergence registers (R329).
`draining` holds register bytes that SHRINK or a finished gang released and that have not drained (R313). -/
structure Region where
  core     : CoreId
  launch   : Word
  w        : Nat
  pw       : Word
  scratch  : Mem
  perm     : DWord
  acc      : Mem
  obs      : Vector ObsRecord 16
  obuf     : Mem
  cvg      : Vector CvgReg 8
  draining : Nat
  deriving DecidableEq, Repr

/-- An accepted launch (R51–R63): its number and arrival order, its packet, its object's heap address now (R34), the
placement map as read, why it is being stopped to be saved (R389, R392), its spawn counter (R82), its heap allocations (R387: address, size and
device offset), its watchdog (R392), its debugger and the
comparators that the debug service arms on its cores (R411, R414), the device offset of its barrier-log ring (R415), and its saved contexts, regions and windows (core,
TBASE, XB) (R389). -/
structure Launch where
  number    : Word
  order     : Nat
  pkt       : BitVec 1536
  obj       : Nat
  pasid     : BitVec 20
  source    : Source
  map       : List CoreId
  st        : LaunchState
  halt      : Option Nat
  spawned   : Nat
  allocs    : List (Nat × Nat × Nat)
  timers    : List Timer
  debugger  : Bool
  cmps      : Vector Comparator 8
  logRing   : Option Nat
  saved     : List Ctx
  savedRegs : List Region
  savedWins : List (CoreId × DWord × Nat)
  deriving DecidableEq, Repr

/-- The part of a beam that its allocations share: its matrix operations in issue order (R328), whether a matrix column is
fenced (R335), and the gangs' round-robin place (R122). -/
structure Beam where
  core   : CoreId
  ops    : List MatrixOp
  fenced : Bool
  rr     : Nat
  deriving DecidableEq, Repr

/-- The states of a rendezvous entry that is not FREE (R295). -/
inductive RdvState where
  | opened | sealed | running
  deriving DecidableEq, Repr

/-- An entry of a frame's rendezvous table that is not FREE (R295): the frame, its number 0–63, its fields with
its callers' identities, and the order in which it sealed (R298). -/
structure RdvEntry where
  frame    : Nat
  num      : Nat
  st       : RdvState
  launch   : Word
  leaf     : DWord
  key      : Word
  deadline : Nat
  callers  : List Nat
  order    : Nat
  deriving DecidableEq, Repr

/-- A cached translation (R221): the level's owner (0 micro-TLB of a frame, 1 board TLB, 2 die cache), the PASID, the
page number in units of its size, the page size as its log₂, the host physical page base and the permissions. -/
structure TlbEntry where
  level : Fin 3
  owner : Nat
  pasid : BitVec 20
  page  : Nat
  log2  : Nat
  base  : Nat
  write : Bool
  deriving DecidableEq, Repr

/-- The states of a job (R264–R266): waiting on edges, dispatched, waiting for its engine, or gathered in a collective. -/
inductive JobState where
  | queued | running
  deriving DecidableEq, Repr

/-- A job of a frame's scheduler (R251, R256): its number in submission order, the submitter's slot and identity, its tag and launch, the
256-byte card (byte 0 lowest), the carried NFMT.TOP and the jobs it has edges to. `held` are the translations that it has
obtained and uses (R223, R257). `code` is the status it is to end with
once it has ended and waits for its stamp (R265). -/
structure Job where
  num     : Nat
  frame   : Nat
  key     : CtxKey
  uid     : Nat
  launch  : Word
  pasid   : BitVec 20
  tag     : Fin 64
  card    : BitVec 2048
  top     : Bool
  edges   : List Nat
  st      : JobState
  away    : Bool
  waits   : List PageWait
  refused : List (PageWait × Code)
  held    : List TlbEntry
  code    : Option (Code × Bool)
  collector : Bool
  deriving DecidableEq, Repr

/-- A line of a frame cache (R217, R274): the frame, the PASID and virtual address that tag it, its place, the 128 bytes,
and which of them are dirty. -/
structure CacheLine where
  frame : Nat
  pasid : BitVec 20
  line  : Nat
  place : Place
  data  : BitVec 1024
  dirty : BitVec 128
  deriving DecidableEq, Repr

/-- A line of host memory that a frame cache holds in CXL mode (R43, R219): the frame, the PASID and virtual line that tag it,
the host line, whether the frame owns it exclusively, whether it has been written, and the 128 bytes that host memory itself
still holds of a written line. Its own bytes are those of State.host, which is kept coherent by snoop (R274). -/
structure HostLine where
  frame : Nat
  pasid : BitVec 20
  line  : Nat
  pa    : Nat
  own   : Bool
  dirty : Bool
  stale : BitVec 1024
  deriving DecidableEq, Repr

/-- A line of an L2 slice (R217, R218): its number in device memory, the PASID that wrote it last, whether it has been written
since it was filled, and the 128 bytes that the YMS stack still holds of a written line. Its own bytes are those of State.dev. -/
structure L2Line where
  line  : Nat
  pasid : Option (BitVec 20)
  dirty : Bool
  stale : BitVec 1024
  deriving DecidableEq, Repr

/-- An error in a unit of storage (R226): in the home of a place, with how many of its symbols (YMS) or bits (SRAM) are bad, where one
is corrected when it is read and two or more are detected; or one bad bit in a 64-bit word (0–15) of a line of a frame's cache, named by
its PASID and virtual line, or of a line of an L2 slice, named by its number in device memory. -/
inductive Flaw where
  | home (place : Place) (bad : Nat)
  | frame (frame : Nat) (pasid : BitVec 20) (line word : Nat)
  | slice (line word : Nat)
  deriving DecidableEq, Repr

/-- The bad symbols or bits of a flaw's unit. -/
def Flaw.bad : Flaw → Nat
  | .home _ n => n
  | .frame _ _ _ _ => 1
  | .slice _ _ => 1

/-- A port of the YSL fabric (R10, R438): whether it trained up and is healthy, and the packages that it reaches. -/
structure YslPort where
  up    : Bool
  peers : List Nat
  deriving DecidableEq, Repr

/-- An ATS invalidation whose completion is not yet sent (R224): the PASID, the first 4 KiB page and the number of pages, and the first
byte and size of the larger pages whose entries it removed. -/
structure Invalidation where
  pasid : BitVec 20
  page  : Nat
  pages : Nat
  wide  : List (Nat × Nat)
  deriving DecidableEq, Repr

/-- One launch queue of a host port (R48). -/
structure Queue where
  base  : DWord
  log2n : BitVec 5
  en    : Bool
  tail  : Nat
  head  : Nat
  stat  : BitVec 3
  deriving DecidableEq, Repr

/-- The training state of a host port (R39): down, PCIe-only, or CXL. -/
inductive LinkMode where
  | down | pcie | cxl
  deriving DecidableEq, Repr

/-- A host port (R39, R42, R48): its mode, whether Gyhouc holds it down, its HCAP and its queues. -/
structure Port where
  mode   : LinkMode
  held   : Bool
  hcap   : Word
  queues : Vector Queue 16
  deriving DecidableEq, Repr

/-- What a reckoner's trap slot is used for (R378): a SYSTEM delivery, an SVC request or a debug stop. -/
inductive SlotUse where
  | system | svc | debug
  deriving DecidableEq, Repr

/-- A reckoner's trap slots and the requests that wait for one, in arrival order (R378). The board is 36 × die + board. -/
structure Reckoner where
  board : Nat
  slots : List (CtxKey × SlotUse)
  queue : List (CtxKey × SlotUse)
  deriving DecidableEq, Repr

/-- A gated store of a lock-step pair (R396), oldest first; `rel`: a frame-scope release (R288). -/
structure GatedStore where
  pair  : CoreId
  key   : CtxKey
  va    : DWord
  place : Place
  n     : Nat
  x     : BitVec 128
  scope : Scope
  rel   : Bool
  deriving DecidableEq, Repr

/-- The last frame-scope releaser that the home slice records for a line (R288). -/
structure Releaser where
  place : Place
  frame : Nat
  deriving DecidableEq, Repr

/-- A message to the outside that Gyhouc or the hardware wrote: an interrupt (R61, R392), a management report (R39, R49),
a launch-error entry (R63), a machine check or self-test record (R228, R403), an SPDM answer (R409), a flash record (R436), a debug stop (R413),
or a context save area (R390). -/
inductive Report where
  | msix (vector : BitVec 11)
  | portMismatch (port : Fin 2)
  | ringError (port : Fin 2) (queue : Fin 16)
  | pageFailure (pasid : BitVec 20) (page : Nat)
  | launchError (number : Word) (source : Source) (state : Nat) (code : BitVec 8) (fault : Code)
  | machineCheck (place : Place)
  | record (bytes : List Byte)
  | linkDown (port : Fin 2)
  | linkFailed (pkg : Nat)
  | portFailed (port : Fin 72)
  | invalidated (pasid : BitVec 20) (page pages : Nat)
  | loadStatus (status : Word) (addr : Nat)
  | unloadStatus (status : Word)
  | spdm (answer : List Byte)
  | flash (cause : TripCause) (tick : Nat)
  | debugStop (key : CtxKey) (stop : DebugStop)
  | saveArea (launch : Word) (why : Nat) (records : List (List Byte))
  | answer (status : BitVec 8) (value : BitVec 128)
  deriving DecidableEq, Repr

/-- Gyhouc's policy (R25, R31, R392, R401, R404, R405, R413, R416); `targets` are those of junction temperature, input current, core-rail
voltage (millivolts) and matrix heat flux; `queuePrio` are the priorities of the queues (16 × port + queue), `pageForward` its choice of
page-fault forwarding, to which no rule gives an effect; `stoppedCount` whether threads in debug stops count toward the watchdog. -/
structure Policy where
  rdvDefault    : Nat
  wdogPersist   : Nat
  wdogOther     : Nat
  requireSigned : Bool
  trusted       : List (BitVec 512)
  threshold     : Nat
  samplePeriod  : Nat
  powerTarget   : Nat
  targets       : Vector Nat 4
  heapLimit     : Nat
  queuePrio     : Vector Nat 32
  faultAction   : FaultAction
  pageForward   : Bool
  stoppedCount  : Bool
  deriving DecidableEq, Repr

/-- The power and heat clamps (R434, R435): the power samples of the last millisecond in milliwatts, newest first, whether
the power clamp throttles issue, the sensors that read beyond their clamp, the cycles that were withheld so far (R406), the latest
measurement, and the latest reading of each sensor that has reported (R439): °C, A, mV, W/cm². -/
structure Power where
  samples  : List Nat
  throttle : Bool
  clamps   : List Sensor
  withheld : Nat
  measured : Measured
  readings : List (Sensor × Nat)
  deriving DecidableEq, Repr

/-- What a targeted self-test tests (R401): the pair of an even rod, a matrix column of a beam, a bank or a row. -/
inductive TestTarget where
  | pair (c : CoreId)
  | column (c : CoreId)
  | storage (x : Slice)
  deriving DecidableEq, Repr

/-- A targeted self-test in progress (R401–R403): its target, the context that was rolled back or whose operation is held,
and the record's DETAIL and TICK. -/
structure SelfTest where
  target : TestTarget
  key    : Option CtxKey
  detail : Nat
  tick   : Nat
  deriving DecidableEq, Repr

/-- The boot state (R407, R436): running, held in recovery, or without power after a trip. -/
inductive Boot where
  | running | recovery | off
  deriving DecidableEq, Repr

/-- SPDM progress (R409): whether the algorithms are negotiated, whether the signature and the hash algorithm were both
offered, and the transcript so far. -/
structure Spdm where
  negotiated : Bool
  sign       : Bool
  hash       : Bool
  transcript : List Byte
  deriving DecidableEq, Repr

/-- The issue in hand: the context, the converged set, the PC and the length of the instruction (R123, R178). -/
structure Issue where
  key  : CtxKey
  exec : BitVec 64
  pc   : DWord
  len  : Nat
  deriving DecidableEq, Repr

/-- The whole machine: one C960 package. INVENTORY.md says, field by field, which rule of the spec names it. -/
structure State where
  tick      : Nat
  agenda    : List Instr
  inputs    : List (Nat × Instr)
  issue     : Option Issue
  fetched   : Option (List Word)
  freeCtr   : Nat
  boot      : Boot
  pkg       : Nat
  domain    : List Nat
  opened    : List (Nat × BitVec 20 × Nat × Nat)
  ysl       : Vector YslPort 72
  hdmBase   : Nat
  codeHeap  : Nat × Nat × Nat
  ports     : Vector Port 2
  pending   : List Pending
  arrivals  : Nat
  nextNum   : Word
  launches  : List Launch
  stamps    : List Stamp
  disabled  : List CoreId
  freecnt   : List (CoreId × Word)
  spawnQ    : List (CtxKey × CoreId × DWord × DWord)
  objects   : List CodeObject
  forwards  : List Forward
  windows   : List Window
  fills     : List Fill
  ctxs      : List Ctx
  uids      : Nat
  regions   : List Region
  beams     : List Beam
  rdv       : List RdvEntry
  jobs      : List Job
  jobNum    : Nat
  mismatched : List (Nat × Nat)
  cache     : List CacheLine
  releasers : List Releaser
  hostLines : List HostLine
  l2        : List L2Line
  flaws     : List Flaw
  dev       : Mem
  host      : Mem
  dom       : List (Nat × Mem)
  tlb       : List TlbEntry
  invals    : List Invalidation
  ats       : List PageWait
  pri       : List PageWait
  reckoners : List Reckoner
  gates     : List GatedStore
  strikes   : List CtxKey
  ecc       : List (Slice × Nat × Nat)
  rowSpares : List (Nat × Nat)
  fenced    : List Slice
  tests     : List SelfTest
  policy    : Policy
  power     : Power
  sampleSeq : Nat
  samples   : List Byte
  spdm      : Spdm
  measure   : Vector (BitVec 512) 4
  cmps      : List CoreCmps
  flash     : List (TripCause × Nat)
  reports   : List Report
  deriving DecidableEq, Repr

/-- A launch queue after reset (R48). -/
def Queue.reset : Queue := ⟨0, 0, false, 0, 0, 0⟩

/-- A host port after reset (R39, R42): its link is down, and HCAP has its reset value. -/
def Port.reset : Port := ⟨.down, false, 0x000003F8, Vector.replicate 16 Queue.reset⟩

/-- Gyhouc's policy after reset: the defaults of R25 and R392, and a model's value where the spec gives none (DESIGN CHOICE, log 10). -/
def Policy.reset : Policy := ⟨2048, 100000, 60000000, false, [], 255, 0, 2800, #v[95, 58, 900, 200], 2 ^ 40,
  Vector.replicate 32 0, .retire, true, false⟩

/-- The machine right after a package reset: nothing is loaded, launched or resident, and the links are down. Fields that the
spec gives no reset value for: DESIGN CHOICE, logs 1 to 11. -/
def State.reset : State where
  tick := 0
  agenda := []
  inputs := []
  issue := none
  fetched := none
  freeCtr := 0
  boot := .running
  pkg := 0
  domain := [0]
  opened := []
  ysl := Vector.replicate 72 ⟨false, []⟩
  hdmBase := 0x4000000000
  codeHeap := (0x4000000000, 0, 2 ^ 32)
  ports := Vector.replicate 2 Port.reset
  pending := []
  arrivals := 0
  nextNum := 1
  launches := []
  stamps := []
  disabled := []
  freecnt := []
  spawnQ := []
  objects := []
  forwards := []
  windows := []
  fills := []
  ctxs := []
  uids := 0
  regions := []
  beams := []
  rdv := []
  jobs := []
  jobNum := 0
  mismatched := []
  cache := []
  releasers := []
  hostLines := []
  l2 := []
  flaws := []
  dev := []
  host := []
  dom := []
  tlb := []
  invals := []
  ats := []
  pri := []
  reckoners := []
  gates := []
  strikes := []
  ecc := []
  rowSpares := []
  fenced := []
  tests := []
  policy := Policy.reset
  power := ⟨[], false, [], 0, ⟨0, 0, 0, 0⟩, []⟩
  sampleSeq := 0
  samples := []
  spdm := ⟨false, false, false, []⟩
  measure := Vector.replicate 4 0
  cmps := []
  flash := []
  reports := []

end Sys2Proof.Machine
end

