-- ==== Sys2Proof/Machine/Memory.lean ====
section
/-!
DEFINITION. Bytes in memory: reading and writing one byte, byte order (R3), and the canonical form that every operation
keeps. A byte that nothing has written reads as 0 (DESIGN CHOICE, log 9).
-/
namespace Sys2Proof.Machine

/-- The byte at an address. -/
def Mem.get : Mem → Nat → Byte
  | [], _ => 0
  | (b, x) :: m, a => if a = b then x else Mem.get m a

/-- Writing one byte; writing 0 removes the entry, so that equal memories are equal lists. -/
def Mem.put : Mem → Nat → Byte → Mem
  | [], a, x => if x = 0 then [] else [(a, x)]
  | (b, y) :: m, a, x =>
    if a < b then (if x = 0 then (b, y) :: m else (a, x) :: (b, y) :: m)
    else if a = b then (if x = 0 then m else (a, x) :: m)
    else (b, y) :: Mem.put m a x

/-- The addresses rise strictly from `lo` on and no byte is 0. -/
def Mem.wfFrom : Nat → Mem → Bool
  | _, [] => true
  | lo, (a, x) :: m => decide (lo ≤ a) && x != 0 && Mem.wfFrom (a + 1) m

/-- The canonical form: strictly rising addresses, no byte equal to what an unlisted address reads as. -/
def Mem.wf (m : Mem) : Bool := Mem.wfFrom 0 m

/-- The n bytes from an address on, lowest address first. -/
def Mem.bytes (m : Mem) (a : Nat) : Nat → List Byte
  | 0 => []
  | n + 1 => m.get a :: Mem.bytes m (a + 1) n

/-- Writing bytes from an address on, lowest address first. -/
def Mem.putBytes (m : Mem) (a : Nat) : List Byte → Mem
  | [] => m
  | x :: xs => Mem.putBytes (m.put a x) (a + 1) xs

/-- The little-endian value of bytes (R3). -/
def leNat : List Byte → Nat
  | [] => 0
  | x :: xs => x.toNat + 256 * leNat xs

/-- The n low bytes of a value, lowest first (R3). -/
def leBytes (x : Nat) : Nat → List Byte
  | 0 => []
  | n + 1 => BitVec.ofNat 8 x :: leBytes (x / 256) n

/-- The n-byte little-endian value at an address. -/
def Mem.read (m : Mem) (a n : Nat) : Nat := leNat (m.bytes a n)

/-- Writing an n-byte little-endian value at an address. -/
def Mem.write (m : Mem) (a n x : Nat) : Mem := m.putBytes a (leBytes x n)

/-- The bytes below a bound, and from the bound on: dropping a range keeps the form. -/
def Mem.filterAddr (p : Nat → Bool) (m : Mem) : Mem := m.filter fun c => p c.1

end Sys2Proof.Machine
end

