-- ==== Sys2Proof/Machine/Coherence.lean ====
section
/-!
DEFINITION. Cores and contexts by name, and where bytes are served: the home of a place, the frame caches (R274), the
touched-bank mask (R284, R285), releases and acquires (R286, R287), promotion (R288) and gated stores (R396).
-/
namespace Sys2Proof.Machine

/-- Inserting into a list that ascends by a key, before the first greater one. -/
def insertOn {α : Type} (f : α → Nat) (x : α) : List α → List α
  | [] => [x]
  | y :: ys => if f x ≤ f y then x :: y :: ys else y :: insertOn f x ys

/-- A list ordered by a key; equal keys keep their order. -/
def sortOn {α : Type} (f : α → Nat) (xs : List α) : List α := xs.foldr (insertOn f) []

/-- Whether a value is in a range [lo, lo + n). -/
def inRange (x lo n : Nat) : Bool := decide (lo ≤ x) && decide (x < lo + n)

/-! ## Core identifiers (R66) -/

/-- DIE. -/
def coreDie (c : CoreId) : Fin 4 := ⟨c.toNat / 4096 % 4, Nat.mod_lt _ (by decide)⟩
/-- BOARD. -/
def coreBoard (c : CoreId) : Nat := c.toNat / 64 % 64
/-- FRAME. -/
def coreFrame (c : CoreId) : Nat := c.toNat / 16 % 4
/-- SLOT. -/
def coreSlot (c : CoreId) : Nat := c.toNat % 16
/-- A core identifier from its fields. -/
def mkCore (die board frame slot : Nat) : CoreId := BitVec.ofNat 14 (4096 * die + 64 * board + 16 * frame + slot)
/-- The number of a core's board among the package's 144. -/
def boardNo (c : CoreId) : Nat := 36 * (coreDie c).val + coreBoard c
/-- The number of a core's frame among the package's 576. -/
def frameNo (c : CoreId) : Nat := 4 * boardNo c + coreFrame c
/-- The rod of a number and slot, or the beam (slot 8), of a frame. -/
def frameCore (frame slot : Nat) : CoreId := mkCore (frame / 144) (frame / 4 % 36) (frame % 4) slot
/-- The reckoner of a board, recorded with FRAME = 0. -/
def boardReckoner (board : Nat) : CoreId := mkCore (board / 36) (board % 36) 0 12
/-- Whether an identifier names a rod. -/
def isRod (c : CoreId) : Bool := coreBoard c < 36 && coreSlot c < 8
/-- Whether an identifier names a beam. -/
def isBeam (c : CoreId) : Bool := coreBoard c < 36 && coreSlot c == 8
/-- Whether an identifier names a reckoner. -/
def isReckoner (c : CoreId) : Bool := coreBoard c < 36 && coreSlot c == 12 && coreFrame c == 0
/-- Whether an identifier names a core that exists and is enabled (R13, R66). -/
def State.enabled (s : State) (c : CoreId) : Bool := (isRod c || isBeam c || isReckoner c) && !(s.disabled.contains c)
/-- The host port of a die (R40). -/
def diePort (d : Fin 4) : Fin 2 := ⟨d.val / 2, by omega⟩

/-- The I/O die of a port of the YSL fabric: 36 ports stand on each (R10). -/
def yslIod (p : Fin 72) : Fin 2 := ⟨p.val / 36, by omega⟩
/-- The number of a fabric port on its I/O die, which is its lane in that die's connector (R438). -/
def yslLane (p : Fin 72) : Fin 36 := ⟨p.val % 36, by omega⟩

/-! ## Contexts and launches by name -/

/-- The context in a slot. -/
def State.ctx? (s : State) (k : CtxKey) : Option Ctx := s.ctxs.find? fun c => c.key == k

/-- Replacing a context by its key. -/
def State.setCtx (s : State) (c : Ctx) : State :=
  { s with ctxs := s.ctxs.map fun x => if x.key == c.key then c else x }

/-- Changing a context in place. -/
def State.modCtx (s : State) (k : CtxKey) (f : Ctx → Ctx) : State :=
  { s with ctxs := s.ctxs.map fun x => if x.key == k then f x else x }

/-- The accepted launch of a number. -/
def State.launch? (s : State) (n : Word) : Option Launch := s.launches.find? fun l => l.number == n

/-- Changing a launch in place. -/
def State.modLaunch (s : State) (n : Word) (f : Launch → Launch) : State :=
  { s with launches := s.launches.map fun l => if l.number == n then f l else l }

/-- The PASID of a launch. -/
def State.pasidOf (s : State) (n : Word) : BitVec 20 := ((s.launch? n).map (·.pasid)).getD 0

/-- The region of a workgroup (or 0xF_FFFF, the leaf region) of a launch on a core. -/
def State.region? (s : State) (core : CoreId) (launch : Word) (w : Nat) : Option Region :=
  s.regions.find? fun r => r.core == core && r.launch == launch && r.w == w

/-- Changing a region in place. -/
def State.modRegion (s : State) (core : CoreId) (launch : Word) (w : Nat) (f : Region → Region) : State :=
  { s with regions := s.regions.map fun r => if r.core == core && r.launch == launch && r.w == w then f r else r }

/-- The frame whose cache serves a context: none on a reckoner, where .FRM is performed as .DEV (R272). -/
def Ctx.frame? (c : Ctx) : Option Nat := if c.away then none else some (frameNo c.key.core)

/-- The core on which a context runs now (R66, R88). -/
def Ctx.core (c : Ctx) : CoreId := if c.away then boardReckoner (boardNo c.key.core) else c.key.core

/-- The peers of the domain that no healthy port of the fabric reaches (R364, R438). -/
def State.deadPeers (s : State) : List Nat :=
  s.domain.filter fun p => p != s.pkg && !(s.ysl.toList.any fun y => y.up && y.peers.contains p)

/-- The even rod that names a lock-step pair (R394). -/
def pairCore (c : CoreId) : CoreId := mkCore (coreDie c).val (coreBoard c) (coreFrame c) (coreSlot c / 2 * 2)

/-! ## Homes of bytes -/

/-- The home slice's board and die of a device-memory offset (R218). -/
def homeBoard (d : Nat) : Nat := (d / 128 + d / 4096 / 12) % 36
/-- The die of a device-memory offset (R218). -/
def homeDie (d : Nat) : Nat := d / 4096 % 4
/-- The YMS stack of a device-memory offset: stacks 3d to 3d + 2 stand beside die d (R10, R218). -/
def homeStack (d : Nat) : Nat := 3 * homeDie d + d / 4096 / 4 % 3
/-- The die beside which a stack stands (R10). -/
def stackDie (n : Nat) : Nat := n / 3
/-- The address within its stack of a device-memory offset (R218). -/
def stackAddr (d : Nat) : Nat := d / 4096 / 12 * 4096 + d % 4096
/-- The L2 slice of a device-memory line, by its board's number in the package (R218). -/
def homeSlice (line : Nat) : Nat := 36 * homeDie (128 * line) + homeBoard (128 * line)
/-- The bank group of a device-memory offset (R284). -/
def bankGroup (d : Nat) : Nat := (36 * homeDie d + homeBoard d) % 60

/-- The place n bytes on. -/
def Place.plus : Place → Nat → Place
  | .dev d, n => .dev (d + n)
  | .host p, n => .host (p + n)
  | .scratch c l w o, n => .scratch c l w (o + n)
  | .dom p d, n => .dom p (d + n)

/-- Whether frame caches hold a place's lines incoherently: device memory and domain data (R274). -/
def Place.cached : Place → Bool
  | .dev _ => true
  | .dom _ _ => true
  | _ => false

/-- The first byte of the 128-byte line that holds a place (R217). -/
def Place.lineBase : Place → Place
  | .dev d => .dev (d / 128 * 128)
  | .host p => .host (p / 128 * 128)
  | .scratch c l w o => .scratch c l w (o / 128 * 128)
  | .dom p d => .dom p (d / 128 * 128)

/-- The memory of another package. -/
def domMem (ds : List (Nat × Mem)) (p : Nat) : Mem := ((ds.find? fun x => x.1 == p).map (·.2)).getD []

/-- Replacing the memory of another package. -/
def setDomMem (ds : List (Nat × Mem)) (p : Nat) (m : Mem) : List (Nat × Mem) :=
  if ds.any fun x => x.1 == p then ds.map fun x => if x.1 == p then (p, m) else x else (p, m) :: ds

/-- The byte that a place's home holds (R274). -/
def State.homeByte (s : State) : Place → Byte
  | .dev d => s.dev.get d
  | .host p => s.host.get p
  | .scratch c l w o => ((s.region? c l w).map fun r => r.scratch.get o).getD 0
  | .dom p d => if p = s.pkg then s.dev.get d else (domMem s.dom p).get d

/-- Writing a byte at its home. -/
def State.putHome (s : State) (x : Byte) : Place → State
  | .dev d => { s with dev := s.dev.put d x }
  | .host p => { s with host := s.host.put p x }
  | .scratch c l w o => s.modRegion c l w fun r => { r with scratch := r.scratch.put o x }
  | .dom p d =>
    if p = s.pkg then { s with dev := s.dev.put d x }
    else { s with dom := setDomMem s.dom p ((domMem s.dom p).put d x) }

/-- Writing bytes at their home, lowest address first. -/
def State.putHomes (s : State) (p : Place) : List Byte → State
  | [] => s
  | x :: xs => State.putHomes (s.putHome x p) (p.plus 1) xs

/-- The bytes that a place's home holds from there on. -/
def State.homeBytes (s : State) (p : Place) : Nat → List Byte
  | 0 => []
  | n + 1 => s.homeByte p :: State.homeBytes s (p.plus 1) n

/-! ## Frame-cache lines (R217, R274) -/

/-- Byte i of a line. -/
def lineByte (x : BitVec 1024) (i : Nat) : Byte := x.extractLsb' (8 * i) 8

/-- A line with byte i replaced. -/
def putLineByte (x : BitVec 1024) (i : Nat) (b : Byte) : BitVec 1024 :=
  (x &&& ~~~((0xFF : BitVec 1024) <<< (8 * i))) ||| ((b.setWidth 1024) <<< (8 * i))

/-- A line of 128 bytes. -/
def lineOfBytes (bs : List Byte) : BitVec 1024 := BitVec.ofNat 1024 (leNat bs)

/-- The bytes of a line, lowest address first. -/
def lineBytes (x : BitVec 1024) : List Byte := (List.range 128).map (lineByte x)

/-! ## Home slices (R217, R218, R274) -/

/-- A device-memory line in its home slice: a write, by a PASID where one makes it, leaves it dirty. A full slice gives up its
oldest line, which goes to its stack (DESIGN CHOICE, log 26). -/
def State.enterL2 (s : State) (pasid : Option (BitVec 20)) (write : Bool) : Place → State
  | .dev d =>
    let line := d / 128
    let now := lineOfBytes (s.homeBytes (.dev (128 * line)) 128)
    match s.l2.find? fun x => x.line == line with
    | some x =>
      if write then
        { s with l2 := s.l2.map fun y =>
            if y.line == line then ⟨line, pasid, true, if x.dirty then x.stale else now⟩ else y }
      else s
    | none =>
      let mine := s.l2.filter fun x => homeSlice x.line == homeSlice line
      let rest := if mine.length < Config.l2Lines then s.l2
        else match mine.getLast? with
          | some y => s.l2.filter fun x => x.line != y.line
          | none => s.l2
      { s with l2 := ⟨line, pasid, write, now⟩ :: rest }
  | _ => s

/-- Whether a cache line is the one that a frame holds for a PASID's address. -/
def CacheLine.holds (l : CacheLine) (frame : Nat) (pasid : BitVec 20) (va : Nat) : Bool :=
  l.frame == frame && l.pasid == pasid && l.line == va / 128

/-- The line that a frame holds for an address. -/
def State.line? (s : State) (frame : Nat) (pasid : BitVec 20) (va : Nat) : Option CacheLine :=
  s.cache.find? fun l => l.holds frame pasid va

/-- The bank group of a cached place (R284). -/
def Place.group : Place → Nat
  | .dev d => bankGroup d
  | .dom _ d => bankGroup d
  | _ => 0

/-- Writing a line's dirty bytes at their home, from byte i on. -/
def State.writeLineBytes (s : State) (l : CacheLine) (i : Nat) : Nat → State
  | 0 => s
  | n + 1 =>
    State.writeLineBytes (if l.dirty.getLsbD i then s.putHome (lineByte l.data i) (l.place.plus i) else s) l (i + 1) n

/-- PHASE of the group cell at a place, as its serialization point holds it (R78). -/
def State.phaseAt (s : State) (p : Place) : Word := BitVec.ofNat 32 (leNat (s.homeBytes (p.plus 8) 4))

/-- A write to a line: every MWAIT parked on it will read again (R270), and a thread parked at BAR goes on once its cell's PHASE has
changed, whoever changed it (R79, R354). -/
def State.noteWrite (s : State) (p : Place) : State :=
  { s with ctxs := s.ctxs.map fun c =>
      match c.st with
      | .parked (.mwait _ q _ _ _ _ _ _) => if q.map Place.lineBase == some p.lineBase then { c with woken := true } else c
      | .parked (.barrier q n) => if s.phaseAt q != n then { c with st := .live } else c
      | _ => c }

/-- Performing a write at its home (R274): a device-memory line enters its home slice, and every MWAIT on the line reads
again. -/
def State.homeWrite (s : State) (pasid : Option (BitVec 20)) (p : Place) (bs : List Byte) : State :=
  ((s.enterL2 pasid true p).putHomes p bs).noteWrite p

/-- Whether a place lies in a package that no healthy route reaches (R364). -/
def State.unreachable (s : State) : Place → Bool
  | .dom p _ => p != s.pkg && s.deadPeers.contains p
  | _ => false

/-- A dirty line that cannot be written back is dropped, and a machine check names it (R228, R364). -/
def State.loseLine (s : State) (l : CacheLine) : State :=
  { s with cache := s.cache.filter fun x => !(x.holds l.frame l.pasid (128 * l.line)), reports := s.reports ++ [Report.machineCheck l.place] }

/-! ## Errors in storage (R226, R227) -/

/-- A day in cycles of the arithmetic clock (R6, R401). -/
def dayCycles : Nat := 86400 * 1000000 * Config.cyclesPerMicro

/-- The lowest spare of a row's bank that no row uses (R226). -/
def State.freeSpare (s : State) (row : Nat) : Option Nat :=
  (List.range Config.spareRows).find? fun i => s.rowSpares.all fun x => x.2 != i || Config.rowBank x.1 != Config.rowBank row

/-- Remapping a row to a spare of its bank, while one is free (R226). -/
def State.remapRow (s : State) (row : Nat) : State :=
  if s.rowSpares.any fun x => x.1 == row then s
  else match s.freeSpare row with
    | some i => { s with rowSpares := s.rowSpares ++ [(row, i)] }
    | none => s

/-- The bank number of a slice of storage (R403): the bank itself, or the DRAM bank that holds the row. -/
def sliceBank : Slice → Nat
  | .bank b => b
  | .row r => Config.rowBank r

/-- Counting a corrected error in the 24 hours that hold it: above the threshold a row is remapped, and the slice is
tested (R226, R401) (DEDUCED, log 32). -/
def State.countCorrected (s : State) (x : Slice) : State :=
  let n := match s.ecc.find? fun e => e.1 == x with
    | some (_, n, since) => if s.tick < since + dayCycles then (n + 1, since) else (1, s.tick)
    | none => (1, s.tick)
  let s := { s with ecc := (x, n) :: s.ecc.filter fun e => e.1 != x }
  if n.1 ≤ s.policy.threshold || s.fenced.contains x || s.tests.any fun t => t.target == .storage x then s
  else
    let s := match x with | .row r => s.remapRow r | .bank _ => s
    { s with tests := s.tests ++ [⟨TestTarget.storage x, none, sliceBank x, s.tick⟩] }

/-- The number of a bank of a frame's cache among the package's SRAM banks (DESIGN CHOICE, log 54). -/
def cacheBank (frame line : Nat) : Nat := Config.cacheBanks * frame + line % Config.cacheBanks

/-- The number of the bank of a core's pool that holds a scratch byte (DESIGN CHOICE, log 54). -/
def poolBank (core : CoreId) (off : Nat) : Nat := 9216 + 16 * core.toNat + Config.poolBank core off % 16

/-- The number of the bank of a home slice among the package's SRAM banks (DESIGN CHOICE, log 54). -/
def sliceCacheBank (line : Nat) : Nat := 9216 + 16 * 2 ^ 14 + homeSlice line

/-- Whether the self-test of an SRAM bank holds the accesses of a launch by the context of a core or by a job (R401): those
through its frame's cache, those to a pool that holds a region of the launch or is the core's own, and all that a home slice may
serve (DEDUCED, log 32). -/
def State.bankTested (s : State) (launch : Word) (core : Option CoreId) : Bool :=
  s.tests.any fun t =>
    match t.target with
    | .storage (.bank b) =>
      if b < 9216 then core.any fun c => !(isReckoner c) && b / Config.cacheBanks == frameNo c
      else if b < sliceCacheBank 0 then
        let pool := (b - 9216) / 16
        core.any (fun c => c.toNat == pool) || s.regions.any fun r => r.launch == launch && r.core.toNat == pool
      else true
    | _ => false

/-- Whether the self-test of a home slice's bank holds accesses to n bytes of device memory (R401). -/
def State.sliceTested (s : State) (off n : Nat) : Bool :=
  s.tests.any fun t => (List.range ((off + n + 127) / 128 - off / 128)).any fun i =>
    t.target == .storage (.bank (sliceCacheBank (off / 128 + i)))

/-- The row of a stack that holds a device-memory offset, numbered over the package's 12 stacks (R226). -/
def rowOf (d : Nat) : Nat := 12 * Config.rowAt (stackAddr d) + homeStack d

/-- The slice of the package's storage that holds a byte (R226): a DRAM row or a pool's SRAM bank. -/
def Place.slice? : Place → Option Slice
  | .dev d => some (.row (rowOf d))
  | .scratch c _ _ o => some (.bank (poolBank c o))
  | _ => none

/-- The bytes of the unit over which a place's storage corrects and detects errors (R217, R226): a YMS codeword, or 32 bits of a
pool. -/
def Place.eccUnit : Place → Nat
  | .scratch _ _ _ _ => 4
  | _ => 64

/-- The address of a place in its own storage. -/
def Place.offset : Place → Nat
  | .dev d => d
  | .host p => p
  | .scratch _ _ _ o => o
  | .dom _ d => d

/-- The slice of storage whose errors a flaw counts among. -/
def Flaw.slice? : Flaw → Option Slice
  | .home p _ => p.slice?
  | .frame f _ l _ => some (.bank (cacheBank f l))
  | .slice l _ => some (.bank (sliceCacheBank l))

/-- Whether a read of n bytes at a place goes through a flaw's unit: of its home, or of the line that its L2 slice holds. -/
def State.meets (s : State) (f : Flaw) (p : Place) (n : Nat) : Bool :=
  match f, p with
  | .slice l w, .dev d => decide (128 * l + 8 * w < d + n) && decide (d < 128 * l + 8 * w + 8) && s.l2.any fun x => x.line == l
  | .home q _, p =>
    let u := p.eccUnit
    let o := q.offset / u * u
    decide (o < p.offset + n) && decide (p.offset < o + u) &&
      match q, p with
      | .dev _, .dev _ => true
      | .scratch c l w _, .scratch c' l' w' _ => c == c' && l == l' && w == w'
      | .dom q _, .dom q' _ => q == q'
      | _, _ => false
  | _, _ => false

/-- Whether a read of n bytes at a place meets an uncorrectable error: two bad symbols or bits of one unit (R226, R227)
(DESIGN CHOICE, log 54). -/
def State.flawed (s : State) (p : Place) (n : Nat) : Bool := s.flaws.any fun f => decide (2 ≤ f.bad) && s.meets f p n

/-- The corrected errors of flaws that a read went through are counted (R226). -/
def State.countFlaws (s : State) (fs : List Flaw) : State := (fs.filterMap Flaw.slice?).foldl State.countCorrected s

/-- A read of n bytes at a place: the errors that it corrects are counted (R226). -/
def State.noteRead (s : State) (p : Place) (n : Nat) : State := s.countFlaws (s.flaws.filter fun f => f.bad == 1 && s.meets f p n)

/-- A read of n bytes of a line that a frame's cache holds: the errors that it corrects are counted (R226). -/
def State.noteLine (s : State) (frame : Nat) (pasid : BitVec 20) (va n : Nat) : State :=
  if (s.line? frame pasid va).isNone then s
  else s.countFlaws (s.flaws.filter fun f =>
    match f with
    | .frame g q l w => g == frame && q == pasid && l == va / 128 && decide (8 * w < va % 128 + n) && decide (va % 128 < 8 * w + 8)
    | _ => false)

/-! ## Lines of the frame caches -/

/-- Writing a dirty line back to its home slice; the frame keeps it clean (R286). The errors that reading it corrects are counted (R226). -/
def State.writeBack (s : State) (l : CacheLine) : State :=
  if s.unreachable l.place then s.loseLine l else
  let s := (((s.noteLine l.frame l.pasid (128 * l.line) 128).enterL2 (some l.pasid) true l.place).writeLineBytes l 0 128).noteWrite l.place
  { s with cache := s.cache.map fun x => if x.holds l.frame l.pasid (128 * l.line) then { x with dirty := 0 } else x }

/-- Writing back every line of a list that is dirty. -/
def State.writeBackAll (s : State) : List CacheLine → State
  | [] => s
  | l :: ls => State.writeBackAll (if l.dirty == 0 then s else s.writeBack l) ls

/-- The device-memory and domain lines of a bank of a frame's cache, newest first (R12, R217: bank = line mod 16). -/
def State.bankLines (s : State) (frame bank : Nat) : List CacheLine :=
  s.cache.filter fun l => l.frame == frame && l.line % Config.cacheBanks == bank

/-- The host-memory lines of a bank of a frame's cache, newest first (R219). -/
def State.bankHosts (s : State) (frame bank : Nat) : List HostLine :=
  s.hostLines.filter fun h => h.frame == frame && h.line % Config.cacheBanks == bank

/-- Room for one more line in a bank of a frame's cache (R12, R217): a full bank gives up its oldest line, which goes home when
it is dirty (DESIGN CHOICE, log 26). -/
def State.roomFor (s : State) (frame line : Nat) : State :=
  let bank := line % Config.cacheBanks
  if (s.bankLines frame bank).length + (s.bankHosts frame bank).length < Config.bankLines then s
  else match (s.bankLines frame bank).getLast? with
    | some l =>
      let s := if l.dirty == 0 then s else s.writeBack l
      { s with cache := s.cache.filter fun x => !(x.holds l.frame l.pasid (128 * l.line)) }
    | none =>
      match (s.bankHosts frame bank).getLast? with
      | some h => { s with hostLines := s.hostLines.filter fun x => x != h }
      | none => s

/-- A frame's cache with the line of an address present: a miss fills from the home slice (R274). -/
def State.fillLine (s : State) (frame : Nat) (pasid : BitVec 20) (va : Nat) (p : Place) : State :=
  if (s.line? frame pasid va).isSome then s
  else
    let s := (s.roomFor frame (va / 128)).enterL2 (some pasid) false p
    { s with cache := ⟨frame, pasid, va / 128, p.lineBase, lineOfBytes (s.homeBytes p.lineBase 128), 0⟩ :: s.cache }

/-- The newest gated store of a context that holds a byte (R396). -/
def gatedByte (gs : List GatedStore) (k : CtxKey) (p : Place) : Option Byte :=
  gs.foldl (fun acc g =>
    if g.key == k then
      match (List.range g.n).find? (fun i => g.place.plus i == p) with
      | some i => some (BitVec.ofNat 8 (g.x.toNat / 256 ^ i))
      | none => acc
    else acc) none

/-- The newest push of a context, not yet performed, that holds a byte (R275). -/
def pushedByte (ps : List Pushed) (p : Place) : Option Byte :=
  ps.foldl (fun acc g =>
    match (List.range g.n).find? (fun i => g.place.plus i == p) with
    | some i => some (BitVec.ofNat 8 (g.x.toNat / 256 ^ i))
    | none => acc) none

/-- The newest byte of a place that a context has stored or pushed and not yet performed (R275, R396). -/
def State.ownByte (s : State) (k : CtxKey) (p : Place) : Option Byte :=
  match gatedByte s.gates k p with
  | some x => some x
  | none => (s.ctx? k).bind fun c => pushedByte c.arch.pushes p

/-- The byte that a load by a context reads (R274, R275, R396): its own bytes that are not yet performed, then at .FRM the
frame's line; at a wider scope a dirty line serves the load, its clean bytes as their home has them (DEDUCED, log 26); then the
home. -/
def State.loadByte (s : State) (k : CtxKey) (frame : Option Nat) (pasid : BitVec 20) (va : Nat) (p : Place) (sc : Scope) : Byte :=
  match s.ownByte k p with
  | some x => x
  | none =>
    match (if p.cached then frame.bind fun f => s.line? f pasid va else none) with
    | some l =>
      if sc == .frm || l.dirty.getLsbD (va % 128) then lineByte l.data (va % 128) else s.homeByte p
    | none => s.homeByte p

/-- The n bytes that a load reads (DESIGN CHOICE, log 52). -/
def State.loadBytes (s : State) (k : CtxKey) (frame : Option Nat) (pasid : BitVec 20) (va : Nat) (p : Place) (sc : Scope) :
    Nat → List Byte
  | 0 => []
  | n + 1 => s.loadByte k frame pasid va p sc :: State.loadBytes s k frame pasid (va + 1) (p.plus 1) sc n

/-- Storing bytes into a line that the frame holds, dirty or not. -/
def putLineBytes (l : CacheLine) (i : Nat) (mark : Bool) : List Byte → CacheLine
  | [] => l
  | x :: xs =>
    putLineBytes { l with data := putLineByte l.data i x,
                          dirty := if mark then l.dirty ||| (1#128 <<< i) else l.dirty } (i + 1) mark xs

/-- Whether the port that serves a frame runs CXL (R39, R40). -/
def State.frameCxl (s : State) (frame : Nat) : Bool :=
  s.ports[diePort ⟨frame / 144 % 4, Nat.mod_lt _ (by decide)⟩].mode == .cxl

/-- Whether a host line is the one that a frame holds for a PASID's address. -/
def HostLine.holds (h : HostLine) (frame : Nat) (pasid : BitVec 20) (va : Nat) : Bool :=
  h.frame == frame && h.pasid == pasid && h.line == va / 128

/-- In CXL mode an access takes its host-memory line into the frame cache (R43, R219): shared for a load, exclusive for a store or
an atomic, which takes it from every other frame; a write makes it dirty. -/
def State.takeLine (s : State) (frame : Nat) (pasid : BitVec 20) (va pa : Nat) (own write : Bool) : State :=
  if s.frameCxl frame then
    let old := s.hostLines.find? fun h => h.holds frame pasid va
    let now := lineOfBytes (s.homeBytes (.host (pa / 128 * 128)) 128)
    let s := if old.isSome then s else s.roomFor frame (va / 128)
    let h : HostLine := match old with
      | some h => ⟨frame, pasid, va / 128, pa / 128, h.own || own, h.dirty || write, if h.dirty then h.stale else now⟩
      | none => ⟨frame, pasid, va / 128, pa / 128, own, write, now⟩
    { s with hostLines := h :: s.hostLines.filterMap fun x =>
        if x.holds frame pasid va then none
        else if x.pa == pa / 128 then (if own then none else some { x with own := false, dirty := false }) else some x }
  else s

/-- A write of host memory by another agent than a frame takes the line from every frame by snoop (R43, R274). -/
def State.snoopLine (s : State) : Place → State
  | .host a => { s with hostLines := s.hostLines.filter fun h => h.pa != a / 128 }
  | _ => s

/-- Performing a store at its serving point (R274): a .FRM store to device memory or domain data dirties the frame's line;
a wider one first writes a dirty line back, then writes at the home and updates the frame's copy. A store whose peer has no
healthy route any more is lost with a machine check, unless the frame holds the line of a .FRM store (R364). -/
def State.storeBytes (s : State) (frame : Option Nat) (pasid : BitVec 20) (va : Nat) (p : Place) (sc : Scope) (bs : List Byte) :
    State :=
  if s.unreachable p && !(sc == .frm && (frame.bind fun f => s.line? f pasid va).isSome) then
    { s with reports := s.reports ++ [Report.machineCheck p] } else
  match (if p.cached then frame else none) with
  | none =>
    match p, frame with
    | .host a, some f => (s.takeLine f pasid va a true true).homeWrite (some pasid) p bs
    | _, _ => (s.snoopLine p).homeWrite (some pasid) p bs
  | some f =>
    if sc == .frm then
      let s := s.fillLine f pasid va p
      State.noteWrite
        { s with cache := s.cache.map fun (l : CacheLine) => if l.holds f pasid va then putLineBytes l (va % 128) true bs else l } p
    else
      let s := match s.line? f pasid va with
        | some l => if l.dirty == 0 then s else s.writeBack l
        | none => s
      let s := s.homeWrite (some pasid) p bs
      { s with cache := s.cache.map fun (l : CacheLine) => if l.holds f pasid va then putLineBytes l (va % 128) false bs else l }

/-! ## The touched-bank mask, releases and acquires (R284–R287) -/

/-- The mask bits of a write through an address to a place (R284, R285). -/
def touchedBits (domainAperture : Bool) : Place → BitVec 64
  | .dev d => (1#64 <<< bankGroup d) ||| (if domainAperture then 1#64 <<< 61 else 0)
  | .dom _ d => (1#64 <<< bankGroup d) ||| (1#64 <<< 61)
  | .scratch _ _ _ _ => 1#64 <<< 60
  | .host _ => 1#64 <<< 62

/-- Setting a context's touched bits. -/
def State.touch (s : State) (k : CtxKey) (m : BitVec 64) : State :=
  s.modCtx k fun c => { c with arch := { c.arch with touched := c.arch.touched ||| m } }

/-- The bits that a release at a scope probes and clears (R286). -/
def probeBits : Scope → BitVec 64
  | .frm => 0
  | .dev => (1#64 <<< 61) - 1
  | .dom => (1#64 <<< 62) - 1
  | .sys => (1#64 <<< 63) - 1

/-- The dirty lines of a frame whose bank group a mask marks (R286). -/
def State.markedLines (s : State) (frame : Nat) (m : BitVec 64) : List CacheLine :=
  s.cache.filter fun l => l.frame == frame && l.dirty != 0 && m.getLsbD l.place.group

/-- The release of a context's earlier accesses at a scope, its write excepted (R286): marked dirty lines go home and the
probed bits clear. A release at .FRM probes nothing. -/
def State.releaseMem (s : State) (k : CtxKey) (sc : Scope) : State :=
  match s.ctx? k with
  | none => s
  | some c =>
    if sc == .frm && c.frame?.isSome then s
    else
      let sc := if sc == .frm then .dev else sc
      let s := match c.frame? with
        | some f => s.writeBackAll (s.markedLines f c.arch.touched)
        | none => s
      s.modCtx k fun c => { c with arch := { c.arch with touched := c.arch.touched &&& ~~~(probeBits sc) } }

/-- A line as an acquire leaves it: dirty bytes stay, and the other bytes of the line are those of its home (R287)
(DEDUCED, log 26). -/
def State.refresh (s : State) (l : CacheLine) : CacheLine :=
  let home := lineOfBytes (s.homeBytes l.place 128)
  { l with data := (List.range 128).foldl (fun d i => if l.dirty.getLsbD i then putLineByte d i (lineByte l.data i) else d) home }

/-- The groups of a frame's dirty lines (R285). -/
def State.dirtyGroups (s : State) (frame : Nat) : BitVec 64 :=
  s.cache.foldl (fun (m : BitVec 64) (l : CacheLine) =>
    if l.frame == frame && l.dirty != 0#128 then m ||| (1#64 <<< l.place.group) else m) 0#64

/-- An acquire of a context at a scope (R285, R287): the frame's dirty groups join the mask, at .DEV or wider too, where the value read
may be a frame-mate's frame-scope release (R276, R280) (DEDUCED, log 68); at .DEV or wider every clean line of the frame goes, and
dirty lines keep only their dirty bytes. -/
def State.acquireMem (s : State) (k : CtxKey) (sc : Scope) : State :=
  match s.ctx? k with
  | none => s
  | some c =>
    match c.frame? with
    | none => s
    | some f =>
      let s := s.touch k (s.dirtyGroups f)
      if sc == .frm then s
      else
        { s with cache := (s.cache.filter fun l => !(l.frame == f && l.dirty == 0)).map fun l =>
            if l.frame == f then s.refresh l else l }

/-! ## Remote-scope promotion (R288, R289) -/

/-- A frame-scope release to a line of device memory registers its frame at the line's home slice (R288); through the domain
aperture no frame is recorded (R289). -/
def State.registerReleaser (s : State) (frame : Option Nat) (domainAperture : Bool) (p : Place) : State :=
  match (if domainAperture then none else frame), p with
  | some f, .dev d =>
    { s with releasers := ⟨.dev (d / 128 * 128), f⟩ :: s.releasers.filter fun r => r.place != .dev (d / 128 * 128) }
  | _, _ => s

/-- The promotion of the recorded releaser of a line: its frame performs its dirty lines at device scope, and the record is
cleared (R288). -/
def State.promote (s : State) (p : Place) : State :=
  match s.releasers.find? fun r => r.place == p.lineBase with
  | none => s
  | some r =>
    let s := s.writeBackAll (s.cache.filter fun l => l.frame == r.frame)
    { s with releasers := s.releasers.filter fun x => x.place != p.lineBase }

end Sys2Proof.Machine
end

