-- ==== Sys2Proof/Machine/Translate.lean ====
section
/-!
DEFINITION. Addresses: the apertures and the checks of R225 in their order, translation (R221–R223), window permission (R214),
and the errors that storage corrects and detects (R226, R227).
-/
namespace Sys2Proof.Machine

/-- What an access does at its address, for the checks of R225: an atomic names the PCIe AtomicOp that its HCAP bit governs
(R43), or none. -/
inductive AccessKind where
  | load
  | store
  | atomic (bit : Option Nat)
  deriving DecidableEq, Repr

/-- What the checks of an address come to: a place, a fault, or a page that must be asked for (R223). -/
inductive Resolved where
  | ok (p : Place)
  | fault (c : Code)
  | miss (w : PageWait)
  deriving DecidableEq, Repr

/-- Who makes an access (R214, R222): the launch, the PASID, the die whose port it leaves through, the core it is made
on, the frame it counts as, the workgroup whose thread makes it, the refusals its re-execution has met (R223), and the
translations that a job has obtained (R257). -/
structure Accessor where
  launch  : Word
  pasid   : BitVec 20
  die     : Fin 4
  core    : CoreId
  frame   : Nat
  group   : Option Nat
  home    : CoreId
  refused : List (PageWait × Code)
  held    : List TlbEntry
  deriving DecidableEq, Repr

/-- A context as the maker of an access. -/
def State.accessor (s : State) (c : Ctx) : Accessor where
  launch := c.launch
  pasid := s.pasidOf c.launch
  die := coreDie c.key.core
  core := c.core
  frame := frameNo c.key.core
  group := some c.group
  home := c.key.core
  refused := c.refused
  held := []

/-- The quadrant of a board (R11). -/
def boardQuadrant (b : Nat) : Nat := b / 6 / 3 * 2 + b % 6 / 3

/-- The service core of a queue's traffic (R46). -/
def queueCore (port : Fin 2) (queue : Fin 16) : Nat := 8 * port.val + queue.val % 8

/-- The service core of a host access to a device-memory offset: of the quadrant of its home slice (R46). -/
def lineCore (d : Nat) : Nat := 4 * homeDie d + boardQuadrant (homeBoard d)

/-- The service core of a request to host memory from a core: of its quadrant (R46). -/
def requestCore (c : CoreId) : Nat := 4 * (coreDie c).val + boardQuadrant (coreBoard c)

/-- The bytes of a size (R229). -/
def bytesOf : Size → Nat
  | .b8 => 1 | .b16 => 2 | .b32 => 4 | .b64 => 8 | .b128 => 16

/-- The page number in 4 KiB units. -/
def pageOf (va : Nat) : Nat := va / 4096

/-- H, the text address of an object (R104). -/
def CodeObject.text (o : CodeObject) : Nat := o.addr + o.textOff

/-- Whether an address lies in the domain aperture, for the touched-bank mask (R285). -/
def domainAperture (va : DWord) : Bool := inRange va.toNat (2 ^ 56) (2 ^ 55)

/-! ## Records of errors (R227, R403) -/

/-- The 32-byte record of a detected error (R403). -/
def errorRecord (code : BitVec 8) (kind where_ tick : Nat) (tid : DWord) (detail : Nat) : List Byte :=
  code :: (leBytes kind 1 ++ leBytes 0 2 ++ leBytes where_ 4 ++ leBytes tick 8 ++ leBytes tid.toNat 8 ++ leBytes detail 4 ++ leBytes 0 4)

/-- The record of an uncorrectable error that a reader met at a place of the package's storage (R227, R403). -/
def State.recordMemue (s : State) (tid : DWord) (p : Place) : State :=
  match p.slice? with
  | some (.bank b) => { s with reports := s.reports ++ [Report.record (errorRecord 0x18 3 b s.tick tid b)] }
  | some (.row r) => { s with reports := s.reports ++ [Report.record (errorRecord 0x18 4 r s.tick tid (Config.rowBank r))] }
  | none => s

/-! ## Translation (R221–R223) -/

/-- Whether a cached translation serves an accessor's address (R221). -/
def TlbEntry.serves (e : TlbEntry) (frame board die : Nat) (pasid : BitVec 20) (va : Nat) : Bool :=
  e.pasid == pasid && e.page == va / 2 ^ e.log2 &&
  (match e.level.val with
   | 0 => e.owner == frame
   | 1 => e.owner == board
   | _ => e.owner == die)

/-- The cached translation of an address, the nearest level first (R221), after those that a job has obtained. -/
def State.tlbFind (s : State) (a : Accessor) (va : Nat) : Option TlbEntry :=
  match a.held.find? fun e => e.pasid == a.pasid && e.page == va / 2 ^ e.log2 with
  | some e => some e
  | none =>
  let hits := s.tlb.filter fun e => e.serves a.frame (a.frame / 4) a.die.val a.pasid va && (e.level.val == 2 || coreSlot a.core != 14)
  match hits.find? fun e => e.level.val == 0 && !(isReckoner a.core) with
  | some e => some e
  | none =>
    match hits.find? fun e => e.level.val == 1 with
    | some e => some e
    | none => hits.find? fun e => e.level.val == 2

/-- The scratch bytes of a region (R68, R69). -/
def scratchBytes (core : CoreId) (pw : Word) : Nat :=
  (pw.toNat / 2 ^ 16 % 256) * (if isBeam core then 8192 else 4096)

/-- The device-memory offset of a code-heap address (R31; DESIGN CHOICE, log 5). -/
def State.heapOffset (s : State) (va : Nat) : Nat := va - s.codeHeap.1 + s.codeHeap.2.1

/-- The device offset of a heap address, and whether an offset is text of a loaded object (R107). -/
def State.isText (s : State) (off : Nat) : Bool :=
  inRange off s.codeHeap.2.1 s.codeHeap.2.2 &&
  s.objects.any fun o => inRange (off - s.codeHeap.2.1 + s.codeHeap.1) o.text o.textSize

/-- Whether a write to a region is permitted (R214): from the owning core, by a thread of the owning workgroup, or from a
frame that PERM names; a service core (kept with slot 14) is in no frame. -/
def State.windowAllowed (a : Accessor) (r : Region) : Bool :=
  a.core == r.core || (a.group == some r.w && a.home == r.core && a.launch == r.launch) ||
  (let f := a.frame % 4; let b := a.frame / 4 % 36; let d := a.frame / 144
   coreSlot a.core != 14 &&
   ((boardNo r.core == a.frame / 4 && r.perm.getLsbD f) ||
    ((coreDie r.core).val == d && r.perm.getLsbD (4 + b)) ||
    r.perm.getLsbD (40 + d)))

/-- The checks that device memory and host memory add to a translated address. -/
def State.resolvePhysical (s : State) (a : Accessor) (pa : Nat) (k : AccessKind) : Resolved :=
  if inRange pa s.hdmBase Config.devBytes then
    let d := pa - s.hdmBase
    if k != .load && s.isText d then .fault .perm else .ok (.dev d)
  else
    let port := s.ports[diePort a.die]
    if port.hcap.extractLsb' 16 4 == 0 then .fault .hlink
    else match k with
      | .atomic bit =>
        if port.mode == .cxl then .ok (.host pa)
        else match bit with
          | some i => if port.hcap.getLsbD i then .ok (.host pa) else .fault .hatom
          | none => .fault .hatom
      | _ => .ok (.host pa)

/-- The device offset of an address in a block that ALLOC returned to a launch of a PASID (R387; DESIGN CHOICE, log 19). -/
def State.heapPlace (s : State) (pasid : BitVec 20) (va : Nat) : Option Nat :=
  s.launches.findSome? fun l =>
    if l.pasid == pasid then (l.allocs.find? fun x => inRange va x.1 x.2.1).map fun x => x.2.2 + (va - x.1) else none

/-- Translation of a host-shared address (R40, R221–R223): a hit gives a place; a refusal met by this re-execution gives its
fault; anything else misses. -/
def State.resolveShared (s : State) (a : Accessor) (va : Nat) (k : AccessKind) : Resolved :=
  let write := k != .load
  let w : PageWait := ⟨a.die, a.pasid, pageOf va, write, false⟩
  if !(s.ports[diePort a.die].hcap.getLsbD 1) then .fault .notmapped
  else match s.tlbFind a va with
    | some e =>
      if e.write || !write then s.resolvePhysical a (e.base + va % 2 ^ e.log2) k
      else match a.refused.find? fun r => r.1 == w with
        | some r => .fault r.2
        | none => .miss w
    | none =>
      match s.heapPlace a.pasid va with
      | some d => .ok (.dev d)
      | none =>
        match a.refused.find? fun r => r.1 == w with
        | some r => .fault r.2
        | none => .miss w

/-- Domain-aperture addresses (R215): the package's own number reaches its own device memory; text is write-protected here too
(R107). -/
def State.resolveDomain (s : State) (a : Accessor) (va : Nat) (k : AccessKind) : Resolved :=
  let p := va / 2 ^ 45 % 2 ^ 10
  let d := va % 2 ^ 45
  if !(s.domain.contains p) || Config.devBytes ≤ d then .fault .notmapped
  else if p = s.pkg then if k != .load && s.isText d then .fault .perm else .ok (.dev d)
  else if !(s.opened.any fun o => o.1 == p && o.2.1 == a.pasid && inRange d o.2.2.1 o.2.2.2) then .fault .perm
  else if s.deadPeers.contains p then .fault .flink
  else .ok (.dom p d)

/-- Local-aperture addresses (R107, R212), of a region that the accessor's launch has on the owning core. -/
def State.resolveLocal (s : State) (a : Accessor) (va n : Nat) : Resolved :=
  let core : CoreId := BitVec.ofNat 14 (va / 2 ^ 40)
  let w := va / 2 ^ 20 % 2 ^ 20
  let off := va % 2 ^ 20
  if !(s.enabled core) then .fault .notmapped
  else if w = 0xFFFFE then .fault .perm
  else match s.region? core a.launch w with
    | none => .fault .notmapped
    | some r => if off + n > scratchBytes core r.pw then .fault .notmapped else .ok (.scratch core a.launch w off)

/-- The checks of an address, in the order of R225 (R210, R211, R216, R231); WINPERM is found at the owning core (R214). -/
def State.resolve (s : State) (a : Accessor) (va : DWord) (n align : Nat) (k : AccessKind) : Resolved :=
  let v := va.toNat
  if v < 0x10000 then .fault .null
  else if v % align ≠ 0 then .fault .align
  else if v ≥ 2 ^ 57 then .fault .notmapped
  else match v / 2 ^ 54 with
    | 4 | 5 => s.resolveDomain a v k
    | 6 => s.resolveLocal a v n
    | 7 => .fault .perm
    | _ => s.resolveShared a v k

/-- The checks of an address that is read in the step itself: those of R225, and MEMUE last (R227). -/
def State.resolveRead (s : State) (a : Accessor) (va : DWord) (n align : Nat) (k : AccessKind) : Resolved :=
  match s.resolve a va n align k with
  | .ok p => if s.flawed p n then .fault .memue else .ok p
  | r => r

/-- Whether an access goes through the local aperture, to a pool that must accept it (R214). -/
def throughWindow (va : DWord) : Place → Bool
  | .scratch _ _ _ _ => inRange va.toNat 0x180000000000000 0x40000000000000
  | _ => false

/-- Whether the owning pool refuses a write that reaches it through the local aperture (R214). -/
def State.windowRefused (s : State) (a : Accessor) (va : DWord) (p : Place) : Bool :=
  match p with
  | .scratch core l w _ => throughWindow va p && ((s.region? core l w).map fun g => !(State.windowAllowed a g)).getD true
  | _ => false

/-- The checks of a write that is made in the step itself: those of R225 with WINPERM (R214). -/
def State.resolveWrite (s : State) (a : Accessor) (va : DWord) (n align : Nat) (k : AccessKind) : Resolved :=
  match s.resolve a va n align k with
  | .ok p =>
    if s.windowRefused a va p then .fault .winperm
    else if k != .store && s.flawed p n then .fault .memue else .ok p
  | r => r

/-- The scope at which a release or acquire of accesses is performed: .SYS through the domain aperture is .DOM (R210, R215,
R272). -/
def domainScope (vas : List DWord) (sc : Scope) : Scope := if sc == .sys && vas.all domainAperture then .dom else sc

end Sys2Proof.Machine
end

