-- ==== Sys2Proof/Machine/Ops.lean ====
section
/-!
DEFINITION. The named operations over launches, registers and contexts that the instruction families share; taking an
exception (R371–R378), returning from one (R383), and ending lanes and gangs (R299, R303–R305, R377).
-/
namespace Sys2Proof.Machine

/-! ## Launch packets (R51, R52) and code objects -/

/-- The n-byte field of a packet at an offset. -/
def pktField (p : BitVec 1536) (off n : Nat) : Nat := p.toNat / 256 ^ off % 256 ^ n

/-- CTL. -/
def pktCtl (p : BitVec 1536) : Word := BitVec.ofNat 32 (pktField p 0x00 4)
/-- NWG. -/
def pktNwg (p : BitVec 1536) : Nat := pktField p 0x04 4
/-- OBJ. -/
def pktObj (p : BitVec 1536) : Nat := pktField p 0x08 8
/-- KIDX. -/
def pktKidx (p : BitVec 1536) : Nat := pktField p 0x10 4
/-- WGSIZE. -/
def pktWgsize (p : BitVec 1536) : Nat := pktField p 0x14 4
/-- RODPW. -/
def pktRodpw (p : BitVec 1536) : Word := BitVec.ofNat 32 (pktField p 0x18 4)
/-- BEAMPW. -/
def pktBeampw (p : BitVec 1536) : Word := BitVec.ofNat 32 (pktField p 0x1C 4)
/-- MAP. -/
def pktMap (p : BitVec 1536) : DWord := BitVec.ofNat 64 (pktField p 0x20 8)
/-- STAMP. -/
def pktStamp (p : BitVec 1536) : DWord := BitVec.ofNat 64 (pktField p 0x28 8)
/-- ARGS. -/
def pktArgs (p : BitVec 1536) : DWord := BitVec.ofNat 64 (pktField p 0x30 8)
/-- WDOG. -/
def pktWdog (p : BitVec 1536) : Nat := pktField p 0x38 4
/-- PASID. -/
def pktPasid (p : BitVec 1536) : BitVec 20 := BitVec.ofNat 20 (pktField p 0x3C 4)
/-- UHND. -/
def pktUhnd (p : BitVec 1536) : DWord := BitVec.ofNat 64 (pktField p 0x40 8)
/-- OVH. -/
def pktOvh (p : BitVec 1536) : DWord := BitVec.ofNat 64 (pktField p 0x48 8)
/-- CTL.PRIO. -/
def pktPrio (p : BitVec 1536) : Nat := (pktCtl p).toNat % 8
/-- CTL.PERSIST. -/
def pktPersist (p : BitVec 1536) : Bool := (pktCtl p).getLsbD 3
/-- CTL.LOCKSTEP. -/
def pktLockstep (p : BitVec 1536) : Bool := (pktCtl p).getLsbD 4
/-- CTL.TOP. -/
def pktTop (p : BitVec 1536) : Bool := (pktCtl p).getLsbD 5
/-- CTL.NOTIFY. -/
def pktNotify (p : BitVec 1536) : Bool := (pktCtl p).getLsbD 8
/-- CTL.MSIV. -/
def pktMsiv (p : BitVec 1536) : BitVec 11 := (pktCtl p).extractLsb' 16 11

/-- The code of a fault (R388). -/
def Code.byte : Code → BitVec 8
  | .ill => 0x01 | .type => 0x02 | .upart => 0x03 | .aovf => 0x04 | .abnd => 0x05 | .nfmt => 0x06 | .ovl => 0x08
  | .bkpt => 0x09 | .trapu => 0x0A | .notmapped => 0x10 | .perm => 0x11 | .null => 0x12 | .align => 0x13
  | .winperm => 0x14 | .memue => 0x18 | .hatom => 0x20 | .hlink => 0x21 | .flink => 0x28 | .footprint => 0x29
  | .cmismatch => 0x2A | .wdog => 0x40 | .hostkill => 0x41 | .lsmm => 0x48 | .mmaerr => 0x50

/-- The two bits of a disposition table for a code (R28): 0 USER, 1 SYSTEM, 2 KILL. -/
def pktDisp (p : BitVec 1536) (c : Code) : Nat :=
  pktField p (0x80 + c.byte.toNat / 4) 1 / 2 ^ (2 * (c.byte.toNat % 4)) % 4

/-- Three ways in which a fault is delivered (R373). -/
inductive Disposition where
  | user | system | kill
  deriving DecidableEq, Repr

/-- A code object that counts no register, for a launch whose object is not loaded. -/
def CodeObject.none : CodeObject := ⟨0, 0, 0, 0, 0, 0, 0, [], [], [], 0, 0⟩

/-- The code object of a launch. -/
def State.objectOf (s : State) (n : Word) : CodeObject :=
  ((s.launch? n).bind fun l => s.objects.find? fun o => o.addr == l.obj).getD CodeObject.none

/-- The packet of a launch. -/
def State.pktOf (s : State) (n : Word) : BitVec 1536 := ((s.launch? n).map (·.pkt)).getD 0

/-- The partition word under which a context's workgroup was placed (R67, R300). -/
def State.pwOf (s : State) (c : Ctx) : Word :=
  match c.kind with
  | .rod => pktRodpw (s.pktOf c.launch)
  | _ => pktBeampw (s.pktOf c.launch)

/-- Whether a context's launch runs in lock-step and the context is on its rod (R88, R394). -/
def State.inLockstep (s : State) (c : Ctx) : Bool := pktLockstep (s.pktOf c.launch) && c.kind == .rod && !c.away

/-- Rounding up to a multiple. -/
def roundUp (n m : Nat) : Nat := (n + m - 1) / m * m

/-- The window of a launch on a core. -/
def State.window? (s : State) (launch : Word) (core : CoreId) : Option Window :=
  s.windows.find? fun w => w.launch == launch && w.core == core

/-- The TBASE that a context reads: its window's, or on a reckoner the value kept in its context (R105, R112). -/
def State.tbaseOf (s : State) (c : Ctx) : DWord :=
  if c.away then c.arch.tbase else ((s.window? c.launch c.key.core).map (·.tbase)).getD 0

/-! ## Registers -/

/-- A lane that is not live. -/
def Lane.dead : Lane := ⟨0, 0, 0, 0, false, false, Vector.replicate 64 0, none⟩

/-- A context whose registers are all 0 (R54), with the lanes given. -/
def Arch.fresh (lanes : List Lane) (vc : Nat) : Arch where
  s := Vector.replicate 64 0
  a := Vector.replicate 32 ⟨0, 0⟩
  lanes := lanes
  vc := vc
  tbase := 0
  ovh := 0
  uhnd := 0
  epc := 0
  eaddr := 0
  ecode := 0
  elane := 0
  nfmt := 0
  fpctl := 0
  xstat := 0
  mprog := 0
  uh := false
  overlay := false
  trapSet := 0
  sysSet := 0
  heldSet := 0
  tags := Vector.replicate 64 ⟨.free, 0⟩
  ths := Vector.replicate 8 0
  iter := Vector.replicate 2 ⟨.idle, 0, 0, 0, 0⟩
  streams := Vector.replicate 8 none
  pushes := []
  link := none
  pend := 0
  en := 0
  mark := none
  touched := 0
  vdot := none

/-- The affine register of an index; a0 is fixed at BASE 0 and STRIDE 1 (R128). -/
def Arch.areg (ar : Arch) (i : Fin 32) : AReg := if i = 0 then ⟨0, 1⟩ else ar.a[i]

/-- The value of an affine register in a lane (R128). -/
def AReg.at (x : AReg) (lane : Nat) : Word := x.base + x.stride * BitVec.ofNat 32 lane

/-- Lane i; beyond the group, a lane that is not live. -/
def Arch.lane (ar : Arch) (i : Nat) : Lane := ar.lanes.getD i Lane.dead

/-- The v register i in a lane. -/
def Arch.vreg (ar : Arch) (lane : Nat) (i : Fin 64) : Word := (ar.lane lane).v[i]

/-- A register's value in a lane: s broadcast, a expanded, v per lane (R128). -/
def Arch.reg (ar : Arch) (lane : Nat) : Reg → Word
  | .s i => ar.s[i]
  | .a i => (ar.areg i).at lane
  | .v i => ar.vreg lane i

/-- Changing lane i. -/
def Arch.modLane (ar : Arch) (i : Nat) (f : Lane → Lane) : Arch := { ar with lanes := ar.lanes.modify i f }

/-- Writing a uniform register. -/
def Arch.setS (ar : Arch) (i : Fin 64) (x : Word) : Arch := { ar with s := ar.s.set i x }

/-- Writing an affine register; a0 is fixed (R128). -/
def Arch.setA (ar : Arch) (i : Fin 32) (x : AReg) : Arch := if i = 0 then ar else { ar with a := ar.a.set i x }

/-- Writing a varying register in a lane. -/
def Arch.setV (ar : Arch) (lane : Nat) (i : Fin 64) (x : Word) : Arch :=
  ar.modLane lane fun l => { l with v := l.v.set i x }

/-- Writing the register n on from a register of the s or v file; past the file's end nothing is written. -/
def Arch.putReg (ar : Arch) (lane : Nat) (r : Reg) (n : Nat) (x : Word) : Arch :=
  match r with
  | .s i => if h : i.val + n < 64 then ar.setS ⟨i.val + n, h⟩ x else ar
  | .a i => ar.setA i ⟨x, 0⟩
  | .v i => if h : i.val + n < 64 then ar.setV lane ⟨i.val + n, h⟩ x else ar

/-- The value of the register n on from a register of the s or v file in a lane. -/
def Arch.regAt (ar : Arch) (lane : Nat) (r : Reg) (n : Nat) : Word :=
  match r with
  | .s i => if h : i.val + n < 64 then ar.s[i.val + n] else 0
  | .a i => (ar.areg i).at lane
  | .v i => if h : i.val + n < 64 then ar.vreg lane ⟨i.val + n, h⟩ else 0

/-- The first register of a pair. -/
def regOfPair : Pair → Reg
  | .s k => .s ⟨2 * k.val, by omega⟩
  | .v k => .v ⟨2 * k.val, by omega⟩

/-- An s pair as a pair. -/
def pairOfS (p : SPair) : Pair := .s p.k

/-- A v pair as a pair. -/
def pairOfV (p : VPair) : Pair := .v p.k

/-- The first register of a quad. -/
def regOfQuad : Quad → Reg
  | .s k => .s ⟨4 * k.val, by omega⟩
  | .v k => .v ⟨4 * k.val, by omega⟩

/-- The 64-bit value of a pair in a lane: the odd register holds [63:32] (R4). -/
def Arch.pair (ar : Arch) (lane : Nat) (p : Pair) : DWord := ar.regAt lane (regOfPair p) 1 ++ ar.regAt lane (regOfPair p) 0

/-- The 64-bit value of an s pair. -/
def Arch.spair (ar : Arch) (p : SPair) : DWord := ar.pair 0 (pairOfS p)

/-- Writing a 64-bit value to a pair in a lane. -/
def Arch.setPair (ar : Arch) (lane : Nat) (p : Pair) (x : DWord) : Arch :=
  (ar.putReg lane (regOfPair p) 0 (x.extractLsb' 0 32)).putReg lane (regOfPair p) 1 (x.extractLsb' 32 32)

/-- The mask of the live lanes (R123). -/
def Arch.liveMask (ar : Arch) : BitVec 64 :=
  (List.range ar.lanes.length).foldl (fun m i => if (ar.lane i).live then m ||| (1#64 <<< i) else m) 0#64

/-- The set that R131 compares EXEC with: the live lanes, or the trap set while a gang's handler runs (R108, R375). -/
def Ctx.liveSet (c : Ctx) : BitVec 64 :=
  if c.kind != .rod && (c.arch.uh || c.arch.overlay) then c.arch.trapSet else c.arch.liveMask

/-- The lanes of a mask, ascending. -/
def lanesOf (m : BitVec 64) : List Nat := (List.range 64).filter fun i => m.getLsbD i

/-- Applying a change to each lane of a list, in order (R8). -/
def Arch.forLanes (ar : Arch) (ls : List Nat) (f : Arch → Nat → Arch) : Arch := ls.foldl f ar

/-- Sending the lanes of a mask to a PC. -/
def Arch.goto (ar : Arch) (m : BitVec 64) (pc : DWord) : Arch :=
  ar.forLanes (lanesOf m) fun ar i => ar.modLane i fun l => { l with pc := pc }

/-- Setting bits of XSTAT (R135). -/
def Arch.orXstat (ar : Arch) (m : Word) : Arch := { ar with xstat := ar.xstat ||| m }

/-! ## Effects -/

/-- A fault of an instruction, a fetch or a gang entry: the faults of its lanes, whether it is a gang fault (R303), and the
EPC it sets (R372). -/
structure Trap where
  lanes : List LaneFault
  gang  : Bool
  epc   : DWord
  deriving DecidableEq, Repr

/-- A fault of the whole gang, or of a rod or reckoner thread. -/
def Trap.one (code : Code) (addr epc : DWord) : Trap := ⟨[⟨0, code, addr⟩], true, epc⟩

/-- What an instruction comes to: a state in which it has had its effect, or a state that holds its partial effects, if
any, and the fault to deliver. -/
inductive Eff where
  | done (s : State)
  | trap (s : State) (t : Trap)
  deriving DecidableEq, Repr

/-! ## Performing stores and pushes (R248, R274, R275, R396) -/

/-- Whether a store of a lock-step context is held back by the pair's gated store buffer (R396): every one, but a store through
the local aperture to other scratch than its own workgroup's, which is an external operation (R397). -/
def Ctx.gatedPlace (c : Ctx) : Place → Bool
  | .scratch core l w _ => core == c.key.core && l == c.launch && w == c.group
  | _ => true

/-- A store of a context: the bytes at their serving point, and the touched bank (R274, R285). A lock-step context gates it
instead (R396). `rel` marks a frame-scope release, whose frame the line's home slice records (R288). -/
def State.performStore (s : State) (c : Ctx) (va : DWord) (p : Place) (n : Nat) (x : BitVec 128) (sc : Scope) (rel : Bool) : State :=
  if s.inLockstep c && c.gatedPlace p then
    { s with gates := s.gates ++ [⟨pairCore c.key.core, c.key, va, p, n, x, sc, rel⟩] }
  else
    let s := (s.storeBytes c.frame? (s.pasidOf c.launch) va.toNat p sc (leBytes x.toNat n)).touch c.key (touchedBits (domainAperture va) p)
    if rel then s.registerReleaser c.frame? (domainAperture va) p else s

/-- Performing pushes, oldest first, as relaxed device-scope stores (R248). -/
def State.performPushes (s : State) (k : CtxKey) : List Pushed → State
  | [] => s
  | x :: xs =>
    match s.ctx? k with
    | some c => State.performPushes (s.performStore c x.va x.place x.n (x.x.setWidth 128) .dev false) k xs
    | none => s

/-- Performing every push of a context's write streams, in program order (R248, R275). -/
def State.flushStreams (s : State) (k : CtxKey) : State :=
  match (s.ctx? k).map fun c => c.arch.pushes with
  | some (x :: xs) => (s.performPushes k (x :: xs)).modCtx k fun c => { c with arch := { c.arch with pushes := [] } }
  | _ => s

/-- Performing the oldest push of a context, if it has one. -/
def State.performOldest (s : State) (k : CtxKey) : State :=
  match (s.ctx? k).map fun c => c.arch.pushes with
  | some (x :: xs) => (s.performPushes k [x]).modCtx k fun c => { c with arch := { c.arch with pushes := xs } }
  | _ => s

/-- Making room for n pushes: in lock-step a push enters the gated store buffer (R396); a stream that holds more than eight
performs pushes, the oldest first, until it holds eight (R71) (DEDUCED, log 27). -/
def State.drainPushes (s : State) (k : CtxKey) : Nat → State
  | 0 => s
  | n + 1 =>
    match s.ctx? k with
    | none => s
    | some c =>
      if s.inLockstep c || c.arch.pushes.any fun x => decide (Config.pushMax < (c.arch.pushes.filter fun y => y.strm == x.strm).length) then
        State.drainPushes (s.performOldest k) k n
      else s

/-! ## Lock-step checkpoints (R396, R398, R399) -/

/-- The entries of a pair's gated store buffer (R396). -/
def State.pairGates (s : State) (pair : CoreId) : Nat := (s.gates.filter fun g => g.pair == pair).length

/-- Whether n more entries find no room in the gated store buffer of a lock-step context (R396). -/
def State.gateFull (s : State) (c : Ctx) (n : Nat) : Bool :=
  s.inLockstep c && n != 0 && decide (Config.gateMax < s.pairGates (pairCore c.key.core) + n)

/-- A store that finds the gated store buffer full parks its thread; it executes again once entries free (R396). -/
def State.parkGate (s : State) (k : CtxKey) : State := s.modCtx k fun c => { c with st := .parked .gate }

/-- The stores that wait for room in a pair's gated store buffer execute again (R396). -/
def State.wakeGates (s : State) (pair : CoreId) : State :=
  { s with ctxs := s.ctxs.map fun c => if c.st == .parked .gate && pairCore c.key.core == pair then { c with st := .live } else c }

/-- Whether a store of a context's pair waits for room (R396). -/
def State.gateWanted (s : State) (k : CtxKey) : Bool :=
  s.ctxs.any fun c => c.st == .parked .gate && pairCore c.key.core == pairCore k.core

/-- Performing a context's gated stores in program order (R399). -/
def State.performGates (s : State) (k : CtxKey) : List GatedStore → State
  | [] => s
  | g :: gs =>
    let s := if g.key == k then
        match s.ctx? k with
        | some c =>
          let s := (s.storeBytes c.frame? (s.pasidOf c.launch) g.va.toNat g.place g.scope (leBytes g.x.toNat g.n)).touch k
            (touchedBits (domainAperture g.va) g.place)
          if g.rel then s.registerReleaser c.frame? (domainAperture g.va) g.place else s
        | none => s
      else s
    State.performGates s k gs

/-- A checkpoint of a lock-step context (R399): its gated stores are performed and its state goes to the older slot, which
becomes the newest; the entries that it frees wake the stores that wait for room (R396). One that its pair's self-test holds takes none
(R398, R401). -/
def State.checkpoint (s : State) (k : CtxKey) : State :=
  match s.ctx? k with
  | none => s
  | some c =>
    if s.inLockstep c && c.st != .parked .selfTest then
      let freed := s.gates.any fun g => g.key == k
      let s := { s.performGates k s.gates with gates := s.gates.filter fun g => g.key != k }
      let s := s.modCtx k fun c => { c with ckpt := c.arch :: c.ckpt.take 1, retired := 0, rollbacks := 0 }
      if freed then s.wakeGates (pairCore k.core) else s
    else s

/-- Whether a context has pushed an element into scratch that is not its own workgroup's (R214). -/
def Ctx.pushedOut (c : Ctx) : Bool := c.arch.pushes.any fun x => !c.gatedPlace x.place

/-- What follows n pushes of an instruction at once. One into another workgroup's scratch goes to the owning pool with the
instruction, which has just accepted it, behind the pushes before it (R214, R248); in lock-step it is an external operation between
two checkpoints (R397). -/
def State.spill (s : State) (k : CtxKey) (n : Nat) : State :=
  if ((s.ctx? k).map Ctx.pushedOut).getD false then ((s.checkpoint k).flushStreams k).checkpoint k else s.drainPushes k n

/-- A release of a context at a scope (R248, R286): every push of its write streams is performed, a lock-step context takes a
checkpoint (R398), and its earlier accesses are performed. -/
def State.release (s : State) (k : CtxKey) (sc : Scope) : State := ((s.flushStreams k).checkpoint k).releaseMem k sc

/-! ## Trap slots (R378) -/

/-- The reckoner of a board, as it is kept. -/
def State.reckoner (s : State) (board : Nat) : Reckoner :=
  (s.reckoners.find? fun r => r.board == board).getD ⟨board, [], []⟩

/-- Keeping a reckoner; one with no slot in use and no request is not listed. -/
def State.setReckoner (s : State) (r : Reckoner) : State :=
  let rest := s.reckoners.filter fun x => x.board != r.board
  { s with reckoners := if r.slots.isEmpty && r.queue.isEmpty then rest else r :: rest }

/-- The threads that migrated to a board's reckoner (R88, R416). -/
def State.migrants (s : State) (board : Nat) : List Ctx :=
  s.ctxs.filter fun c => c.away && c.place.isSome && boardNo c.key.core == board

/-- The threads that a reckoner holds for rods of its board (R88). -/
def State.awayCount (s : State) (board : Nat) : Nat := (s.migrants board).length

/-- The lowest place of a reckoner that no migrated thread holds. -/
def State.freePlace (s : State) (board : Nat) : Nat :=
  ((List.range Config.awayMax).find? fun i => (s.migrants board).all fun c => c.place != some i).getD 0

/-- A granted trap slot (R376, R378): a SYSTEM delivery moves a rod's thread to the reckoner under R88's ordering and is handled
there, an SVC request is being served, a debug stop is held. -/
def State.granted (s : State) (k : CtxKey) (u : SlotUse) : State :=
  match u with
  | .system =>
    (s.release k .dev).modCtx k fun c =>
      if c.kind == .rod && !c.away then
        { c with st := .parked .system, away := true,
                 arch := { c.arch with tbase := s.tbaseOf c } }
      else { c with st := .parked .system }
  | .debug =>
    match (s.ctx? k).map Ctx.st with
    | some (.parked (.debugWait d)) =>
      { s with reports := s.reports ++ [Report.debugStop k d] }.modCtx k fun c => { c with st := .parked (.stopped d) }
    | _ => s
  | .svc => s.modCtx k fun c =>
      match c.st with
      | .parked (.svc d a b n nx _) => { c with st := .parked (.svc d a b n nx true) }
      | _ => c

/-- Asking the reckoner of a context's board for a trap slot, behind the requests that already wait (R378). -/
def State.requestSlot (s : State) (k : CtxKey) (u : SlotUse) : State :=
  let r := s.reckoner (boardNo k.core)
  if r.slots.length < Config.trapSlots ∧ r.queue = [] then
    (s.setReckoner { r with slots := r.slots ++ [(k, u)] }).granted k u
  else s.setReckoner { r with queue := r.queue ++ [(k, u)] }

/-- Freeing what a context holds of its reckoner's trap slots. -/
def State.freeSlot (s : State) (k : CtxKey) : State :=
  let r := s.reckoner (boardNo k.core)
  s.setReckoner { r with slots := r.slots.filter fun x => x.1 != k, queue := r.queue.filter fun x => x.1 != k }

/-! ## The save record (R390) -/

/-- The FLAGS word of a save record. -/
def Ctx.saveFlags (c : Ctx) : Nat :=
  (if c.arch.uh then 1 else 0) + (if c.arch.overlay then 2 else 0) + (if (c.arch.lane 0).held then 4 else 0)
  + (if c.arch.mark.isSome then 8 else 0) + (if c.st == .parked .trapSlot then 16 else 0) + (if c.away then 32 else 0)

/-- The interrupt word (R379). -/
def Arch.interruptWord (ar : Arch) : Word := (ar.pend ++ ar.en).setWidth 32

/-- The mask of the tags in a state. -/
def Arch.tagMask (ar : Arch) (st : TagState) : Nat :=
  (List.finRange 64).foldl (fun m i => if ar.tags[i].st == st then m + 2 ^ i.val else m) 0

/-- The 256-byte header of a save record. -/
def State.saveHeader (s : State) (why : Nat) (c : Ctx) : List Byte :=
  let ar := c.arch
  let l := ar.lane 0
  let mark := ar.mark.getD (0, 0)
  let dwords := [l.tid, l.pc, l.meet, l.gid, s.tbaseOf c, ar.ovh, ar.uhnd, ar.epc, ar.eaddr].flatMap fun x => leBytes x.toNat 8
  let words := [ar.ecode, ar.elane, ar.nfmt, ar.fpctl, ar.xstat, ar.mprog, ar.interruptWord].flatMap fun x => leBytes x.toNat 4
  dwords ++ words ++ leBytes c.saveFlags 4 ++ leBytes (ar.tagMask .set) 8 ++ leBytes (ar.tagMask .pending) 8
  ++ leBytes mark.1.toNat 8 ++ leBytes mark.2.toNat 4 ++ leBytes ar.vc 4 ++ ar.ths.toList.flatMap (fun x => leBytes x.toNat 8)
  ++ leBytes ar.liveMask.toNat 4 ++ leBytes why 4 ++ leBytes (ar.liveMask.toNat / 2 ^ 32) 4 ++ leBytes 0 44

/-- A lane's entry of a gang's lane array. -/
def laneEntry (l : Lane) : List Byte :=
  leBytes l.pc.toNat 8 ++ leBytes (l.meet.toNat + (if l.held then 1 else 0) + (if l.live then 2 else 0)) 8
  ++ leBytes l.tid.toNat 8 ++ leBytes l.gid.toNat 8

/-- The registers of a save record: the s and a files up to the object's counts, then v0 up to VC, gang by gang of 32 lanes. -/
def State.saveRegs (s : State) (c : Ctx) : List Byte :=
  let o := s.objectOf c.launch
  let ar := c.arch
  let word (x : Word) : List Byte := leBytes x.toNat 4
  let vs (lanes : List Lane) : List Byte := (ar.lanes.head?.map (fun _ => List.finRange 64)).getD [] |>.flatMap fun i =>
    if i.val < ar.vc then lanes.flatMap fun l => word l.v[i] else []
  ((List.finRange 64).flatMap fun i => if i.val < o.scnt then word ar.s[i] else [])
  ++ ((List.finRange 32).flatMap fun i => if i.val < o.acnt then word (ar.areg i).base ++ word (ar.areg i).stride else [])
  ++ (if c.kind == .rod then vs ar.lanes else vs (ar.lanes.take 32) ++ vs (ar.lanes.drop 32))

/-- The bytes of an engine block, whose form the spec leaves to the hardware, from a value of the counter on (DESIGN CHOICE, log 2). -/
def engineBlock (ctr : Nat) (c : Ctx) : List Byte :=
  let n := if c.kind == .rod then 2048 else if c.pair.isSome then 8192 else 4096
  (List.range n).map fun i => Config.freeByte (ctr + i)

/-- The save record of a context. -/
def State.saveRecord (s : State) (why ctr : Nat) (c : Ctx) : List Byte :=
  let lanes := if c.kind == .rod then [] else c.arch.lanes.flatMap laneEntry
  let body := s.saveHeader why c ++ lanes ++ engineBlock ctr c ++ s.saveRegs c
  body ++ List.replicate (roundUp body.length 64 - body.length) 0

/-- The save records of a launch's contexts, written to its context save area (R389, R390). -/
def State.writeSaveArea (s : State) (n : Word) (why : Nat) (cs : List Ctx) : State :=
  let records := (List.range cs.length).filterMap fun i => (cs[i]?).map fun c => s.saveRecord why (s.freeCtr + 8192 * i) c
  { s with freeCtr := s.freeCtr + 8192 * cs.length, reports := s.reports ++ [Report.saveArea n why records] }

/-! ## Ending threads, gangs and launches -/

/-- The context of an identity. -/
def State.byUid (s : State) (u : Nat) : Option Ctx := s.ctxs.find? fun c => c.uid == u

/-- A request at a frame's rendezvous table (R296): it joins the matching OPEN entry, which seals with its 32nd caller
(R297), or opens the lowest-numbered FREE entry; none when no entry is FREE. -/
def State.rdvJoin (s : State) (frame uid : Nat) (launch : Word) (leaf : DWord) (key : Word) (timeout : Nat) : Option State :=
  let same (e : RdvEntry) : Bool := e.frame == frame && e.st == .opened && e.launch == launch && e.leaf == leaf && e.key == key
  if s.rdv.any same then
    some { s with
      arrivals := s.arrivals + 1,
      rdv := s.rdv.map fun e =>
        if same e then
          { e with callers := e.callers ++ [uid],
                   st := if e.callers.length = 31 then .sealed else .opened,
                   order := if e.callers.length = 31 then s.arrivals else e.order }
        else e }
  else
    match (List.range Config.rdvMax).find? fun n => !(s.rdv.any fun e => e.frame == frame && e.num == n) with
    | none => none
    | some n =>
      let t := if timeout = 0 then s.policy.rdvDefault else timeout
      some { s with rdv := s.rdv ++ [⟨frame, n, .opened, launch, leaf, key, s.tick + t, [uid], 0⟩] }

/-- Whether a launch is being aborted (R377). -/
def State.aborting (s : State) (n : Word) : Bool :=
  match s.launch? n with
  | some l => (match l.st with | .aborting _ => true | _ => false)
  | none => false

/-- The order in which a context parked for a FREE entry (R299). -/
def Ctx.gcallOrder (c : Ctx) : Nat :=
  match c.st with
  | .parked (.gcallFree _ _ _ _ _ _ o) => o
  | _ => 0

/-- Whether a context of a frame waits for a FREE entry. -/
def Ctx.waitsEntry (c : Ctx) (frame : Nat) : Bool :=
  match c.st with
  | .parked (.gcallFree _ _ _ _ _ _ _) => frameNo c.key.core == frame
  | _ => false

/-- The lookups of the contexts that wait for a FREE entry, one after another in the order in which they parked (R299): one that
fails stays parked, and one behind it may yet join an entry that an earlier one has opened. A launch that is being aborted looks up
nothing more (R377). -/
def State.retryLookups (s : State) (frame : Nat) : State :=
  (sortOn Ctx.gcallOrder (s.ctxs.filter fun c => c.waitsEntry frame)).foldl (fun (s : State) (c : Ctx) =>
    match c.st with
    | .parked (.gcallFree leaf key t call next pops _) =>
      if s.aborting c.launch then s
      else match s.rdvJoin frame c.uid c.launch leaf key t with
      | none => s
      | some s => s.modCtx c.key fun c => { c with st := .parked (.gcall call next pops) }
    | _ => s) s

/-- An entry becomes FREE (R299): callers that wait for one look up again. -/
def State.freeEntry (s : State) (frame num : Nat) : State :=
  let s := { s with rdv := s.rdv.filter fun e => !(e.frame == frame && e.num == num) }
  s.retryLookups frame

/-! ## The matrix engine's queue and convergence rounds (R328–R331) -/

/-- A beam, as it is kept. -/
def State.beam (s : State) (core : CoreId) : Beam := (s.beams.find? fun b => b.core == core).getD ⟨core, [], false, 0⟩

/-- Keeping a beam. -/
def State.setBeam (s : State) (b : Beam) : State := { s with beams := b :: s.beams.filter fun x => x.core != b.core }

/-- The clock of the matrix engines: TICK less the cycles that were withheld (R406). -/
def State.engineClock (s : State) : Nat := s.tick - s.power.withheld

/-- Starting the operation at the head of a beam's queue (R328). -/
def startHead (tick : Nat) : List MatrixOp → List MatrixOp
  | [] => []
  | o :: os => (if o.started.isNone then { o with started := some tick } else o) :: os

/-- Whether the self-test of a column holds a beam's engine, which performs nothing until it ends (R335, R401). -/
def State.columnHeld (s : State) (core : CoreId) : Bool := s.tests.any fun t => t.target == .column core

/-- The operations of a beam with the oldest under way, unless a self-test holds the engine (R328, R335). -/
def State.goOn (s : State) (core : CoreId) (ops : List MatrixOp) : List MatrixOp :=
  if s.columnHeld core then ops else startHead s.engineClock ops

/-- Replacing the operations of a beam; its engine goes on with the oldest. -/
def State.setOps (s : State) (core : CoreId) (ops : List MatrixOp) : State :=
  s.setBeam { s.beam core with ops := s.goOn core ops }

/-- Something that instructions of family 0x11 on a beam wait for has ended: they try again (R320–R323). -/
def State.wakeObuf (s : State) (core : CoreId) : State :=
  { s with ctxs := s.ctxs.map fun c => if c.key.core == core && c.st == .parked .obuf then { c with st := .live } else c }

/-- A context's place in its beam's issue order goes, once its instruction has taken effect or is given up. -/
def State.endTurn (s : State) (k : CtxKey) : State :=
  if ((s.ctx? k).map fun c => c.turn.isSome).getD false then (s.modCtx k fun c => { c with turn := none }).wakeObuf k.core else s

/-- Whether a gang of an index is resident in an allocation (R331). -/
def State.gangHere (s : State) (core : CoreId) (launch : Word) (w g : Nat) : Bool :=
  s.ctxs.any fun c => c.key.core == core && c.launch == launch && c.group == w && c.index == g && c.st != .draining

/-- Whether two operations of one round agree (R331). -/
def MatrixOp.agrees (o p : MatrixOp) : Bool :=
  o.sparse == p.sparse && o.tile == p.tile && o.a == p.a && o.b == p.b && o.k == p.k

/-- A gang whose matrix operation has completed (R327): MPROG is 0 and it goes on. -/
def State.matrixDone (s : State) (k : CtxKey) (next : DWord) : State :=
  s.modCtx k fun c => { c with st := .live, arch := { c.arch with mprog := 0 }.goto c.liveSet next }

/-- An operation of a member once the round's operation p is chosen (R331): one that differs is to fault, one issued after
p's completion completes at once, and every other completes with p. -/
def State.roundMember (s : State) (p : MatrixOp) (done : Bool) (o : MatrixOp) : State :=
  if !o.agrees p then s.modCtx o.key fun c => { c with st := .parked (.roundBad .ill) }
  else if done then s.matrixDone o.key o.next
  else
    let b := s.beam p.key.core
    s.setBeam { b with ops := b.ops.map fun x => if x.num == p.num then { x with members := x.members ++ [(o.key, o.next)] } else x }

/-- A convergence register between rounds. -/
def CvgReg.idle : CvgReg := ⟨0, none, [], [], none, false⟩

/-- The round of a convergence register goes as far as it can (R331): once every member has signed, the earliest-issued
operation is performed and the others are judged by it; the round closes when every member has issued and the performed
operation, which R333 keeps in an open round, has completed. On a beam whose column is fenced the operations that wait fault
MMAERR instead (R335). What waits for an operation of the round tries again (R320, R323). -/
def State.runRound (s : State) (core : CoreId) (launch : Word) (w : Nat) (n : Fin 8) : State :=
  match s.region? core launch w with
  | none => s
  | some r =>
    let v := r.cvg[n]
    match v.mset with
    | none => s
    | some m =>
      let members := (List.range 32).filter fun g => m.getLsbD g
      let counted (g : Nat) : Bool := v.issued.contains g || !(s.gangHere core launch w g)
      if members.all fun g => v.signed.getLsbD g || counted g then
        let fenced := (s.beam core).fenced
        let s := if fenced then v.waiting.foldl (fun (s : State) o => s.modCtx o.key fun c => { c with st := .parked (.roundBad .mmaerr) }) s else s
        let v := if fenced then { v with waiting := [] } else v
        let (s, v) : State × CvgReg := match v.performed, v.waiting with
          | none, o :: os =>
            let s := s.setOps core ((s.beam core).ops ++ [o])
            (s.modCtx o.key fun c => { c with st := .parked (.matrix o.num) }, { v with performed := some o, waiting := os })
          | _, _ => (s, v)
        let s := match v.performed with
          | some p => v.waiting.foldl (fun (s : State) o => s.roundMember p v.done o) s
          | none => s
        let v := { v with waiting := [] }
        let v := if members.all counted && (v.performed.isNone || v.done) then CvgReg.idle else v
        (s.modRegion core launch w fun r => { r with cvg := r.cvg.set n v }).wakeObuf core
      else s

/-- Every round of an allocation goes as far as it can. -/
def State.runRounds (s : State) (core : CoreId) (launch : Word) (w : Nat) : State :=
  (List.finRange 8).foldl (fun (s : State) n => s.runRound core launch w n) s

/-- A gang that exits or takes a gang fault counts from then on as having signed and issued in every open round of its
allocation (R331) (DEDUCED, log 44). -/
def State.leaveRounds (s : State) (c : Ctx) : State :=
  let s := s.modRegion c.key.core c.launch c.group fun r =>
    { r with cvg := r.cvg.map fun v => if v.mset.isSome && !v.issued.contains c.index then { v with issued := v.issued ++ [c.index] } else v }
  s.runRounds c.key.core c.launch c.group

/-- A context without live lanes drains (R75): what its lanes have performed is released, those that a fault retired among them, so
that the reader of the final stamp sees every store of the launch (R61, R277). A draining context holds no trap slot and sends no
message, and the entry that formed a gang becomes FREE (R299, R308), unless an abort has freed it before (R377). -/
def State.drain (s : State) (k : CtxKey) : State :=
  let s := ((s.releaseMem k .dev).freeSlot k).endTurn k
  let s := { s with spawnQ := s.spawnQ.filter fun m => m.1 != k }
  let s := s.modCtx k fun c => { c with st := .draining }
  match s.ctx? k with
  | none => s
  | some c =>
    match c.kind with
    | .called frame e =>
      let mine := s.rdv.any fun x => x.frame == frame && x.num == e && x.launch == c.launch
      (if mine then s.freeEntry frame e else s).leaveRounds c
    | .gang => s.leaveRounds c
    | .rod => s

/-- The hold rule (R126): when every live lane is held, those at the lowest address are released, with MEET cleared. -/
def Arch.releaseHeld (ar : Arch) : Arch :=
  let live := (lanesOf ar.liveMask)
  if live.isEmpty || live.any (fun i => !(ar.lane i).held) then ar
  else
    let p := live.foldl (fun (p : Option Nat) i =>
      match p with
      | none => some (ar.lane i).pc.toNat
      | some q => some (min q (ar.lane i).pc.toNat)) none
    ar.forLanes (live.filter fun i => some (ar.lane i).pc.toNat == p) fun ar i =>
      ar.modLane i fun l => { l with meet := 0, held := false }

/-- The lanes that a trap took while they were held are held again (R127) (DEDUCED, log 38). -/
def Arch.holdAgain (ar : Arch) : Arch :=
  { ar.forLanes (lanesOf ar.heldSet) (fun ar i => ar.modLane i fun l => { l with held := l.live }) with heldSet := 0 }

/-- A handler is over once every lane of its trap set has ended: the lanes that it held back go on (DEDUCED, log 17). -/
def Arch.endHandler (ar : Arch) : Arch :=
  if (ar.uh || ar.overlay) && ar.trapSet != 0 && (ar.trapSet &&& ar.liveMask) == 0 then
    { ar with uh := false, overlay := false, trapSet := 0 }.holdAgain
  else ar

/-- Ending lanes (R87, R304, R308): they are no longer live, the hold rule is evaluated, and the context drains when no
live lane remains. A lane that ends inside its handler stays in the trap set (R131) (DESIGN CHOICE, log 65). -/
def State.endLanes (s : State) (k : CtxKey) (m : BitVec 64) : State :=
  let s := s.modCtx k fun c =>
    { c with arch := (c.arch.forLanes (lanesOf m) fun ar i => ar.modLane i fun l => { l with live := false, held := false }).endHandler.releaseHeld }
  match s.ctx? k with
  | some c => if c.arch.liveMask == 0 then s.drain k else s
  | none => s

/-- A job card's n-byte field at an offset (R252). -/
def cardField (c : BitVec 2048) (off n : Nat) : Nat := c.toNat / 256 ^ off % 256 ^ n

/-- The abort of a launch (R377): its threads and gangs issue nothing more and stop at their points, where they are saved and drain
(R389, R390); its rendezvous entries become FREE (R299), and its jobs in flight end with the code. Stores already performed stay; no
gated or pushed store takes place. -/
def State.abortLaunch (s : State) (n : Word) (code : Code) : State :=
  match s.launch? n with
  | none => s
  | some l =>
    match l.st with
    | .running | .saved =>
      let keys := (s.ctxs.filter fun c => c.launch == n).map (·.key)
      let s : State := { s with
        gates := s.gates.filter fun g => !keys.contains g.key,
        ctxs := s.ctxs.map fun c => if c.launch == n then { c with arch := { c.arch with pushes := [] } } else c,
        jobs := s.jobs.map fun j => if j.launch == n && j.code.isNone then { j with code := some (code, false), waits := [] } else j }
      let s := s.modLaunch n fun l => { l with st := .aborting code, halt := if keys.isEmpty then none else some 3, saved := [] }
      (s.rdv.filter fun e => e.launch == n).foldl (fun (s : State) e => s.freeEntry e.frame e.num) s
    | _ => s

/-! ## Taking an exception (R371–R376) -/

/-- The disposition of a fault for a context (R373). -/
def State.dispositionOf (s : State) (c : Ctx) (code : Code) : Disposition :=
  match pktDisp (s.pktOf c.launch) code with
  | 2 => .kill
  | 0 => if c.arch.uhnd == 0 || c.arch.uh || c.arch.overlay then .system else .user
  | _ => .system

/-- ECODE of a fault (R372). -/
def ecodeFault (c : Code) : Word := c.byte.setWidth 32

/-- The held lanes of a trap set enter its handler, and their held flags are saved (R127, R375) (DEDUCED, log 38). -/
def Arch.takeHeld (ar : Arch) (set : BitVec 64) : Arch :=
  let m := (lanesOf set).foldl (fun m i => if (ar.lane i).held then m ||| (1#64 <<< i) else m) 0#64
  { ar.forLanes (lanesOf set) (fun ar i => ar.modLane i fun l => { l with held := false }) with heldSet := m }

/-- The bits that EPC holds (R372). -/
def epcBits (pc : DWord) : DWord := pc &&& 0x01FFFFFFFFFFFFFF

/-- Delivery of a fault to a rod or reckoner thread or a launched gang, with its trap set (R373–R377): the trap registers
are written, and the handler is entered, Gyhouc is asked, or the launch is aborted. A SYSTEM delivery leaves the handler
flags and the handler's trap set as they are (DEDUCED, log 18). -/
def State.deliverTo (s : State) (k : CtxKey) (code : Code) (addr : DWord) (elane : Word) (epc : DWord) (set : BitVec 64) : State :=
  let s := s.checkpoint k
  match s.ctx? k with
  | none => s
  | some c =>
    let ar := { c.arch with ecode := ecodeFault code, eaddr := addr, elane := elane, epc := epcBits epc }
    match s.dispositionOf c code with
    | .kill => (s.setCtx { c with arch := ar }).abortLaunch c.launch code
    | .user => s.setCtx { c with arch := ({ ar with uh := true, trapSet := set }.takeHeld set).goto set ar.uhnd, st := .live, refused := [] }
    | .system => (s.setCtx { c with arch := { ar with sysSet := set }, st := .parked .trapSlot, refused := [] }).requestSlot k .system

/-- ELANE of a fault delivered at a GCALL site (R305). -/
def elaneCall (leafPc leaf : DWord) (lane : Nat) : Word :=
  (0x80000000 : Word) ||| (BitVec.ofNat 32 (((leafPc - leaf).toNat / 4 % 2 ^ 25) * 64 + lane % 64))

/-- The fault of a retired lane, at its caller's GCALL (R304, R305): the caller's registers keep their values. A caller that an
abort has stopped in the meantime takes none (R377). -/
def State.faultCaller (s : State) (entry : RdvEntry) (f : LaneFault) (leafPc : DWord) (caller : Nat) : State :=
  match s.byUid caller with
  | none => s
  | some c =>
    if s.aborting c.launch then s
    else (s.setCtx { c with st := .live }).deliverTo c.key f.code f.addr (elaneCall leafPc entry.leaf f.lane) (c.arch.lane 0).pc 1

/-- Retiring lanes of a gang that a rendezvous entry formed (R304): each lane's caller takes the lane's fault, and no refusal of
a page outlives it (R223). -/
def State.retireCalled (s : State) (c : Ctx) (entry : RdvEntry) (fs : List LaneFault) (leafPc : DWord) : State :=
  let s := s.modCtx c.key fun c => { c with refused := [] }
  let s := s.endLanes c.key (fs.foldl (fun m f => m ||| (1#64 <<< f.lane)) 0#64)
  fs.foldl (fun s f =>
    match (c.arch.lane f.lane).caller with
    | some caller => s.faultCaller entry f leafPc caller
    | none => s) s

/-- The entry that formed a gang. -/
def State.entryOf (s : State) (c : Ctx) : Option RdvEntry :=
  match c.kind with
  | .called frame e => s.rdv.find? fun x => x.frame == frame && x.num == e
  | _ => none

/-- The TID that a record names: of lane 0, or 0 with no context. -/
def State.tidFor (s : State) (k : Option CtxKey) : DWord := ((k.bind s.ctx?).map fun c => (c.arch.lane 0).tid).getD 0

/-- Where a fetch or a fill of text met an uncorrectable error: the code heap's place of the PC, or of the unit of the window's text that
has one (R227, R403). -/
def State.textPlace (s : State) (c : Ctx) (pc : DWord) : Place :=
  let here : Place := .dev (s.heapOffset pc.toNat)
  if s.flawed here 4 then here
  else match s.window? c.launch c.key.core with
    | none => here
    | some w =>
      match s.flaws.find? fun f => decide (2 ≤ f.bad) && s.meets f (.dev (s.heapOffset w.tbase.toNat)) w.xb with
      | some (.home p _) => p
      | _ => here

/-- Where a context met an uncorrectable error: the place of the address that EADDR names, of that scratch offset (R237), or of the
text that a PC names. -/
def State.errorPlace (s : State) (c : Ctx) (va : DWord) : Place :=
  if inRange va.toNat (s.objectOf c.launch).text (s.objectOf c.launch).textSize then s.textPlace c va
  else
  let own : Place := .scratch c.key.core c.launch c.group va.toNat
  match s.resolve (s.accessor c) va 1 1 .load with
  | .ok p => if va.toNat < scratchBytes c.key.core (s.pwOf c) && s.flawed own 1 && !s.flawed p 1 then own else p
  | _ => own

/-- The records of the uncorrectable errors that the lanes of a fault met (R227, R403). -/
def State.recordErrors (s : State) (k : CtxKey) (fs : List LaneFault) : State :=
  (fs.filter fun f => f.code == .memue).foldl (fun (s : State) f =>
    match s.ctx? k with
    | some c => s.recordMemue (c.arch.lane f.lane).tid (s.errorPlace c f.addr)
    | none => s) s

/-- Taking an exception: the one operation that delivers a fault (R303–R305, R371–R376). A rod or reckoner thread takes its
fault; a launched gang's lowest faulting lane and every lane with the same code form the trap set; a gang that a
rendezvous entry formed retires the faulting lanes, or on a gang fault every live lane, to their callers. -/
def State.deliver (s : State) (k : CtxKey) (t : Trap) : State :=
  let s := (s.endTurn k).recordErrors k t.lanes
  match s.ctx? k, t.lanes with
  | some c, f :: fs =>
    match c.kind with
    | .rod => s.deliverTo k f.code f.addr 0 t.epc 1
    | .gang =>
      let set := if t.gang then c.arch.liveMask
        else (f :: fs).foldl (fun m x => if x.code == f.code then m ||| (1#64 <<< x.lane) else m) 0#64
      let low := ((lanesOf set).head?).getD 0
      (if t.gang then s.leaveRounds c else s).deliverTo k f.code f.addr (BitVec.ofNat 32 (max low (if t.gang then f.lane else 0))) t.epc set
    | .called _ _ =>
      match s.entryOf c with
      | none => s
      | some e =>
        s.retireCalled c e (if t.gang then (lanesOf c.arch.liveMask).map fun i => ⟨i, f.code, f.addr⟩ else f :: fs) t.epc
  | _, _ => s

/-- The return from an exception (R383): the trap set resumes at EPC, the handler flags clear, and a barrier mark at another
PC goes (R356). -/
def Ctx.resume (c : Ctx) : Ctx :=
  let set := if c.kind == .rod then 1 else c.arch.trapSet
  let ar := ({ c.arch with uh := false, overlay := false, trapSet := 0 }.goto set c.arch.epc).holdAgain
  { c with arch := { ar with mark := if (ar.mark.map (·.1)) == some c.arch.epc then ar.mark else none } }

/-- The return from a SYSTEM service (R376): the trap set that Gyhouc was given goes to EPC, and the device keeps no refusal
of a page (R223). -/
def Ctx.resumeSystem (c : Ctx) : Ctx := { c with st := .live, refused := [], arch := { c.arch.goto c.arch.sysSet c.arch.epc with sysSet := 0 } }

/-- Taking a user interrupt (R380): the lowest enabled pending source i leaves PEND, the trap registers say so, and the
lanes that were about to issue enter the USER handler. -/
def Ctx.interrupt (c : Ctx) (i : Nat) (set : BitVec 64) (pc : DWord) : Ctx :=
  let ar := { c.arch with
      pend := c.arch.pend &&& ~~~(1#8 <<< i),
      ecode := BitVec.ofNat 32 (2 ^ 30 + 256 * i),
      eaddr := 0, elane := 0, epc := epcBits pc, uh := true, trapSet := set, heldSet := 0 }
  { c with arch := ar.goto set c.arch.uhnd, st := .live }

/-- The overlay handler (R106, R108): EPC and EADDR take the PC, and the lanes at it go on at OVH (DEDUCED, log 25). An OVL that is
nested in a handler is delivered instead (R373). -/
def Ctx.enterOverlay (c : Ctx) (set : BitVec 64) (pc : DWord) : Ctx :=
  let ar := { c.arch with
      epc := epcBits pc, eaddr := pc, ecode := ecodeFault .ovl, overlay := true, trapSet := set, heldSet := 0 }
  { c with arch := ar.goto set c.arch.ovh }

/-- An instruction of a context retires: a lock-step context counts it (R398). -/
def State.retire (s : State) (k : CtxKey) : State :=
  match s.ctx? k with
  | some c => if s.inLockstep c && c.st == .live then s.setCtx { c with retired := c.retired + 1 } else s
  | none => s

/-- The end of an instruction's step: it retires, or its fault is delivered. -/
def finish (k : CtxKey) : Eff → Host.Outcome State Fault Refusal
  | .done s => .next (s.retire k)
  | .trap s t => .next (s.deliver k t)

/-- A lock-step mismatch (R400) found at an instruction of a context: a pending strike (DESIGN CHOICE, log 7). -/
def State.struck (s : State) (k : CtxKey) : Bool :=
  s.strikes.contains k && ((s.ctx? k).map fun c => s.inLockstep c).getD false

/-- A tag after a rollback: one that was SET at the checkpoint and cleared since (TAGCLR) is SET again, as TAGS says (R134, R399); one that a
job set since stays so (DEDUCED, log 32). -/
def Tag.rolledBack (now ckpt : Tag) : Tag := if ckpt.st == .set && now.st == .free then ckpt else now

/-- The state of a rollback (R399, R400): what a checkpoint holds; what a job or a POST has brought since stays (DEDUCED, log 32). -/
def Arch.rolledBack (now ckpt : Arch) : Arch :=
  { ckpt with tags := Vector.ofFn fun i => Tag.rolledBack now.tags[i] ckpt.tags[i], pend := now.pend ||| ckpt.pend }

/-- Rolling a context back to its newest checkpoint (R400): its gated entries are discarded, and it parks for the self-test
of its issue slot (R401). -/
def State.rollBack (s : State) (k : CtxKey) : State :=
  let test : SelfTest := ⟨.pair (pairCore k.core), some k, k.slot.val % 8, s.tick⟩
  let s := { s with gates := s.gates.filter fun g => g.key != k, strikes := s.strikes.filter fun x => x != k,
                    tests := s.tests ++ [test] }
  s.modCtx k fun c =>
    { c with arch := c.arch.rolledBack (c.ckpt.headD c.arch), retired := 0, rollbacks := c.rollbacks + 1, st := .parked .selfTest }

/-- What comes of a write-back of a context outside an issue: a lock-step mismatch undoes it (R395, R400). -/
def State.unlessStruck (s : State) (k : CtxKey) (go : State) : State := if s.struck k then s.rollBack k else go

/-- The meaning of an instruction in the context that issues it; where it has something that a lock-step pair compares (R395), a
mismatch undoes it (R400). -/
def State.withIssueIf (s : State) (compared : Ctx → Bool) (f : Issue → Ctx → Eff) : Host.Outcome State Fault Refusal :=
  match s.issue with
  | none => .fault .noIssuer
  | some iss =>
    match s.ctx? iss.key with
    | none => .fault .noIssuer
    | some c => if compared c && s.struck iss.key then .next (s.rollBack iss.key) else finish iss.key (f iss c)

/-- The meaning of an instruction that has nothing that a lock-step pair compares (R395). -/
def State.withIssueQuiet (s : State) (f : Issue → Ctx → Eff) : Host.Outcome State Fault Refusal := s.withIssueIf (fun _ => false) f

/-- The meaning of an instruction in the context that issues it; a lock-step mismatch undoes it (R400). -/
def State.withIssue (s : State) (f : Issue → Ctx → Eff) : Host.Outcome State Fault Refusal := s.withIssueIf (fun _ => true) f

end Sys2Proof.Machine
end

