-- ==== Sys2Proof/Machine/Access.lean ====
section
/-!
DEFINITION. Asking for translations and replaying (R222, R223), and performing loads and atomics at their places (R236, R240).
-/
namespace Sys2Proof.Machine

/-- Whether two page waits are for one translation (R222). -/
def PageWait.same (x y : PageWait) : Bool := x.die == y.die && x.pasid == y.pasid && x.page == y.page

/-- Asking for a page: a request that is already outstanding, or waits, is joined (R222) (DEDUCED, log 33); an access that waits joins a
sample's request as its own (R350). -/
def State.askPage (s : State) (w : PageWait) : State :=
  if s.pri.contains w then s
  else if s.ats.any w.same then { s with ats := s.ats.map fun x => if w.same x && x.quiet then w else x }
  else { s with ats := s.ats ++ [w] }

/-- Parking a context for the pages that an execution missed; the instruction executes again once each has replayed or been
refused (R223). Refusals that the execution already met are kept for it. -/
def State.parkPages (s : State) (k : CtxKey) (ws : List PageWait) : State :=
  (ws.foldl State.askPage s).modCtx k fun c => { c with st := .parked (.pages ws.eraseDups) }

/-- An execution that settled its translations uses up the refusals that it met (R223). -/
def State.settle (s : State) (k : CtxKey) : State := s.modCtx k fun c => { c with refused := [] }

/-- The bytes of a load by a context, as a value. -/
def State.loadValue (s : State) (c : Ctx) (va : DWord) (p : Place) (n : Nat) (sc : Scope) : BitVec 128 :=
  BitVec.ofNat 128 (leNat (s.loadBytes c.key c.frame? (s.pasidOf c.launch) va.toNat p
    (if c.frame?.isNone && sc == .frm then .dev else sc) n))

/-- What a load of a frame does to its cache (R219, R274): at .FRM a miss fills; at a wider scope a dirty line, which serves the
load, takes its clean bytes from their home (DEDUCED, log 26); in CXL mode host memory enters shared. -/
def State.loadFill (s : State) (c : Ctx) (va : DWord) (p : Place) (sc : Scope) : State :=
  match c.frame?, p with
  | some f, .host a => s.takeLine f (s.pasidOf c.launch) va.toNat a false false
  | some f, p =>
    if !p.cached then s
    else if sc == .frm then s.fillLine f (s.pasidOf c.launch) va.toNat p
    else { s with cache := s.cache.map fun (l : CacheLine) =>
        if l.holds f (s.pasidOf c.launch) va.toNat && l.dirty != 0 then s.refresh l else l }
  | none, _ => s

/-- What a load of n bytes leaves behind it besides its value: the errors that it corrected are counted (R226), and its frame's cache
holds the line as the load's scope has it (R219, R274). -/
def State.noteLoad (s : State) (c : Ctx) (va : DWord) (p : Place) (n : Nat) (sc : Scope) : State :=
  let s := match c.frame? with
    | some f => s.noteLine f (s.pasidOf c.launch) va.toNat n
    | none => s
  (s.noteRead p n).loadFill c va p sc

/-- Whether a context's frame holds the line that serves an access, so that the access needs no link (R274, R364): at .FRM a load or a
store, at a wider scope a load of dirty bytes. -/
def State.lineServes (s : State) (c : Ctx) (va : DWord) (n : Nat) (k : AccessKind) (sc : Scope) : Option Place :=
  (c.frame?.bind fun f => s.line? f (s.pasidOf c.launch) va.toNat).bind fun l =>
    let i := va.toNat % 128
    let serves : Bool := match k with
      | .load => sc == .frm || (List.range n).all fun j => l.dirty.getLsbD (i + j)
      | .store => sc == .frm
      | .atomic _ => false
    if serves then some (l.place.plus i) else none

/-- The checks of an address at a scope: FLINK only where the access needs the link (R364). -/
def State.resolveAt (s : State) (c : Ctx) (va : DWord) (n align : Nat) (k : AccessKind) (sc : Scope) : Resolved :=
  match s.resolve (s.accessor c) va n align k with
  | .fault .flink => match s.lineServes c va n k sc with
    | some p => .ok p
    | none => .fault .flink
  | r => r

/-- The checks of a load that is made in the step itself, at a scope: those of R225, and MEMUE last (R227). -/
def State.resolveLoad (s : State) (c : Ctx) (va : DWord) (n align : Nat) (sc : Scope) : Resolved :=
  match s.resolveAt c va n align .load sc with
  | .ok p => if s.flawed p n then .fault .memue else .ok p
  | r => r

/-- The checks of a store that is made in the step itself, at a scope: those of R225 with WINPERM (R214). -/
def State.resolveStore (s : State) (c : Ctx) (va : DWord) (n align : Nat) (sc : Scope) : Resolved :=
  match s.resolveAt c va n align .store sc with
  | .ok p => if s.windowRefused (s.accessor c) va p then .fault .winperm else .ok p
  | r => r

/-- The value of a location at its serialization point, after any dirty line of the issuer's frame has gone home (R220,
R274); in CXL mode the issuer's frame takes a host line exclusively (R43, R219). -/
def State.syncHome (s : State) (c : Ctx) (va : DWord) (p : Place) : State :=
  match c.frame?, p with
  | none, _ => s
  | some f, .host a => s.takeLine f (s.pasidOf c.launch) va.toNat a true false
  | some f, p =>
    if !p.cached then s
    else match s.line? f (s.pasidOf c.launch) va.toNat with
      | some l => if l.dirty == 0 then s else s.writeBack l
      | none => s

/-- The new value of an atomic, its operands and result at the access width (R240); `none`: no write takes place. -/
def atomicResult (fadd : Word → Word → Word) (op : AtomicOp) (n : Nat) (m c q : BitVec 128) : Option (BitVec 128) :=
  let bits := 8 * n
  let sg (x : BitVec 128) : Int := if x.getLsbD (bits - 1) then (x.toNat : Int) - 2 ^ bits else x.toNat
  match op with
  | .add => some (BitVec.ofNat 128 ((m.toNat + c.toNat) % 2 ^ bits))
  | .fadd => some ((fadd (m.setWidth 32) (c.setWidth 32)).setWidth 128)
  | .min => some (if sg m ≤ sg c then m else c)
  | .max => some (if sg c ≤ sg m then m else c)
  | .and => some (m &&& c)
  | .or => some (m ||| c)
  | .xor => some (m ^^^ c)
  | .xch => some c
  | .cas => if m == c then some q else none

/-- The HCAP bit of the PCIe AtomicOp that an atomic becomes (R42, R43). -/
def hostAtomicBit : AtomicOp → Size → Option Nat
  | .add, .b32 => some 3
  | .add, .b64 => some 4
  | .xch, .b32 => some 5
  | .xch, .b64 => some 6
  | .cas, .b32 => some 7
  | .cas, .b64 => some 8
  | .cas, .b128 => some 9
  | _, _ => none

end Sys2Proof.Machine
end

