-- ==== Sys2Proof/Machine/Streams.lean ====
section
/-!
DEFINITION. Stream registers v56–v63 of rod and reckoner threads (R244–R250): descriptors, elements, pops and pushes.
-/
namespace Sys2Proof.Machine

/-! ## Descriptors (R244) -/

/-- BASE. -/
def strmBase (d : BitVec 512) : DWord := d.extractLsb' 0 64
/-- SCTL. -/
def strmCtl (d : BitVec 512) : Word := d.extractLsb' 64 32
/-- SGN. -/
def strmSgn (d : BitVec 512) : Bool := (strmCtl d).getLsbD 6
/-- LEVELS. -/
def strmLevels (d : BitVec 512) : Nat := ((strmCtl d).extractLsb' 4 2).toNat
/-- DIR: a write stream. -/
def strmWrites (d : BitVec 512) : Bool := (strmCtl d).getLsbD 3
/-- The element's bytes. -/
def strmBytes (d : BitVec 512) : Nat := 2 ^ ((strmCtl d).extractLsb' 0 2).toNat
/-- STRIDE of a level. -/
def strmStride (d : BitVec 512) (l : Nat) : DWord := d.extractLsb' (128 + 128 * l) 64
/-- COUNT of a level. -/
def strmCount (d : BitVec 512) (l : Nat) : Nat := (d.extractLsb' (192 + 128 * l) 32).toNat

/-- N, the elements of a stream. -/
def strmLen (d : BitVec 512) : Nat := ((List.range (strmLevels d)).map (strmCount d)).foldl (· * ·) 1

/-- The address of element n. -/
def strmAddr (d : BitVec 512) (n : Nat) : DWord :=
  let c0 := strmCount d 0
  let c1 := strmCount d 1
  let at0 := BitVec.ofNat 64 (n % c0) * strmStride d 0
  let at1 := if 2 ≤ strmLevels d then BitVec.ofNat 64 (n / c0 % c1) * strmStride d 1 else 0
  let at2 := if 3 ≤ strmLevels d then BitVec.ofNat 64 (n / (c0 * c1)) * strmStride d 2 else 0
  strmBase d + at0 + at1 + at2

/-- A valid descriptor: fields in range, reserved fields and unused levels 0, aligned, in the host-shared or the domain
aperture. -/
def strmValid (d : BitVec 512) : Bool :=
  let ctl := strmCtl d
  let n := strmBytes d
  let levels := strmLevels d
  ctl.extractLsb' 7 25 == 0 && !ctl.getLsbD 2 && ctl.extractLsb' 0 2 != 3 && levels != 0
  && !(strmSgn d && strmWrites d)
  && d.extractLsb' 96 32 == 0
  && (strmBase d).toNat % n == 0 && decide ((strmBase d).toNat < 2 ^ 56 + 2 ^ 55)
  && (List.range 3).all fun l =>
      if l < levels then (strmStride d l).toNat % n == 0 && strmCount d l != 0 && d.extractLsb' (224 + 128 * l) 32 == 0
      else d.extractLsb' (128 + 128 * l) 128 == 0

/-! ## The registers that an instruction names -/

/-- The register fields of an instruction: single sources and destinations, and tuples by their first register and
length. -/
structure Names where
  src : List Reg
  dst : List Reg
  tup : List (Reg × Nat)
  deriving DecidableEq, Repr

/-- The stream register number of a v register: v56 is 0. -/
def strmOf : Reg → Option (Fin 8)
  | .v i => if h : 56 ≤ i.val then some ⟨i.val - 56, by omega⟩ else none
  | _ => none

/-- The stream that a register is, on a rod or reckoner thread. -/
def Ctx.strm? (c : Ctx) (r : Reg) : Option Stream :=
  if c.kind == .rod then (strmOf r).bind fun i => c.arch.streams[i] else none

/-- The declared count of a register's file (R22); VC for the v file (R309). -/
def State.countOf (s : State) (c : Ctx) : Reg → Nat
  | .s _ => (s.objectOf c.launch).scnt
  | .a _ => (s.objectOf c.launch).acnt
  | .v _ => c.arch.vc

/-- The registers of a tuple. -/
def tupleRegs (r : Reg) (n : Nat) : List Reg :=
  match r with
  | .s i => (List.range n).filterMap fun j => if h : i.val + j < 64 then some (.s ⟨i.val + j, h⟩) else none
  | .a i => [.a i]
  | .v i => (List.range n).filterMap fun j => if h : i.val + j < 64 then some (.v ⟨i.val + j, h⟩) else none

/-- The ILL checks that depend on the context: every register named lies below its file's count (R22), no read stream is a
destination, no write stream a source, and a tuple starts at a multiple of its length (R4, R94, R229), is not in the a file
and holds no stream register (R246). -/
def State.namesOk (s : State) (c : Ctx) (nm : Names) : Bool :=
  (nm.src ++ nm.dst).all (fun r => decide (r.idx < s.countOf c r))
  && nm.tup.all (fun t => decide (t.1.idx + t.2 ≤ s.countOf c t.1) && (t.2 == 1 || (t.1.idx % t.2 == 0 && !t.1.isA)) && (tupleRegs t.1 t.2).all fun r => (c.strm? r).isNone)
  && nm.src.all (fun r => ((c.strm? r).map fun st => !strmWrites st.desc).getD true)
  && nm.dst.all (fun r => ((c.strm? r).map fun st => strmWrites st.desc).getD true)

/-- The distinct stream registers among the registers named, ascending. -/
def Ctx.streamsIn (c : Ctx) (rs : List Reg) : List (Fin 8) :=
  (List.finRange 8).filter fun i =>
    rs.any fun r => strmOf r == some i && (c.strm? r).isSome

/-! ## Pops, pushes and closing (R246–R250) -/

/-- The v register of a stream number. -/
def strmReg (i : Fin 8) : Fin 64 := ⟨56 + i.val, by omega⟩

/-- What the streams that an instruction names come to: a value, a fault at an element's address, or a page that an element
waits for. -/
inductive Checked (α : Type) where
  | ok (x : α)
  | fault (c : Code) (va : DWord)
  | miss (w : PageWait)
  deriving DecidableEq, Repr

/-- A read element as a register value (R244, R246). -/
def strmExtend (d : BitVec 512) (x : Nat) : Word :=
  let bits := 8 * strmBytes d
  if strmSgn d && decide (2 ^ (bits - 1) ≤ x) then BitVec.ofNat 32 (x + 2 ^ 32 - 2 ^ bits) else BitVec.ofNat 32 x

/-- The pops of the streams of a list, in order (R246, R247). -/
def State.checkPops (s : State) (c : Ctx) : List (Fin 8) → Checked (List Pop)
  | [] => .ok []
  | i :: is =>
    match c.arch.streams[i] with
    | none => State.checkPops s c is
    | some st =>
      let va := strmAddr st.desc st.n
      let n := strmBytes st.desc
      let go (e : Option Word) : Checked (List Pop) :=
        match State.checkPops s c is with
        | .ok ps => .ok (⟨i, e⟩ :: ps)
        | r => r
      if strmLen st.desc ≤ st.n then go none
      else match s.resolveLoad c va n n .dev with
        | .ok p => go (some (strmExtend st.desc (s.loadValue c va p n .dev).toNat))
        | .fault code => .fault code va
        | .miss w => .miss w

/-- The pushes to the streams of a list, in order (R246, R247). -/
def State.checkPushes (s : State) (c : Ctx) : List (Fin 8) → Checked (List Push)
  | [] => .ok []
  | i :: is =>
    match c.arch.streams[i] with
    | none => State.checkPushes s c is
    | some st =>
      let va := strmAddr st.desc st.n
      let n := strmBytes st.desc
      let go (e : Option (DWord × Place)) : Checked (List Push) :=
        match State.checkPushes s c is with
        | .ok ps => .ok (⟨i, e⟩ :: ps)
        | r => r
      if strmLen st.desc ≤ st.n then go none
      else match s.resolveWrite (s.accessor c) va n n .store with
        | .ok p => go (some (va, p))
        | .fault code => .fault code va
        | .miss w => .miss w

/-- The effect of a pop: the register reads as the element, or as 0 with XSTAT.SEND set past the end. -/
def Arch.pop (ar : Arch) (p : Pop) : Arch :=
  match p.elem, ar.streams[p.reg] with
  | some x, some st =>
    { ar with streams := ar.streams.set p.reg (some { st with n := st.n + 1, last := x }) }.setV 0 (strmReg p.reg) x
  | _, _ => (ar.setV 0 (strmReg p.reg) 0).orXstat 0x400

/-- The effect of a push: the low bytes of the register's result become the next element; past the end they are discarded
and XSTAT.SEND is set. -/
def Arch.push (ar : Arch) (p : Push) : Arch :=
  match p.dest, ar.streams[p.reg] with
  | some (va, pl), some st =>
    let x : Word := BitVec.ofNat 32 ((ar.vreg 0 (strmReg p.reg)).toNat % 2 ^ (8 * strmBytes st.desc))
    { ar with streams := ar.streams.set p.reg (some { st with n := st.n + 1, last := x }),
              pushes := ar.pushes ++ [⟨p.reg, strmBytes st.desc, va, pl, x⟩] }
  | _, _ => ar.orXstat 0x400

/-- The elements popped between two states of a context are loads: their corrected errors are counted, and host lines enter the
frame's cache (R219, R226). -/
def State.notePopped (s : State) (c : Ctx) (ar : Arch) : State :=
  (List.finRange 8).foldl (fun (s : State) i =>
    match c.arch.streams[i], ar.streams[i] with
    | some x, some y =>
      if x.n < y.n && !strmWrites x.desc then
        match s.resolve (s.accessor c) (strmAddr x.desc x.n) (strmBytes x.desc) (strmBytes x.desc) .load with
        | .ok p => s.noteLoad c (strmAddr x.desc x.n) p (strmBytes x.desc) .dev
        | _ => s
      else s
    | _, _ => s) s

/-- Closing a stream whose pushes are performed (R250): its register holds the last element (DEDUCED, log 27). -/
def Arch.closeStream (ar : Arch) (i : Fin 8) : Arch :=
  match ar.streams[i] with
  | some st => { ar with streams := ar.streams.set i none }.setV 0 (strmReg i) st.last
  | none => ar

end Sys2Proof.Machine
end

