-- ==== Sys2Proof/Machine/Operands.lean ====
section
/-!
DEFINITION. Operand forms (R94, R128), result types (R129–R132), the order of an instruction's checks (R130, R131, R167),
and the shared runs of the instructions that only read and write registers.
-/
namespace Sys2Proof.Machine

/-- A source of an instruction: an operand byte, or the literal of a 96-bit form (R93). -/
inductive Src where
  | op (o : Operand)
  | lit (w : Word)
  deriving DecidableEq, Repr

/-- The types of a value (R128). -/
inductive RType where
  | uniform | affine | varying
  deriving DecidableEq, Repr

/-- A six-bit immediate, sign-extended (R94). -/
def immWord (n : BitVec 6) : Word := n.signExtend 32

/-- A value sign-extended to 64 bits. -/
def sext64 (x : Word) : DWord := x.signExtend 64

/-- An s-or-immediate operand as an operand. -/
def opOfU : UniformOp → Operand
  | .s i => .reg (.s i)
  | .imm n => .imm n

/-- An s, a or immediate operand as an operand. -/
def opOfSa : SaOp → Operand
  | .s i => .reg (.s i)
  | .a i => .reg (.a i)
  | .imm n => .imm n

/-- An s, v or immediate operand as an operand. -/
def opOfSv : SvOp → Operand
  | .s i => .reg (.s i)
  | .v i => .reg (.v i)
  | .imm n => .imm n

/-- An s or v register as a register. -/
def regOfSv : SvReg → Reg
  | .s i => .s i
  | .v i => .v i

/-- The registers that an operand names. -/
def opRegs : Operand → List Reg
  | .reg r => [r]
  | .imm _ => []

/-- The registers that a source names. -/
def Src.regs : Src → List Reg
  | .op o => opRegs o
  | .lit _ => []

/-- The file of a register as a type (R128). -/
def regType : Reg → RType
  | .s _ => .uniform
  | .a _ => .affine
  | .v _ => .varying

/-- The type of an operand; immediates are uniform (R128). -/
def opType : Operand → RType
  | .reg r => regType r
  | .imm _ => .uniform

/-- The type of a source; literals are uniform (R128). -/
def Src.type : Src → RType
  | .op o => opType o
  | .lit _ => .uniform

/-- The value of an operand in a lane. -/
def Arch.opWord (ar : Arch) (lane : Nat) : Operand → Word
  | .reg r => ar.reg lane r
  | .imm n => immWord n

/-- The value of a source in a lane. -/
def Arch.srcWord (ar : Arch) (lane : Nat) : Src → Word
  | .op o => ar.opWord lane o
  | .lit w => w

/-- A source as BASE and STRIDE; a uniform u reads as BASE = u, STRIDE = 0 (R132). -/
def Arch.srcAff (ar : Arch) : Src → AReg
  | .op (.reg (.a i)) => ar.areg i
  | x => ⟨ar.srcWord 0 x, 0⟩

/-- All operands uniform gives uniform, anything else varying (R129, the general rows). -/
def spread (ts : List RType) : RType := if ts.all (· == .uniform) then .uniform else .varying

/-- A source that an instruction does not read. -/
def Src.no : Src := .lit 0

/-! ## Checks -/

/-- A fault of the whole instruction, with EPC and EADDR at its PC (R103, R130, R131). -/
def faultAt (s : State) (iss : Issue) (code : Code) : Eff := .trap s (Trap.one code iss.pc iss.pc)

/-- The checks of R130 in order: ILL, then TYPE, then UPART for an instruction that needs the whole live set (R131). -/
def State.guarded (s : State) (iss : Issue) (c : Ctx) (nm : Names) (typeOk whole : Bool) (go : Eff) : Eff :=
  if !s.namesOk c nm then faultAt s iss .ill
  else if !typeOk then faultAt s iss .type
  else if whole && iss.exec != c.liveSet then faultAt s iss .upart
  else go

/-- The PC after an instruction, in the lanes of its converged set. -/
def Arch.advance (ar : Arch) (iss : Issue) : Arch := ar.goto iss.exec (iss.pc + BitVec.ofNat 64 iss.len)

/-- The lanes of the converged set that no fault names. -/
def goodLanes (exec : BitVec 64) (fs : List LaneFault) : BitVec 64 :=
  fs.foldl (fun m f => m &&& ~~~(1#64 <<< f.lane)) exec

/-- The pushes of a list that store an element (R246). -/
def pushCount (ps : List Push) : Nat := (ps.filter fun p => p.dest.isSome).length

/-- Committing registers, pops and pushes. -/
def State.commit (s : State) (c : Ctx) (ar : Arch) (pushes : List Push) : State :=
  let s := (s.notePopped c ar).setCtx { c with arch := pushes.foldl Arch.push ar, refused := [] }
  if pushes.isEmpty then s else s.spill c.key pushes.length

/-- What the body of a register instruction comes to: new registers; new registers of the lanes that complete, with the
faults of the others (R9, R190); or a fault of the whole gang. -/
inductive Body where
  | ok (ar : Arch)
  | lanes (ar : Arch) (f : LaneFault) (fs : List LaneFault)
  | gang (code : Code) (addr : DWord)
  deriving DecidableEq, Repr

/-- The body that lanes with faults, or without any, come to. -/
def Body.of (ar : Arch) : List LaneFault → Body
  | [] => .ok ar
  | f :: fs => .lanes ar f fs

/-- An instruction that only reads and writes registers, PCs and flags: its checks, the streams it reads, its body, the
streams it writes. A rod or reckoner thread that faults changes nothing (R9); in a gang the lanes that do not fault
complete (R190). The elements that it pops are checked before its operands are looked at (DESIGN CHOICE, log 72). Pushes that find no room in the gated store buffer park a lock-step thread (R396). -/
def State.operate (s : State) (iss : Issue) (c : Ctx) (nm : Names) (typeOk whole : Bool) (body : Arch → Body) : Eff :=
  s.guarded iss c nm typeOk whole <|
    match s.checkPops c (c.streamsIn nm.src) with
    | .fault code va => .trap s (Trap.one code va iss.pc)
    | .miss w => .done (s.parkPages c.key [w])
    | .ok pops =>
      match body (pops.foldl Arch.pop c.arch) with
      | .gang code addr => .trap s (Trap.one code addr iss.pc)
      | .lanes ar f fs => .trap (if c.kind == .rod then s else s.setCtx { c with arch := ar }) ⟨f :: fs, false, iss.pc⟩
      | .ok ar =>
        match s.checkPushes c (c.streamsIn nm.dst) with
        | .fault code va => .trap s (Trap.one code va iss.pc)
        | .miss w => .done (s.parkPages c.key [w])
        | .ok ps => if s.gateFull c (pushCount ps) then .done (s.parkGate c.key) else .done (s.commit c ar ps)

/-- An instruction without lane faults, after which the converged set goes on to the next instruction. -/
def State.simple (s : State) (iss : Issue) (c : Ctx) (nm : Names) (typeOk whole : Bool) (body : Arch → Arch) : Eff :=
  s.operate iss c nm typeOk whole fun ar => .ok ((body ar).advance iss)

/-! ## Writing results (R167) -/

/-- Writing a result of a type to a destination of that file: once for the gang, or in each active lane. -/
def Arch.write (ar : Arch) (exec : BitVec 64) (d : Reg) (ty : RType) (aff : AReg) (f : Nat → Word) : Arch :=
  match ty, d with
  | .uniform, .s i => ar.setS i (f ((lanesOf exec).headD 0))
  | .affine, .a i => ar.setA i aff
  | .varying, .v i => ar.forLanes (lanesOf exec) fun x lane => x.setV lane i (f lane)
  | _, _ => ar

/-- Writing a uniform result. -/
def Arch.writeS (ar : Arch) (d : Reg) (x : Word) : Arch :=
  match d with
  | .s i => ar.setS i x
  | _ => ar

/-- A register-to-register instruction of families 0x01 and 0x03 without faults of its own (R167): `f` gives the value
from D's old value and the sources in one lane, `aff` the affine result. -/
def State.runReg (s : State) (iss : Issue) (c : Ctx) (readsD : Bool) (d : Reg) (a b e : Src) (ty : RType)
    (aff : AReg → AReg → AReg → AReg) (f : Word → Word → Word → Word → Word) : Eff :=
  s.simple iss c ⟨a.regs ++ b.regs ++ e.regs ++ (if readsD then [d] else []), [d], []⟩ (regType d == ty) (ty != .varying)
    fun ar => ar.write iss.exec d ty (aff (ar.srcAff a) (ar.srcAff b) (ar.srcAff e))
      fun lane => f (ar.reg lane d) (ar.srcWord lane a) (ar.srcWord lane b) (ar.srcWord lane e)

end Sys2Proof.Machine
end

