-- ==== Sys2Proof/Machine/IntOps.lean ====
section
/-!
DEFINITION. The 32-bit integer, bit, compare and mask functions of R172–R175, and the result types of R129.
-/
namespace Sys2Proof.Machine

/-- clamp to the signed 32-bit range. -/
def clampI (x : Int) : Word := BitVec.ofInt 32 (max (-2147483648) (min x 2147483647))
/-- clamp to the unsigned 32-bit range. -/
def clampU (x : Int) : Word := BitVec.ofInt 32 (max 0 (min x 4294967295))

/-- ADD under its MOD. -/
def addWord (m : IntMode) (a b : Word) : Word :=
  match m.sat, m.ty with
  | false, _ => a + b
  | true, .i32 => clampI (a.toInt + b.toInt)
  | true, .u32 => clampU (a.toNat + b.toNat)

/-- SUB under its MOD. -/
def subWord (m : IntMode) (a b : Word) : Word :=
  match m.sat, m.ty with
  | false, _ => a - b
  | true, .i32 => clampI (a.toInt - b.toInt)
  | true, .u32 => clampU ((a.toNat : Int) - b.toNat)

/-- The mode of ADD and SUB without a qualifier. -/
def IntMode.plain : IntMode := ⟨.i32, false⟩

/-- MULHI. -/
def mulhiWord (a b : Word) : Word := BitVec.ofInt 32 (a.toInt * b.toInt / 4294967296)
/-- MULHU. -/
def mulhuWord (a b : Word) : Word := BitVec.ofNat 32 (a.toNat * b.toNat / 4294967296)
/-- ABS. -/
def absWord (sat : Bool) (a : Word) : Word :=
  if sat then clampI a.toInt.natAbs else BitVec.ofNat 32 a.toInt.natAbs
/-- MIN. -/
def minWord (a b : Word) : Word := if a.toInt ≤ b.toInt then a else b
/-- MAX. -/
def maxWord (a b : Word) : Word := if b.toInt ≤ a.toInt then a else b
/-- MINU. -/
def minuWord (a b : Word) : Word := if a.toNat ≤ b.toNat then a else b
/-- MAXU. -/
def maxuWord (a b : Word) : Word := if b.toNat ≤ a.toNat then a else b
/-- SHL. -/
def shlWord (a b : Word) : Word := if 32 ≤ b.toNat then 0 else a <<< b.toNat
/-- SHR. -/
def shrWord (a b : Word) : Word := if 32 ≤ b.toNat then 0 else a >>> b.toNat
/-- SAR. -/
def sarWord (a b : Word) : Word := a.sshiftRight (min b.toNat 31)
/-- ROL. -/
def rolWord (a b : Word) : Word :=
  let m := b.toNat % 32
  (a <<< m) ||| (a >>> (32 - m))
/-- CLZ. -/
def clzWord (a : Word) : Word := if a = 0 then 32 else BitVec.ofNat 32 (31 - a.toNat.log2)
/-- CTZ. -/
def ctzWord (a : Word) : Word := BitVec.ofNat 32 (((List.range 32).find? fun i => a.getLsbD i).getD 32)
/-- POPC. -/
def popcWord (a : Word) : Word := BitVec.ofNat 32 ((List.range 32).filter fun i => a.getLsbD i).length
/-- BREV. -/
def brevWord (a : Word) : Word :=
  (List.range 32).foldl (fun x i => if a.getLsbD (31 - i) then x ||| (1#32 <<< i) else x) 0#32
/-- MSKB: a run of w ones from bit p, clipped at bit 31. -/
def mskbWord (p w : Word) : Word :=
  if 32 ≤ p.toNat then 0
  else BitVec.ofNat 32 ((2 ^ min w.toNat (32 - p.toNat) - 1) * 2 ^ p.toNat)
/-- BFX. -/
def bfxWord (a p w : Word) : Word :=
  if 32 ≤ p.toNat then 0
  else BitVec.ofNat 32 (a.toNat / 2 ^ p.toNat % 2 ^ min w.toNat (32 - p.toNat))
/-- BFI, with D's old value d. -/
def bfiWord (d a p w : Word) : Word :=
  let m := mskbWord p w
  (d &&& ~~~m) ||| (shlWord a p &&& m)
/-- ADDC: the carry out. -/
def addcWord (a b c : Word) : Word := BitVec.ofNat 32 ((a.toNat + b.toNat + c.toNat % 2) / 4294967296)
/-- SUBC: the borrow out. -/
def subcWord (a b c : Word) : Word := if a.toNat < b.toNat + c.toNat % 2 then 1 else 0
/-- SEXT: the low n bits, sign-extended. -/
def sextWord (a b : Word) : Word :=
  let n := b.toNat
  if n = 0 then 0
  else if 32 ≤ n then a
  else
    let x := a.toNat % 2 ^ n
    if x < 2 ^ (n - 1) then BitVec.ofNat 32 x else BitVec.ofNat 32 (x + 2 ^ 32 - 2 ^ n)
/-- SEL, with the condition c. -/
def selWord (a b c : Word) : Word := if c ≠ 0 then a else b
/-- a cond b under a type (R173). -/
def condHolds (cond : Cond) (ty : IntTy) (a b : Word) : Bool :=
  let x : Int := match ty with | .i32 => a.toInt | .u32 => a.toNat
  let y : Int := match ty with | .i32 => b.toInt | .u32 => b.toNat
  match cond with
  | .eq => x == y
  | .ne => x != y
  | .lt => decide (x < y)
  | .le => decide (x ≤ y)
  | .gt => decide (y < x)
  | .ge => decide (y ≤ x)
/-- A truth value as 1 or 0. -/
def boolWord (b : Bool) : Word := if b then 1 else 0

/-! ## Result types (R129) -/

/-- The result type of ADD and SUB. -/
def addType : RType → RType → RType
  | .uniform, .uniform => .uniform
  | .affine, .affine | .affine, .uniform | .uniform, .affine => .affine
  | _, _ => .varying
/-- The result type of MUL. -/
def mulType : RType → RType → RType
  | .uniform, .uniform => .uniform
  | .affine, .uniform | .uniform, .affine => .affine
  | _, _ => .varying
/-- The result type of SHL. -/
def shlType : RType → RType → RType
  | .uniform, .uniform => .uniform
  | .affine, .uniform => .affine
  | _, _ => .varying
/-- The result type of MAD. -/
def madType (a b c : RType) : RType :=
  match mulType a b, c with
  | .uniform, .uniform => .uniform
  | .affine, .uniform => .affine
  | _, _ => .varying

/-! ## Affine results (R132) -/

/-- ADD. -/
def addAff (x y _ : AReg) : AReg := ⟨x.base + y.base, x.stride + y.stride⟩
/-- SUB. -/
def subAff (x y _ : AReg) : AReg := ⟨x.base - y.base, x.stride - y.stride⟩
/-- MUL; the uniform factor may stand on either side. -/
def mulAff (x y _ : AReg) : AReg := ⟨x.base * y.base, x.stride * y.base + x.base * y.stride⟩
/-- SHL. -/
def shlAff (x y _ : AReg) : AReg := ⟨shlWord x.base y.base, shlWord x.stride y.base⟩
/-- MAD; the uniform factor may stand on either side. -/
def madAff (x y z : AReg) : AReg := ⟨x.base * y.base + z.base, x.stride * y.base + x.base * y.stride⟩
/-- MOV. -/
def movAff (x _ _ : AReg) : AReg := x

/-! ## Shared runs -/

/-- An instruction of family 0x01 under an issue. -/
def State.intOp (s : State) (readsD : Bool) (d : Reg) (a b e : Src) (ty : RType) (aff : AReg → AReg → AReg → AReg)
    (f : Word → Word → Word → Word → Word) : Host.Outcome State Fault Refusal :=
  s.withIssue fun iss c => s.runReg iss c readsD d a b e ty aff f

/-- An instruction whose result is never affine, from two sources. -/
def State.intOp2 (s : State) (d : Reg) (a b : Src) (f : Word → Word → Word) : Host.Outcome State Fault Refusal :=
  s.intOp false d a b .no (spread [a.type, b.type]) movAff fun _ x y _ => f x y

/-- An instruction whose result is never affine, from three sources. -/
def State.intOp3 (s : State) (d : Reg) (a b e : Src) (f : Word → Word → Word → Word) : Host.Outcome State Fault Refusal :=
  s.intOp false d a b e (spread [a.type, b.type, e.type]) movAff fun _ x y z => f x y z

/-- A unary instruction whose result is never affine. -/
def State.intOp1 (s : State) (d : Reg) (a : Src) (f : Word → Word) : Host.Outcome State Fault Refusal :=
  s.intOp false d a .no .no (spread [a.type]) movAff fun _ x _ _ => f x

/-- ADD. -/
def State.addOp (s : State) (m : IntMode) (d : Reg) (a b : Src) : Host.Outcome State Fault Refusal :=
  s.intOp false d a b .no (addType a.type b.type) addAff fun _ x y _ => addWord m x y

/-- SUB. -/
def State.subOp (s : State) (m : IntMode) (d : Reg) (a b : Src) : Host.Outcome State Fault Refusal :=
  s.intOp false d a b .no (addType a.type b.type) subAff fun _ x y _ => subWord m x y

/-- MUL. -/
def State.mulOp (s : State) (d : Reg) (a b : Src) : Host.Outcome State Fault Refusal :=
  s.intOp false d a b .no (mulType a.type b.type) mulAff fun _ x y _ => x * y

/-- MAD. -/
def State.madOp (s : State) (d : Reg) (a b e : Src) : Host.Outcome State Fault Refusal :=
  s.intOp false d a b e (madType a.type b.type e.type) madAff fun _ x y z => x * y + z

/-- SHL. -/
def State.shlOp (s : State) (d : Reg) (a b : Src) : Host.Outcome State Fault Refusal :=
  s.intOp false d a b .no (shlType a.type b.type) shlAff fun _ x y _ => shlWord x y

/-- MOV. -/
def State.movOp (s : State) (d : Reg) (a : Src) : Host.Outcome State Fault Refusal :=
  s.intOp false d a .no .no a.type movAff fun _ x _ _ => x

/-- BFI; D counts as an operand. -/
def State.bfiOp (s : State) (d : Reg) (a b e : Src) : Host.Outcome State Fault Refusal :=
  s.intOp true d a b e (spread [a.type, b.type, e.type, regType d]) movAff bfiWord

/-! ## Masks (R96, R174, R197) -/

/-- Whether a group has 64 lanes (R33). -/
def Arch.wide (ar : Arch) : Bool := ar.lanes.length == 64

/-- The field of a mask register: one s register, or in a 64-lane group an even pair. -/
def Ctx.maskNames (c : Ctx) (r : Reg) : List Reg × List (Reg × Nat) := if c.arch.wide then ([], [(r, 2)]) else ([r], [])

/-- The value of a mask register. -/
def Arch.maskOf (ar : Arch) (i : Fin 64) : BitVec 64 :=
  if ar.wide then ar.regAt 0 (.s i) 1 ++ ar.regAt 0 (.s i) 0 else ar.s[i].setWidth 64

/-- Writing a mask to a mask register. -/
def Arch.putMask (ar : Arch) (d : Reg) (m : BitVec 64) : Arch :=
  match d with
  | .s i =>
    if ar.wide then (ar.putReg 0 (.s i) 0 (m.extractLsb' 0 32)).putReg 0 (.s i) 1 (m.extractLsb' 32 32)
    else ar.setS i (m.extractLsb' 0 32)
  | _ => ar

/-- The mask of the lanes of a set in which a test holds. -/
def maskWhere (exec : BitVec 64) (p : Nat → Bool) : BitVec 64 :=
  (lanesOf exec).foldl (fun m i => if p i then m ||| (1#64 <<< i) else m) 0#64

/-- CMPM (R174). -/
def State.maskOp (s : State) (d : Reg) (a b : Src) (p : Word → Word → Bool) :
    Host.Outcome State Fault Refusal :=
  s.withIssue fun iss c =>
    s.simple iss c ⟨a.regs ++ b.regs, (c.maskNames d).1, (c.maskNames d).2⟩ (regType d == .uniform) true fun ar =>
      ar.putMask d
        (maskWhere iss.exec fun i => p (ar.srcWord i a) (ar.srcWord i b))

end Sys2Proof.Machine
end

