-- ==== Sys2Proof/Machine/Control.lean ====
section
/-!
DEFINITION. The meanings of the control instructions of family 0x02 (R177–R179) in the compact, 64-bit and 96-bit forms,
and MEET (R142).
-/
namespace Sys2Proof.Machine

/-- The target of a displacement in instruction words (R178). -/
def branchTarget (iss : Issue) (disp : DWord) : DWord := iss.pc + 4 * disp

/-- The PC after the instruction. -/
def nextPc (iss : Issue) : DWord := iss.pc + BitVec.ofNat 64 iss.len

/-- A 24-bit displacement. -/
def disp24 (d : BitVec 24) : DWord := d.signExtend 64
/-- A 16-bit displacement. -/
def disp16 (d : BitVec 16) : DWord := d.signExtend 64
/-- A 32-bit displacement. -/
def disp32 (d : Word) : DWord := d.signExtend 64

/-- Sending each active lane to a PC of its own. -/
def Arch.sendLanes (ar : Arch) (exec : BitVec 64) (f : Nat → DWord) : Arch :=
  ar.forLanes (lanesOf exec) fun x i => x.modLane i fun l => { l with pc := f i }

/-- A control instruction: its checks and the PCs that it sets; the record of the last control instruction changes (R416). A
lock-step pair compares the link of a call and what a stream delivers (R395). -/
def State.control (s : State) (kind : LastBranch) (nm : Names) (whole : Bool) (body : Issue → Arch → Arch) :
    Host.Outcome State Fault Refusal :=
  s.withIssueIf (fun c => kind == .call || !(c.streamsIn nm.src).isEmpty) fun iss c => s.operate iss { c with last := kind } nm true whole fun ar => .ok (body iss ar)

/-- BR. -/
def State.brOp (s : State) (disp : DWord) : Host.Outcome State Fault Refusal :=
  s.control .branch ⟨[], [], []⟩ false fun iss ar => ar.sendLanes iss.exec fun _ => branchTarget iss disp

/-- BRZ and BRNZ: the branch is taken in the lanes whose condition passes the test. -/
def State.brCondOp (s : State) (cond : Reg) (disp : DWord) (taken : Word → Bool) : Host.Outcome State Fault Refusal :=
  s.control .branch ⟨[cond], [], []⟩ false fun iss ar =>
    ar.sendLanes iss.exec fun i => if taken (ar.reg i cond) then branchTarget iss disp else nextPc iss

/-- Whether BRM is taken in a lane. -/
def maskTaken (t : MaskTest) (exec m : BitVec 64) (lane : Nat) : Bool :=
  match t with
  | .any => m &&& exec != 0
  | .all => m &&& exec == exec
  | .none => m &&& exec == 0
  | .lane => m.getLsbD lane

/-- BRM. -/
def State.brmOp (s : State) (t : MaskTest) (a : Fin 64) (disp : DWord) : Host.Outcome State Fault Refusal :=
  s.withIssueQuiet fun iss c =>
    s.operate iss { c with last := .branch } ⟨(c.maskNames (.s a)).1, [], (c.maskNames (.s a)).2⟩ true false fun ar =>
      .ok (ar.sendLanes iss.exec fun i => if maskTaken t iss.exec (ar.maskOf a) i then branchTarget iss disp else nextPc iss)

/-- Writing the link of a call: once to an s pair, or in each active lane to a v pair. -/
def Arch.putLink (ar : Arch) (exec : BitVec 64) (link : Pair) (x : DWord) : Arch :=
  match link with
  | .s _ => ar.setPair 0 link x
  | .v _ => ar.forLanes (lanesOf exec) fun ar i => ar.setPair i link x

/-- Whether a pair lies in the s file, so that writing it needs the whole live set (R131). -/
def pairIsS : Pair → Bool
  | .s _ => true
  | .v _ => false

/-- A pair as a tuple that an instruction names. -/
def pairName (p : Pair) : Reg × Nat := (regOfPair p, 2)

/-- CALL. -/
def State.callOp (s : State) (link : Pair) (disp : DWord) : Host.Outcome State Fault Refusal :=
  s.control .call ⟨[], [], [pairName link]⟩ (pairIsS link) fun iss ar =>
    (ar.putLink iss.exec link (nextPc iss)).sendLanes iss.exec fun _ => branchTarget iss disp

/-- RET and JMPI. -/
def State.jumpOp (s : State) (kind : LastBranch) (t : Pair) : Host.Outcome State Fault Refusal :=
  s.control kind ⟨[], [], [pairName t]⟩ false fun iss ar => ar.sendLanes iss.exec fun i => ar.pair i t

/-- NOP. -/
def State.nopOp (s : State) : Host.Outcome State Fault Refusal :=
  s.withIssueQuiet fun iss c => s.simple iss c ⟨[], [], []⟩ true false fun ar => ar

/-- The bits of a meeting address that MEET holds (R125). -/
def meetBits (x : DWord) : DWord := x &&& 0x01FFFFFFFFFFFFFC

/-- MEET: the meeting address of each active lane; its reserved bits read 0 (R125, R142). -/
def State.meetOp (s : State) (disp : DWord) : Host.Outcome State Fault Refusal :=
  s.withIssue fun iss c => s.simple iss c ⟨[], [], []⟩ true false fun ar =>
    ar.forLanes (lanesOf iss.exec) fun x i => x.modLane i fun l => { l with meet := meetBits (branchTarget iss disp) }

/-- NOP, compact (R178). -/
def execNopCompact (s : State) : Host.Outcome State Fault Refusal :=
  s.nopOp

/-- NOP, 64-bit form (R178). -/
def execNop64 (s : State) : Host.Outcome State Fault Refusal :=
  s.nopOp

/-- BR, compact (R178). -/
def execBrCompact (disp : BitVec 24) (s : State) : Host.Outcome State Fault Refusal :=
  s.brOp (disp24 disp)

/-- BR, 64-bit form (R178). -/
def execBr64 (disp : BitVec 16) (s : State) : Host.Outcome State Fault Refusal :=
  s.brOp (disp16 disp)

/-- BR, 96-bit form (R178). -/
def execBr96 (disp : Word) (s : State) : Host.Outcome State Fault Refusal :=
  s.brOp (disp32 disp)

/-- BRZ, compact (R178). -/
def execBrzCompact (cond : Reg) (disp : BitVec 16) (s : State) : Host.Outcome State Fault Refusal :=
  s.brCondOp cond (disp16 disp) fun x => x == 0

/-- BRZ, 64-bit form (R178). -/
def execBrz64 (a : Reg) (disp : BitVec 16) (s : State) : Host.Outcome State Fault Refusal :=
  s.brCondOp a (disp16 disp) fun x => x == 0

/-- BRZ, 96-bit form (R178). -/
def execBrz96 (a : Reg) (disp : Word) (s : State) : Host.Outcome State Fault Refusal :=
  s.brCondOp a (disp32 disp) fun x => x == 0

/-- BRNZ, compact (R178). -/
def execBrnzCompact (cond : Reg) (disp : BitVec 16) (s : State) : Host.Outcome State Fault Refusal :=
  s.brCondOp cond (disp16 disp) fun x => x != 0

/-- BRNZ, 64-bit form (R178). -/
def execBrnz64 (a : Reg) (disp : BitVec 16) (s : State) : Host.Outcome State Fault Refusal :=
  s.brCondOp a (disp16 disp) fun x => x != 0

/-- BRNZ, 96-bit form (R178). -/
def execBrnz96 (a : Reg) (disp : Word) (s : State) : Host.Outcome State Fault Refusal :=
  s.brCondOp a (disp32 disp) fun x => x != 0

/-- BRM, 64-bit form (R178). -/
def execBrm64 (test : MaskTest) (a : Fin 64) (disp : BitVec 16) (s : State) : Host.Outcome State Fault Refusal :=
  s.brmOp test a (disp16 disp)

/-- BRM, 96-bit form (R178). -/
def execBrm96 (test : MaskTest) (a : Fin 64) (disp : Word) (s : State) : Host.Outcome State Fault Refusal :=
  s.brmOp test a (disp32 disp)

/-- CALL, compact: the link is v8:v9 (R177, R178). -/
def execCallCompact (disp : BitVec 24) (s : State) : Host.Outcome State Fault Refusal :=
  s.callOp (.v 4) (disp24 disp)

/-- CALL, 64-bit form (R178). -/
def execCall64 (link : Pair) (disp : BitVec 16) (s : State) : Host.Outcome State Fault Refusal :=
  s.callOp link (disp16 disp)

/-- CALL, 96-bit form (R178). -/
def execCall96 (link : Pair) (disp : Word) (s : State) : Host.Outcome State Fault Refusal :=
  s.callOp link (disp32 disp)

/-- CALLI: T is read before the link is written (R178). -/
def execCalli (link a : Pair) (s : State) : Host.Outcome State Fault Refusal :=
  s.control .call ⟨[], [], [pairName link, pairName a]⟩ (pairIsS link) fun iss ar =>
    (ar.putLink iss.exec link (nextPc iss)).sendLanes iss.exec fun i => ar.pair i a

/-- RET, compact: T is v8:v9 (R177, R178). -/
def execRetCompact (s : State) : Host.Outcome State Fault Refusal :=
  s.jumpOp .ret (.v 4)

/-- RET, 64-bit form (R178). -/
def execRet64 (a : Pair) (s : State) : Host.Outcome State Fault Refusal :=
  s.jumpOp .ret a

/-- JMPI (R178). -/
def execJmpi (a : Pair) (s : State) : Host.Outcome State Fault Refusal :=
  s.jumpOp .branch a

/-- MEET, 64-bit form (R142). -/
def execMeet64 (disp : BitVec 16) (s : State) : Host.Outcome State Fault Refusal :=
  s.meetOp (disp16 disp)

/-- MEET, 96-bit form (R142). -/
def execMeet96 (disp : Word) (s : State) : Host.Outcome State Fault Refusal :=
  s.meetOp (disp32 disp)

end Sys2Proof.Machine
end

