-- ==== Sys2Proof/Machine/Flags.lean ====
section
/-!
DEFINITION. The event bits of XSTAT (R135) and the rounding modes of FPCTL and NFMT (R152–R155).
-/
namespace Sys2Proof.Machine

/-- NX: inexact. -/
def flagNX : Word := 0x001
/-- UF: underflow. -/
def flagUF : Word := 0x002
/-- OF: overflow. -/
def flagOF : Word := 0x004
/-- DZ: division by zero. -/
def flagDZ : Word := 0x008
/-- NV: invalid operation. -/
def flagNV : Word := 0x010
/-- RED_EMPTY: a REDUCE ran under an empty mask. -/
def flagRedEmpty : Word := 0x100
/-- NUNI: DEMC found lanes that differed. -/
def flagNuni : Word := 0x200
/-- SEND: a stream was used past its end. -/
def flagSend : Word := 0x400
/-- GROW_DENIED: a GROW was denied. -/
def flagGrowDenied : Word := 0x800
/-- The bits of XSTAT that exist. -/
def xstatMask : Word := 0xF1F

/-- The rounding modes of R152 and R153. -/
inductive Rm where
  | rne | rtz | rup | rdn
  deriving DecidableEq, Repr

/-- The mode of a two-bit field. -/
def Rm.of (x : BitVec 2) : Rm :=
  match x.toNat with
  | 0 => .rne
  | 1 => .rtz
  | 2 => .rup
  | _ => .rdn

/-- FPCTL.RM. -/
def fpctlRm (fpctl : Word) : Rm := Rm.of (fpctl.extractLsb' 0 2)
/-- NFMT.NRM. -/
def nfmtNrm (nfmt : Word) : Rm := Rm.of (nfmt.extractLsb' 1 2)
/-- NFMT.TOP. -/
def nfmtTop (nfmt : Word) : Bool := nfmt.getLsbD 0

end Sys2Proof.Machine
end

