-- ==== Sys2Proof/Machine/Numbers.lean ====
section
/-!
DEFINITION. Floating-point values as exact numbers, the formats of R143–R151, and the one rounding that every
floating-point result takes (R155, R191, R148).
-/
namespace Sys2Proof.Machine

/-- A floating-point value: a NaN, signalling or quiet; an infinity; or ±m × 2^e, exactly, with signed zeros. -/
inductive Num where
  | nan (signalling : Bool)
  | inf (neg : Bool)
  | fin (neg : Bool) (m : Nat) (e : Int)
  deriving DecidableEq, Repr

/-- A format: exponent and mantissa widths, bias, whether its top exponent code holds finite values (R147), whether it
has signalling NaNs, and its canonical NaN (R145). -/
structure Fmt where
  eb   : Nat
  mb   : Nat
  bias : Int
  ext  : Bool
  snan : Bool
  qnan : Nat
  deriving DecidableEq, Repr

/-- FP32. -/
def fp32 : Fmt := ⟨8, 23, 127, false, true, 0x7FC00000⟩
/-- BF16. -/
def bf16 : Fmt := ⟨8, 7, 127, false, true, 0x7FC0⟩
/-- FP16. -/
def fp16 : Fmt := ⟨5, 10, 15, false, true, 0x7E00⟩
/-- E4M3 under a reading of the top code. -/
def e4m3 (top : Bool) : Fmt := ⟨4, 3, 7, top, false, if top then 0x7F else 0x7C⟩
/-- E5M2 under a reading of the top code. -/
def e5m2 (top : Bool) : Fmt := ⟨5, 2, 15, top, false, if top then 0x7F else 0x7E⟩

/-- Decoding a pattern (R143, R144, R147); bits above the format's width are ignored. -/
def Fmt.dec (f : Fmt) (x : Nat) : Num :=
  let m := x % 2 ^ f.mb
  let e := x / 2 ^ f.mb % 2 ^ f.eb
  let neg := x / 2 ^ (f.mb + f.eb) % 2 == 1
  let top := e == 2 ^ f.eb - 1
  if top && f.ext && m == 2 ^ f.mb - 1 then .nan false
  else if top && !f.ext then
    if m == 0 then .inf neg else .nan (f.snan && decide (m < 2 ^ (f.mb - 1)))
  else if e == 0 then .fin neg m (1 - f.bias - f.mb)
  else .fin neg (2 ^ f.mb + m) ((e : Int) - f.bias - f.mb)

/-- The pattern of the largest finite value, without its sign. -/
def Fmt.maxBits (f : Fmt) : Nat := if f.ext then 2 ^ (f.eb + f.mb) - 2 else (2 ^ f.eb - 1) * 2 ^ f.mb - 1

/-- The sign bit of a format. -/
def Fmt.sign (f : Fmt) (neg : Bool) : Nat := if neg then 2 ^ (f.eb + f.mb) else 0

/-- The infinity of a format as a pattern; the canonical NaN where the reading has none (R148). -/
def Fmt.infBits (f : Fmt) (neg : Bool) : Nat := if f.ext then f.qnan else f.sign neg + (2 ^ f.eb - 1) * 2 ^ f.mb

/-- m × 2^k rounded to an integer under a mode, for a magnitude of the given sign. -/
def roundScaled (rm : Rm) (neg : Bool) (m : Nat) (k : Int) : Nat :=
  match k with
  | .ofNat n => m * 2 ^ n
  | .negSucc n =>
    let d := 2 ^ (n + 1)
    let q := m / d
    let r := m % d
    let up := match rm with
      | .rne => decide (d < 2 * r) || (decide (2 * r = d) && q % 2 == 1)
      | .rtz => false
      | .rup => !neg && r != 0
      | .rdn => neg && r != 0
    if up then q + 1 else q

/-- Whether m × 2^k is an integer. -/
def scaledExact (m : Nat) (k : Int) : Bool :=
  match k with
  | .ofNat _ => true
  | .negSucc n => m % 2 ^ (n + 1) == 0

/-- Rounding ±m × 2^e to a format, with its flags: OF with NX beyond the largest finite value, UF when tiny after rounding
and inexact, NX when inexact (R155). -/
def Fmt.round (f : Fmt) (rm : Rm) (sat neg : Bool) (m : Nat) (e : Int) : Nat × Word :=
  if m = 0 then (f.sign neg, 0)
  else
    let top : Int := m.log2 + e
    let emin : Int := 1 - f.bias
    let qu := top - f.mb
    let q := max qu (emin - f.mb)
    let r := roundScaled rm neg m (e - q)
    let bits := ((q - (emin - f.mb)).toNat) * 2 ^ f.mb + r
    let exact := scaledExact m (e - q)
    if f.maxBits < bits then
      let toInf := match rm with
        | .rne => true
        | .rtz => false
        | .rup => !neg
        | .rdn => neg
      (if sat || !toInf then f.sign neg + f.maxBits else f.infBits neg, flagOF ||| flagNX)
    else
      let ru := roundScaled rm neg m (e - qu)
      let tiny := decide (qu < emin - f.mb) && !(decide (2 ^ (f.mb + 1) ≤ ru) && decide (qu + 1 = emin - f.mb))
      (f.sign neg + bits, (if exact then 0 else flagNX) ||| (if tiny && !exact then flagUF else 0))

/-- A value in a format (R145, R148): a NaN is canonical; an infinity stays one where the format has one. -/
def Fmt.enc (f : Fmt) (rm : Rm) (sat : Bool) : Num → Nat × Word
  | .nan _ => (f.qnan, 0)
  | .inf neg => if f.ext && sat then (f.sign neg + f.maxBits, 0) else (f.infBits neg, 0)
  | .fin neg m e => f.round rm sat neg m e

/-- A value in a format as a register. -/
def Fmt.word (f : Fmt) (rm : Rm) (x : Num) : Word × Word :=
  let r := f.enc rm false x
  (BitVec.ofNat 32 r.1, r.2)

/-- An FP32 register as a value. -/
def num32 (x : Word) : Num := fp32.dec x.toNat

/-- An abandoned result (R146). -/
def isAbandoned (x : Word) : Bool := x.extractLsb' 20 11 == 0x7FB

/-- Whether a value is a NaN. -/
def Num.isNan : Num → Bool
  | .nan _ => true
  | _ => false

/-- Whether a value is a signalling NaN. -/
def Num.isSnan : Num → Bool
  | .nan s => s
  | _ => false

/-- Whether a value is ±0. -/
def Num.isZero : Num → Bool
  | .fin _ m _ => m == 0
  | _ => false

/-- Whether a value is an infinity. -/
def Num.isInf : Num → Bool
  | .inf _ => true
  | _ => false

/-- The sign of a value; a NaN's is 0. -/
def Num.neg? : Num → Bool
  | .nan _ => false
  | .inf n => n
  | .fin n _ _ => n

/-- The opposite value. -/
def Num.negate : Num → Num
  | .nan s => .nan s
  | .inf n => .inf !n
  | .fin n m e => .fin (!n) m e

/-- NV when a value is a signalling NaN (R146). -/
def Num.snanFlag (x : Num) : Word := if x.isSnan then flagNV else 0

/-- ±m as an integer at an exponent not above its own. -/
def scaledInt (neg : Bool) (m : Nat) (e base : Int) : Int :=
  let x : Int := m * 2 ^ (e - base).toNat
  if neg then -x else x

/-- An exact integer × 2^e as a value; an exact zero takes the sign given. -/
def Num.ofScaled (zeroNeg : Bool) (x : Int) (e : Int) : Num :=
  if x = 0 then .fin zeroNeg 0 e else .fin (decide (x < 0)) x.natAbs e

/-- The exact sum (R194): an exact zero of opposite signs is +0, or −0 under RDN; ∞ − ∞ is a NaN with NV. -/
def Num.add (rm : Rm) : Num → Num → Num × Word
  | .nan s, y => (.nan false, (Num.nan s).snanFlag ||| y.snanFlag)
  | x, .nan s => (.nan false, x.snanFlag ||| (Num.nan s).snanFlag)
  | .inf a, .inf b => if a = b then (.inf a, 0) else (.nan false, flagNV)
  | .inf a, _ => (.inf a, 0)
  | _, .inf b => (.inf b, 0)
  | .fin a m e, .fin b n f =>
    let base := min e f
    let zero := if m = 0 ∧ n = 0 ∧ a = b then a else rm == .rdn
    (Num.ofScaled zero (scaledInt a m e base + scaledInt b n f base) base, 0)

/-- The exact product (R194): 0 × ∞ is a NaN with NV; the sign is the XOR of the signs. -/
def Num.mul : Num → Num → Num × Word
  | .nan s, y => (.nan false, (Num.nan s).snanFlag ||| y.snanFlag)
  | x, .nan s => (.nan false, x.snanFlag ||| (Num.nan s).snanFlag)
  | .inf a, .inf b => (.inf (a != b), 0)
  | .inf a, .fin b n _ => if n = 0 then (.nan false, flagNV) else (.inf (a != b), 0)
  | .fin a m _, .inf b => if m = 0 then (.nan false, flagNV) else (.inf (a != b), 0)
  | .fin a m e, .fin b n f => (.fin (a != b) (m * n) (e + f), 0)

/-- The exact product and sum of FFMA (R194). -/
def Num.fma (rm : Rm) (x y z : Num) : Num × Word :=
  let p := x.mul y
  let r := p.1.add rm z
  (r.1, p.2 ||| r.2)

/-- The order of two numbers, −0 and +0 equal: `none` with a NaN. -/
def Num.cmp : Num → Num → Option Ordering
  | .nan _, _ => none
  | _, .nan _ => none
  | .inf a, .inf b => some (if a = b then .eq else if a then .lt else .gt)
  | .inf a, .fin _ _ _ => some (if a then .lt else .gt)
  | .fin _ _ _, .inf b => some (if b then .gt else .lt)
  | .fin a m e, .fin b n f =>
    let base := min e f
    some (compare (scaledInt a m e base) (scaledInt b n f base))

/-- Whether x orders before y when −0 orders below +0 (R195). -/
def Num.before (x y : Num) : Bool :=
  match x.cmp y with
  | some .lt => true
  | some .eq => x.isZero && y.isZero && x.neg? && !y.neg?
  | _ => false

/-- FMIN and FMAX (R195): one operand unchanged, a NaN loses, two NaNs give the canonical NaN; the result, its flags. -/
def minMaxWord (isMax : Bool) (a b : Word) : Word × Word :=
  let x := num32 a
  let y := num32 b
  let fl := x.snanFlag ||| y.snanFlag
  (if x.isNan && y.isNan then 0x7FC00000
   else if x.isNan then b
   else if y.isNan then a
   else if isMax then (if x.before y then b else a)
   else (if y.before x then b else a), fl)

/-! ## E2M1 and F4X (R150, R151) -/

/-- An E2M1 code as a value; code 0b1000 reads −0 here and is the extra value of a block. -/
def e2m1 (code : Nat) : Num :=
  let m := match code % 8 with
    | 0 => 0
    | 1 => 1
    | 2 => 2
    | 3 => 3
    | 4 => 4
    | 5 => 6
    | 6 => 8
    | _ => 12
  .fin (decide (8 ≤ code % 16)) m (-1)

/-- A finite value times 2^k. -/
def Num.scale (k : Int) : Num → Num
  | .fin n m e => .fin n m (e + k)
  | x => x

/-- An F4X element under its block header (R151): SCALE in [7:0], X in [15:8]. -/
def f4xDec (header code : Nat) : Num :=
  let scale := header % 256
  let x := header / 256 % 256
  if scale = 255 then .nan false
  else if code % 16 = 8 then
    match (e4m3 true).dec x with
    | .nan _ => .nan false
    | v => v.scale ((scale : Int) - 127)
  else (e2m1 code).scale ((scale : Int) - 127)

end Sys2Proof.Machine
end

