-- ==== Sys2Proof/Machine/Special.lean ====
section
/-!
DEFINITION. The special functions (R166, R199, R200): the FP32 value nearest to the exact one. A value that is no multiple
of a power of two is given to the rounding as the odd half-step above its truncation, which lies on the same side of every
rounding boundary.
-/
namespace Sys2Proof.Machine

/-- A magnitude between x and x + 1 steps of 2^e, or exactly x: as an exact value that rounds alike. -/
def sticky (x : Nat) (exact : Bool) (e : Int) : Nat × Int := (2 * x + (if exact then 0 else 1), e - 1)

/-- The integer square root, bit by bit from bit n − 1 down. -/
def isqrtBits (x : Nat) : Nat → Nat → Nat
  | 0, r => r
  | n + 1, r =>
    let t := r + 2 ^ n
    isqrtBits x n (if t * t ≤ x then t else r)

/-- The integer square root. -/
def isqrt (x : Nat) : Nat := isqrtBits x (x.log2 / 2 + 1) 0

/-- Rounding a positive or negative sticky magnitude to FP32, to nearest even (R166). -/
def specialRound (neg : Bool) (p : Nat × Int) : Word × Word :=
  let r := fp32.round .rne false neg p.1 p.2
  (BitVec.ofNat 32 r.1, r.2)

/-- The canonical NaN with flags. -/
def nanResult (fl : Word) : Word × Word := (0x7FC00000, fl)

/-- ±∞ as FP32. -/
def infWord (neg : Bool) : Word := if neg then 0xFF800000 else 0x7F800000
/-- ±0 as FP32. -/
def zeroWord (neg : Bool) : Word := if neg then 0x80000000 else 0

/-- The quotient of two nonzero magnitudes m × 2^e and n × 2^f. -/
def quotient (m : Nat) (e : Int) (n : Nat) (f : Int) : Nat × Int :=
  let k := 64 + n.log2
  let q := m * 2 ^ k / n
  sticky q (m * 2 ^ k % n == 0) (e - f - k)

/-- FDIV (R200). -/
def fdivWord (a b : Word) : Word × Word :=
  match num32 a, num32 b with
  | .nan s, y => nanResult ((Num.nan s).snanFlag ||| y.snanFlag)
  | x, .nan s => nanResult (x.snanFlag ||| (Num.nan s).snanFlag)
  | .inf _, .inf _ => nanResult flagNV
  | .inf p, .fin q _ _ => (infWord (p != q), 0)
  | .fin p _ _, .inf q => (zeroWord (p != q), 0)
  | .fin p m e, .fin q n f =>
    if n = 0 then
      if m = 0 then nanResult flagNV else (infWord (p != q), flagDZ)
    else if m = 0 then (zeroWord (p != q), 0)
    else specialRound (p != q) (quotient m e n f)

/-- FRCP (R200). -/
def frcpWord (a : Word) : Word × Word :=
  match num32 a with
  | .nan s => nanResult (Num.nan s).snanFlag
  | .inf p => (zeroWord p, 0)
  | .fin p m e => if m = 0 then (infWord p, flagDZ) else specialRound p (quotient 1 0 m e)

/-- The square root of a nonzero magnitude. -/
def rootOf (m : Nat) (e : Int) : Nat × Int :=
  let odd : Nat := if e % 2 = 0 then 0 else 1
  let x := m * 2 ^ (odd + 128)
  let r := isqrt x
  sticky r (r * r == x) ((e - odd - 128) / 2)

/-- FSQRT (R200). -/
def fsqrtWord (a : Word) : Word × Word :=
  match num32 a with
  | .nan s => nanResult (Num.nan s).snanFlag
  | .inf p => if p then nanResult flagNV else (infWord false, 0)
  | .fin p m e =>
    if m = 0 then (zeroWord p, 0)
    else if p then nanResult flagNV
    else specialRound false (rootOf m e)

/-- The inverse square root of a nonzero magnitude. -/
def invRootOf (m : Nat) (e : Int) : Nat × Int :=
  let odd : Nat := if e % 2 = 0 then 0 else 1
  let m' := m * 2 ^ odd
  let k := 2 * (64 + m'.log2)
  let r := isqrt (2 ^ k / m')
  sticky r (r * r * m' == 2 ^ k) (-(e - odd) / 2 - k / 2)

/-- FRSQ (R200). -/
def frsqWord (a : Word) : Word × Word :=
  match num32 a with
  | .nan s => nanResult (Num.nan s).snanFlag
  | .inf p => if p then nanResult flagNV else (zeroWord false, 0)
  | .fin p m e =>
    if m = 0 then (infWord p, flagDZ)
    else if p then nanResult flagNV
    else specialRound false (invRootOf m e)

/-! ## Powers and logarithms to base 2

Both are summed in fixed point with 192 fraction bits; the log entry says what that rests on. -/

/-- The fraction bits of the fixed-point sums. -/
def fixBits : Nat := 192

/-- ln 2 in fixed point: the sum of 1/(n 2^n). -/
def ln2Fix : Nat := (List.range 220).foldl (fun x i => x + 2 ^ fixBits / ((i + 1) * 2 ^ (i + 1))) 0

/-- e^t in fixed point for t below 1, from its power series. -/
def expFix (t : Nat) : Nat :=
  ((List.range 60).foldl (fun (p : Nat × Nat) i =>
    let term := p.2 * t / 2 ^ fixBits / (i + 1)
    (p.1 + term, term)) (2 ^ fixBits, 2 ^ fixBits)).1

/-- 2^a for an exact a = ±m × 2^e that is no integer and of magnitude below 256 (UNVERIFIED, log 13). -/
def exp2Of (neg : Bool) (m : Nat) (e : Int) : Nat × Int :=
  let base : Int := -(fixBits : Int)
  let x : Int := if 0 ≤ e - base then scaledInt neg m e base else (if neg then -1 else 1) * (m / 2 ^ (base - e).toNat : Nat)
  let n := x / 2 ^ fixBits
  let f := (x % 2 ^ fixBits).toNat
  sticky (expFix (f * ln2Fix / 2 ^ fixBits)) false (n - fixBits)

/-- The integer that ±m × 2^e is, if it is one. -/
def asInteger (neg : Bool) (m : Nat) (e : Int) : Option Int :=
  if scaledExact m e then
    let x : Int := roundScaled .rtz neg m e
    some (if neg then -x else x)
  else none

/-- FEXP2 (R200). -/
def fexp2Word (a : Word) : Word × Word :=
  match num32 a with
  | .nan s => nanResult (Num.nan s).snanFlag
  | .inf p => if p then (zeroWord false, 0) else (infWord false, 0)
  | .fin p m e =>
    let mag := roundScaled .rtz false m e
    if m = 0 then (0x3F800000, 0)
    else if !p && decide (128 ≤ mag) then (infWord false, flagOF ||| flagNX)
    else if p && decide (150 ≤ mag) then (zeroWord false, flagUF ||| flagNX)
    else match asInteger p m e with
      | some n => specialRound false (1, n)
      | none => specialRound false (exp2Of p m e)

/-- The sum z + z³/3 + z⁵/5 + … in fixed point, doubled. -/
def atanhFix (z : Nat) : Nat :=
  2 * ((List.range 64).foldl (fun (p : Nat × Nat) i =>
    (p.1 + p.2 / (2 * i + 1), p.2 * z / 2 ^ fixBits * z / 2 ^ fixBits)) (0, z)).1

/-- log₂ of a magnitude m × 2^e that is no power of two: its sign and magnitude (UNVERIFIED, log 13). -/
def log2Of (m : Nat) (e : Int) : Bool × (Nat × Int) :=
  let l := m.log2
  let n := m - 2 ^ l
  let z := n * 2 ^ fixBits / (m + 2 ^ l)
  let frac := atanhFix z * 2 ^ fixBits / ln2Fix
  let x : Int := ((l : Int) + e) * 2 ^ fixBits + frac
  (decide (x < 0), sticky x.natAbs false (-(fixBits : Int)))

/-- FLOG2 (R200). -/
def flog2Word (a : Word) : Word × Word :=
  match num32 a with
  | .nan s => nanResult (Num.nan s).snanFlag
  | .inf p => if p then nanResult flagNV else (infWord false, 0)
  | .fin p m e =>
    if m = 0 then (infWord true, flagDZ)
    else if p then nanResult flagNV
    else if m = 2 ^ m.log2 then
      let n : Int := (m.log2 : Int) + e
      if n = 0 then (0, 0) else specialRound (decide (n < 0)) (n.natAbs, 0)
    else
      let r := log2Of m e
      specialRound r.1 r.2

end Sys2Proof.Machine
end

