-- ==== Sys2Proof/Machine/FloatOps.lean ====
section
/-!
DEFINITION. The operations of family 0x03 on patterns, each giving a result and its flags (R193–R209), and the shared run
with the abandoned-result check (R190).
-/
namespace Sys2Proof.Machine

/-! ## Arithmetic, compare and classify -/

/-- FADD. -/
def faddWord (rm : Rm) (a b : Word) : Word × Word :=
  let x := (num32 a).add rm (num32 b)
  let r := fp32.word rm x.1
  (r.1, x.2 ||| r.2)
/-- FSUB. -/
def fsubWord (rm : Rm) (a b : Word) : Word × Word :=
  let x := (num32 a).add rm (num32 b).negate
  let r := fp32.word rm x.1
  (r.1, x.2 ||| r.2)
/-- FMUL. -/
def fmulWord (rm : Rm) (a b : Word) : Word × Word :=
  let x := (num32 a).mul (num32 b)
  let r := fp32.word rm x.1
  (r.1, x.2 ||| r.2)
/-- FFMA. -/
def ffmaWord (rm : Rm) (a b c : Word) : Word × Word :=
  let x := Num.fma rm (num32 a) (num32 b) (num32 c)
  let r := fp32.word rm x.1
  (r.1, x.2 ||| r.2)

/-- a cond b on floats and its flags (R197). -/
def fcondHolds (cond : FCond) (a b : Word) : Bool × Word :=
  let x := num32 a
  let y := num32 b
  let sn := x.snanFlag ||| y.snanFlag
  match x.cmp y with
  | none =>
    match cond with
    | .eq | .ord => (false, sn)
    | .ne | .un => (true, sn)
    | _ => (false, flagNV)
  | some o =>
    (match cond with
     | .eq => o == .eq
     | .ne => o != .eq
     | .lt => o == .lt
     | .le => o != .gt
     | .gt => o == .gt
     | .ge => o != .lt
     | .un => false
     | .ord => true, 0)

/-- FCLASS (R198). -/
def fclassWord (a : Word) : Word :=
  match num32 a with
  | .nan true => 0x100
  | .nan false => 0x200
  | .inf true => 0x001
  | .inf false => 0x080
  | .fin neg m _ =>
    if m = 0 then (if neg then 0x008 else 0x010)
    else if m < 2 ^ 23 then (if neg then 0x004 else 0x020)
    else (if neg then 0x002 else 0x040)

/-! ## Rounding to integers and converting -/

/-- A rounding of FRND and F2I (R201). -/
def roundSelRm (r : RoundSel) (dyn : Rm) : Rm :=
  match r with
  | .rne => .rne
  | .rtz => .rtz
  | .rup => .rup
  | .rdn => .rdn
  | .dyn => dyn

/-- FRND (R202). -/
def frndWord (rm : Rm) (a : Word) : Word × Word :=
  match num32 a with
  | .nan s => nanResult (Num.nan s).snanFlag
  | .inf p => (infWord p, 0)
  | .fin p m e => ((fp32.word .rne (.fin p (roundScaled rm p m e) 0)).1, 0)

/-- F2I (R202). -/
def f2iWord (rm : Rm) (ty : IntTy) (a : Word) : Word × Word :=
  let lo : Int := match ty with | .i32 => -2147483648 | .u32 => 0
  let hi : Int := match ty with | .i32 => 2147483647 | .u32 => 4294967295
  match num32 a with
  | .nan _ => (0, flagNV)
  | .inf p => (BitVec.ofInt 32 (if p then lo else hi), flagNV)
  | .fin p m e =>
    let x : Int := roundScaled rm p m e
    let x := if p then -x else x
    if x < lo then (BitVec.ofInt 32 lo, flagNV)
    else if hi < x then (BitVec.ofInt 32 hi, flagNV)
    else (BitVec.ofInt 32 x, if scaledExact m e then 0 else flagNX)

/-- I2F (R202). -/
def i2fWord (rm : Rm) (ty : IntTy) (a : Word) : Word × Word :=
  let x : Int := match ty with | .i32 => a.toInt | .u32 => a.toNat
  fp32.word rm (Num.ofScaled false x 0)

/-- The format of an FCVT field under NFMT.TOP. -/
def floatFmt (top : Bool) : FloatTy → Fmt
  | .f32 => fp32
  | .bf16 => bf16
  | .f16 => fp16
  | .e4m3 => e4m3 top
  | .e5m2 => e5m2 top

/-- The rounding mode of a destination format (R154). -/
def floatRm (fpctl nfmt : Word) : FloatTy → Rm
  | .e4m3 | .e5m2 => nfmtNrm nfmt
  | _ => fpctlRm fpctl

/-- FCVT (R203) (DEDUCED, log 28). The E5M2 codes above 65,504 that NFMT.TOP = 1 gives a value overflow F16 by R155
(DESIGN CHOICE, log 67). -/
def fcvtWord (fpctl nfmt : Word) (m : CvtMode) (a : Word) : Word × Word :=
  let x := (floatFmt (nfmtTop nfmt) m.src).dec a.toNat
  let r := (floatFmt (nfmtTop nfmt) m.dst).enc (floatRm fpctl nfmt m.dst) m.sat x
  (BitVec.ofNat 32 r.1, x.snanFlag ||| r.2)

/-! ## F4X pack, unpack and scale -/

/-- Whether |x| ≤ 6 × 2^(e − 127). -/
def sclFits (x : Num) (e : Nat) : Bool :=
  match x with
  | .fin _ m k => (Num.fin false m k).cmp (.fin false 6 ((e : Int) - 127)) != some .gt
  | _ => false

/-- SCLE (R205). -/
def scleWord (a : Word) : Word :=
  match num32 a with
  | .fin n m e => BitVec.ofNat 32 (((List.range 255).find? fun i => sclFits (.fin n m e) i).getD 254)
  | _ => 0xFF

/-- The candidates of F4XP (R206): codes with their values, without 0b1000 where a grid code gives the same value. -/
def f4xCandidates (x : Nat) : List (Nat × Num) :=
  let grid := ((List.range 16).filter (· != 8)).map fun c => (c, e2m1 c)
  match (e4m3 true).dec x with
  | .nan _ => grid
  | v => if grid.any fun g => g.2.cmp v == some .eq then grid else grid ++ [(8, v)]

/-- |x − q| of two finite values, as an integer at a base exponent below both. -/
def numDist (base : Int) (x q : Num) : Nat :=
  match x, q with
  | .fin a m e, .fin b n f => (scaledInt a m e base - scaledInt b n f base).natAbs
  | _, _ => 0

/-- The exponent of a finite value. -/
def Num.exp : Num → Int
  | .fin _ _ e => e
  | _ => 0

/-- The rank of a code on a tie of F4XP (R206): an even grid code, 0b1000, an odd grid code. -/
def tieRank (code : Nat) : Nat := if code = 8 then 1 else if code % 2 = 0 then 0 else 2

/-- The nearest candidate to q among those allowed, ties by rank. -/
def nearestOf (q : Num) (cs : List (Nat × Num)) : Option (Nat × Num) :=
  let base := cs.foldl (fun b c => min b c.2.exp) q.exp
  cs.foldl (fun (best : Option (Nat × Num)) c =>
    match best with
    | none => some c
    | some b =>
      let x := numDist base c.2 q
      let y := numDist base b.2 q
      if x < y ∨ (x = y ∧ tieRank c.1 < tieRank b.1) then some c else best) none

/-- The code that F4XP chooses for a finite q (R206), and its flags. -/
def f4xChoose (nrm : Rm) (x : Nat) (q : Num) : Nat × Word :=
  let cs := f4xCandidates x
  let le (u v : Num) : Bool := u.cmp v != some .gt
  let below := cs.filter fun c => le c.2 q
  let above := cs.filter fun c => le q c.2
  if above.isEmpty then
    match nearestOf q cs with
    | some c => (c.1, flagOF ||| flagNX)
    | none => (0, 0)
  else if below.isEmpty then
    match nearestOf q cs with
    | some c => (c.1, flagOF ||| flagNX)
    | none => (0, 0)
  else
    let allowed := match nrm with
      | .rne => cs
      | .rtz => if q.neg? then above else below
      | .rup => above
      | .rdn => below
    match nearestOf q allowed with
    | some c => (c.1, if c.2.cmp q == some .eq then 0 else flagNX)
    | none => (0, 0)

/-- F4XP (R206), with D's old value d and the header c. -/
def f4xpWord (nfmt d a b c : Word) : Word × Word :=
  let n := b.toNat % 8
  let h := c.toNat
  let r : Nat × Word :=
    if h % 256 = 255 then (0, 0)
    else match num32 a with
      | .fin p m e => f4xChoose (nfmtNrm nfmt) (h / 256 % 256) (.fin p m (e + 127 - (h % 256 : Nat)))
      | _ => (0, flagNV)
  ((d &&& ~~~(0xF#32 <<< (4 * n))) ||| (BitVec.ofNat 32 r.1 <<< (4 * n)), r.2)

/-- F4XU (R207). -/
def f4xuWord (rm : Rm) (a b c : Word) : Word × Word :=
  fp32.word rm (f4xDec c.toNat (a.toNat / 16 ^ (b.toNat % 8) % 16))

/-! ## Packed 16-bit arithmetic and keys -/

/-- The format of a packed type. -/
def halfFmt : HalfTy → Fmt
  | .bf16 => bf16
  | .f16 => fp16

/-- Two 16-bit results and their flags as one register. -/
def packHalves (f : Fmt) (rm : Rm) (lo hi : Num × Word) : Word × Word :=
  let x := f.enc rm false lo.1
  let y := f.enc rm false hi.1
  (BitVec.ofNat 32 (x.1 + 65536 * y.1), lo.2 ||| hi.2 ||| x.2 ||| y.2)

/-- Half h of a register as a value. -/
def half (f : Fmt) (x : Word) (h : Nat) : Num := f.dec (x.toNat / 65536 ^ h % 65536)

/-- HADD2 (R208). -/
def hadd2Word (rm : Rm) (ty : HalfTy) (a b : Word) : Word × Word :=
  let f := halfFmt ty
  packHalves f rm ((half f a 0).add rm (half f b 0)) ((half f a 1).add rm (half f b 1))
/-- HMUL2 (R208). -/
def hmul2Word (rm : Rm) (ty : HalfTy) (a b : Word) : Word × Word :=
  let f := halfFmt ty
  packHalves f rm ((half f a 0).mul (half f b 0)) ((half f a 1).mul (half f b 1))
/-- HFMA2 (R208). -/
def hfma2Word (rm : Rm) (ty : HalfTy) (a b c : Word) : Word × Word :=
  let f := halfFmt ty
  packHalves f rm (Num.fma rm (half f a 0) (half f b 0) (half f c 0)) (Num.fma rm (half f a 1) (half f b 1) (half f c 1))

/-- The key of a float pattern of width w (R209). -/
def floatKey (f : Fmt) (x : Nat) : Nat :=
  let w := f.eb + f.mb + 1
  let y := x % 2 ^ w
  if (f.dec y).isNan then 0
  else if y = 2 ^ (w - 1) then 2 ^ (w - 1)
  else if y < 2 ^ (w - 1) then y + 2 ^ (w - 1)
  else 2 ^ w - 1 - y

/-- FKEY (R209). -/
def fkeyWord (ty : KeyTy) (a : Word) : Word :=
  match ty with
  | .i32 => a ^^^ 0x80000000
  | .f32 => BitVec.ofNat 32 (floatKey fp32 a.toNat)
  | .bf16 => BitVec.ofNat 32 (floatKey bf16 a.toNat)
  | .f16 => BitVec.ofNat 32 (floatKey fp16 a.toNat)

/-! ## The shared run (R167, R190) -/

/-- Whether a source that is read as FP32 holds an abandoned result in a lane. -/
def Arch.abandoned (ar : Arch) (lane : Nat) (x : Src) : Bool := isAbandoned (ar.srcWord lane x)

/-- The abandoned-result check and the body of an instruction of family 0x03 (R190). `fs` lists the sources read as FP32. -/
def Arch.floatBody (ar : Arch) (iss : Issue) (fs : List Src) (go : Arch → BitVec 64 → Arch) : Body :=
  if fs.any fun x => x.type == .uniform && ar.abandoned 0 x then .gang .abnd iss.pc
  else
    let bad := (lanesOf iss.exec).filter fun i => fs.any fun x => ar.abandoned i x
    let faults := bad.map fun i => (⟨i, .abnd, iss.pc⟩ : LaneFault)
    let good := goodLanes iss.exec faults
    Body.of ((go ar good).advance { iss with exec := good }) faults

/-- Writing float results and their flags: once for a uniform result, else in each lane. -/
def Arch.putFloat (ar : Arch) (exec : BitVec 64) (d : Reg) (ty : RType) (f : Nat → Word × Word) : Arch :=
  match ty with
  | .uniform => (ar.writeS d (f ((lanesOf exec).headD 0)).1).orXstat (f ((lanesOf exec).headD 0)).2
  | _ => (ar.write exec d ty ⟨0, 0⟩ fun i => (f i).1).orXstat ((lanesOf exec).foldl (fun m i => m ||| (f i).2) 0)

/-- An instruction of family 0x03: `fs` lists the sources read as FP32, and `f` gives the result and flags of a lane from
the registers, D's old value and the sources. -/
def State.floatOp (s : State) (readsD : Bool) (d : Reg) (a b e : Src) (fs : List Src)
    (f : Arch → Word → Word → Word → Word → Word × Word) : Host.Outcome State Fault Refusal :=
  let ty := spread ([a.type, b.type, e.type] ++ if readsD then [regType d] else [])
  s.withIssue fun iss c =>
    s.operate iss c ⟨a.regs ++ b.regs ++ e.regs ++ (if readsD then [d] else []), [d], []⟩ (regType d == ty) (ty != .varying)
      fun ar => ar.floatBody iss fs fun ar exec =>
        ar.putFloat exec d ty fun i => f ar (ar.reg i d) (ar.srcWord i a) (ar.srcWord i b) (ar.srcWord i e)

/-- A binary FP32 operation under FPCTL.RM. -/
def State.floatOp2 (s : State) (d : Reg) (a b : Src) (f : Rm → Word → Word → Word × Word) : Host.Outcome State Fault Refusal :=
  s.floatOp false d a b .no [a, b] fun ar _ x y _ => f (fpctlRm ar.fpctl) x y

/-- A unary FP32 operation. -/
def State.floatOp1 (s : State) (d : Reg) (a : Src) (f : Rm → Word → Word × Word) : Host.Outcome State Fault Refusal :=
  s.floatOp false d a .no .no [a] fun ar _ x _ _ => f (fpctlRm ar.fpctl) x

/-- FCMPM: the lanes that hold no abandoned result give their bits of the mask (R190, R197). -/
def State.fcmpmOp (s : State) (cond : FCond) (d : Reg) (a b : Src) : Host.Outcome State Fault Refusal :=
  s.withIssue fun iss c =>
    s.operate iss c ⟨a.regs ++ b.regs, (c.maskNames d).1, (c.maskNames d).2⟩ (regType d == .uniform) true fun ar =>
      ar.floatBody iss [a, b] fun ar exec =>
        let r (i : Nat) := fcondHolds cond (ar.srcWord i a) (ar.srcWord i b)
        (ar.putMask d (maskWhere exec fun i => (r i).1)).orXstat ((lanesOf exec).foldl (fun m i => m ||| (r i).2) 0)

end Sys2Proof.Machine
end

