-- ==== Sys2Proof/Machine/MemOps.lean ====
section
/-!
DEFINITION. The shared operations of families 0x08 and 0x09 (R229–R243): data operands, addresses, issuing a request, and
performing it when its reply lands (R120).
-/
namespace Sys2Proof.Machine

/-! ## Data operands (R229) -/

/-- The field of a data operand: one register, or a tuple. -/
def dataSrc (o : Operand) (sz : Size) : Names :=
  match o with
  | .reg r => if sz.regs == 1 then ⟨[r], [], []⟩ else ⟨[], [], [(r, sz.regs)]⟩
  | .imm _ => ⟨[], [], []⟩

/-- The field of a data destination. -/
def dataDst (r : Reg) (sz : Size) : Names := if sz.regs == 1 then ⟨[], [r], []⟩ else ⟨[], [], [(r, sz.regs)]⟩

/-- The fields of two lists together. -/
def Names.also (x y : Names) : Names := ⟨x.src ++ y.src, x.dst ++ y.dst, x.tup ++ y.tup⟩

/-- The value of a data operand in a lane, at the size's width; an immediate is sign-extended to it (R239). -/
def Arch.data (ar : Arch) (lane : Nat) (o : Operand) (sz : Size) : BitVec 128 :=
  match o with
  | .reg r =>
    BitVec.ofNat 128
      (((List.range sz.regs).foldl (fun x i => x + (if sz.regs == 1 then (ar.reg lane r).toNat else (ar.regAt lane r i).toNat) * 2 ^ (32 * i)) 0)
        % 2 ^ (8 * bytesOf sz))
  | .imm n => BitVec.ofNat 128 ((n.signExtend 128).toNat % 2 ^ (8 * bytesOf sz))

/-- Writing a loaded value to a data operand in a lane; narrow values are zero-extended. -/
def Arch.putData (ar : Arch) (lane : Nat) (r : Reg) (sz : Size) (x : BitVec 128) : Arch :=
  (List.range sz.regs).foldl (fun ar i => ar.putReg lane r i (x.extractLsb' (32 * i) 32)) ar

/-! ## Addresses (R230–R233, R237) -/

/-- The address operands of an access; without a base the address is an offset into the thread's scratch (R237). -/
structure AddrForm where
  base : Option Pair
  off  : Src
  disp : DWord
  deriving DecidableEq, Repr

/-- The offset source of a 96-bit form, where B = 0xFF names none (R99). -/
def offSrc : Option Reg → Src
  | some r => .op (.reg r)
  | none => .no

/-- The type of a pair. -/
def pairType : Pair → RType
  | .s _ => .uniform
  | .v _ => .varying

/-- The types of the address operands. -/
def AddrForm.types (f : AddrForm) : List RType := (f.base.map pairType).toList ++ [f.off.type]

/-- The register fields of the address operands. -/
def AddrForm.names (f : AddrForm) : Names := ⟨f.off.regs, [], (f.base.map pairName).toList⟩

/-- The offset e of R230 in a lane, and whether an affine offset overflows (R133). -/
def Arch.offset (ar : Arch) (x : Src) (lane : Nat) : DWord × Bool :=
  match x with
  | .op (.reg (.a i)) =>
    let r := ar.areg i
    let e := sext64 r.base + sext64 r.stride * BitVec.ofNat 64 lane
    (e, e != sext64 (r.at lane))
  | x => (sext64 (ar.srcWord lane x), false)

/-- The effective address of a lane. -/
def Arch.address (ar : Arch) (f : AddrForm) (lane : Nat) : DWord :=
  ((f.base.map (ar.pair lane)).getD 0) + (ar.offset f.off lane).1 + f.disp

/-- The checks of a scratch offset (R237): the address that EADDR names, and the outcome. -/
def State.resolveScratch (s : State) (c : Ctx) (o : DWord) (n : Nat) : DWord × Resolved :=
  let va : DWord := (o.setWidth 32).setWidth 64
  (va,
    if o.toNat % n ≠ 0 then .fault .align
    else if o.toInt < 0 ∨ scratchBytes c.key.core (s.pwOf c) < o.toNat + n then .fault .notmapped
    else .ok (.scratch c.key.core c.launch c.group o.toNat))

/-- The checks of a lane's access, in the order of R231: AOVF, then R225 or R237. -/
def State.tryLane (s : State) (c : Ctx) (ar : Arch) (f : AddrForm) (lane n : Nat) (k : AccessKind) (sc : Scope) :
    DWord × Resolved :=
  let va := ar.address f lane
  if (ar.offset f.off lane).2 then (va, .fault .aovf)
  else match f.base with
    | some _ => (va, s.resolveAt c va n n k sc)
    | none => s.resolveScratch c va n

/-- What the checks of an instruction's lanes come to (R232): pages to wait for, or the accesses that pass and the lanes
that fault. -/
inductive Tried where
  | park (ws : List PageWait)
  | ready (acc : List Access) (faults : List LaneFault)
  deriving DecidableEq, Repr

/-- Adding a lane to those already tried. -/
def Tried.add (t : Tried) (lane : Nat) (x y : BitVec 128) : DWord × Resolved → Tried
  | (_, .miss w) => match t with
    | .park ws => .park (w :: ws)
    | .ready _ _ => .park [w]
  | (va, .ok p) => match t with
    | .ready acc fs => .ready (⟨lane, va, p, x, y, none⟩ :: acc) fs
    | .park ws => .park ws
  | (va, .fault code) => match t with
    | .ready acc fs => .ready acc (⟨lane, code, va⟩ :: fs)
    | .park ws => .park ws

/-- The checks of every lane that takes part, ascending; `x` and `y` are the values that its access carries. -/
def State.tryLanes (s : State) (c : Ctx) (ar : Arch) (f : AddrForm) (n : Nat) (k : AccessKind) (sc : Scope)
    (x y : Nat → BitVec 128) :
    List Nat → Tried
  | [] => .ready [] []
  | i :: is => (State.tryLanes s c ar f n k sc x y is).add i (x i) (y i) (s.tryLane c ar f i n k sc)

/-- The lanes that take part in an access (R233): one for a uniform access. -/
def partLanes (once : Bool) (exec : BitVec 64) : List Nat := if once then (lanesOf exec).take 1 else lanesOf exec

/-- Delivering the faults of an access: those of a uniform access, or on a rod, are the whole gang's or thread's (R233). -/
def accessTrap (s : State) (c : Ctx) (once : Bool) (fs : List LaneFault) (epc : DWord) : Eff :=
  match fs with
  | [] => .done s
  | f :: fs => .trap s (if once || c.kind == .rod then Trap.one f.code f.addr epc else ⟨f :: fs, false, epc⟩)

/-- The faults of a list in ascending lane order, the first of a lane kept. -/
def sortFaults (fs : List LaneFault) : List LaneFault :=
  (List.range 64).filterMap fun i => fs.find? fun f => f.lane == i

/-! ## Performing accesses -/

/-- AFADD's sum (R243): to nearest even, NaNs canonical. -/
def afaddWord (m c : Word) : Word := (faddWord .rne m c).1


/-- Whether an order acquires. -/
def ordAcquires : MemOrder → Bool
  | .acq | .ar => true
  | _ => false
/-- Whether an order releases. -/
def ordReleases : MemOrder → Bool
  | .rel | .ar => true
  | _ => false

/-- The release of an access that releases, before it (R286). -/
def State.relBefore (s : State) (k : CtxKey) (o : MemOrder) (sc : Scope) : State := if ordReleases o then s.release k sc else s

/-- The acquire of an access that acquires, after it (R287). -/
def State.acqAfter (s : State) (k : CtxKey) (o : MemOrder) (sc : Scope) : State := if ordAcquires o then s.acquireMem k sc else s

/-- The registration of a frame-scope release to device memory (R288). -/
def State.noteRelease (s : State) (c : Ctx) (o : MemOrder) (sc : Scope) (va : DWord) (p : Place) : State :=
  if ordReleases o && sc == .frm then s.registerReleaser c.frame? (domainAperture va) p else s

/-- The stores of a list of accesses, in order (R236, R288). -/
def State.storeAll (s : State) (c : Ctx) (n : Nat) (o : MemOrder) (sc : Scope) : List Access → State
  | [] => s
  | x :: xs => State.storeAll (s.performStore c x.va x.place n x.x sc (ordReleases o && sc == .frm)) c n o sc xs

/-- One atomic at its serialization point (R240, R241): the new memory and the old value. -/
def State.atomicAt (s : State) (c : Ctx) (op : AtomicOp) (n : Nat) (x : Access) : State × BitVec 128 :=
  let s := s.syncHome c x.va x.place
  let m := BitVec.ofNat 128 (leNat (s.homeBytes x.place n))
  let s := match atomicResult afaddWord op n m x.x x.y with
    | some y => s.storeBytes c.frame? (s.pasidOf c.launch) x.va.toNat x.place .dev (leBytes y.toNat n)
    | none => s
  (s.touch c.key (touchedBits (domainAperture x.va) x.place), m)

/-! ## Issuing -/

/-- A context that waits for a reply (R120). -/
def State.parkReply (s : State) (k : CtxKey) (r : Request) : State :=
  (s.flushStreams k).modCtx k fun c => { c with st := .parked (.reply r), refused := [] }

/-- The pops and pushes of an instruction that parks, then its own issue; a page that one of them misses parks it (R247). -/
def State.withStreams (s : State) (iss : Issue) (c : Ctx) (nm : Names) (go : List Pop → List Push → Arch → Eff) : Eff :=
  match s.checkPops c (c.streamsIn nm.src) with
  | .fault code va => .trap s (Trap.one code va iss.pc)
  | .miss w => .done (s.parkPages c.key [w])
  | .ok pops =>
    match s.checkPushes c (c.streamsIn nm.dst) with
    | .fault code va => .trap s (Trap.one code va iss.pc)
    | .miss w => .done (s.parkPages c.key [w])
    | .ok pushes => go pops pushes (pops.foldl Arch.pop c.arch)

/-- LD and LDL (R236, R237) (DEDUCED, log 14). -/
def State.loadOp (s : State) (prm : Bool) (ord : MemOrder) (sc : Scope) (sz : Size) (d : Reg) (f : AddrForm) :
    Host.Outcome State Fault Refusal :=
  s.withIssue fun iss c =>
    let once := spread f.types == .uniform
    let nm := f.names.also (dataDst d sz)
    s.guarded iss c nm (regType d == spread f.types) once <|
      s.withStreams iss c nm fun pops pushes ar =>
        match s.tryLanes c ar f (bytesOf sz) .load sc (fun _ => 0) (fun _ => 0) (partLanes once iss.exec) with
        | .park ws => .done (s.parkPages c.key ws)
        | .ready [] fs => accessTrap s c once fs iss.pc
        | .ready acc fs => .done (s.parkReply c.key ⟨.load d prm, sz, ord, sc, iss.pc, nextPc iss, acc, fs, pops, pushes, iss.exec, once⟩)

/-- Whether an access goes through the local aperture to a pool that must accept it (R214). -/
def Access.windowed (x : Access) : Bool := throughWindow x.va x.place

/-- The scope at which the accesses of a list are a release or an acquire (R272). -/
def accScope (acc : List Access) (sc : Scope) : Scope := domainScope (acc.map (·.va)) sc

/-- The stores of a list of accesses that a lock-step context gates (R396). -/
def gatedCount (c : Ctx) (acc : List Access) : Nat := (acc.filter fun x => c.gatedPlace x.place).length

/-- Whether a data source is a stream register in stream mode, which ST and STL reject (R246). -/
def Ctx.streamData (c : Ctx) (d : Reg) : Bool := (c.strm? d).isSome

/-- ST and STL (R236, R237). A store through the local aperture waits for the owning core (R214) (DEDUCED, log 21). -/
def State.storeOp (s : State) (ord : MemOrder) (sc : Scope) (sz : Size) (d : Reg) (f : AddrForm) :
    Host.Outcome State Fault Refusal :=
  s.withIssue fun iss c =>
    let once := spread (f.types ++ [regType d]) == .uniform
    let nm := f.names.also (dataSrc (.reg d) sz)
    if c.streamData d then faultAt s iss .ill
    else
      s.guarded iss c nm true once <|
        s.withStreams iss c nm fun pops pushes ar =>
          let go (acc : List Access) (fs : List LaneFault) : Eff :=
            if acc.any Access.windowed then
              .done (s.parkReply c.key ⟨.store, sz, ord, sc, iss.pc, nextPc iss, acc, fs, pops, pushes, iss.exec, once⟩)
            else if s.gateFull c (gatedCount c acc) then .done (s.parkGate c.key)
            else
              let s := ((s.notePopped c ar).flushStreams c.key).relBefore c.key ord (accScope acc sc)
              let good := if once then iss.exec else goodLanes iss.exec fs
              let s := (s.storeAll c (bytesOf sz) ord sc acc).modCtx c.key fun c =>
                { c with arch := (pops.foldl Arch.pop c.arch).goto good (nextPc iss), refused := [] }
              accessTrap s c once fs iss.pc
          match s.tryLanes c ar f (bytesOf sz) .store sc (fun i => ar.data i (.reg d) sz) (fun _ => 0) (partLanes once iss.exec) with
          | .park ws => .done (s.parkPages c.key ws)
          | .ready [] fs => accessTrap s c once fs iss.pc
          | .ready acc fs => go acc fs

/-- The atomics (R239–R243). `q` is ACAS's new value, else none. -/
def State.atomicOp (s : State) (op : AtomicOp) (ord : MemOrder) (sc : Scope) (sz : Size) (d : Reg) (f : AddrForm)
    (x : Operand) (q : Option Operand) : Host.Outcome State Fault Refusal :=
  s.withIssue fun iss c =>
    let ty := spread (f.types ++ [opType x] ++ (q.map opType).toList)
    let once := ty == .uniform
    let nm := ((f.names.also (dataSrc x sz)).also ((q.map fun o => dataSrc o sz).getD ⟨[], [], []⟩)).also (dataDst d sz)
    s.guarded iss c nm (regType d == ty) once <|
      s.withStreams iss c nm fun pops pushes ar =>
        let lanes := partLanes once iss.exec
        let bad := if op == .fadd then lanes.filter fun i => isAbandoned (ar.opWord i x) else []
        let abnd := bad.map fun i => (⟨i, .abnd, iss.pc⟩ : LaneFault)
        let val (i : Nat) := ar.data i x sz
        let new (i : Nat) := (q.map fun o => ar.data i o sz).getD 0
        if op == .fadd && opType x == .uniform && !bad.isEmpty then .trap s (Trap.one .abnd iss.pc iss.pc)
        else
          match s.tryLanes c ar f (bytesOf sz) (.atomic (hostAtomicBit op sz)) sc val new (lanes.filter fun i => !bad.contains i) with
          | .park ws => .done (s.parkPages c.key ws)
          | .ready [] fs => accessTrap s c once (sortFaults (abnd ++ fs)) iss.pc
          | .ready acc fs =>
            .done (((s.flushStreams c.key).checkpoint c.key).parkReply c.key
              ⟨.atomic op d, sz, ord, sc, iss.pc, nextPc iss, acc, sortFaults (abnd ++ fs), pops, pushes, iss.exec, once⟩)

/-- The little-endian value of 8-byte pieces from an address on, read by relaxed device-scope loads, of descriptors whose load's
scope the spec does not name too (DESIGN CHOICE, log 59); a fault names the address of the whole read. -/
def State.readPieces (s : State) (c : Ctx) (addr va : DWord) : Nat → Checked Nat
  | 0 => .ok 0
  | n + 1 =>
    match s.resolveLoad c va 8 8 .dev with
    | .fault code => .fault code addr
    | .miss w => .miss w
    | .ok p =>
      match State.readPieces s c addr (va + 8) n with
      | .ok x => .ok ((s.loadValue c va p 8 .dev).toNat + 2 ^ 64 * x)
      | r => r

/-- A read of n 8-byte pieces is loads: their corrected errors are counted, and host lines enter the frame's cache (R219, R226). -/
def State.noteDesc (s : State) (c : Ctx) (va : DWord) : Nat → State
  | 0 => s
  | n + 1 =>
    State.noteDesc (match s.resolve (s.accessor c) va 8 8 .load with
      | .ok p => s.noteLoad c va p 8 .dev
      | _ => s) c (va + 8) n

/-- Reading a descriptor, card or packet of n 8-byte pieces (R86, R186, R245, R267): below 0x1_0000 it faults NULL, at an
address that is not a multiple of `align` ALIGN, and its translation faults are a load's (DEDUCED, log 14). -/
def State.readDesc (s : State) (c : Ctx) (addr : DWord) (align n : Nat) : Checked Nat :=
  if addr.toNat < 0x10000 then .fault .null addr
  else if addr.toNat % align ≠ 0 then .fault .align addr
  else s.readPieces c addr addr n

/-- Continuing with what was read; a fault is the gang's or thread's own, and a missing page parks it (R223). -/
def Checked.andThen {α : Type} (x : Checked α) (s : State) (iss : Issue) (c : Ctx) (go : α → Eff) : Eff :=
  match x with
  | .fault code va => .trap s (Trap.one code va iss.pc)
  | .miss w => .done (s.parkPages c.key [w])
  | .ok v => go v

/-! ## Landing a reply (R120) -/

/-- The end of a parked request: without faults the pops, the results and the pushes take effect and the converged set goes
on; a rod thread or a uniform access that faults changes nothing; in a gang the lanes that do not fault complete (R232). -/
def State.completeRequest (s : State) (k : CtxKey) (r : Request) (write : Arch → Arch) (faults : List LaneFault) : State :=
  match faults with
  | [] =>
    let s := match s.ctx? k with
      | some c => s.notePopped c (r.pops.foldl Arch.pop c.arch)
      | none => s
    let s := s.modCtx k fun c => { c with
      st := .live, retired := c.retired + 1,
      arch := (r.pushes.foldl Arch.push (write (r.pops.foldl Arch.pop c.arch))).goto r.exec r.next }
    if r.pushes.isEmpty then s else s.spill k r.pushes.length
  | f :: fs =>
    let s := s.modCtx k fun c => { c with
      st := .live,
      arch := if c.kind == .rod || r.once then c.arch else (write c.arch).goto (goodLanes r.exec (f :: fs)) r.next }
    let rod := ((s.ctx? k).map fun c => c.kind == .rod).getD true
    s.deliver k (if r.once || rod then Trap.one f.code f.addr r.pc else ⟨f :: fs, false, r.pc⟩)

/-- Whether an access meets an uncorrectable error when its data is read (R227): one that the reply names, or one that stands in
the place. -/
def State.errorAt (s : State) (errors : List Nat) (n : Nat) (x : Access) : Bool := errors.contains x.lane || s.flawed x.place n

/-- The result of a load: each lane's value, then the acquire of the order. -/
def State.landLoad (s : State) (k : CtxKey) (c : Ctx) (r : Request) (d : Reg) (prm : Bool) (errors : List Nat) : State :=
  let n := bytesOf r.size
  let bad := (r.acc.filter (s.errorAt errors n)).map fun x => (⟨x.lane, .memue, x.va⟩ : LaneFault)
  let good := r.acc.filter fun x => !s.errorAt errors n x
  let s := if prm then good.foldl (fun s x => if domainAperture x.va then s else s.promote x.place) s else s
  let s := good.foldl (fun s x => s.noteLoad c x.va x.place n r.scope) s
  let vals := good.map fun x => (x.lane, s.loadValue c x.va x.place n r.scope)
  let s := if good.isEmpty then s else s.acqAfter k r.ord r.scope
  s.completeRequest k r (fun ar => vals.foldl (fun ar v => ar.putData v.1 d r.size v.2) ar) (sortFaults (r.faults ++ bad))

/-- The outcome of a store through the local aperture (R214): each lane is accepted or refused. -/
def State.landStore (s : State) (k : CtxKey) (c : Ctx) (r : Request) : State :=
  let refused (x : Access) : Bool := s.windowRefused (s.accessor c) x.va x.place
  let bad := (r.acc.filter refused).map fun x => (⟨x.lane, .winperm, x.va⟩ : LaneFault)
  let good := r.acc.filter fun x => !refused x
  let s := if good.isEmpty then s else s.relBefore k r.ord (accScope good r.scope)
  let external := good.any fun x => !c.gatedPlace x.place
  let s := if external then s.checkpoint k else s
  let s := s.storeAll c (bytesOf r.size) r.ord r.scope good
  let s := s.completeRequest k r id (sortFaults (r.faults ++ bad))
  if external then s.checkpoint k else s

/-- The atomics of a list of accesses, in ascending lane order: the state, the old values and the faults (R227, R241,
R242). -/
def State.atomicAll (s : State) (k : CtxKey) (c : Ctx) (op : AtomicOp) (n : Nat) (errors : List Nat) :
    List Access → State × List (Nat × BitVec 128) × List LaneFault
  | [] => (s, [], [])
  | x :: xs =>
    if s.windowRefused (s.accessor c) x.va x.place then
      let r := State.atomicAll s k c op n errors xs
      (r.1, r.2.1, ⟨x.lane, .winperm, x.va⟩ :: r.2.2)
    else if s.errorAt errors n x then
      let r := State.atomicAll s k c op n errors xs
      (r.1, r.2.1, ⟨x.lane, .memue, x.va⟩ :: r.2.2)
    else
      let a := match x.answer with
        | some m => (s.touch k (touchedBits (domainAperture x.va) x.place), m)
        | none => (s.noteRead x.place n).atomicAt c op n x
      let r := State.atomicAll a.1 k c op n errors xs
      (r.1, (x.lane, a.2) :: r.2.1, r.2.2)

/-- The result of an atomic: the release, each lane's step in lane order, the acquire, and in lock-step the checkpoint
after it (R397). A lane that is refused, or meets an error, releases nothing (R292); a host AtomicOp that has completed released
before it was performed (R286). -/
def State.landAtomic (s : State) (k : CtxKey) (c : Ctx) (r : Request) (op : AtomicOp) (d : Reg) (errors : List Nat) : State :=
  let n := bytesOf r.size
  let due := r.acc.any fun x => x.answer.isNone && !s.windowRefused (s.accessor c) x.va x.place && !s.errorAt errors n x
  let s := if due then s.relBefore k r.ord (accScope r.acc r.scope) else s
  let a := s.atomicAll k c op n errors r.acc
  let done := r.acc.filter fun x => a.2.1.any fun v => v.1 == x.lane
  let s := done.foldl (fun s x => s.noteRelease c r.ord r.scope x.va x.place) a.1
  let s := if done.isEmpty then s else s.acqAfter k r.ord r.scope
  (s.completeRequest k r (fun ar => a.2.1.foldl (fun ar v => ar.putData v.1 d r.size v.2) ar)
    (sortFaults (r.faults ++ a.2.2))).checkpoint k

/-! ## The iteration fetcher (R180–R187) -/

/-- The n-byte field of a nest descriptor. -/
def nestField (d : BitVec 448) (off n : Nat) : Nat := d.toNat / 256 ^ off % 256 ^ n
/-- LEVELS. -/
def nestLevels (d : BitVec 448) : Nat := nestField d 0x00 1
/-- P. -/
def nestP (d : BitVec 448) : Nat := nestField d 0x02 2
/-- MINCH. -/
def nestMinch (d : BitVec 448) : Nat := nestField d 0x04 4
/-- CNT. -/
def nestCnt (d : BitVec 448) : DWord := BitVec.ofNat 64 (nestField d 0x08 8)
/-- LO of a level. -/
def nestLo (d : BitVec 448) (l : Nat) : Word := BitVec.ofNat 32 (nestField d (0x10 + 12 * l) 4)
/-- STEP of a level. -/
def nestStep (d : BitVec 448) (l : Nat) : Word := BitVec.ofNat 32 (nestField d (0x14 + 12 * l) 4)
/-- TRIP of a level. -/
def nestTrip (d : BitVec 448) (l : Nat) : Nat := nestField d (0x18 + 12 * l) 4
/-- DST of a level. -/
def nestDst (d : BitVec 448) (l : Nat) : Fin 64 := ⟨nestField d (0x34 + l) 1 % 64, Nat.mod_lt _ (by decide)⟩
/-- N, the iterations of a nest. -/
def nestLen (d : BitVec 448) : Nat := ((List.range (nestLevels d)).map (nestTrip d)).foldl (· * ·) 1

/-- A valid nest descriptor for an object of a v count (R181). -/
def nestValid (d : BitVec 448) (vcnt : Nat) : Bool :=
  let levels := nestLevels d
  let dsts := (List.range levels).map fun l => nestField d (0x34 + l) 1
  inRange levels 1 3 && nestField d 0x01 1 == 0 && nestP d != 0 && nestMinch d != 0
  && (nestCnt d).toNat % 8 == 0 && decide (0x10000 ≤ (nestCnt d).toNat) && nestField d 0x37 1 == 0
  && (List.range 3).all (fun l => l < levels || (nestField d (0x10 + 12 * l) 12 == 0 && nestField d (0x34 + l) 1 == 0))
  && decide (nestLen d < 2 ^ 63)
  && dsts.all (fun x => decide (x < vcnt)) && dsts.eraseDups.length == levels

/-- put_indices (R183): the innermost level first. -/
def Arch.putIndices (ar : Arch) (d : BitVec 448) (i : Nat) : Nat → Arch
  | 0 => ar
  | l + 1 =>
    Arch.putIndices (ar.setV 0 (nestDst d l) (nestLo d l + nestStep d l * BitVec.ofNat 32 (i % nestTrip d l))) d
      (i / nestTrip d l) l

/-- The registers that the fetcher writes. -/
def nestRegs (d : BitVec 448) : List Reg := (List.range (nestLevels d)).map fun l => .v (nestDst d l)

/-- The chunk that a claim takes at a counter value (R183): its length. -/
def claimLen (d : BitVec 448) (c : Nat) : Nat :=
  let r := nestLen d - c
  min r (max (nestMinch d) ((r + 2 * nestP d - 1) / (2 * nestP d)))

/-- A slot that has entered its body at iteration L of a chunk that ends at E. -/
def IterSlot.enter (x : IterSlot) (body : DWord) (l e : Nat) : IterSlot :=
  { x with st := .active, body := body, l := BitVec.ofNat 64 l, e := BitVec.ofNat 64 e }

/-- The result of a claim: the counter advances by the chunk, and the thread enters the body or leaves the nest. A counter in a
pool that the window does not let the thread write is refused (R183, R214) (DEDUCED, log 29). The elements that write streams
push are checked once a chunk is to be taken, before the counter changes (R184, R187, R247); a page of theirs that the host refused
faults the re-execution (R223). -/
def State.landClaim (s : State) (k : CtxKey) (c : Ctx) (r : Request) (slot : Fin 2) (body taken empty : DWord)
    (errors : List Nat) : State :=
  match r.acc with
  | [] => ((s.settle k).completeRequest k r id (sortFaults r.faults)).checkpoint k
  | x :: _ =>
    let it := c.arch.iter[slot]
    if s.windowRefused (s.accessor c) x.va x.place then ((s.settle k).completeRequest k r id [⟨x.lane, .winperm, x.va⟩]).checkpoint k
    else if s.errorAt errors 8 x then ((s.settle k).completeRequest k r id [⟨x.lane, .memue, x.va⟩]).checkpoint k
    else
      let s := (s.noteRead x.place 8).syncHome c x.va x.place
      let n := leNat (s.homeBytes x.place 8)
      let len := claimLen it.desc n
      let regs := if len = 0 then [] else c.streamsIn (nestRegs it.desc)
      match s.checkPushes c regs with
      | .fault code va => ((s.settle k).completeRequest k r id [⟨x.lane, code, va⟩]).checkpoint k
      | .miss w => s.parkPages k [w]
      | .ok pushes =>
        let s := if len = 0 then s
          else s.storeBytes c.frame? (s.pasidOf c.launch) x.va.toNat x.place .dev (leBytes (n + len) 8)
        let s := s.touch k (touchedBits (domainAperture x.va) x.place)
        let taken? := decide (0 < len)
        let r := { r with next := if taken? then taken else empty, pushes := pushes }
        ((s.settle k).completeRequest k r (fun ar =>
          let ar := { ar with iter := ar.iter.set slot (it.enter body n (n + len)) }
          if taken? then ar.putIndices it.desc n (nestLevels it.desc) else ar) []).checkpoint k

end Sys2Proof.Machine
end

