-- ==== Sys2Proof/Machine/Cards.lean ====
section
/-!
DEFINITION. Job cards by field (R252, R253), and the regions that they declare (R255, R259).
-/
namespace Sys2Proof.Machine

/-! ## The card (R252, R253) -/

/-- CTL of a card. -/
def cardCtl (c : BitVec 2048) : Word := BitVec.ofNat 32 (cardField c 0x00 4)
/-- KIND. -/
def cardKind (c : BitVec 2048) : Nat := (cardCtl c).toNat % 16
/-- ESIZE as the log₂ of the element's bytes. -/
def cardEsize (c : BitVec 2048) : Nat := ((cardCtl c).extractLsb' 8 3).toNat
/-- The bytes of an element. -/
def cardBytes (c : BitVec 2048) : Nat := 2 ^ cardEsize c
/-- IDX64. -/
def cardIdx64 (c : BitVec 2048) : Bool := (cardCtl c).getLsbD 11
/-- SOP. -/
def cardSop (c : BitVec 2048) : Nat := ((cardCtl c).extractLsb' 12 2).toNat
/-- STYPE. -/
def cardStype (c : BitVec 2048) : Nat := ((cardCtl c).extractLsb' 14 3).toNat
/-- DTYPE. -/
def cardDtype (c : BitVec 2048) : Nat := ((cardCtl c).extractLsb' 17 3).toNat
/-- SAT. -/
def cardSat (c : BitVec 2048) : Bool := (cardCtl c).getLsbD 20
/-- DTOP. -/
def cardDtop (c : BitVec 2048) : Bool := (cardCtl c).getLsbD 21
/-- SRC. -/
def cardSrc (c : BitVec 2048) : DWord := BitVec.ofNat 64 (cardField c 0x08 8)
/-- DST. -/
def cardDst (c : BitVec 2048) : DWord := BitVec.ofNat 64 (cardField c 0x10 8)
/-- LEN. -/
def cardLen (c : BitVec 2048) : Nat := cardField c 0x18 8
/-- STAMPA. -/
def cardStampa (c : BitVec 2048) : DWord := BitVec.ofNat 64 (cardField c 0x20 8)
/-- STAMPV. -/
def cardStampv (c : BitVec 2048) : DWord := BitVec.ofNat 64 (cardField c 0x28 8)
/-- IDXA. -/
def cardIdxa (c : BitVec 2048) : DWord := BitVec.ofNat 64 (cardField c 0x30 8)
/-- BMAP. -/
def cardBmap (c : BitVec 2048) : DWord := BitVec.ofNat 64 (cardField c 0x38 8)

/-- The four regions from an offset of the card, BASE and SIZE; those of SIZE = 0 are unused. -/
def cardRegions (c : BitVec 2048) (off : Nat) : List (Nat × Nat) :=
  ((List.range 4).map fun i => (cardField c (off + 16 * i) 8, cardField c (off + 16 * i + 8) 8)).filter fun r => r.2 != 0

/-- The target ranges of a DEAL (R259): base and length of each target that receives bytes. -/
def dealTargets (c : BitVec 2048) : List (Nat × Nat) :=
  let blk := cardField c 0x40 4
  let ntgt := cardField c 0x44 4
  let cstep := cardField c 0x48 4
  let len := cardLen c
  let blocks := (len + blk - 1) / blk
  ((List.range ntgt).map fun t =>
    let base := (cardDst c).toNat
    let core := base / 2 ^ 40 % 2 ^ 14
    let b := base - core * 2 ^ 40 + (core + t * cstep) % 2 ^ 14 * 2 ^ 40
    let mine := (blocks + ntgt - 1 - t) / ntgt
    let full := mine * blk
    let last := t + (mine - 1) * ntgt
    let size := if mine = 0 then 0 else if last = blocks - 1 then full - (blocks * blk - len) else full
    (b, size)).filter fun r => r.2 != 0

/-- The write regions of a card; a DEAL's are its target ranges (R255, R259). -/
def cardWrites (c : BitVec 2048) : List (Nat × Nat) := if cardKind c = 3 then dealTargets c else cardRegions c 0xC0

/-- Where a job of a card writes: its write regions and its stamp, which lies outside the footprint (R265). -/
def cardOutputs (c : BitVec 2048) : List (Nat × Nat) :=
  cardWrites c ++ if cardStampa c = 0 then [] else [((cardStampa c).toNat, 8)]

/-- The read regions of a card. -/
def cardReads (c : BitVec 2048) : List (Nat × Nat) := cardRegions c 0x80

/-- Whether two lists of regions share a byte. -/
def regionsMeet (xs ys : List (Nat × Nat)) : Bool := xs.any fun x => ys.any fun y => decide (x.1 < y.1 + y.2) && decide (y.1 < x.1 + x.2)

end Sys2Proof.Machine
end

