-- ==== Sys2Proof/Machine/Text.lean ====
section
/-!
DEFINITION. Text space and text windows (R104–R112): the text of an object in the code heap, windows, fills, and forwarding
(R35).
-/
namespace Sys2Proof.Machine

/-- n bytes of the code heap. -/
def State.heapBytes (s : State) (va n : Nat) : List Byte := s.dev.bytes (s.heapOffset va) n

/-- XB of a partition word (R105). -/
def windowBytes (pw : Word) : Nat := 4096 * (pw.toNat % 256)

/-- Changing a window in place. -/
def State.modWindow (s : State) (launch : Word) (core : CoreId) (f : Window → Window) : State :=
  { s with windows := s.windows.map fun w => if w.launch == launch && w.core == core then f w else w }

/-- Whether a fill of a launch's window on a core is pending (R110). -/
def State.fillPending (s : State) (launch : Word) (core : CoreId) : Bool :=
  s.fills.any fun f => f.joined.contains (launch, core)

/-- The bytes of text space that a window shows: text from TBASE on, zero beyond H + S (R104, R106). -/
def State.windowText (s : State) (o : CodeObject) (tbase : DWord) (xb : Nat) : Mem :=
  let lo := tbase.toNat
  let hi := min (lo + xb) (o.text + o.textSize)
  Mem.putBytes [] 0 (s.heapBytes lo (hi - lo))

/-- Requesting a fill of a launch's window on a core (R110, R111): it joins a fill of the same object, TBASE and XB
(DEDUCED, log 31). -/
def State.requestFill (s : State) (launch : Word) (core : CoreId) (tbase : DWord) : State :=
  match s.window? launch core with
  | none => s
  | some w =>
    let s := s.modWindow launch core fun w => { w with tbase := tbase }
    let o := (s.objectOf launch).addr
    let frame := frameNo core
    let same (f : Fill) : Bool := f.frame == frame && f.object == o && f.tbase == tbase && f.xb == w.xb
    if s.fills.any same then
      { s with fills := s.fills.map fun f =>
          if same f && !f.joined.contains (launch, core) then { f with joined := f.joined ++ [(launch, core)] } else f }
    else { s with fills := s.fills ++ [⟨frame, o, tbase, w.xb, [(launch, core)], false⟩] }

/-- Moving a window for a context (R110, R112): it parks until no fill of the window is pending. -/
def State.moveWindow (s : State) (k : CtxKey) (launch : Word) (core : CoreId) (tbase : DWord) : State :=
  if (s.window? launch core).isSome then
    (s.requestFill launch core tbase).modCtx k fun c => { c with st := .parked .fill }
  else s

/-- The forwarding of an address for a launch's object (R35). -/
def State.forward (s : State) (die : Fin 4) (launch : Word) (pc : DWord) : Option DWord :=
  (s.forwards.find? fun f => f.die == die && f.object == (s.objectOf launch).addr && inRange pc.toNat f.base f.size).map fun f =>
    BitVec.ofNat 64 (pc.toNat - f.base + f.target)

/-- An address as the forwarding table leaves it (R35): an object that moved again is reached entry by entry. -/
def State.forwardAll (s : State) (die : Fin 4) (launch : Word) : Nat → DWord → DWord
  | 0, pc => pc
  | n + 1, pc =>
    match s.forward die launch pc with
    | some q => State.forwardAll s die launch n q
    | none => pc

end Sys2Proof.Machine
end

