-- ==== Sys2Proof/Machine/Place.lean ====
section
/-!
DEFINITION. Placement (R66–R80): block and region sizes, context numbers, creating contexts, stamps (R60–R63), freeing, and
group cells.
-/
namespace Sys2Proof.Machine

/-! ## Sizes (R68–R72) -/

/-- REG of a partition word. -/
def pwReg (pw : Word) : Nat := pw.toNat / 2 ^ 8 % 2 ^ 8
/-- ACC of a beam partition word. -/
def pwAcc (pw : Word) : Nat := pw.toNat / 2 ^ 24
/-- C, the block of a rod context (R70). -/
def rodBlock (o : CodeObject) : Nat := roundUp (256 + 4 * o.scnt + 8 * o.acnt + 4 * o.vcnt) 64
/-- G, the block of a gang with a varying count (R70, R309). -/
def gangBlock (o : CodeObject) (vc : Nat) : Nat := roundUp (256 + 4 * o.scnt + 8 * o.acnt + 128 * vc) 1024
/-- The register bytes of a region. -/
def regBytes (core : CoreId) (pw : Word) : Nat := pwReg pw * (if isBeam core then 8192 else 1024)
/-- S, the slots of a register region (R70). -/
def regionSlots (o : CodeObject) (core : CoreId) (pw : Word) : Nat :=
  min 32 (regBytes core pw / (if isBeam core then gangBlock o o.vcnt else rodBlock o))
/-- The pool bytes of a workgroup's regions on a core. -/
def regionBytes (core : CoreId) (pw : Word) : Nat :=
  regBytes core pw + scratchBytes core pw + (if isBeam core then 16384 * pwAcc pw else 0)
/-- The bytes of a core's pool. -/
def poolBytes (core : CoreId) : Nat := if isBeam core then Config.beamPool else Config.rodPool
/-- The pool bytes of a core that windows and regions hold. -/
def State.poolUsed (s : State) (core : CoreId) : Nat :=
  ((s.regions.filter fun r => r.core == core).map fun r => regionBytes core r.pw).foldl (· + ·) 0
  + ((s.windows.filter fun w => w.core == core).map (·.xb)).foldl (· + ·) 0
/-- The gangs, or the pairs of them, of a workgroup on a beam (R53). -/
def gangsOf (o : CodeObject) (wgsize : Nat) : Nat := if o.width = 2 then (wgsize + 63) / 64 else (wgsize + 31) / 32
/-- The contexts or gang slots that a workgroup takes on a core (R53, R70). -/
def slotsOf (o : CodeObject) (core : CoreId) (wgsize : Nat) : Nat :=
  if isBeam core then gangsOf o wgsize * (if o.width = 2 then 2 else 1) else wgsize

/-! ## Contexts (R75–R77, R119) -/

/-- The context or gang slots of a core that are not FREE. -/
def State.slotsUsed (s : State) (core : CoreId) : List (Fin 32) :=
  (s.ctxs.filter fun c => c.key.core == core).flatMap fun c => c.key.slot :: c.pair.toList

/-- The slots of a core that are FREE, ascending. -/
def State.slotsFree (s : State) (core : CoreId) : List (Fin 32) :=
  (List.finRange 32).filter fun i => !((s.slotsUsed core).contains i)

/-- The contexts of a rod's rotation slot that are not FREE. -/
def State.rotationCount (s : State) (core : CoreId) (i : Fin 32) : Nat :=
  ((s.slotsUsed core).filter fun j => j.val % 8 == i.val % 8).length

/-- The context number of a new rod context (R119): the rotation slot with the fewest contexts, then the lowest number. -/
def State.rodNumber (s : State) (core : CoreId) : Option (Fin 32) :=
  let free := s.slotsFree core
  free.find? fun i => free.all fun j => decide (s.rotationCount core i ≤ s.rotationCount core j)

/-- The contexts or gangs of a region. -/
def State.residents (s : State) (r : Region) : List Ctx :=
  s.ctxs.filter fun c => c.key.core == r.core && c.launch == r.launch && c.group == r.w

/-- The bytes of a context's or gang's block (R70, R309). -/
def State.blockOf (s : State) (c : Ctx) : Nat :=
  let o := s.objectOf c.launch
  if c.kind == .rod then rodBlock o else gangBlock o c.arch.vc * (if c.pair.isSome then 2 else 1)

/-- The free bytes of a register region (R310, R313). -/
def State.regionFree (s : State) (r : Region) : Nat :=
  regBytes r.core r.pw - ((s.residents r).map s.blockOf).foldl (· + ·) 0 - r.draining

/-- NFMT of a new context: TOP alone. -/
def nfmtOf (top : Bool) : Word := if top then 1 else 0

/-- NFMT.TOP of a launch's new contexts (R29, R52). -/
def State.launchTop (s : State) (n : Word) : Bool :=
  let o := s.objectOf n
  if o.nfmtreq = 0 then pktTop (s.pktOf n) else o.nfmtreq == 2

/-- A lane of a new thread. -/
def freshLane (pc tid : DWord) (live : Bool) : Lane :=
  { Lane.dead with pc := pc, tid := tid, live := live }

/-- A new context in a slot, in state LIVE, with a first checkpoint (R399) and a fresh identity. -/
def State.addCtx (s : State) (key : CtxKey) (launch : Word) (kind : CtxKind) (group index : Nat) (pair : Option (Fin 32))
    (ar : Arch) : State :=
  { s with
    ctxs := s.ctxs ++ [⟨key, s.uids, launch, kind, group, index, pair, false, none, none, .live, ar, [], none, [], none, .none, [ar], 0, 0, false⟩],
    uids := s.uids + 1 }

/-- The uniform state of a thread that starts in a launch's object (R54): the arguments and the workgroup number, UHND, OVH
and NFMT.TOP. A register beyond the object's count is not written. -/
def startArch (lanes : List Lane) (o : CodeObject) (args : DWord) (w : Nat) (uhnd ovh : DWord) (top : Bool) : Arch :=
  let put (ar : Arch) (i : Fin 64) (x : Word) : Arch := if i.val < o.scnt then ar.setS i x else ar
  { put (put (put (Arch.fresh lanes o.vcnt) 0 (args.extractLsb' 0 32)) 1 (args.extractLsb' 32 32)) 2 (BitVec.ofNat 32 w) with
    uhnd := uhnd &&& 0x01FFFFFFFFFFFFFC, ovh := ovh, nfmt := nfmtOf top }

/-- A thread identifier (R54, R82). -/
def tidOf (launch : Word) (idx : Nat) : DWord := launch ++ BitVec.ofNat 32 idx

/-- FREECNT of a rod (R76). -/
def State.freecntOf (s : State) (core : CoreId) : Word := ((s.freecnt.find? fun x => x.1 == core).map (·.2)).getD 0

/-! ## Stamps (R60–R63) -/

/-- A service core as the maker of an access: it has no CORE identifier, and its accesses count for their die (R46)
(DEDUCED, log 40). -/
def serviceAccessor (die : Fin 4) (launch : Word) (pasid : BitVec 20) (refused : List (PageWait × Code)) : Accessor :=
  ⟨launch, pasid, die, mkCore die.val 0 0 14, 144 * die.val, none, mkCore die.val 0 0 14, refused, []⟩

/-- The service core that handles a launch (R46): its queue's, or its launcher's. -/
def Source.core : Source → Nat
  | .host p q => queueCore p q
  | .device _ core _ => requestCore core

/-- The die of the service core that handles a launch (R46). -/
def Source.die (x : Source) : Fin 4 := ⟨x.core / 4 % 4, Nat.mod_lt _ (by decide)⟩

/-- The status word of a stamp (R60). -/
def StampWrite.word (w : StampWrite) : DWord :=
  BitVec.ofNat 64 (w.state * 2 ^ 56 + w.code.toNat * 2 ^ 48 + w.num.toNat)

/-- Whether a STATE is final (R61). -/
def finalState (n : Nat) : Bool := decide (3 ≤ n)

/-- The interrupt that follows a final stamp write (R61, R63, R392). -/
def State.stampNotify (s : State) (t : Stamp) (w : StampWrite) : State :=
  if finalState w.state && (pktNotify t.pkt || t.always || t.dead) then
    { s with reports := s.reports ++ [.msix (pktMsiv t.pkt)] }
  else s

/-- Changing a stamp in place. -/
def State.modStamp (s : State) (order : Nat) (f : Stamp → Stamp) : State :=
  { s with stamps := s.stamps.map fun t => if t.order == order then f t else t }

/-- Performing the due writes of a stamp, oldest first: one whose STATE is not above the latest is not performed (R62); a
replayable fault makes the rest wait; another fault, an error in the cell's storage among them, suppresses this and every later
write (R63). A misaligned STAMP, which R63 rules out and R55 rejects, faults ALIGN here (DESIGN CHOICE, log 55). A stamp whose final write is
done or given up is no longer kept. -/
def State.pumpStamp (s : State) (order : Nat) : List StampWrite → State
  | [] =>
    let s := s.modStamp order fun t => { t with queue := [], waits := [] }
    { s with stamps := s.stamps.filter fun t => !(t.order == order && finalState t.top) }
  | w :: ws =>
    match s.stamps.find? fun t => t.order == order with
    | none => s
    | some t =>
      let refuse (s : State) (c : Code) : State :=
        let s := { s with reports := s.reports ++ [Report.launchError (if w.state = 4 then 0 else t.launch) t.source w.state w.code c] }
        let t := { t with dead := true, top := w.state }
        State.pumpStamp ((s.modStamp order fun _ => t).stampNotify t w) order ws
      if w.state ≤ t.top then State.pumpStamp s order ws
      else if t.dead then State.pumpStamp ((s.modStamp order fun t => { t with top := w.state }).stampNotify t w) order ws
      else
        let a := serviceAccessor t.source.die t.launch t.pasid t.refused
        match s.resolve a (pktStamp t.pkt) 16 16 .store with
        | .miss p => (s.askPage p).modStamp order fun t => { t with queue := w :: ws, waits := [p] }
        | .fault c => refuse s c
        | .ok p =>
          if s.windowRefused a (pktStamp t.pkt) p then refuse s .winperm
          else if s.flawed p 16 then refuse (s.recordMemue 0 p) .memue
          else if s.unreachable p then refuse s .flink
          else
            let s := (s.snoopLine p).homeWrite none p (leBytes w.word.toNat 8 ++ leBytes w.tick 8)
            let s := s.modStamp order fun t => { t with top := w.state, refused := [] }
            State.pumpStamp (s.stampNotify t w) order ws

/-- A stamp write becomes due. -/
def State.pushStamp (s : State) (order : Nat) (state : Nat) (code : BitVec 8) (num : Word) : State :=
  match s.stamps.find? fun t => t.order == order with
  | none => s
  | some t =>
    let w : StampWrite := ⟨state, code, num, s.tick⟩
    if t.waits.isEmpty then s.pumpStamp order (t.queue ++ [w])
    else s.modStamp order fun t => { t with queue := t.queue ++ [w] }

/-! ## Freeing (R74, R76, R314) -/

/-- Whether a write into a region's scratch is outstanding (R393): of a request that waits for its reply, or of a job of the
launch that runs or that a code ends, whose destination, bitmap or stamp may lie there. -/
def State.writesInto (s : State) (r : Region) : Bool :=
  (s.ctxs.any fun c => match c.st with
    | .parked (.reply q) => q.acc.any fun x => match x.place with
        | .scratch core l w _ => core == r.core && l == r.launch && w == r.w
        | _ => false
    | _ => false)
  || s.jobs.any fun j => j.launch == r.launch && (j.st == .running || j.code.isSome) &&
      regionsMeet (cardOutputs j.card) [(3 * 2 ^ 55 + r.core.toNat * 2 ^ 40 + r.w * 2 ^ 20, 2 ^ 20)]

/-- Freeing the regions of a launch on a core that hold no context or gang any more: a workgroup's with its last context or
gang, the leaf region with the launch's last thread on the frame; the window goes with the last region. A region stays while a
write into it is outstanding (R74, R393). -/
def State.freeRegions (s : State) (launch : Word) (core : CoreId) : State :=
  let frameRods := s.ctxs.any fun c => c.launch == launch && c.kind == .rod && frameNo c.key.core == frameNo core
  let idle (r : Region) : Bool :=
    r.core == core && r.launch == launch && (s.residents r).isEmpty && !(r.w == 0xFFFFF && frameRods) && !s.writesInto r
  let s := { s with regions := s.regions.filter fun r => !idle r }
  if s.regions.any fun r => r.core == core && r.launch == launch then s
  else
    { s with windows := s.windows.filter fun w => !(w.core == core && w.launch == launch),
             fills := (s.fills.map fun f => { f with joined := f.joined.filter fun j => j != (launch, core) }).filter fun f => !f.joined.isEmpty }

/-- Freeing what a launch's outstanding writes kept (R393). -/
def State.freeWritten (s : State) (launch : Word) : State :=
  (s.regions.filter fun r => r.launch == launch).foldl (fun (s : State) r => s.freeRegions launch r.core) s

/-- The leaf regions of a frame, once a rod context of it has gone (DEDUCED, log 42). -/
def State.freeLeaf (s : State) (launch : Word) (core : CoreId) : State := s.freeRegions launch (frameCore (frameNo core) 8)

/-- The threads that wait for a context of a rod in WAITFREE (R84). -/
def State.waitsFree (s : State) (core : CoreId) : List CtxKey :=
  (s.ctxs.filter fun c => match c.st with | .parked (.waitfree t _ _ _) => t == core | _ => false).map (·.key)

/-- A context-free notice of a rod: FREECNT advances, and every thread that waits for it goes on with the new count (R76,
R84), which a lock-step pair compares as it is written (R395). -/
def State.contextFree (s : State) (core : CoreId) : State :=
  let n := s.freecntOf core + 1
  let t : State := { s with
    freecnt := (core, n) :: s.freecnt.filter fun x => x.1 != core,
    ctxs := s.ctxs.map fun c =>
      match c.st with
      | .parked (.waitfree t d _ next) =>
        if t == core then { c with st := .live, arch := (c.arch.putReg 0 d 0 n).goto c.liveSet next } else c
      | _ => c }
  (s.waitsFree core).foldl (fun (t : State) k => t.unlessStruck k t) t

/-! ## Group cells (R78, R79) -/

/-- A group cell. -/
structure GroupCell where
  members : Nat
  arrived : Nat
  phase   : Word
  joins   : Nat
  leaves  : Nat
  deriving DecidableEq, Repr

/-- A cell from its 16 bytes. -/
def GroupCell.ofNat (x : Nat) : GroupCell :=
  ⟨x % 2 ^ 32, x / 2 ^ 32 % 2 ^ 32, BitVec.ofNat 32 (x / 2 ^ 64), x / 2 ^ 96 % 2 ^ 16, x / 2 ^ 112 % 2 ^ 16⟩

/-- The 16 bytes of a cell. -/
def GroupCell.toNat (c : GroupCell) : Nat :=
  c.members % 2 ^ 32 + 2 ^ 32 * (c.arrived % 2 ^ 32) + 2 ^ 64 * c.phase.toNat + 2 ^ 96 * (c.joins % 2 ^ 16)
    + 2 ^ 112 * (c.leaves % 2 ^ 16)

/-- The phase close that follows every update (R79); a cell that a program has written so that no member is left below the
leaves gets 0 members (DESIGN CHOICE, log 57). -/
def GroupCell.close (c : GroupCell) : GroupCell :=
  if c.arrived = c.members ∧ (c.members ≠ 0 ∨ c.joins ≠ 0) then ⟨(c.members + c.joins - c.leaves) % 2 ^ 32, 0, c.phase + 1, 0, 0⟩ else c

/-- JOIN of n lanes (R86); none when the cell is full. -/
def GroupCell.join (c : GroupCell) (n : Nat) : Option GroupCell :=
  if 0xFFFF < c.joins + n ∨ 0xFFFFFFFF < c.members + c.joins + n then none else some { c with joins := c.joins + n }.close

/-- LEAVE of n lanes (R86); none when they are no members. LEAVES counts modulo 2¹⁶ (DESIGN CHOICE, log 58). -/
def GroupCell.leave (c : GroupCell) (n : Nat) : Option GroupCell :=
  if c.members < c.arrived + n ∨ c.members < c.leaves + n then none
  else some { c with arrived := c.arrived + n, leaves := (c.leaves + n) % 2 ^ 16 }.close

/-- The arrival of n lanes at a barrier (R354); none when they are no members. -/
def GroupCell.arrive (c : GroupCell) (n : Nat) : Option GroupCell :=
  if c.members < c.arrived + n then none else some { c with arrived := c.arrived + n }.close

/-- The scope of a JOIN or LEAVE (R79). -/
def cellScope (va : DWord) : Place → Scope
  | .host _ => .sys
  | _ => if domainAperture va then .dom else .dev

/-- The cell at a place, as its serialization point holds it. -/
def State.cellAt (s : State) (p : Place) : GroupCell := GroupCell.ofNat (leNat (s.homeBytes p 16))

/-- One update of a cell by a context at its serialization point (R79): the cell before it, and whether it took place; the write wakes
the threads parked at BAR on a cell whose phase it closes. -/
def State.updateCell (s : State) (c : Ctx) (va : DWord) (p : Place) (f : GroupCell → Option GroupCell) : State × GroupCell × Bool :=
  let s := (s.noteRead p 16).syncHome c va p
  let old := s.cellAt p
  match f old with
  | none => (s, old, false)
  | some new =>
    ((s.storeBytes c.frame? (s.pasidOf c.launch) va.toNat p .dev (leBytes new.toNat 16)).touch c.key
      (touchedBits (domainAperture va) p), old, true)

/-- The checks of a cell's address (R86, R354): NULL, ALIGN, translation, WINPERM at the owning core (R214), and MEMUE (R227). -/
def State.resolveCell (s : State) (c : Ctx) (va : DWord) : Resolved := s.resolveWrite (s.accessor c) va 16 16 (.atomic none)

end Sys2Proof.Machine
end

