-- ==== Sys2Proof/Machine/LaunchInstr.lean ====
section
/-!
DEFINITION. The meanings of family 0x3A (R64, R65, R81–R89): LAUNCH, SPAWN, WAITFREE, JOIN, LEAVE, EXIT, MIGRATE, YIELD.
-/
namespace Sys2Proof.Machine

/-! ## LAUNCH (R64) -/

/-- The launch number after another; 0 is skipped (R59) (DESIGN CHOICE, log 6). -/
def nextNumber (n : Word) : Word := if n + 1 = 0 then 1 else n + 1

/-- A packet with its PASID field replaced (R64). -/
def withPasid (p : BitVec 1536) (pasid : BitVec 20) : BitVec 1536 :=
  (p &&& ~~~((0xFFFFFFFF : BitVec 1536) <<< 480)) ||| ((pasid.setWidth 1536) <<< 480)

/-- Entering a packet into the pending-launch store, with its stamp (R57). -/
def State.enterPending (s : State) (number : Word) (pkt : BitVec 1536) (src : Source) (pasid : BitVec 20) : State :=
  { s with
    pending := s.pending ++ [⟨s.arrivals, number, pkt, src, pasid, false, [], [], [], false⟩],
    stamps := s.stamps ++ [⟨s.arrivals, pkt, src, pasid, number, [], [], [], 0, false, false⟩],
    arrivals := s.arrivals + 1 }

/-- Whether a source is a device LAUNCH. -/
def Source.isDevice : Source → Bool
  | .device _ _ _ => true
  | .host _ _ => false

/-- Whether a device LAUNCH finds an eligible entry (R57). -/
def State.deviceRoom (s : State) : Bool :=
  decide ((s.pending.filter fun p => p.source.isDevice).length < Config.pendingDevice) && decide (s.pending.length < Config.pendingMax)

/-- LAUNCH (R64, R65) (DEDUCED, log 23). -/
def execLaunch (d : Pair) (a : SPair) (s : State) : Host.Outcome State Fault Refusal :=
  s.withIssue fun iss c =>
    s.guarded iss c ⟨[], [], [pairName d, pairName (pairOfS a)]⟩ (pairIsS d) true <|
      let addr := c.arch.spair a
      (s.readDesc c addr 64 0).andThen s iss c fun _ =>
        let s := s.release c.key .dev
        (s.readPieces c addr addr 24).andThen s iss c fun x =>
          let s := s.noteDesc c addr 24
          let pasid := s.pasidOf c.launch
          let tid := (c.arch.lane ((lanesOf iss.exec).headD 0)).tid
          let src := Source.device tid c.key.core (pktPrio (s.pktOf c.launch))
          let finishWith (s : State) (x : DWord) : Eff :=
            .done ((s.modCtx c.key fun c => { c with arch := (c.arch.setPair 0 d x).advance iss, refused := [] }).checkpoint c.key)
          if s.deviceRoom then
            let n := s.nextNum
            finishWith ({ s with nextNum := nextNumber n }.enterPending n (withPasid (BitVec.ofNat 1536 x) pasid) src pasid)
              (n.setWidth 64 <<< 32)
          else finishWith s 1

/-! ## SPAWN and WAITFREE (R82–R85) -/

/-- The target of a SPAWN or WAITFREE. -/
def targetCore (x : Word) : CoreId := x.setWidth 14

/-- Whether an identifier names an enabled rod. -/
def State.enabledRod (s : State) (t : CoreId) : Bool := isRod t && s.enabled t

/-- Writing the status pair of a SPAWN and going on, with the checkpoint after it (R397). -/
def State.spawnReply (s : State) (k : CtxKey) (d : Pair) (next : DWord) (status value : Word) : State :=
  (s.modCtx k fun c => { c with st := .live, arch := (c.arch.setPair 0 d (value ++ status)).goto c.liveSet next }).checkpoint k

/-- SPAWN (R82): the message goes to the named rod, which answers it (R83); no rod answers BADCORE. -/
def execSpawn (d : Pair) (a : Fin 64) (b : SPair) (cc : SPair) (s : State) : Host.Outcome State Fault Refusal :=
  s.withIssue fun iss c =>
    s.guarded iss c ⟨[.s a], [], [pairName d, pairName (pairOfS b), pairName (pairOfS cc)]⟩ (pairIsS d) true <|
      let pc := c.arch.spair b
      if pc.toNat % 4 ≠ 0 then .trap s (Trap.one .align pc iss.pc)
      else
        let s := s.release c.key .dev
        let t := targetCore c.arch.s[a]
        if !s.enabledRod t || (pktLockstep (s.pktOf c.launch) && coreSlot t % 2 == 1) then
          .done (s.spawnReply c.key d (nextPc iss) 4 0)
        else
          .done ({ s with spawnQ := s.spawnQ ++ [(c.key, t, pc, c.arch.spair cc)] }.modCtx c.key fun c =>
            { c with st := .parked (.spawn d (nextPc iss)) })

/-- The launch that holds a lock-step pair of a rod, if one does (R77). -/
def State.pairHolder (s : State) (t : CoreId) : Option Word :=
  (s.ctxs.find? fun c => c.key.core.toNat / 2 == t.toNat / 2 && c.kind == .rod && pktLockstep (s.pktOf c.launch)).map (·.launch)

/-- The region that takes a spawned thread (R77): the lowest-numbered workgroup of the launch on the rod with a free slot;
`none` when it has no region there. -/
def State.spawnRegions (s : State) (launch : Word) (t : CoreId) : List Region :=
  match s.pairHolder t with
  | some n => if n == launch then s.regions.filter fun r => r.core == t && r.launch == launch else []
  | none => s.regions.filter fun r => r.core == t && r.launch == launch

/-- The lowest-numbered of regions that satisfy a test. -/
def lowRegion (rs : List Region) : Option Region := rs.find? fun r => rs.all fun x => decide (r.w ≤ x.w)

/-- A rod's answer to a spawn message (R77, R82, R156) (DEDUCED, log 42). The new thread carries the sender's NFMT.TOP, whatever
R29 says of the object (DEDUCED, log 56); a mismatch is delivered once the sender has its reply. -/
def State.answerSpawn (s : State) (c : Ctx) (t : CoreId) (pc args : DWord) (d : Pair) (next : DWord) : State :=
  let pkt := s.pktOf c.launch
  let base := pktNwg pkt * pktWgsize pkt
  let o := s.objectOf c.launch
  let n := ((s.launch? c.launch).map (·.spawned)).getD 0
  let rs := s.spawnRegions c.launch t
  let open_ := rs.filter fun r => decide ((s.residents r).length < regionSlots o t r.pw)
  if rs.isEmpty then s.spawnReply c.key d next 2 0
  else if n = 2 ^ 32 - base then s.spawnReply c.key d next 3 0
  else
    match lowRegion open_, s.rodNumber t with
    | some r, some i =>
      let idx := base + n
      let top := nfmtTop c.arch.nfmt
      let ar := startArch [freshLane pc (tidOf c.launch idx) true] o args r.w c.arch.uhnd c.arch.ovh top
      let key : CtxKey := ⟨t, i⟩
      let s := (s.addCtx key c.launch .rod r.w 0 none ar).modLaunch c.launch fun l => { l with spawned := n + 1 }
      let s := (s.acquireMem key .dev).spawnReply c.key d next 0 (BitVec.ofNat 32 idx)
      if o.nfmtreq ≠ 0 ∧ top ≠ (o.nfmtreq == 2) then s.deliver key (Trap.one .nfmt pc pc) else s
    | _, _ => s.spawnReply c.key d next 1 (s.freecntOf t)

/-- SPAWN_MESSAGE (R83): a rod answers the oldest message that has reached it. -/
def execSpawnMessage (core : CoreId) (s : State) : Host.Outcome State Fault Refusal :=
  match s.spawnQ.find? fun m => m.2.1 == core with
  | none => .next s
  | some m =>
    let s := { s with spawnQ := s.spawnQ.erase m }
    match s.ctx? m.1 with
    | none => .next s
    | some c =>
      match c.st with
      | .parked (.spawn d next) => .next (s.answerSpawn c core m.2.2.1 m.2.2.2 d next)
      | _ => .next s

/-- WAITFREE (R84, R85). -/
def execWaitfree (d : Reg) (a : Fin 64) (b : Fin 64) (s : State) : Host.Outcome State Fault Refusal :=
  s.withIssue fun iss c =>
    s.guarded iss c ⟨[.s a, .s b], [d], []⟩ (regType d == .uniform) true <|
      let t := targetCore c.arch.s[a]
      let old := c.arch.s[b]
      let put (x : Word) : Eff := .done (s.setCtx { c with arch := (c.arch.writeS d x).advance iss })
      if !s.enabledRod t then put old
      else if s.freecntOf t ≠ old then put (s.freecntOf t)
      else .done ((s.checkpoint c.key).modCtx c.key fun c => { c with st := .parked (.waitfree t d old (nextPc iss)) })

/-! ## JOIN, LEAVE, EXIT (R86, R87) -/

/-- Setting GID of the lanes of a mask that pass a test. -/
def Arch.putGid (ar : Arch) (m : BitVec 64) (f : DWord → DWord) : Arch :=
  ar.forLanes (lanesOf m) fun ar i => ar.modLane i fun l => { l with gid := f l.gid }

/-- JOIN and LEAVE (R86): the update of the cell, the status, and GID. -/
def State.memberOp (s : State) (d : Reg) (a : SPair) (refusal : Word) (f : GroupCell → Nat → Option GroupCell)
    (gid : DWord → DWord → DWord) : Host.Outcome State Fault Refusal :=
  s.withIssue fun iss c =>
    s.guarded iss c ⟨[], [d], [pairName (pairOfS a)]⟩ (regType d == .uniform) true <|
      let addr := c.arch.spair a
      match s.resolveCell c addr with
      | .fault code => .trap s (Trap.one code addr iss.pc)
      | .miss w => .done (s.parkPages c.key [w])
      | .ok p =>
        let sc := cellScope addr p
        let s := (s.flushStreams c.key).checkpoint c.key
        let r := (s.release c.key sc).updateCell c addr p fun g => f g (lanesOf iss.exec).length
        let s := r.1.acquireMem c.key sc
        .done ((s.modCtx c.key fun c =>
          let ar := c.arch.writeS d (if r.2.2 then 0 else refusal)
          { c with arch := (if r.2.2 then ar.putGid iss.exec (gid addr) else ar).advance iss, refused := [] }).checkpoint c.key)

/-- JOIN (R86): GID becomes the cell's address. -/
def execJoin (d : Reg) (a : SPair) (s : State) : Host.Outcome State Fault Refusal :=
  s.memberOp d a 1 GroupCell.join fun addr _ => addr

/-- LEAVE (R86): a GID that names the cell becomes 0. -/
def execLeave (d : Reg) (a : SPair) (s : State) : Host.Outcome State Fault Refusal :=
  s.memberOp d a 2 GroupCell.leave fun addr g => if g = addr then 0 else g

/-- The LEAVEs of the lanes of an EXIT, cell by cell in ascending order of address (R87): a page that one of them misses is
waited for; any other fault is not delivered (DEDUCED, log 39). -/
def State.exitLeaves (s : State) (k : CtxKey) (m : BitVec 64) : Nat → State × Option PageWait
  | 0 => (s, none)
  | n + 1 =>
    match s.ctx? k with
    | none => (s, none)
    | some c =>
      let gids := (lanesOf m).filterMap fun i => if (c.arch.lane i).gid = 0 then none else some (c.arch.lane i).gid
      match gids.find? fun g => gids.all fun h => decide (g.toNat ≤ h.toNat) with
      | none => (s, none)
      | some g =>
        let mine := (lanesOf m).filter fun i => (c.arch.lane i).gid == g
        let clear (s : State) : State := s.modCtx k fun c =>
          { c with arch := c.arch.forLanes mine fun ar i => ar.modLane i fun l => { l with gid := 0 } }
        match s.resolveCell c g with
        | .miss w => (s, some w)
        | .fault _ => State.exitLeaves (clear s) k m n
        | .ok p =>
          let sc := cellScope g p
          let s := ((s.releaseMem k sc).updateCell c g p fun x => x.leave mine.length).1.acquireMem k sc
          State.exitLeaves (clear s) k m n

/-- Ending the lanes of a mask as EXIT does (R87): the release, the LEAVEs, then the end; a missed page parks the context. -/
def State.exitLanes (s : State) (k : CtxKey) (m : BitVec 64) : State :=
  match (s.release k .dev).exitLeaves k m 64 with
  | (s, some w) => s.parkPages k [w]
  | (s, none) => s.endLanes k m

/-- EXIT (R87): a lock-step pair compares the LEAVE that it makes of a joined cell (R395, R397). -/
def execExit64 (s : State) : Host.Outcome State Fault Refusal :=
  s.withIssueIf (fun c => c.arch.lanes.any fun l => l.gid != 0) fun iss c =>
    match c.kind with
    | .called _ _ => faultAt s iss .ill
    | _ => .done (s.exitLanes c.key iss.exec)

/-! ## MIGRATE and YIELD (R88, R89) -/

/-- Moving a rod thread to its board's reckoner (R88): its accesses are performed, and TBASE is kept for its return. -/
def State.goAway (s : State) (k : CtxKey) : State :=
  let s := s.release k .dev
  s.modCtx k fun c => { c with away := true, place := some (s.freePlace (boardNo k.core)), arch := { c.arch with tbase := s.tbaseOf c } }

/-- Bringing a thread home (R88, R112): it acquires there, takes a new checkpoint, and moves the window when its recorded
TBASE differs. -/
def State.comeHome (s : State) (k : CtxKey) : State :=
  let s := (s.release k .dev).modCtx k fun c => { c with away := false, place := none, ckpt := [c.arch], retired := 0 }
  let s := s.acquireMem k .dev
  match s.ctx? k, (s.ctx? k).bind fun c => s.window? c.launch k.core with
  | some c, some w => if w.tbase = c.arch.tbase then s else s.moveWindow k c.launch k.core c.arch.tbase
  | _, _ => s

/-- The status of MIGRATE and the move: `home` selects .HM. A lock-step thread takes a checkpoint before it, moved or not (R398).
On the reckoner .RK leaves pushes pending (DESIGN CHOICE, log 75). -/
def State.migrateOp (s : State) (home : Bool) (d : Reg) : Host.Outcome State Fault Refusal :=
  s.withIssue fun iss c =>
    if c.kind != .rod then faultAt s iss .ill
    else
      s.guarded iss c ⟨[], [d], []⟩ (regType d == .uniform) true <|
        let board := boardNo c.key.core
        let put (s : State) (x : Word) : Eff :=
          .done (s.modCtx c.key fun c => { c with arch := (c.arch.writeS d x).advance iss })
        let moved : State := s.modCtx c.key fun c => { c with arch := (c.arch.writeS d 0).advance iss }
        if home then (if c.away then .done (moved.comeHome c.key) else put ((s.flushStreams c.key).checkpoint c.key) 0)
        else if c.away then put s 0
        else if !s.enabled (boardReckoner board) then put (s.release c.key .dev) 2
        else if Config.awayMax ≤ s.awayCount board then put (s.release c.key .dev) 1
        else .done (moved.goAway c.key)

/-- MIGRATE.RK (R88). -/
def execMigrateRk (d : Reg) (s : State) : Host.Outcome State Fault Refusal := s.migrateOp false d

/-- MIGRATE.HM (R88). -/
def execMigrateHm (d : Reg) (s : State) : Host.Outcome State Fault Refusal := s.migrateOp true d

/-- Whether a self-test holds the lock-step pair of a context (R401). -/
def State.underTest (s : State) (c : Ctx) : Bool :=
  c.kind == .rod && !c.away && s.tests.any fun t => t.target == .pair (pairCore c.key.core)

/-- Whether a launch is being stopped to be saved: its contexts issue nothing more (R389, R392). -/
def State.halted (s : State) (n : Word) : Bool := ((s.launch? n).bind (·.halt)).isSome

/-- Whether a context could issue but for a YIELD: it is LIVE on an enabled core, no self-test holds it or its accesses, its launch is not being
stopped, and no fill of the window that it fetches from is pending (R13, R75, R109, R110, R389, R401). -/
def State.couldIssue (s : State) (c : Ctx) : Bool :=
  c.st == .live && s.enabled c.core && !s.underTest c && !s.bankTested c.launch (some c.core) && !s.halted c.launch && (c.away || c.arch.overlay || !s.fillPending c.launch c.key.core)

/-- Whether a context is ready: it could issue, and every context that its YIELD waits for has issued or is not ready (R89). -/
def State.ready (s : State) (c : Ctx) : Bool :=
  s.couldIssue c && c.yielded.all fun k => !(((s.ctx? k).map s.couldIssue).getD false)

/-- YIELD (R89): the next issue waits for every other ready context of the core. -/
def execYield (s : State) : Host.Outcome State Fault Refusal :=
  s.withIssueQuiet fun iss c =>
    let others := (s.ctxs.filter fun x => x.core == c.core && x.key != c.key && s.ready x).map (·.key)
    .done (s.setCtx { c with arch := c.arch.advance iss, yielded := others })

end Sys2Proof.Machine
end

