-- ==== Sys2Proof/Machine/Gang.lean ====
section
/-!
DEFINITION. Gang calls and register growth (R295–R313): family 0x10 and the events of the rendezvous table and of draining.
-/
namespace Sys2Proof.Machine

/-! ## GCALL (R302, R307) -/

/-- The leaf whose entry is an address: TIMEOUT and BEAMONLY. -/
def CodeObject.leafAt (o : CodeObject) (pc : DWord) : Option (Nat × Bool) :=
  (o.leaves.find? fun l => o.text + l.1 == pc.toNat).map fun l => (l.2.1, l.2.2)

/-- The local path (R302): the caller runs the leaf itself. -/
def Arch.localLeaf (ar : Arch) (iss : Issue) (tgt : DWord) (key : Word) : Arch :=
  { ((ar.setS 1 key).setS 2 1).goto iss.exec tgt with link := some (nextPc iss) }

/-- GCALL (R307): the checks, the frame-scope release, and the lookup; `tgt` reads the target, `nm` names its registers. In
lock-step it is bracketed by checkpoints, on the local path too (R397). -/
def State.gcallOp (s : State) (a : Operand) (nm : Names) (tgt : Issue → Arch → DWord) : Host.Outcome State Fault Refusal :=
  s.withIssue fun iss c =>
    let o := s.objectOf c.launch
    let ill (addr : DWord) : Eff := .trap s (Trap.one .ill addr iss.pc)
    if c.kind != .rod || decide (o.vcnt < 8) || decide (o.scnt < 3) then ill iss.pc
    else
      let nm : Names := ⟨opRegs a ++ nm.src, nm.dst, nm.tup⟩
      s.guarded iss c nm true false <|
        s.withStreams iss c nm fun pops _ ar =>
          let t := tgt iss ar
          let t := s.forwardAll (coreDie c.key.core) c.launch Config.forwardMax t
          match o.leafAt t with
          | none => ill t
          | some (timeout, beamonly) =>
            let isLocal := c.away || pwReg (pktBeampw (s.pktOf c.launch)) == 0
            if c.arch.link.isSome || (isLocal && beamonly) then ill iss.pc
            else
              let key := ar.opWord 0 a
              let runLocal (s : State) : Eff :=
                .done ((s.modCtx c.key fun c =>
                  { c with arch := (pops.foldl Arch.pop c.arch).localLeaf iss t key, refused := [] }).checkpoint c.key)
              if isLocal then runLocal ((s.flushStreams c.key).checkpoint c.key)
              else
                let s := s.release c.key .frm
                let park (s : State) (w : Wait) : Eff := .done (s.modCtx c.key fun c => { c with st := .parked w, refused := [] })
                match s.rdvJoin (frameNo c.key.core) c.uid c.launch t key timeout with
                | some s => park s (.gcall iss.pc (nextPc iss) pops)
                | none =>
                  if beamonly then
                    park { s with arrivals := s.arrivals + 1 } (.gcallFree t key timeout iss.pc (nextPc iss) pops s.arrivals)
                  else runLocal s

/-- GCALL, 64-bit form (R307). -/
def execGcall64 (a : Operand) (disp : BitVec 16) (s : State) : Host.Outcome State Fault Refusal :=
  s.gcallOp a ⟨[], [], []⟩ fun iss _ => branchTarget iss (disp16 disp)

/-- GCALL, 96-bit form (R307). -/
def execGcall96 (a : Operand) (disp : Word) (s : State) : Host.Outcome State Fault Refusal :=
  s.gcallOp a ⟨[], [], []⟩ fun iss _ => branchTarget iss (disp32 disp)

/-- GCALL.I (R307). -/
def execGcallI (b : Pair) (a : Operand) (s : State) : Host.Outcome State Fault Refusal :=
  s.gcallOp a ⟨[], [], [pairName b]⟩ fun _ ar => ar.pair 0 b

/-! ## GRET (R301, R308) -/

/-- The return of a lane's results to its caller (R301): v0–v3, the flags, a frame-scope acquire, and the instruction after
the GCALL. -/
def State.returnLane (s : State) (gang : Ctx) (i : Nat) : State :=
  match (gang.arch.lane i).caller with
  | none => s
  | some u =>
    match s.byUid u with
    | none => s
    | some c =>
      match c.st with
      | .parked (.gcall _ next pops) =>
        let ar := pops.foldl Arch.pop c.arch
        let ar := (List.finRange 4).foldl (fun (ar : Arch) (j : Fin 4) =>
          ar.setV 0 ⟨j.val, by omega⟩ (gang.arch.vreg i ⟨j.val, by omega⟩)) ar
        let ar := (ar.orXstat (gang.arch.xstat &&& 0x1F)).goto 1 next
        ((s.setCtx { c with arch := ar, st := .live }).acquireMem c.key .frm).checkpoint c.key
      | _ => s

/-- GRET (R308). -/
def execGret (s : State) : Host.Outcome State Fault Refusal :=
  s.withIssue fun iss c =>
    match c.kind, c.arch.link with
    | .rod, some pc => .done (s.setCtx { c with arch := { c.arch.goto iss.exec pc with link := none } })
    | .called _ _, _ =>
      let s := s.release c.key .frm
      let s := (lanesOf iss.exec).foldl (fun s i => s.returnLane c i) s
      .done (s.endLanes c.key iss.exec)
    | _, _ => faultAt s iss .ill

/-! ## GROW and SHRINK (R309–R313) -/

/-- A gang with a larger varying count: the new registers read 0 in every lane. -/
def Arch.growTo (ar : Arch) (n : Nat) : Arch :=
  { ar with
    vc := n,
    lanes := ar.lanes.map fun l =>
      { l with v := Vector.ofFn fun (i : Fin 64) => if ar.vc ≤ i.val ∧ i.val < n then 0 else l.v[i] } }

/-- The bytes that a gang's blocks need for a count (R309). -/
def State.blockFor (s : State) (c : Ctx) (n : Nat) : Nat := gangBlock (s.objectOf c.launch) n * (if c.pair.isSome then 2 else 1)

/-- The count and the order of a parked GROW. -/
def Ctx.growing (c : Ctx) : Option (Nat × Nat) :=
  match c.st with
  | .parked (.grow n order _ _) => some (n, order)
  | _ => none

/-- The region of a context. -/
def State.regionOf (s : State) (c : Ctx) : Option Region := s.region? c.key.core c.launch c.group

/-- Ending a parked GROW: granted or denied (R310). -/
def State.endGrow (s : State) (k : CtxKey) (granted : Bool) : State :=
  s.modCtx k fun c =>
    match c.st with
    | .parked (.grow n _ d next) =>
      let ar := if granted then (c.arch.growTo n).writeS d 0 else (c.arch.writeS d 1).orXstat 0x800
      { c with st := .live, arch := ar.goto c.liveSet next }
    | _ => c

/-- The parked GROWs of a region examined in arrival order (R310) (DEDUCED, log 41). -/
def State.wakeGrows (s : State) (r : Region) : State :=
  let ws := (s.residents r).filter fun c => c.growing.isSome
  let ord (c : Ctx) : Nat := (c.growing.map (·.2)).getD 0
  (sortOn ord ws).foldl (fun (s : State) (c : Ctx) =>
    match c.growing with
    | some (n, _) => if s.blockFor c n - s.blockOf c ≤ s.regionFree r then s.endGrow c.key true else s
    | none => s) s

/-- GROW (R310, R311). -/
def State.growOp (s : State) (d : Reg) (b : Src) : Host.Outcome State Fault Refusal :=
  s.withIssue fun iss c =>
    if c.kind == .rod then faultAt s iss .ill
    else
      s.guarded iss c ⟨b.regs, [d], []⟩ (regType d == .uniform) true <|
        let n := (c.arch.srcWord 0 b).toNat
        let put (ar : Arch) : Eff := .done (s.setCtx { c with arch := ar.advance iss })
        match s.regionOf c with
        | none => put (c.arch.writeS d 0)
        | some r =>
          if n ≤ c.arch.vc then put (c.arch.writeS d 0)
          else if decide (64 < n) || decide (regBytes r.core r.pw < gangBlock (s.objectOf c.launch) n) then
            put ((c.arch.writeS d 1).orXstat 0x800)
          else if decide (s.blockFor c n - s.blockOf c ≤ s.regionFree r) && (s.residents r).all (fun x => x.growing.isNone) then
            put ((c.arch.growTo n).writeS d 0)
          else
            let s := ({ s with arrivals := s.arrivals + 1 }).modCtx c.key fun c => { c with st := .parked (.grow n s.arrivals d (nextPc iss)) }
            .done (if (s.ctxs.filter fun x => x.key.core == c.key.core).all fun x => x.growing.isSome then s.endGrow c.key false else s)

/-- GROW, 64-bit form (R310). -/
def execGrow64 (d : Reg) (b : UniformOp) (s : State) : Host.Outcome State Fault Refusal := s.growOp d (.op (opOfU b))

/-- GROW, 96-bit form (R310). -/
def execGrow96 (d : Reg) (lit : Word) (s : State) : Host.Outcome State Fault Refusal := s.growOp d (.lit lit)

/-- SHRINK (R312): the bytes that it releases drain (R313). -/
def State.shrinkOp (s : State) (b : Src) : Host.Outcome State Fault Refusal :=
  s.withIssue fun iss c =>
    if c.kind == .rod then faultAt s iss .ill
    else
      s.guarded iss c ⟨b.regs, [], []⟩ true true <|
        let n := max (c.arch.srcWord 0 b).toNat (s.objectOf c.launch).vcnt
        if c.arch.vc ≤ n then .done (s.setCtx { c with arch := c.arch.advance iss })
        else
          let freed := s.blockOf c - s.blockFor c n
          .done ((s.setCtx { c with arch := { c.arch.advance iss with vc := n } }).modRegion c.key.core c.launch c.group fun r =>
            { r with draining := r.draining + freed })

/-- SHRINK, 64-bit form (R312). -/
def execShrink64 (b : UniformOp) (s : State) : Host.Outcome State Fault Refusal := s.shrinkOp (.op (opOfU b))

/-- SHRINK, 96-bit form (R312). -/
def execShrink96 (lit : Word) (s : State) : Host.Outcome State Fault Refusal := s.shrinkOp (.lit lit)

/-! ## The events of the rendezvous table (R297, R298, R300) -/

/-- RENDEZVOUS_DEADLINE (R297): an OPEN entry whose DEADLINE has come seals. -/
def execRendezvousDeadline (frame entry : Nat) (s : State) : Host.Outcome State Fault Refusal :=
  let due (e : RdvEntry) : Bool := e.frame == frame && e.num == entry && e.st == .opened && decide (e.deadline ≤ s.tick)
  if s.rdv.any due then
    .next { s with arrivals := s.arrivals + 1, rdv := s.rdv.map fun e => if due e then { e with st := .sealed, order := s.arrivals } else e }
  else .next s

/-- A lane of a gang that an entry forms (R300). -/
def calledLane (leaf : DWord) (c : Ctx) : Lane :=
  let l := c.arch.lane 0
  { freshLane leaf l.tid true with
    caller := some c.uid, v := Vector.ofFn fun (i : Fin 64) => if i.val < 8 then l.v[i] else 0 }

/-- The uniform state of a gang that an entry forms (R300). -/
def State.calledArch (s : State) (e : RdvEntry) (callers : List Ctx) : Arch :=
  let pkt := s.pktOf e.launch
  let lanes := callers.map (calledLane e.leaf) ++ List.replicate (32 - callers.length) Lane.dead
  { (((Arch.fresh lanes (s.objectOf e.launch).vcnt).setS 1 e.key).setS 2 (BitVec.ofNat 32 callers.length)) with
    uhnd := pktUhnd pkt &&& 0x01FFFFFFFFFFFFFC, ovh := pktOvh pkt, nfmt := nfmtOf (s.launchTop e.launch) }

/-- The lanes whose callers carry another NFMT.TOP than the leaf region's (R156). -/
def State.nfmtFaults (s : State) (e : RdvEntry) (callers : List Ctx) : List LaneFault :=
  (List.range callers.length).filterMap fun i =>
    match callers[i]? with
    | some c => if nfmtTop c.arch.nfmt ≠ s.launchTop e.launch then some ⟨i, .nfmt, e.leaf⟩ else none
    | none => none

/-- The lowest index of a region that no gang of it has (R298). -/
def State.freeIndex (s : State) (r : Region) : Nat :=
  ((List.range 32).find? fun i => (s.residents r).all fun c => c.index != i).getD 32

/-- Placing the gang of a sealed entry (R298, R300). -/
def State.placeGang (s : State) (e : RdvEntry) (r : Region) (slot : Fin 32) : State :=
  let callers := e.callers.filterMap s.byUid
  let key : CtxKey := ⟨r.core, slot⟩
  let s := s.addCtx key e.launch (.called e.frame e.num) r.w (s.freeIndex r) none (s.calledArch e callers)
  let s := { s with rdv := s.rdv.map fun (x : RdvEntry) => if x.frame == e.frame && x.num == e.num then { x with st := .running } else x }
  let s := s.acquireMem key .frm
  match s.nfmtFaults e callers with
  | [] => s
  | f :: fs => s.deliver key ⟨f :: fs, false, e.leaf⟩

/-- Whether an entry is the sealed one of its frame that is placed next (R298). -/
def State.nextSealed (s : State) (e : RdvEntry) : Bool :=
  e.st == .sealed && s.rdv.all fun x => x.frame != e.frame || x.st != .sealed || decide (e.order ≤ x.order)

/-- GANG_PLACEMENT (R298): a free slot of the leaf region, G free bytes and a free gang slot of the beam are needed. -/
def execGangPlacement (frame entry : Nat) (s : State) : Host.Outcome State Fault Refusal :=
  match s.rdv.find? fun e => e.frame == frame && e.num == entry with
  | none => .next s
  | some e =>
    let core := frameCore frame 8
    match s.region? core e.launch 0xFFFFF, (s.slotsFree core).head? with
    | some r, some slot =>
      let o := s.objectOf e.launch
      if s.nextSealed e && decide ((s.residents r).length < regionSlots o core r.pw) && decide (gangBlock o o.vcnt ≤ s.regionFree r) then
        .next (s.placeGang e r slot)
      else .next s
    | _, _ => .next s

/-! ## Draining (R74, R76, R313) -/

/-- CONTEXT_FREE (R76): a context or gang that drains becomes FREE; a rod's advances FREECNT and sends the notice, a
beam's bytes are offered to the GROWs that wait. -/
def execContextFree (key : CtxKey) (s : State) : Host.Outcome State Fault Refusal :=
  match s.ctx? key with
  | none => .next s
  | some c =>
    if c.st == .draining then
      let region := s.regionOf c
      let s := { s with ctxs := s.ctxs.filter fun x => x.key != key,
                        gates := s.gates.filter fun g => g.key != key,
                        strikes := s.strikes.filter fun k => k != key }
      let s := if c.kind == CtxKind.rod then (s.contextFree key.core).freeLeaf c.launch key.core else s
      let s := match region with
        | some r => if c.kind == CtxKind.rod then s else s.wakeGrows r
        | none => s
      .next (s.freeRegions c.launch key.core)
    else .next s

/-- DRAIN_COMPLETE (R313): the bytes that SHRINK released have drained, and are offered to the GROWs that wait. -/
def execDrainComplete (core : CoreId) (launch : Word) (w : Nat) (s : State) : Host.Outcome State Fault Refusal :=
  match s.region? core launch w with
  | none => .next s
  | some r =>
    if r.draining = 0 then .next s
    else .next ((s.modRegion core launch w fun r => { r with draining := 0 }).wakeGrows { r with draining := 0 })

end Sys2Proof.Machine
end

