-- ==== Sys2Proof/Machine/Matrix.lean ====
section
/-!
DEFINITION. The operand buffer, accumulators, matrix operations and convergence signing (R314–R335): family 0x11 and
MATRIX_OPERATION_COMPLETE.
-/
namespace Sys2Proof.Machine

/-! ## Records and their layout (R315–R317) -/

/-- The bytes of an element of a format code (R315); F4X has none of its own. -/
def fmtBytes (fmt : Nat) : Nat := if fmt = 2 then 4 else if fmt = 3 ∨ fmt = 4 then 2 else 1

/-- The k-group of a format code (R160). -/
def fmtGroup (fmt : Nat) : Nat := if fmt = 2 then 1 else if fmt = 3 ∨ fmt = 4 then 4 else if fmt = 7 then 16 else 8

/-- N of a density code (R315, R317). -/
def densN (dens : Nat) : Nat := if dens ≤ 1 then 64 else if dens = 2 then 32 else if dens = 3 then 16 else 8

/-- SV, the values that a line stores (R317). -/
def ObsRecord.sv (r : ObsRecord) : Nat := r.klen * densN r.dens / 64
/-- VB, the element bytes of a line (R317). -/
def ObsRecord.vb (r : ObsRecord) : Nat := if r.fmt = 7 then r.sv / 32 * 16 else r.sv * fmtBytes r.fmt
/-- LB, a line's bytes in the buffer (R317). -/
def ObsRecord.lb (r : ObsRecord) : Nat := roundUp r.vb 64

/-- The buffer offset of line l's values. -/
def ObsRecord.lineOff (r : ObsRecord) (l : Nat) : Nat := 64 * r.base + l * r.lb
/-- The buffer offset of the header of an F4X block of a line. -/
def ObsRecord.headOff (r : ObsRecord) (l b : Nat) : Nat := 64 * (r.base + r.scoff) + 2 * (l * (r.sv / 32) + b)
/-- The buffer offset of the bitmap word of a group of a line. -/
def ObsRecord.bitOff (r : ObsRecord) (l g : Nat) : Nat := 64 * (r.base + r.bmoff) + 8 * (l * (r.klen / 64) + g)

/-- The record that an attribute word describes, at offset 0; none where the word breaks R315. -/
def attrRecord (x : Word) : Option ObsRecord :=
  let fmt := x.toNat % 8
  let dens := x.toNat / 16 % 8
  let klen := x.toNat / 256 % 2048
  let r : ObsRecord := ⟨true, false, fmt, dens, klen, 0, 0, 0, 0⟩
  let ok := x.extractLsb' 19 13 == 0 && !x.getLsbD 7 && !x.getLsbD 3 && decide (2 ≤ fmt) && decide (dens ≤ 4)
    && inRange klen 1 1024 && klen % fmtGroup fmt == 0 && (fmt != 7 || klen % 32 == 0) && (dens == 0 || klen % 64 == 0)
    && (fmt != 7 || dens == 0 || r.sv % 32 == 0)
  if ok then
    let scb := if fmt = 7 then roundUp (32 * (r.sv / 32) * 2) 64 else 0
    let bmb := if dens = 0 then 0 else roundUp (32 * (klen / 64) * 8) 64
    some { r with scoff := 32 * r.lb / 64, bmoff := (32 * r.lb + scb) / 64, size := (32 * r.lb + scb + bmb) / 64 }
  else none

/-- A record that owns no range. -/
def ObsRecord.none : ObsRecord := ⟨false, false, 0, 0, 0, 0, 0, 0, 0⟩

/-- The ranges of a beam's valid records, in 64-byte units (R314). -/
def State.obufRanges (s : State) (core : CoreId) : List (Nat × Nat) :=
  (s.regions.filter fun r => r.core == core).flatMap fun r => (r.obs.toList.filter fun o => o.v).map fun o => (o.base, o.size)

/-- The lowest offset at which a range of n units fits (R314): 0, or the end of a range. -/
def lowestFit (used : List (Nat × Nat)) (n : Nat) : Option Nat :=
  let fits (b : Nat) : Bool := decide (b + n ≤ Config.obufBytes / 64) && used.all fun u => decide (u.1 + u.2 ≤ b) || decide (b + n ≤ u.1)
  let cands := (0 :: used.map fun u => u.1 + u.2).filter fits
  cands.find? fun b => cands.all fun x => decide (b ≤ x)

/-! ## The family's frame -/

/-- What an instruction of family 0x11 names for the issue order: records and a tile, and whether it is a matrix operation. -/
structure Uses where
  recs : List (Fin 16)
  tile : Option Nat
  mma  : Bool
  deriving DecidableEq, Repr

/-- After an instruction's execution: one that waits, for another or for a page, keeps its place in the beam's issue order, and
one that has taken effect gives it up (R322, R323) (DEDUCED, log 44). -/
def State.keepTurn (s : State) (k : CtxKey) (u : Uses) : State :=
  match s.ctx? k with
  | none => s
  | some c =>
    if c.st == .parked .obuf || (match c.st with | .parked (.pages _) => true | _ => false) then
      if c.turn.isSome then s
      else { s with arrivals := s.arrivals + 1 }.modCtx k fun c => { c with turn := some ⟨s.arrivals, u.recs, u.tile, u.mma⟩ }
    else s.endTurn k

/-- What follows the execution of an instruction of family 0x11. -/
def Eff.keepTurn (k : CtxKey) (u : Uses) : Eff → Eff
  | .done s => .done (s.keepTurn k u)
  | .trap s t => .trap s t

/-- An instruction of family 0x11: ILL on a rod or reckoner and in a WIDTH = 2 group, then the checks of R130; `whole` is
false for ACCRD alone. -/
def State.matrixOp (s : State) (nm : Names) (typeOk whole : Bool) (u : Uses) (body : Issue → Ctx → Region → Eff) :
    Host.Outcome State Fault Refusal :=
  s.withIssue fun iss c =>
    if c.kind == .rod || c.pair.isSome then faultAt s iss .ill
    else
      s.guarded iss c nm typeOk whole <|
        match s.regionOf c with
        | some r => (body iss c r).keepTurn c.key u
        | none => faultAt s iss .ill

/-- Changing the region of a context. -/
def State.modOwnRegion (s : State) (c : Ctx) (f : Region → Region) : State := s.modRegion c.key.core c.launch c.group f

/-- The operations of an allocation in its beam's engine (R322, R323). -/
def State.opsOf (s : State) (c : Ctx) : List MatrixOp :=
  (s.beam c.key.core).ops.filter fun o => o.launch == c.launch && o.w == c.group

/-- Waiting for an earlier instruction; the instruction executes again when one ends (R322, R323). -/
def State.parkObuf (s : State) (c : Ctx) : Eff := .done (s.modCtx c.key fun c => { c with st := .parked .obuf })

/-- The place of a context's instruction in its beam's issue order: the one it waits with, or behind all. -/
def State.orderOf (s : State) (c : Ctx) : Nat := (c.turn.map (·.order)).getD s.arrivals

/-- Whether two instructions name a record or a tile in common. -/
def usesMeet (xs ys : List (Fin 16)) (t u : Option Nat) : Bool := xs.any ys.contains || (t.isSome && t == u)

/-- Whether a matrix operation in the engine, issued earlier in the allocation, names a record or the tile (R322, R323). -/
def State.opWaited (s : State) (c : Ctx) (u : Uses) : Bool :=
  (s.opsOf c).any fun o => decide (o.num < s.orderOf c) && usesMeet u.recs [o.a, o.b] u.tile (some o.tile)

/-- Whether an earlier instruction of the beam that still waits comes first: one that names a record or the tile in common, or,
for a matrix operation, an earlier matrix operation (R322, R323, R327, R328). -/
def State.turnWaited (s : State) (c : Ctx) (u : Uses) : Bool :=
  s.ctxs.any fun x => x.key != c.key && x.key.core == c.key.core &&
    match x.turn with
    | some t => decide (t.order < s.orderOf c) &&
        ((u.mma && t.mma) || (x.launch == c.launch && x.group == c.group && usesMeet u.recs t.recs u.tile t.tile))
    | none => false

/-- Whether an earlier instruction that still waits may change a record that an instruction names, so that the record is not judged
yet (R322) (DEDUCED, log 44). -/
def State.recordsPending (s : State) (c : Ctx) (u : Uses) : Bool :=
  s.ctxs.any fun x => x.key != c.key && x.key.core == c.key.core && x.launch == c.launch && x.group == c.group &&
    match x.turn with
    | some t => !t.mma && decide (t.order < s.orderOf c) && u.recs.any t.recs.contains
    | none => false

/-- Whether a matrix operation that names a record or the tile was issued before a context's instruction and waits for its round
(R320, R323, R331). -/
def State.roundNames (s : State) (c : Ctx) (r : Region) (u : Uses) : Bool :=
  r.cvg.toList.any fun v => v.waiting.any fun o => decide (o.num < s.orderOf c) && usesMeet u.recs [o.a, o.b] u.tile (some o.tile)

/-- Whether an instruction on records or a tile waits: a matrix operation for instructions that wait, which go to the engine in
their order; any other for matrix operations in the engine too. -/
def State.mustWait (s : State) (c : Ctx) (u : Uses) : Bool := s.turnWaited c u || (!u.mma && s.opWaited c u)

/-! ## OBRES and OBREL (R319, R320) -/

/-- OBRES: the bytes of the new range are free values. It takes effect behind an OBREL or OBLD of the record that was issued
before it and waits (R322). -/
def State.obresOp (s : State) (d : Reg) (n : Fin 16) (b : Src) : Host.Outcome State Fault Refusal :=
  s.matrixOp ⟨b.regs, [d], []⟩ (regType d == .uniform) true ⟨[n], none, false⟩ fun iss c r =>
    let put (s : State) (x : Word) : Eff := .done (s.modCtx c.key fun c => { c with arch := (c.arch.writeS d x).advance iss })
    if s.turnWaited c ⟨[n], none, false⟩ then s.parkObuf c
    else if r.obs[n].v then put s 2
    else match attrRecord (c.arch.srcWord 0 b) with
      | none => put s 3
      | some o =>
        match lowestFit (s.obufRanges c.key.core) o.size with
        | none => put s 1
        | some base =>
          let bytes := (List.range (64 * o.size)).map fun i => Config.freeByte (s.freeCtr + i)
          put ({ s with freeCtr := s.freeCtr + 64 * o.size }.modOwnRegion c fun r =>
            { r with obs := r.obs.set n { o with base := base }, obuf := r.obuf.putBytes (64 * base) bytes }) 0

/-- OBRES, 64-bit form (R319). -/
def execObres64 (d : Reg) (n : Fin 16) (b : Fin 64) (s : State) : Host.Outcome State Fault Refusal :=
  s.obresOp d n (.op (.reg (.s b)))

/-- OBRES, 96-bit form (R319). -/
def execObres96 (d : Reg) (n : Fin 16) (lit : Word) (s : State) : Host.Outcome State Fault Refusal := s.obresOp d n (.lit lit)

/-- OBREL (R320): it waits for every matrix operation and OBLD that names the record and was issued before it, one that waits for
its round included. -/
def execObrel (n : Fin 16) (s : State) : Host.Outcome State Fault Refusal :=
  s.matrixOp ⟨[], [], []⟩ true true ⟨[n], none, false⟩ fun iss c r =>
    if s.mustWait c ⟨[n], none, false⟩ || s.roundNames c r ⟨[n], none, false⟩ then s.parkObuf c
    else
      let o := r.obs[n]
      .done ((s.modOwnRegion c fun r =>
        { r with obs := r.obs.set n ObsRecord.none,
                 obuf := if o.v then Mem.filterAddr (fun a => !inRange a (64 * o.base) (64 * o.size)) r.obuf else r.obuf }).modCtx c.key
        fun c => { c with arch := c.arch.advance iss })

/-! ## OBLD (R321) -/

/-- A fault, or the pages to wait for, or the bytes that were read with the places that served them. -/
inductive Fetched where
  | ok (bytes : List Byte) (from_ : List (DWord × Place))
  | fault (code : Code) (va : DWord)
  | miss (ws : List PageWait)
  deriving DecidableEq, Repr

/-- Reading n units of a size from an address on, by relaxed loads at a scope, to the checks of R225 and MEMUE last (R227)
(DEDUCED, log 45). -/
def State.fetchUnits (s : State) (c : Ctx) (sc : Scope) (unit : Nat) (va : DWord) : Nat → Fetched
  | 0 => .ok [] []
  | n + 1 =>
    match s.resolveLoad c va unit unit sc with
    | .fault code => .fault code va
    | .miss w => .miss [w]
    | .ok p =>
      match State.fetchUnits s c sc unit (va + BitVec.ofNat 64 unit) n with
      | .ok bs ps => .ok (leBytes (s.loadValue c va p unit sc).toNat unit ++ bs) ((va, p) :: ps)
      | r => r

/-- What the reads of n-byte units did besides: the errors that they corrected are counted (R226), and the frame cache filled at
their scope (R274). -/
def State.fillAll (s : State) (c : Ctx) (sc : Scope) (n : Nat) (ps : List (DWord × Place)) : State :=
  ps.foldl (fun s p => s.noteLoad c p.1 p.2 n sc) s

/-- The bytes of a line as they lie in memory: VB', and the unit that its address must be a multiple of (R321). -/
def ObsRecord.memLine (r : ObsRecord) : Nat × Nat := if r.fmt = 7 then (r.sv / 32 * 18, 2) else (r.vb, fmtBytes r.fmt)

/-- Storing a line's bytes into the buffer (R317): F4X headers go to the scale array. -/
def ObsRecord.putLine (r : ObsRecord) (l : Nat) (bytes : List Byte) (m : Mem) : Mem :=
  if r.fmt = 7 then
    (List.range (r.sv / 32)).foldl (fun m b =>
      let blk := (bytes.drop (18 * b)).take 18
      (m.putBytes (r.lineOff l + 16 * b) (blk.take 16)).putBytes (r.headOff l b) (blk.drop 16)) m
  else m.putBytes (r.lineOff l) bytes

/-- Reading a line's values. -/
def State.fetchLine (s : State) (c : Ctx) (o : ObsRecord) (va : DWord) : Fetched :=
  let (n, unit) := o.memLine
  s.fetchUnits c .frm unit va (n / unit)

/-- The bytes of a line that no lane fills (R321): zeros, with F4X headers 0x007F. -/
def ObsRecord.zeroLine (r : ObsRecord) : List Byte :=
  if r.fmt = 7 then (List.replicate (r.sv / 32) (List.replicate 16 (0 : Byte) ++ [0x7F, 0x00])).flatten
  else List.replicate r.vb 0

/-- The lines of a descriptor (R321), from line l on: values, then bitmap words; the first fault ends the instruction, and
pages that lines before it miss are waited for. -/
def State.fetchLines (s : State) (c : Ctx) (o : ObsRecord) (vaddr vstr baddr bstr : DWord) (l : Nat) : Nat → Fetched × (Mem → Mem)
  | 0 => (.ok [] [], id)
  | n + 1 =>
    let rest := State.fetchLines s c o vaddr vstr baddr bstr (l + 1) n
    let i := BitVec.ofNat 64 l
    let x := s.fetchLine c o (vaddr + i * vstr)
    let y := if o.dens = 0 then Fetched.ok [] [] else s.fetchUnits c .frm 8 (baddr + i * bstr) (o.klen / 64)
    match x, y with
    | .miss ws, _ => match rest.1 with
      | .miss vs => (.miss (ws ++ vs), id)
      | _ => (.miss ws, id)
    | .fault code va, _ => (.fault code va, id)
    | .ok _ _, .miss ws => match rest.1 with
      | .miss vs => (.miss (ws ++ vs), id)
      | _ => (.miss ws, id)
    | .ok _ _, .fault code va => (.fault code va, id)
    | .ok bs ps, .ok cs qs =>
      match rest.1 with
      | .ok ds rs => (.ok ds (ps ++ qs ++ rs), fun m => rest.2 ((o.putLine l bs m).putBytes (o.bitOff l 0) cs))
      | r => (r, id)

/-- A descriptor of OBLD.S (R321): VADDR, VSTR, BADDR and BSTR; none where it breaks the table. -/
def obldDesc (x : BitVec 256) (dens : Nat) : Option (DWord × DWord × DWord × DWord) :=
  let va := x.extractLsb' 0 64
  let vs := x.extractLsb' 64 32
  let ba := x.extractLsb' 128 64
  let bs := x.extractLsb' 192 32
  if x.extractLsb' 96 32 == 0 && x.extractLsb' 224 32 == 0 && (dens != 0 || (ba == 0 && bs == 0)) then
    some (va, vs.signExtend 64, ba, bs.signExtend 64)
  else none

/-- OBLD.S (R321): a fault is the gang's own and leaves the range's bytes undefined. An OBREL or OBRES of the record that was issued
before it takes effect first (R322). -/
def execObldS (d : Reg) (n : Fin 16) (a : SPair) (s : State) : Host.Outcome State Fault Refusal :=
  s.matrixOp ⟨[], [d], [pairName (pairOfS a)]⟩ (regType d == .uniform) true ⟨[n], none, false⟩ fun iss c r =>
    let put (s : State) (x : Word) : Eff :=
      .done (s.modCtx c.key fun c => { c with arch := (c.arch.writeS d x).advance iss, refused := [] })
    let o := r.obs[n]
    if s.recordsPending c ⟨[n], none, false⟩ then s.parkObuf c
    else if !o.v then put s 1
    else
      (s.readDesc c (c.arch.spair a) 8 4).andThen s iss c fun x =>
        match obldDesc (BitVec.ofNat 256 x) o.dens with
        | none => put s 3
        | some (va, vs, ba, bs) =>
          if s.mustWait c ⟨[n], none, false⟩ then s.parkObuf c
          else
            let s := s.noteDesc c (c.arch.spair a) 4
            match s.fetchLines c o va vs ba bs 0 32 with
            | (.miss ws, _) => .done (s.parkPages c.key ws)
            | (.fault code addr, _) =>
              let bytes := (List.range (64 * o.size)).map fun i => Config.freeByte (s.freeCtr + i)
              .trap ({ s with freeCtr := s.freeCtr + 64 * o.size }.modOwnRegion c fun r =>
                { r with obuf := r.obuf.putBytes (64 * o.base) bytes }) (Trap.one code addr iss.pc)
            | (.ok _ ps, f) => put ((s.fillAll c .frm 1 ps).modOwnRegion c fun r => { r with obuf := f r.obuf }) 0

/-- The lines of OBLD.V, lane by lane: the pages missed, the lane faults, the places read and the lines to store. -/
structure LaneLines where
  misses : List PageWait
  faults : List LaneFault
  from_  : List (DWord × Place)
  lines  : List (Nat × List Byte)

/-- Reading the lines of OBLD.V (R321). -/
def State.fetchLanes (s : State) (c : Ctx) (o : ObsRecord) (a : VPair) : List Nat → LaneLines
  | [] => ⟨[], [], [], []⟩
  | i :: is =>
    let t := State.fetchLanes s c o a is
    if !(c.arch.lane i).live then { t with lines := (i, o.zeroLine) :: t.lines }
    else
      match s.fetchLine c o (c.arch.pair i (pairOfV a)) with
      | .ok bs ps => { t with lines := (i, bs) :: t.lines, from_ := ps ++ t.from_ }
      | .fault code va => { t with faults := ⟨i, code, va⟩ :: t.faults }
      | .miss ws => { t with misses := ws ++ t.misses }

/-- OBLD.V (R321): a fault is its lane's, whose line keeps its bytes. An OBREL or OBRES of the record that was issued before it takes
effect first (R322). -/
def execObldV (d : Reg) (n : Fin 16) (a : VPair) (s : State) : Host.Outcome State Fault Refusal :=
  s.matrixOp ⟨[], [d], [pairName (pairOfV a)]⟩ (regType d == .uniform) true ⟨[n], none, false⟩ fun iss c r =>
    let put (s : State) (x : Word) : Eff :=
      .done (s.modCtx c.key fun c => { c with arch := (c.arch.writeS d x).advance iss, refused := [] })
    let o := r.obs[n]
    if s.recordsPending c ⟨[n], none, false⟩ then s.parkObuf c
    else if !o.v then put s 1
    else if o.dens ≠ 0 then put s 3
    else if s.mustWait c ⟨[n], none, false⟩ then s.parkObuf c
    else
      let t := s.fetchLanes c o a (List.range 32)
      match t.misses with
      | w :: ws => .done (s.parkPages c.key (w :: ws))
      | [] =>
        let s := (s.fillAll c .frm 1 t.from_).modOwnRegion c fun r =>
          { r with obuf := t.lines.foldl (fun m l => o.putLine l.1 l.2 m) r.obuf }
        match t.faults with
        | [] => put s 0
        | f :: fs =>
          let good := goodLanes iss.exec (f :: fs)
          .trap (s.modCtx c.key fun c =>
            { c with arch := if good == 0 then c.arch else (c.arch.writeS d 0).goto good (nextPc iss), refused := [] })
            ⟨f :: fs, false, iss.pc⟩

/-! ## Accumulators (R323, R324) -/

/-- The tiles of an allocation. -/
def Region.tiles (r : Region) : Nat := 4 * pwAcc r.pw

/-- C(i, j) of a tile. -/
def Region.tileAt (r : Region) (t i j : Nat) : Word := BitVec.ofNat 32 (r.acc.read (4096 * t + 128 * i + 4 * j) 4)

/-- Writing C(i, j) of a tile. -/
def Region.setTile (r : Region) (t i j : Nat) (x : Word) : Region :=
  { r with acc := r.acc.write (4096 * t + 128 * i + 4 * j) 4 x.toNat }

/-- An instruction on a tile: ILL for one that the allocation does not have (R323), and the wait for earlier matrix
operations on it, one that waits for its round included. -/
def State.tileOp (s : State) (nm : Names) (typeOk whole : Bool) (t : BitVec 8) (body : Issue → Ctx → Region → Eff) :
    Host.Outcome State Fault Refusal :=
  s.matrixOp nm typeOk whole ⟨[], some t.toNat, false⟩ fun iss c r =>
    if r.tiles ≤ t.toNat then faultAt s iss .ill
    else if s.mustWait c ⟨[], some t.toNat, false⟩ || s.roundNames c r ⟨[], some t.toNat, false⟩ then s.parkObuf c
    else body iss c r

/-- ACCZ (R324). -/
def execAccz (t : BitVec 8) (s : State) : Host.Outcome State Fault Refusal :=
  s.tileOp ⟨[], [], []⟩ true true t fun iss c _ =>
    .done ((s.modOwnRegion c fun r =>
      { r with acc := Mem.filterAddr (fun a => !inRange a (4096 * t.toNat) 4096) r.acc }).modCtx c.key fun c =>
        { c with arch := c.arch.advance iss })

/-- The address of C(i, j) in an ACCLD or ACCST. -/
def tileAddr (a sb : DWord) (x : Nat) : DWord := a + BitVec.ofNat 64 (x / 32) * sb + BitVec.ofNat 64 (4 * (x % 32))

/-- The accesses of ACCLD and ACCST up to the first that faults: the pages missed, the addresses with their places, and
the fault. -/
def tileRun (f : DWord → Resolved) (a sb : DWord) : List Nat → List PageWait × List (Nat × DWord × Place) × Option (Code × DWord)
  | [] => ([], [], none)
  | x :: xs =>
    match f (tileAddr a sb x) with
    | .fault code => ([], [], some (code, tileAddr a sb x))
    | .miss w => let t := tileRun f a sb xs; (w :: t.1, t.2)
    | .ok p => let t := tileRun f a sb xs; (t.1, (x, tileAddr a sb x, p) :: t.2.1, t.2.2)

/-- ACCLD and ACCST (R324): uniform accesses of 4 bytes, row by row, relaxed at frame scope; NULL comes before ALIGN (R225). -/
def State.tileMemOp (s : State) (store : Bool) (t : BitVec 8) (a : SPair) (b : Src) : Host.Outcome State Fault Refusal :=
  s.tileOp ⟨b.regs, [], [pairName (pairOfS a)]⟩ true true t fun iss c _ =>
    let addr := c.arch.spair a
    let sb := sext64 (c.arch.srcWord 0 b)
    if addr.toNat % 4 ≠ 0 ∨ sb.toNat % 4 ≠ 0 then .trap s (Trap.one (if addr.toNat < 0x10000 then .null else .align) addr iss.pc)
    else
      let look (va : DWord) : Resolved := if store then s.resolveStore c va 4 4 .frm else s.resolveLoad c va 4 4 .frm
      match tileRun look addr sb (List.range 1024) with
      | (w :: ws, _, _) => .done (s.parkPages c.key (w :: ws))
      | ([], acc, fault) =>
        let s := acc.foldl (fun (s : State) x =>
          if store then
            s.performStore c x.2.1 x.2.2 4 ((((s.regionOf c).map fun (r : Region) => r.tileAt t.toNat (x.1 / 32) (x.1 % 32)).getD 0).setWidth 128) .frm false
          else
            let v := (s.loadValue c x.2.1 x.2.2 4 .frm).setWidth 32
            (s.noteLoad c x.2.1 x.2.2 4 .frm).modOwnRegion c fun r => r.setTile t.toNat (x.1 / 32) (x.1 % 32) v) s
        match fault with
        | some (code, va) => .trap s (Trap.one code va iss.pc)
        | none => .done (s.modCtx c.key fun c => { c with arch := c.arch.advance iss, refused := [] })

/-- ACCLD, 64-bit form (R324). -/
def execAccld64 (t : BitVec 8) (a : SPair) (b : UniformOp) (s : State) : Host.Outcome State Fault Refusal :=
  s.tileMemOp false t a (.op (opOfU b))

/-- ACCLD, 96-bit form (R324). -/
def execAccld96 (t : BitVec 8) (a : SPair) (lit : Word) (s : State) : Host.Outcome State Fault Refusal :=
  s.tileMemOp false t a (.lit lit)

/-- ACCST, 64-bit form (R324). -/
def execAccst64 (t : BitVec 8) (a : SPair) (b : UniformOp) (s : State) : Host.Outcome State Fault Refusal :=
  s.tileMemOp true t a (.op (opOfU b))

/-- ACCST, 96-bit form (R324). -/
def execAccst96 (t : BitVec 8) (a : SPair) (lit : Word) (s : State) : Host.Outcome State Fault Refusal :=
  s.tileMemOp true t a (.lit lit)

/-- ACCRD (R324): legal under any EXEC. -/
def State.accrdOp (s : State) (d : Reg) (t : BitVec 8) (b : Src) : Host.Outcome State Fault Refusal :=
  s.tileOp ⟨b.regs, [d], []⟩ (regType d == .varying) false t fun iss c r =>
    let j := (c.arch.srcWord 0 b).toNat % 32
    .done (s.setCtx { c with arch :=
      (c.arch.write iss.exec d .varying ⟨0, 0⟩ fun lane => r.tileAt t.toNat lane j).advance iss })

/-- ACCRD, 64-bit form (R324). -/
def execAccrd64 (d : Reg) (t : BitVec 8) (b : UniformOp) (s : State) : Host.Outcome State Fault Refusal :=
  s.accrdOp d t (.op (opOfU b))

/-- ACCRD, 96-bit form (R324). -/
def execAccrd96 (d : Reg) (t : BitVec 8) (lit : Word) (s : State) : Host.Outcome State Fault Refusal := s.accrdOp d t (.lit lit)

/-! ## The product (R158–R161, R318) -/

/-- The value v that line l of a record stores, in its format under NFMT.TOP. -/
def Region.stored (r : Region) (o : ObsRecord) (top : Bool) (l v : Nat) : Num :=
  if o.fmt = 7 then
    f4xDec (r.obuf.read (o.headOff l (v / 32)) 2) ((r.obuf.get (o.lineOff l + v / 2)).toNat / 16 ^ (v % 2))
  else
    let x := r.obuf.read (o.lineOff l + v * fmtBytes o.fmt) (fmtBytes o.fmt)
    (if o.fmt = 2 then fp32 else if o.fmt = 3 then bf16 else if o.fmt = 4 then fp16 else if o.fmt = 5 then e4m3 top else e5m2 top).dec x

/-- The factor at position t of line l (R159): a position that the bitmap does not give a value is +0. -/
def Region.factor (r : Region) (o : ObsRecord) (top : Bool) (l t : Nat) : Num :=
  if o.dens = 0 then r.stored o top l t
  else
    let bits := r.obuf.read (o.bitOff l (t / 64)) 8
    let p := t % 64
    let rank := ((List.range p).filter fun i => bits.testBit i).length
    if bits.testBit p && decide (rank < densN o.dens) then r.stored o top l (t / 64 * densN o.dens + rank)
    else .fin false 0 0

/-- The exact sum of the products of a k-group, factors that are zero left out (R160); none when every product is. -/
def groupSum (xs : List (Num × Num)) : Option Num :=
  xs.foldl (fun (acc : Option Num) x =>
    if x.1.isZero || x.2.isZero then acc
    else
      let p := (x.1.mul x.2).1
      match acc with
      | none => some p
      | some y => some (y.add .rne p).1) none

/-- Adding a k-group's sum to an accumulator (R160): one rounding of the sum, and one of the addition; the new value, and
the values that were rounded. -/
def addGroupLog (c : Word) (xs : List (Num × Num)) : Word × List Word :=
  match groupSum xs with
  | none => (c, [])
  | some y =>
    let s := (fp32.word .rne y).1
    if (num32 s).isZero then (c, [s])
    else
      let x := (fp32.word .rne ((num32 c).add .rne (num32 s)).1).1
      (x, [s, x])

/-- Adding a k-group's sum to an accumulator (R160). -/
def addGroup (c : Word) (xs : List (Num × Num)) : Word := (addGroupLog c xs).1

/-- One element of a product: the groups that start from term `lo` on up to term `hi` (R160). -/
def Region.product (r : Region) (oa ob : ObsRecord) (top : Bool) (i j : Nat) (c : Word) (lo hi : Nat) : Word :=
  let k := fmtGroup oa.fmt
  (List.range ((hi - lo) / k)).foldl (fun c g =>
    addGroup c ((List.range k).map fun t => (r.factor oa top i (lo + g * k + t), r.factor ob top j (lo + g * k + t)))) c

/-- Summing the terms [lo, hi) of an operation into its tile. -/
def Region.sumTerms (r : Region) (o : MatrixOp) (top : Bool) (lo hi : Nat) : Region :=
  let oa := r.obs[o.a]
  let ob := r.obs[o.b]
  (List.range 1024).foldl (fun (q : Region) x =>
    q.setTile o.tile (x / 32) (x % 32) (r.product oa ob top (x / 32) (x % 32) (r.tileAt o.tile (x / 32) (x % 32)) lo hi)) r

/-- The region of an operation with the terms [k0, hi) summed, under the NFMT.TOP of its gang (R157). -/
def State.sumOp (s : State) (o : MatrixOp) (hi : Nat) : State :=
  let top := ((s.ctx? o.key).map fun c => nfmtTop c.arch.nfmt).getD false
  s.modRegion o.key.core o.launch o.w fun r => r.sumTerms o top o.k0 hi

/-! ## MMA and MMAS (R325–R328, R332) -/

/-- MPROG of an operation stopped at KDONE (R332). -/
def MatrixOp.progress (o : MatrixOp) (kdone : Nat) : Word :=
  BitVec.ofNat 32 (2 ^ 31 + o.tile * 2 ^ 23 + o.b.val * 2 ^ 19 + o.a.val * 2 ^ 15 + (if o.sparse then 2 ^ 14 else 0) + kdone)

/-- The first term of an operation under an MPROG (R327, R332). -/
def firstTerm (mprog : Word) (o : MatrixOp) : Nat :=
  let kd := mprog.toNat % 2048
  if mprog == o.progress kd && decide (kd < o.k) && kd % 64 == 0 then kd else 0

/-- The checks of R326 for an operation on two records. -/
def mmaOk (r : Region) (sparse : Bool) (t : Nat) (oa ob : ObsRecord) (k : Nat) : Bool :=
  let cls (f : Nat) : Nat := if f = 7 then 3 else if f = 2 then 0 else if f ≤ 4 then 1 else 2
  let g := fmtGroup oa.fmt
  decide (t < r.tiles) && oa.v && ob.v && oa.dens == 0 && (if sparse then ob.dens != 0 else ob.dens == 0)
    && cls oa.fmt == cls ob.fmt && k % g == 0 && decide (g ≤ k) && decide (k ≤ min (min oa.klen ob.klen) 1024)
    && (!sparse || k % 64 == 0)

/-- MMA and MMAS (R325–R327, R331): behind the instructions that it waits for, the operation goes to the beam's engine, or with
CV to its round, and the gang parks. Of the faults R326's ILL comes first, then the MMAERR of a fenced beam, then R331's ILL; the
records are judged once the instructions that may change them have taken effect (R322) (DESIGN CHOICE, log 44). -/
def State.mmaOp (s : State) (sparse : Bool) (cv : Option (Fin 8)) (t : BitVec 8) (ab : ObsPair) (b : Src) : Host.Outcome State Fault Refusal :=
  let u : Uses := ⟨[ab.a, ab.b], some t.toNat, true⟩
  s.matrixOp ⟨b.regs, [], []⟩ true true u fun iss c r =>
    let k := (c.arch.srcWord 0 b).toNat
    let core := c.key.core
    if s.recordsPending c u then s.parkObuf c
    else if !mmaOk r sparse t.toNat r.obs[ab.a] r.obs[ab.b] k then faultAt s iss .ill
    else if (s.beam core).fenced then faultAt s iss .mmaerr
    else if s.mustWait c u then s.parkObuf c
    else
      let o : MatrixOp := ⟨s.orderOf c, c.key, c.launch, c.group, c.index, sparse, t.toNat, ab.a, ab.b, k, 0, none, none, cv, [], iss.pc, nextPc iss⟩
      let o := { o with k0 := firstTerm c.arch.mprog o }
      let s := { s with arrivals := s.arrivals + 1 }
      match cv with
      | none =>
        .done ((s.setOps core ((s.beam core).ops ++ [o])).modCtx c.key fun c => { c with st := .parked (.matrix o.num) })
      | some n =>
        let v := r.cvg[n]
        if v.mset.isNone || !v.signed.getLsbD c.index || v.issued.contains c.index then faultAt s iss .ill
        else
          let s := s.modOwnRegion c fun r => { r with cvg := r.cvg.set n { v with issued := v.issued ++ [c.index], waiting := v.waiting ++ [o] } }
          .done ((s.modCtx c.key fun c => { c with st := .parked (.round n) }).runRound core c.launch c.group n)

/-- MMA, 64-bit form (R327). -/
def execMma64 (cv : Option (Fin 8)) (t : BitVec 8) (ab : ObsPair) (b : UniformOp) (s : State) : Host.Outcome State Fault Refusal :=
  s.mmaOp false cv t ab (.op (opOfU b))

/-- MMA, 96-bit form (R327). -/
def execMma96 (cv : Option (Fin 8)) (t : BitVec 8) (ab : ObsPair) (lit : Word) (s : State) : Host.Outcome State Fault Refusal :=
  s.mmaOp false cv t ab (.lit lit)

/-- MMAS, 64-bit form (R327). -/
def execMmas64 (cv : Option (Fin 8)) (t : BitVec 8) (ab : ObsPair) (b : UniformOp) (s : State) : Host.Outcome State Fault Refusal :=
  s.mmaOp true cv t ab (.op (opOfU b))

/-- MMAS, 96-bit form (R327). -/
def execMmas96 (cv : Option (Fin 8)) (t : BitVec 8) (ab : ObsPair) (lit : Word) (s : State) : Host.Outcome State Fault Refusal :=
  s.mmaOp true cv t ab (.lit lit)

/-! ## SIGN (R330) -/

/-- SIGN: 3 BADSET, 1 CONFLICT, 2 AGAIN, 0 signed. -/
def State.signOp (s : State) (d : Reg) (n : Fin 8) (b : Src) : Host.Outcome State Fault Refusal :=
  s.matrixOp ⟨b.regs, [d], []⟩ (regType d == .uniform) true ⟨[], none, false⟩ fun iss c r =>
    let m := c.arch.srcWord 0 b
    let v := r.cvg[n]
    let put (s : State) (x : Word) : State := s.modCtx c.key fun c => { c with arch := (c.arch.writeS d x).advance iss }
    if m = 0 ∨ !m.getLsbD c.index then .done (put s 3)
    else if v.mset.isSome && v.mset != some m then .done (put s 1)
    else if v.signed.getLsbD c.index then .done (put s 2)
    else
      let v := { v with mset := some m, signed := v.signed ||| (1#32 <<< c.index) }
      .done (((put s 0).modOwnRegion c fun r => { r with cvg := r.cvg.set n v }).runRound c.key.core c.launch c.group n)

/-- SIGN, 64-bit form (R330). -/
def execSign64 (d : Reg) (n : Fin 8) (b : Fin 64) (s : State) : Host.Outcome State Fault Refusal :=
  s.signOp d n (.op (.reg (.s b)))

/-- SIGN, 96-bit form (R330). -/
def execSign96 (d : Reg) (n : Fin 8) (lit : Word) (s : State) : Host.Outcome State Fault Refusal := s.signOp d n (.lit lit)

/-! ## The engine (R328, R333, R335) -/

/-- The k-group and N of an operation's records. -/
def State.opShape (s : State) (o : MatrixOp) : Nat × Nat :=
  match s.region? o.key.core o.launch o.w with
  | some r => (fmtGroup r.obs[o.a].fmt, if o.sparse then max (densN r.obs[o.b].dens) 16 else 64)
  | none => (1, 64)

/-- The cycles that an operation takes for the terms that it still has (R328). -/
def State.opCycles (s : State) (o : MatrixOp) : Nat :=
  let (k, n) := s.opShape o
  ((o.k - o.k0) / k * n + 63) / 64

/-- The terms that the engine has summed of an operation that it started (R328); a mismatch holds it at its copy (R335). -/
def State.termsDone (s : State) (o : MatrixOp) : Nat :=
  match o.check, o.started with
  | some (kdone, _), _ => kdone
  | none, none => o.k0
  | none, some t =>
    let (k, n) := s.opShape o
    min o.k (o.k0 + (s.engineClock - t) * 64 / n * k)

/-- The end of an operation: it leaves the engine, and those that waited for it try again. -/
def State.removeOp (s : State) (o : MatrixOp) : State :=
  (s.setOps o.key.core ((s.beam o.key.core).ops.filter fun x => x.num != o.num)).wakeObuf o.key.core

/-- The completion of an operation (R327, R331): its gang and the members of its round go on. -/
def State.completeOp (s : State) (o : MatrixOp) : State :=
  let s := ((s.sumOp o o.k).matrixDone o.key o.next).removeOp o
  let s := o.members.foldl (fun s m => s.matrixDone m.1 m.2) s
  match o.round with
  | none => s
  | some n =>
    (s.modRegion o.key.core o.launch o.w fun r => { r with cvg := r.cvg.set n { r.cvg[n] with done := true } }).runRound o.key.core o.launch o.w n

/-- The contexts of an operation: its gang, and the members of its round that complete with it. -/
def MatrixOp.keys (o : MatrixOp) : List CtxKey := o.key :: o.members.map (·.1)

/-- Recording the progress of an operation at KDONE in a gang (R333). -/
def State.recordProgress (s : State) (o : MatrixOp) (kdone : Nat) (k : CtxKey) : State :=
  s.modCtx k fun c => { c with st := .live, arch := { c.arch with mprog := o.progress kdone } }

/-- Stopping an operation (R333): the engine goes on to the next multiple of 64 in K; one that reaches K completes, one that
had not begun is only withdrawn, and any other records its progress. Its round stays open, and its members issue again. -/
def State.stopOp (s : State) (o : MatrixOp) : State :=
  let kdone := roundUp (s.termsDone o) 64
  if o.started.isSome && decide (o.k ≤ kdone) then s.completeOp o
  else
    let keys := o.keys
    let s := if o.started.isSome then keys.foldl (fun s k => s.recordProgress o kdone k) (s.sumOp o kdone)
      else keys.foldl (fun s k => s.modCtx k fun c => { c with st := .live }) s
    let s := s.removeOp o
    match o.round with
    | none => s
    | some n =>
      let idx := keys.filterMap fun k => (s.ctx? k).map (·.index)
      s.modRegion o.key.core o.launch o.w fun r =>
        { r with cvg := r.cvg.set n { r.cvg[n] with issued := r.cvg[n].issued.filter fun g => !idx.contains g, performed := none } }

/-- MMAERR taken by a gang whose operation a fenced column stops, unless an abort has stopped the gang in the meantime (R335,
R377). -/
def State.columnFault (s : State) (k : CtxKey) : State :=
  match s.ctx? k with
  | none => s
  | some c =>
    if c.st == .draining || s.aborting c.launch then s
    else
      let pc := (c.arch.lane ((lanesOf c.liveSet).headD 0)).pc
      (s.modCtx k fun c => { c with st := .live }).deliver k (Trap.one .mmaerr pc pc)

/-- A beam's matrix column is fenced (R335): no operation is in its engine any more, none is performed for a round, and the gang,
and the members of the round, of each take MMAERR (DEDUCED, log 44). -/
def State.fenceBeam (s : State) (core : CoreId) : State :=
  let ops := (s.beam core).ops
  let s := s.setBeam { s.beam core with ops := [], fenced := true }
  let s := ops.foldl (fun (s : State) o =>
    match o.round with
    | some n => s.modRegion core o.launch o.w fun r => { r with cvg := r.cvg.set n { r.cvg[n] with performed := none } }
    | none => s) s
  (ops.flatMap MatrixOp.keys).foldl State.columnFault (s.wakeObuf core)

/-- A failed column (R335): the operation that met the mismatch stops with its progress recorded, the record is raised, and the
column is fenced. -/
def State.fenceColumn (s : State) (o : MatrixOp) (kdone column tick : Nat) : State :=
  let s := o.keys.foldl (fun s k => s.recordProgress o kdone k) (s.sumOp o kdone)
  let rec_ := errorRecord (Code.byte .mmaerr) 2 o.key.core.toNat tick (s.tidFor (some o.key)) column
  { s with reports := s.reports ++ [Report.record rec_] }.fenceBeam o.key.core

/-- MATRIX_OPERATION_COMPLETE (R327, R328, R335): the operation at the head of a beam's queue completes once its cycles have
passed, those that a throttle withheld left out (R406); a residue mismatch in the terms summed so far holds it at its copy for the
self-test of the column. -/
def execMatrixOperationComplete (core : CoreId) (residue : Residue) (s : State) : Host.Outcome State Fault Refusal :=
  match (s.beam core).ops with
  | [] => .next s
  | o :: os =>
    match o.started with
    | none => .next s
    | some t =>
      if o.check.isSome then .next s
      else
        match residue with
        | .mismatch n col =>
          let kdone := max o.k0 (min (min n (s.termsDone o)) (o.k - 1) / 64 * 64)
          let test : SelfTest := ⟨.column core, some o.key, col, s.tick⟩
          .next { s.setBeam { s.beam core with ops := { o with check := some (kdone, col) } :: os } with tests := s.tests ++ [test] }
        | .good => if t + s.opCycles o ≤ s.engineClock then .next (s.completeOp o) else .next s

end Sys2Proof.Machine
end

