-- ==== Sys2Proof/Machine/Traps.lean ====
section
/-!
DEFINITION. The converged set (R123, R126), user interrupts (R379–R381), the instructions of family 0x38 but BKPT
(R382–R387, R410), trap slots (R378) and Gyhouc's services (R376, R387).
-/
namespace Sys2Proof.Machine

/-! ## The converged set (R123, R126) -/

/-- The lanes that may issue: live and not held, and in a gang's handler those of its trap set (R108, R375). -/
def Ctx.candidates (c : Ctx) : List Nat :=
  (lanesOf (c.liveSet &&& c.arch.liveMask)).filter fun i => !(c.arch.lane i).held

/-- The lanes of a list that stand at the lowest PC. -/
def Arch.lowestLanes (ar : Arch) (ls : List Nat) : List Nat :=
  ls.filter fun i => ls.all fun j => decide ((ar.lane i).pc.toNat ≤ (ar.lane j).pc.toNat)

/-- Whether a lane stands at its meeting address (R126). -/
def Lane.meets (l : Lane) : Bool := l.meet != 0 && l.pc == l.meet

/-- A mask of the lanes of a list. -/
def maskOfLanes (ls : List Nat) : BitVec 64 := ls.foldl (fun m i => m ||| (1#64 <<< i)) 0#64

/-- The converged set that is about to issue (R123); lanes that reach their meeting address are held instead, and a rod's or
reckoner's one lane only clears MEET (R126). -/
def Ctx.converge (c : Ctx) : Nat → Ctx × BitVec 64
  | 0 => (c, 0)
  | n + 1 =>
    let low := c.arch.lowestLanes c.candidates
    let hit := low.filter fun i => (c.arch.lane i).meets
    if hit.isEmpty then (c, maskOfLanes low)
    else if c.kind == .rod then ({ c with arch := c.arch.modLane 0 fun l => { l with meet := 0 } }, maskOfLanes low)
    else
      let held := c.arch.forLanes hit fun ar i => ar.modLane i fun l => { l with held := true }
      Ctx.converge { c with arch := held.releaseHeld } n

/-- The converged set of a context: each of at most 64 lanes is held once. -/
def Ctx.select (c : Ctx) : Ctx × BitVec 64 := c.converge 65

/-- The PC of a set's lanes. -/
def Ctx.pcOf (c : Ctx) (set : BitVec 64) : DWord := (c.arch.lane ((lanesOf set).headD 0)).pc

/-! ## User interrupts (R379–R381) -/

/-- The matrix operation of a context that waits for one alone (R333). -/
def State.soloOp (s : State) (c : Ctx) : Option MatrixOp :=
  match c.st with
  | .parked (.matrix n) => (s.beam c.key.core).ops.find? fun o => o.num == n && o.round.isNone
  | _ => none

/-- Whether a context that waits for pages stands in a VDOT, at a block boundary of every lane (R347, R352). -/
def Ctx.inVdot (c : Ctx) : Bool :=
  match c.arch.vdot with
  | some r => r.pc == c.select.1.pcOf c.select.2
  | none => false

/-- Whether a context stands between two issues or parked at a point where an interrupt may take it (R333, R352, R380, R381). -/
def State.atPoint (s : State) (c : Ctx) : Bool :=
  match c.st with
  | .live => s.ready c
  | .parked (.waitfree _ _ _ _) => true
  | .parked (.barrier _ _) => true
  | .parked .tags => true
  | .parked (.mwait _ _ _ _ _ _ _ _) => true
  | .parked (.grow _ _ _ _) => true
  | .parked (.matrix _) => (s.soloOp c).isSome
  | .parked (.pages _) => c.inVdot
  | _ => false

/-- Whether a gang was formed by a rendezvous entry. -/
def Ctx.isCalled (c : Ctx) : Bool :=
  match c.kind with
  | .called _ _ => true
  | _ => false

/-- Whether a user interrupt is to be taken (R380); none is while the launch is being stopped to be saved (R389). -/
def State.interruptDue (s : State) (c : Ctx) : Bool :=
  !s.halted c.launch && c.arch.en &&& c.arch.pend != 0 && !c.arch.uh && !c.arch.overlay && c.arch.uhnd != 0 && !c.isCalled && s.atPoint c

/-- The lowest bit of an interrupt mask. -/
def lowSource (m : BitVec 8) : Nat := ((List.range 8).find? fun i => m.getLsbD i).getD 0

/-- A context at an interruptible point goes back to its instruction, which re-executes (R333, R381), and keeps no place in its
beam's issue order. -/
def State.unpark (s : State) (c : Ctx) : State :=
  match s.soloOp c with
  | some o => s.stopOp o
  | none => (s.endTurn c.key).modCtx c.key fun c => { c with st := .live, woken := false, refused := [] }

/-- USER_INTERRUPT (R380, R381). -/
def execUserInterrupt (key : CtxKey) (s : State) : Host.Outcome State Fault Refusal :=
  match s.ctx? key with
  | none => .next s
  | some c =>
    if s.interruptDue c then
      let s := (s.unpark c).checkpoint key
      match s.ctx? key with
      | none => .next s
      | some c =>
        let x := c.select
        if c.st == .live && x.2 != 0 then
          .next (s.setCtx (x.1.interrupt (lowSource (x.1.arch.en &&& x.1.arch.pend)) x.2 (x.1.pcOf x.2)))
        else .next s
    else .next s

/-! ## TRAP, ERET, UIMASK, PULSE, CKPT (R382–R385, R410) -/

/-- A fault that an instruction raises in each lane of its converged set, with EPC at the next instruction; for a gang that
a rendezvous entry formed it is a gang fault at the instruction (R304, R382, R414). -/
def trapHere (s : State) (iss : Issue) (c : Ctx) (code : Code) (n : BitVec 8) : Eff :=
  .trap s ⟨(lanesOf iss.exec).map fun i => ⟨i, code, n.setWidth 64⟩, c.isCalled, if c.isCalled then iss.pc else nextPc iss⟩

/-- TRAP (R382). -/
def execTrap64 (n : BitVec 8) (s : State) : Host.Outcome State Fault Refusal :=
  s.withIssue fun iss c => trapHere s iss c .trapu n

/-- ERET (R383). -/
def execEret (s : State) : Host.Outcome State Fault Refusal :=
  s.withIssue fun iss c =>
    if !(c.arch.uh || c.arch.overlay) || (c.isCalled && !c.arch.overlay) then faultAt s iss .ill
    else if c.arch.uh && c.kind != .rod && iss.exec != c.arch.trapSet then faultAt s iss .upart
    else .done (s.setCtx c.resume)

/-- UIMASK (R384). -/
def execUimask (d : Reg) (a b : UniformOp) (s : State) : Host.Outcome State Fault Refusal :=
  s.withIssue fun iss c =>
    if c.isCalled then faultAt s iss .ill
    else
      s.simple iss c ⟨opRegs (opOfU a) ++ opRegs (opOfU b), [d], []⟩ (regType d == .uniform) true fun ar =>
        let x := (ar.opWord 0 (opOfU a)).setWidth 8
        let y := (ar.opWord 0 (opOfU b)).setWidth 8
        { ar.writeS d ar.interruptWord with en := (ar.en &&& ~~~x) ||| y }

/-- A watchdog timer restarts (R392). -/
def State.creditTimer (s : State) (launch : Word) (w : Nat) : State :=
  s.modLaunch launch fun l =>
    { l with timers := l.timers.map fun t => if t.group == some w then { t with since := s.tick, spent := 0 } else t }

/-- The workgroups that a PULSE credits (R385). -/
def State.pulseGroups (s : State) (iss : Issue) (c : Ctx) : List Nat :=
  if c.isCalled then
    (lanesOf iss.exec).filterMap fun i => ((c.arch.lane i).caller.bind s.byUid).map (·.group)
  else [c.group]

/-- PULSE (R385): a launch without PERSIST has no timer of a workgroup. -/
def execPulse (s : State) : Host.Outcome State Fault Refusal :=
  s.withIssueQuiet fun iss c =>
    let s := (s.pulseGroups iss c).foldl (fun s w => s.creditTimer c.launch w) s
    .done (s.modCtx c.key fun c => { c with arch := c.arch.advance iss })

/-- CKPT (R410): the release at device scope takes the checkpoint of a lock-step context. -/
def execCkpt64 (s : State) : Host.Outcome State Fault Refusal :=
  s.withIssueQuiet fun iss c =>
    .done ((s.release c.key .dev).modCtx c.key fun c => { c with arch := c.arch.advance iss })

/-! ## SVC (R386) -/

/-- SVC (R386): the request parks until its reply arrives. -/
def State.svcOp (s : State) (d : Quad) (a : SPair) (b : Src) (n : BitVec 8) : Host.Outcome State Fault Refusal :=
  s.withIssue fun iss c =>
    s.guarded iss c ⟨b.regs, [], [(regOfQuad d, 4), pairName (pairOfS a)]⟩ (regType (regOfQuad d) == .uniform) true <|
      let s := s.release c.key .dev
      let s := s.modCtx c.key fun c =>
        { c with st := .parked (.svc d (c.arch.spair a) (c.arch.srcWord 0 b) n (nextPc iss) false) }
      .done (s.requestSlot c.key .svc)

/-- SVC, 64-bit form. -/
def execSvc64 (d : Quad) (a : SPair) (b : UniformOp) (n : BitVec 8) (s : State) : Host.Outcome State Fault Refusal :=
  s.svcOp d a (.op (opOfU b)) n

/-- SVC, 96-bit form. -/
def execSvc96 (d : Quad) (a : SPair) (n : BitVec 8) (lit : Word) (s : State) : Host.Outcome State Fault Refusal :=
  s.svcOp d a (.lit lit) n

/-! ## Trap slots and SYSTEM services (R376, R378) -/

/-- TRAP_SLOT_GRANT (R378): the oldest request takes a free slot. -/
def execTrapSlotGrant (board : Nat) (s : State) : Host.Outcome State Fault Refusal :=
  let r := s.reckoner board
  match r.queue with
  | [] => .next s
  | (k, u) :: q =>
    if r.slots.length < Config.trapSlots then
      .next ((s.setReckoner { r with slots := r.slots ++ [(k, u)], queue := q }).granted k u)
    else .next s

/-- The fault code that ECODE holds. -/
def Arch.faultCode (ar : Arch) : Code :=
  ([.ill, .type, .upart, .aovf, .abnd, .nfmt, .ovl, .bkpt, .trapu, .notmapped, .perm, .null, .align, .winperm, .memue, .hatom,
    .hlink, .flink, .footprint, .cmismatch, .wdog, .hostkill, .lsmm, .mmaerr].find? fun (x : Code) => ecodeFault x == ar.ecode).getD .ill

/-- A SYSTEM service that resumes: the trap set goes to EPC, and a thread goes back to its home slot (R75, R376) (DEDUCED, log 18). -/
def State.serviceResume (s : State) (c : Ctx) : State :=
  let s := (s.freeSlot c.key).modCtx c.key Ctx.resumeSystem
  if c.kind == .rod && c.away then s.comeHome c.key else s

/-- A SYSTEM service that retires the trap set as EXIT does (R376, R87); a page that a group cell misses is waited for. -/
def State.serviceRetire (s : State) (c : Ctx) : State :=
  match (s.release c.key .dev).exitLeaves c.key c.arch.sysSet 64 with
  | (s, some w) => s.askPage w
  | (s, none) =>
    let s := (s.freeSlot c.key).modCtx c.key fun c => { c with st := .live, refused := [], arch := { c.arch with sysSet := 0 } }
    s.endLanes c.key c.arch.sysSet

/-- SYSTEM_SERVICE_COMPLETE (R376): Gyhouc resumes, retires or aborts. -/
def execSystemServiceComplete (key : CtxKey) (choice : ServiceChoice) (s : State) : Host.Outcome State Fault Refusal :=
  match s.ctx? key with
  | none => .next s
  | some c =>
    if c.st == .parked .system then
      match choice with
      | .resume => .next (s.serviceResume c)
      | .retire => .next (s.serviceRetire c)
      | .abort => .next (s.abortLaunch c.launch c.arch.faultCode)
    else .next s

/-! ## Gyhouc's services (R387) -/

/-- The service request of a context that holds a trap slot for it: the destination, the argument pair, B and n. -/
def Ctx.served (c : Ctx) : Option (Quad × DWord × Word × BitVec 8 × DWord) :=
  match c.st with
  | .parked (.svc d a b n next true) => some (d, a, b, n, next)
  | _ => none

/-- Writing the reply quad of a service (R386). -/
def Arch.putReply (ar : Arch) (d : Quad) (value : DWord) (status : Word) : Arch :=
  let r := regOfQuad d
  (((ar.putReg 0 r 0 (value.extractLsb' 0 32)).putReg 0 r 1 (value.extractLsb' 32 32)).putReg 0 r 2 status).putReg 0 r 3 0

/-- The reply to a service: the quad, the acquire, and in lock-step the checkpoint after it (R386, R397). -/
def State.svcReply (s : State) (k : CtxKey) (value : DWord) (status : Word) : State :=
  let s := (s.freeSlot k).modCtx k fun c =>
    match c.served with
    | some (d, _, _, _, next) => { c with st := .live, arch := (c.arch.putReply d value status).goto c.liveSet next }
    | none => c
  (s.acquireMem k .dev).checkpoint k

/-- Serving a request of number n. -/
def State.serve (s : State) (key : CtxKey) (ok : BitVec 8 → Bool) (f : Ctx → DWord → Word → State) :
    Host.Outcome State Fault Refusal :=
  match s.ctx? key with
  | none => .next s
  | some c =>
    match c.served with
    | some (_, a, b, n, _) => if ok n then .next (f c a b) else .next s
    | none => .next s

/-- The bytes that a launch's heap holds. -/
def Launch.heapUsed (l : Launch) : Nat := (l.allocs.map fun x => x.2.1).foldl (· + ·) 0

/-- Whether two ranges meet. -/
def rangesMeet (a n b m : Nat) : Bool := decide (a < b + m) && decide (b < a + n)

/-- Whether Gyhouc may place a block of a launch at an address and a device offset (R387): aligned, in the host-shared space,
clear of what the PASID maps, in device memory clear of the code heap and of every other block. -/
def State.placementOk (s : State) (pasid : BitVec 20) (size align va dev : Nat) : Bool :=
  decide (0x10000 ≤ va) && va % align == 0 && decide (va + size ≤ 2 ^ 56)
  && decide (dev + size ≤ Config.devBytes) && dev % 4096 == va % 4096 && !(rangesMeet dev size s.codeHeap.2.1 s.codeHeap.2.2)
  && s.launches.all (fun l => l.allocs.all fun x =>
      !(l.pasid == pasid && rangesMeet va size x.1 x.2.1) && !(rangesMeet dev size x.2.2 x.2.1))
  && s.tlb.all (fun e => !(e.pasid == pasid && rangesMeet va size (e.page * 2 ^ e.log2) (2 ^ e.log2)))

/-- Zeroing a range of device memory. -/
def State.zeroDev (s : State) (off n : Nat) : State := { s with dev := s.dev.filterAddr fun a => !(inRange a off n) }

/-- Serving ALLOC with Gyhouc's choice of address and device offset, none where the heap cannot serve the request; a choice that
R387 does not allow leaves the request unserved. -/
def State.serveAlloc (s : State) (key : CtxKey) (choice : Option (Nat × Nat)) (c : Ctx) (a : DWord) (b : Word) : State :=
  let size := a.toNat
  match s.launch? c.launch with
  | none => s
  | some l =>
    if decide (size = 0) || decide (2 ^ 40 < size) || decide (b.toNat < 3) || decide (21 < b.toNat) then s.svcReply key 0 2
    else if s.policy.heapLimit < l.heapUsed + size then s.svcReply key 0 1
    else match choice with
      | none => s.svcReply key 0 1
      | some (place, base) =>
        if s.placementOk l.pasid size (2 ^ b.toNat) place base then
          let s := (s.zeroDev base size).modLaunch c.launch fun l => { l with allocs := l.allocs ++ [(place, size, base)] }
          s.svcReply key (BitVec.ofNat 64 place) 0
        else s

/-- ALLOC (R387): `place` and `base` are Gyhouc's choice of address and device offset; `place` 0 says that the heap cannot
serve the request. -/
def execAlloc (key : CtxKey) (place base : Nat) (s : State) : Host.Outcome State Fault Refusal :=
  s.serve key (· == 1) (s.serveAlloc key (if place == 0 then none else some (place, base)))

/-- Serving FREE. -/
def State.serveFree (s : State) (key : CtxKey) (c : Ctx) (a : DWord) (b : Word) : State :=
  let live := ((s.launch? c.launch).map fun l => l.allocs.any fun x => x.1 == a.toNat).getD false
  if b != 0 || !live then s.svcReply key 0 2
  else
    let s := s.modLaunch c.launch fun l => { l with allocs := l.allocs.filter fun x => x.1 != a.toNat }
    s.svcReply key 0 0

/-- FREE (R387). -/
def execFree (key : CtxKey) (s : State) : Host.Outcome State Fault Refusal := s.serve key (· == 2) (s.serveFree key)

/-- Whether a context can be posted to as the holder of a TID (R387): live, of a rod or a launched gang, and not parked in
GCALL. -/
def Ctx.holdsTid (c : Ctx) (launch : Word) (tid : DWord) : Bool :=
  c.launch == launch && !c.isCalled && c.st != .draining
  && (match c.st with
      | .parked (.gcall _ _ _) => false
      | .parked (.gcallFree _ _ _ _ _ _ _) => false
      | _ => true)
  && c.arch.lanes.any fun l => l.live && l.tid == tid

/-- Serving POST. -/
def State.servePost (s : State) (key : CtxKey) (c : Ctx) (a : DWord) (b : Word) : State :=
  if b != 0 then s.svcReply key 0 2
  else
    match s.ctxs.find? fun x => x.holdsTid c.launch a with
    | none => s.svcReply key 0 3
    | some t => (s.modCtx t.key fun x => { x with arch := { x.arch with pend := x.arch.pend ||| 2 } }).svcReply key 0 0

/-- POST (R387). -/
def execPost (key : CtxKey) (s : State) : Host.Outcome State Fault Refusal := s.serve key (· == 3) (s.servePost key)

/-- NOSVC (R387). -/
def execNosvc (key : CtxKey) (s : State) : Host.Outcome State Fault Refusal :=
  s.serve key (fun n => !([1, 2, 3].contains n)) fun _ _ _ => s.svcReply key 0 0xFF

/-- The service that Gyhouc completes for a thread which is being saved in SVC and holds its trap slot (R389): the reply goes into
the registers. Where ALLOC places its block is Gyhouc's choice; one that R387 does not allow says that the heap cannot serve it. -/
def State.completeService (s : State) (key : CtxKey) : State :=
  match s.ctx? key with
  | none => s
  | some c =>
    match c.served with
    | none => s
    | some (_, a, b, n, _) =>
      if n == 1 then
        let choice := Config.heapChoice s.freeCtr
        let ok := s.placementOk (s.pasidOf c.launch) a.toNat (2 ^ b.toNat) choice.1 choice.2
        { s with freeCtr := s.freeCtr + 1 }.serveAlloc key (if ok then some choice else none) c a b
      else if n == 2 then s.serveFree key c a b
      else if n == 3 then s.servePost key c a b
      else s.svcReply key 0 0xFF

end Sys2Proof.Machine
end

