-- ==== Sys2Proof/Machine/Launches.lean ====
section
/-!
DEFINITION. The events of launching (R47–R63, R72, R73): launch queues, reading ring entries, the checks of a packet,
dispatch, and the ends of a launch (R61, R377).
-/
namespace Sys2Proof.Machine

/-! ## Launch queues (R48–R50) -/

/-- Changing a queue of a port. -/
def State.modQueue (s : State) (port : Fin 2) (q : Fin 16) (f : Queue → Queue) : State :=
  let p := s.ports[port]
  { s with ports := s.ports.set port { p with queues := p.queues.set q (f p.queues[q]) } }

/-- A host write to a register of a queue: only the running device answers it (R407) (DEDUCED, log 37). -/
def State.queueWrite (s : State) (port : Fin 2) (q : Fin 16) (f : Queue → Queue) : Host.Outcome State Fault Refusal :=
  .next (if s.boot = .running then s.modQueue port q f else s)

/-- LQBASE_WRITE (R48–R50): ignored while EN = 1; LQHEAD becomes 0. -/
def execLqbaseWrite (port : Fin 2) (q : Fin 16) (v : DWord) (s : State) : Host.Outcome State Fault Refusal :=
  s.queueWrite port q fun x => if x.en then x else { x with base := v, head := 0 }

/-- LOG2N of a queue while EN = 0: a new value sets LQHEAD to 0 (R50). -/
def Queue.resize (x : Queue) (log2n : BitVec 5) : Queue := if x.log2n = log2n then x else { x with log2n := log2n, head := 0 }

/-- LQCTL_ENABLE (R48): an illegal LOG2N or LQBASE sets BADCFG and leaves EN at 0. -/
def execLqctlEnable (port : Fin 2) (q : Fin 16) (log2n : BitVec 5) (s : State) : Host.Outcome State Fault Refusal :=
  s.queueWrite port q fun x =>
    if x.en then x
    else
      let x := x.resize log2n
      if inRange log2n.toNat 4 13 && x.base.toNat % 256 == 0 then { x with en := true } else { x with stat := x.stat ||| 1 }

/-- LQCTL_DISABLE (R50): the write clears EN, and its LOG2N field is not taken, as R50 ignores it while EN = 1 (DESIGN CHOICE,
log 60). -/
def execLqctlDisable (port : Fin 2) (q : Fin 16) (s : State) : Host.Outcome State Fault Refusal :=
  s.queueWrite port q fun x => { x with en := false }

/-- LQCTL_RESIZE (R50): a new LOG2N while EN = 0. -/
def execLqctlResize (port : Fin 2) (q : Fin 16) (log2n : BitVec 5) (s : State) : Host.Outcome State Fault Refusal :=
  s.queueWrite port q fun x => if x.en then x else x.resize log2n

/-- LQTAIL_WRITE (R50): a value out of range is ignored and sets BADTAIL. -/
def execLqtailWrite (port : Fin 2) (q : Fin 16) (v : DWord) (s : State) : Host.Outcome State Fault Refusal :=
  s.queueWrite port q fun x =>
    if v.toNat < 2 ^ x.log2n.toNat then { x with tail := v.toNat } else { x with stat := x.stat ||| 2 }

/-- LQSTAT_CLEAR (R48): a 1 clears its bit. -/
def execLqstatClear (port : Fin 2) (q : Fin 16) (v : DWord) (s : State) : Host.Outcome State Fault Refusal :=
  s.queueWrite port q fun x => { x with stat := x.stat &&& ~~~(v.setWidth 3) }

/-- RING_ENTRY_READ (R47, R49, R50, R57): the packet at LQHEAD enters the pending-launch store, or the read fails. A tail
that a smaller LOG2N has left behind is compared as it stands (DESIGN CHOICE, log 70). -/
def execRingEntryRead (port : Fin 2) (q : Fin 16) (failed : Bool) (s : State) : Host.Outcome State Fault Refusal :=
  let x := s.ports[port].queues[q]
  if x.en && x.head != x.tail && decide (s.pending.length < Config.pendingMax) then
    if failed || s.ports[port].mode == .down then
      let s := s.modQueue port q fun x => { x with en := false, stat := x.stat ||| 4 }
      .next { s with reports := s.reports ++ [.ringError port q] }
    else
      let pkt := BitVec.ofNat 1536 (s.host.read (x.base.toNat + 256 * x.head) 192)
      let s := s.modQueue port q fun x => { x with head := (x.head + 1) % 2 ^ x.log2n.toNat }
      .next (s.enterPending 0 pkt (.host port q) (pktPasid pkt))
  else .next s

/-! ## The checks of a packet (R55, R72, R73) -/

/-- What a launch asks of one core: workgroups, and whether a leaf region is reserved there. -/
structure Demand where
  core   : CoreId
  groups : Nat
  leaf   : Bool
  deriving DecidableEq, Repr

/-- The partition word that a packet gives for a core. -/
def pktPw (pkt : BitVec 1536) (core : CoreId) : Word := if isBeam core then pktBeampw pkt else pktRodpw pkt

/-- The beams on which a launch reserves leaf regions (R73). -/
def leafBeams (o : CodeObject) (pkt : BitVec 1536) (map : List CoreId) : List CoreId :=
  if o.leaves.isEmpty || pwReg (pktBeampw pkt) == 0 then []
  else ((map.filter isRod).map fun c => frameCore (frameNo c) 8).eraseDups

/-- The demands of a launch, core by core. -/
def demandsOf (o : CodeObject) (pkt : BitVec 1536) (map : List CoreId) : List Demand :=
  let leafs := leafBeams o pkt map
  ((map ++ leafs).eraseDups).map fun c => ⟨c, (map.filter fun x => x == c).length, leafs.contains c⟩

/-- The workgroups' worth of pool bytes of a demand; a leaf region counts as a workgroup (R73). -/
def Demand.shares (d : Demand) : Nat := d.groups + if d.leaf then 1 else 0

/-- The pool bytes of a demand (R67, R72). -/
def Demand.bytes (d : Demand) (pkt : BitVec 1536) : Nat :=
  windowBytes (pktPw pkt d.core) + d.shares * regionBytes d.core (pktPw pkt d.core)

/-- What a workgroup's registers and checkpoints take in the odd rod's pool of a lock-step pair (R394). -/
def shadowBytes (o : CodeObject) (core : CoreId) (pw : Word) : Nat := regBytes core pw + 2 * rodBlock o * regionSlots o core pw

/-- The odd rod of a lock-step pair. -/
def oddRod (core : CoreId) : CoreId := core ||| 1

/-- Whether a demand is unfit (R72, R73, R394). -/
def State.unfit (s : State) (o : CodeObject) (pkt : BitVec 1536) (d : Demand) : Bool :=
  let pw := pktPw pkt d.core
  let per := slotsOf o d.core (pktWgsize pkt)
  windowBytes pw == 0
  || (decide (0 < d.groups) && decide (regionSlots o d.core pw < per))
  || (d.leaf && (regionSlots o d.core pw == 0 || !s.enabled d.core))
  || decide (poolBytes d.core < d.bytes pkt)
  || decide (32 < d.groups * per + if d.leaf then 1 else 0)
  || (isRod d.core && decide (32 < pktWgsize pkt))
  || (decide (0 < d.groups) && o.overlays.any fun n => decide (windowBytes pw < n))
  || (pktLockstep pkt && isRod d.core && coreSlot d.core % 2 == 0 && s.enabled (oddRod d.core)
      && decide (Config.rodPool < windowBytes pw + d.groups * shadowBytes o d.core pw))

/-- What the checks of a packet come to: a rejection code, pages to wait for, or the placement map. -/
inductive PacketCheck where
  | reject (code : BitVec 8)
  | wait (w : PageWait)
  | ok (map : List CoreId)
  deriving DecidableEq, Repr

/-- Reading n entries of a placement map (R53): a fault or a nonzero reserved bit is BADMAP. -/
def State.readMap (s : State) (a : Accessor) (va : DWord) : Nat → PacketCheck
  | 0 => .ok []
  | n + 1 =>
    match s.resolveRead a va 2 2 .load with
    | .fault _ => .reject 4
    | .miss w => .wait w
    | .ok p =>
      let e := leNat (s.homeBytes p 2)
      if 2 ^ 14 ≤ e then .reject 4
      else
        match State.readMap s a (va + 2) n with
        | .ok es => .ok (BitVec.ofNat 14 e :: es)
        | r => r

/-- The errors that reading n entries of a placement map met and corrected are counted (R226). -/
def State.noteMap (s : State) (a : Accessor) (va : DWord) : Nat → State
  | 0 => s
  | n + 1 =>
    State.noteMap (match s.resolve a va 2 2 .load with
      | .ok p => s.noteRead p 2
      | _ => s) a (va + 2) n

/-- Whether an address lies in the host-shared aperture (R210) (DEDUCED, log 40). -/
def hostShared (va : DWord) : Bool := decide (va.toNat < 2 ^ 56)

/-- Whether a reserved field of a packet is nonzero (R51, R52, R68). -/
def pktReserved (p : BitVec 1536) : Bool :=
  (pktCtl p &&& 0xF800FEC0) != 0 || pktField p 0x3C 4 / 2 ^ 20 != 0 || pktField p 0x1B 1 != 0 || pktField p 0x50 48 != 0

/-- BADPKT (R55). -/
def State.badPacket (s : State) (p : BitVec 1536) : Bool :=
  let shared := hostShared (pktMap p) || hostShared (pktStamp p) || hostShared (pktArgs p)
  let attached (i : Fin 2) : Bool := s.ports[i].hcap.getLsbD 1 && s.ports[i].hcap.getLsbD 2
  pktReserved p || !(inRange (pktNwg p) 1 (2 ^ 20 - 2)) || !(inRange (pktWgsize p) 1 1024)
  || (pktMap p).toNat % 2 != 0 || (pktStamp p).toNat % 16 != 0 || (shared && !(attached 0 && attached 1))

/-- LSCONF (R55, R394). -/
def State.lockstepConflict (s : State) (pkt : BitVec 1536) (map : List CoreId) : Bool :=
  pktLockstep pkt && map.any fun c => isRod c && (coreSlot c % 2 == 1 || !s.enabled (oddRod c))

/-- BADDISP (R55): some fault code's two bits are 0b11. -/
def badDisp (pkt : BitVec 1536) : Bool := (List.range 256).any fun c => pktField pkt (0x80 + c / 4) 1 / 2 ^ (2 * (c % 4)) % 4 == 3

/-- BADPRIO (R55). -/
def badPrio (pkt : BitVec 1536) : Source → Bool
  | .device _ _ prio => decide (prio < pktPrio pkt)
  | .host _ _ => false

/-- The service core that reads a pending launch's map (R46, R55). -/
def Pending.accessor (p : Pending) : Accessor := serviceAccessor p.source.die p.number p.pasid p.refused

/-- The checks of R55, in order. -/
def State.checkPacket (s : State) (p : Pending) : PacketCheck :=
  if s.badPacket p.pkt then .reject 1
  else
    match s.objects.find? fun o => o.addr == pktObj p.pkt with
    | none => .reject 2
    | some o =>
      if o.kernels.length ≤ pktKidx p.pkt then .reject 3
      else
        match s.readMap p.accessor (pktMap p.pkt) (pktNwg p.pkt) with
        | .ok map =>
          if map.any fun c => !(isRod c || isBeam c) || !s.enabled c then .reject 5
          else if (demandsOf o p.pkt map).any fun d => s.unfit o p.pkt d then .reject 6
          else if s.lockstepConflict p.pkt map then .reject 7
          else if badDisp p.pkt then .reject 8
          else if badPrio p.pkt p.source then .reject 9
          else .ok map
        | r => r

/-- Changing an entry of the pending-launch store. -/
def State.modPending (s : State) (order : Nat) (f : Pending → Pending) : State :=
  { s with pending := s.pending.map fun p => if p.order == order then f p else p }

/-- Freeing the entry of a rejected launch once its stamp is no longer kept (R56). -/
def State.dropRejected (s : State) (order : Nat) : State :=
  if s.stamps.any fun t => t.order == order then s else { s with pending := s.pending.filter fun p => p.order != order }

/-- A packet that passed its checks is accepted (R59, R62): a host launch gets its number, and PENDING is written
(DEDUCED, log 24). -/
def State.acceptPacket (s : State) (p : Pending) (map : List CoreId) : State :=
  let n := if p.source.isDevice then p.number else s.nextNum
  let s := if p.source.isDevice then s else { s with nextNum := nextNumber n }
  let s := s.modPending p.order fun p => { p with number := n, checked := true, map := map, waits := [], refused := [] }
  (s.modStamp p.order fun t => { t with launch := n }).pushStamp p.order 1 0 n

/-- LAUNCH_CHECK (R55, R56, R59, R62). -/
def execLaunchCheck (order : Nat) (s : State) : Host.Outcome State Fault Refusal :=
  match s.pending.find? fun p => p.order == order with
  | none => .next s
  | some p =>
    if p.dead then .next (s.dropRejected order)
    else if p.checked then .next s
    else
      match s.checkPacket p with
      | .wait w => .next ((s.askPage w).modPending order fun p => { p with waits := [w] })
      | .reject code =>
        let s := s.modPending order fun p => { p with dead := true, waits := [] }
        .next ((s.pushStamp order 4 code 0).dropRejected order)
      | .ok map => .next ((s.noteMap p.accessor (pktMap p.pkt) (pktNwg p.pkt)).acceptPacket p map)

/-! ## Dispatch (R54, R58, R67, R73) -/

/-- The bytes of an odd rod's pool that lock-step launches hold there (R394). -/
def State.shadowUsed (s : State) (even : CoreId) : Nat :=
  let lock (n : Word) : Bool := pktLockstep (s.pktOf n)
  ((s.windows.filter fun w => w.core == even && lock w.launch).map (·.xb)).foldl (· + ·) 0
  + ((s.regions.filter fun r => r.core == even && lock r.launch).map fun r => shadowBytes (s.objectOf r.launch) even r.pw).foldl (· + ·) 0

/-- The lock-step conditions of a placement on a rod (R58, R394). -/
def State.pairFree (s : State) (core : CoreId) (lock : Bool) (shadow : Nat) : Bool :=
  if lock then
    (s.ctxs.all fun c => c.key.core != oddRod core) && decide (s.poolUsed (oddRod core) + s.shadowUsed core + shadow ≤ Config.rodPool)
  else (s.pairHolder core).isNone

/-- Whether a demand of a launch can be placed now (R58). -/
def State.fits (s : State) (o : CodeObject) (pkt : BitVec 1536) (d : Demand) : Bool :=
  let pw := pktPw pkt d.core
  s.enabled d.core
  && decide (s.poolUsed d.core + d.bytes pkt ≤ poolBytes d.core)
  && decide (d.groups * slotsOf o d.core (pktWgsize pkt) ≤ (s.slotsFree d.core).length)
  && (!(isRod d.core) || s.pairFree d.core (pktLockstep pkt) (windowBytes pw + d.groups * shadowBytes o d.core pw))

/-- Whether the PENDING write of a waiting launch was made, or given up (R58, R63). -/
def State.pendingWritten (s : State) (order : Nat) : Bool := s.stamps.all fun t => t.order != order || decide (1 ≤ t.top)

/-- The launches that wait for dispatch or restore, as arrival order and priority (R58, R391). -/
def State.waiting (s : State) : List (Nat × Nat) :=
  ((s.pending.filter fun p => p.checked && s.pendingWritten p.order).map fun p => (p.order, pktPrio p.pkt))
  ++ ((s.launches.filter fun l => l.st == .saved).map fun l => (l.order, pktPrio l.pkt))

/-- Whether a launch is held back by an earlier launch of equal or higher priority (R58). -/
def State.heldBack (s : State) (order prio : Nat) : Bool := s.waiting.any fun x => decide (x.1 < order) && decide (prio ≤ x.2)

/-- A window of a launch on a core, empty until its fill completes; its fill is requested at TBASE (R104, R105). -/
def State.openWindow (s : State) (launch : Word) (core : CoreId) (pw : Word) (tbase : DWord) : State :=
  let w : Window := ⟨launch, core, tbase, windowBytes pw, [], false⟩
  State.requestFill { s with windows := s.windows ++ [w] } launch core tbase

/-- A region as it is at placement. -/
def freshRegion (core : CoreId) (launch : Word) (w : Nat) (pw : Word) : Region where
  core := core
  launch := launch
  w := w
  pw := pw
  scratch := []
  perm := 0
  acc := []
  obs := Vector.replicate 16 ObsRecord.none
  obuf := []
  cvg := Vector.replicate 8 CvgReg.idle
  draining := 0

/-- The kernel entry of a launch. -/
def kernelEntry (o : CodeObject) (pkt : BitVec 1536) : DWord := BitVec.ofNat 64 (o.text + o.kernels.getD (pktKidx pkt) 0)

/-- A lane at the start of its kernel, with its index in v0 (R54). -/
def kernelLane (o : CodeObject) (pkt : BitVec 1536) (launch : Word) (w i : Nat) : Lane :=
  if pktWgsize pkt ≤ i then Lane.dead
  else
    let l := freshLane (kernelEntry o pkt) (tidOf launch (w * pktWgsize pkt + i)) true
    if o.vcnt = 0 then l else { l with v := l.v.set 0 (BitVec.ofNat 32 i) }

/-- The state of a thread or gang at the start of its kernel. -/
def State.kernelArch (s : State) (o : CodeObject) (pkt : BitVec 1536) (launch : Word) (w : Nat) (lanes : List Lane) : Arch :=
  startArch lanes o (pktArgs pkt) w (pktUhnd pkt) (pktOvh pkt) (s.launchTop launch)

/-- Creating a thread or gang of a workgroup, which starts with an acquire at device scope (R64). -/
def State.startCtx (s : State) (key : CtxKey) (launch : Word) (kind : CtxKind) (w index : Nat) (pair : Option (Fin 32)) (ar : Arch) : State :=
  (s.addCtx key launch kind w index pair ar).acquireMem key .dev

/-- The n rod threads of a workgroup from thread i on. -/
def State.startThreads (s : State) (o : CodeObject) (pkt : BitVec 1536) (launch : Word) (core : CoreId) (w i : Nat) : Nat → State
  | 0 => s
  | n + 1 =>
    match s.rodNumber core with
    | none => s
    | some c =>
      let ar := s.kernelArch o pkt launch w [kernelLane o pkt launch w i]
      State.startThreads (s.startCtx ⟨core, c⟩ launch .rod w 0 none ar) o pkt launch core w (i + 1) n

/-- The n gangs, or paired gangs, of a workgroup from thread i on, in the free gang slots. -/
def State.startGangs (s : State) (o : CodeObject) (pkt : BitVec 1536) (launch : Word) (core : CoreId) (w i : Nat) : Nat → State
  | 0 => s
  | n + 1 =>
    let wide := o.width == 2
    let count := if wide then 64 else 32
    let ar := s.kernelArch o pkt launch w ((List.range count).map fun j => kernelLane o pkt launch w (i + j))
    match s.slotsFree core with
    | a :: b :: _ =>
      State.startGangs (s.startCtx ⟨core, a⟩ launch .gang w (i / 32) (if wide then some b else none) ar) o pkt launch core w (i + count) n
    | [a] => if wide then s else State.startGangs (s.startCtx ⟨core, a⟩ launch .gang w (i / 32) none ar) o pkt launch core w (i + count) n
    | [] => s

/-- Placing workgroup w on a core: its region, then its threads or gangs (R53, R67). -/
def State.placeGroup (s : State) (o : CodeObject) (pkt : BitVec 1536) (launch : Word) (core : CoreId) (w : Nat) : State :=
  let s := { s with regions := s.regions ++ [freshRegion core launch w (pktPw pkt core)] }
  if isBeam core then s.startGangs o pkt launch core w 0 (gangsOf o (pktWgsize pkt))
  else s.startThreads o pkt launch core w 0 (pktWgsize pkt)

/-- Placing every workgroup of a map, from w on. -/
def State.placeGroups (s : State) (o : CodeObject) (pkt : BitVec 1536) (launch : Word) (w : Nat) : List CoreId → State
  | [] => s
  | c :: cs => State.placeGroups (s.placeGroup o pkt launch c w) o pkt launch (w + 1) cs

/-- The watchdog timers of a launch at dispatch (R392). -/
def startTimers (pkt : BitVec 1536) (tick : Nat) : List Timer :=
  if pktPersist pkt then (List.range (pktNwg pkt)).map fun w => ⟨some w, tick, 0⟩ else [⟨none, tick, 0⟩]

/-- A launch as it is at dispatch. -/
def Pending.launched (p : Pending) (tick : Nat) : Launch where
  number := p.number
  order := p.order
  pkt := p.pkt
  obj := pktObj p.pkt
  pasid := p.pasid
  source := p.source
  map := p.map
  st := .running
  halt := none
  spawned := 0
  allocs := []
  timers := startTimers p.pkt tick
  debugger := false
  cmps := Vector.replicate 8 ⟨0, 0, 0, 0⟩
  logRing := none
  saved := []
  savedRegs := []
  savedWins := []

/-- The windows and the leaf region of a core at dispatch. -/
def State.openDemand (s : State) (o : CodeObject) (pkt : BitVec 1536) (launch : Word) (d : Demand) : State :=
  let s := s.openWindow launch d.core (pktPw pkt d.core) (BitVec.ofNat 64 o.text)
  if d.leaf then { s with regions := s.regions ++ [freshRegion d.core launch 0xFFFFF (pktPw pkt d.core)] } else s

/-- Dispatching a launch: all its workgroups are placed together, its entry is freed and RUNNING is written (R58, R62). -/
def State.dispatchLaunch (s : State) (p : Pending) (o : CodeObject) : State :=
  let s := { s with pending := s.pending.filter fun x => x.order != p.order, launches := s.launches ++ [p.launched s.tick] }
  let s := (demandsOf o p.pkt p.map).foldl (fun s d => s.openDemand o p.pkt p.number d) s
  (s.placeGroups o p.pkt p.number 0 p.map).pushStamp p.order 2 0 p.number

/-- Whether a pending launch can dispatch now (R58). -/
def State.canDispatch (s : State) (p : Pending) : Bool :=
  p.checked && !p.dead && !(s.heldBack p.order (pktPrio p.pkt))
  && match s.objects.find? fun o => o.addr == pktObj p.pkt with
    | none => false
    | some o => (demandsOf o p.pkt p.map).all fun d => s.fits o p.pkt d

/-! ## The ends of a launch (R61, R377, R387) -/

/-- Whether a dispatched launch has nothing left that runs: no context and no job. -/
def State.launchQuiet (s : State) (n : Word) : Bool := (s.ctxs.all fun c => c.launch != n) && s.jobs.all fun j => j.launch != n

/-- A launch that reaches a final state: its regions, windows and allocations go, and the final stamp is written. -/
def State.finishLaunch (s : State) (l : Launch) (state : Nat) (code : BitVec 8) : State :=
  let n := l.number
  let s : State := { s with
    launches := s.launches.filter fun x => x.number != n,
    regions := s.regions.filter fun r => r.launch != n,
    windows := s.windows.filter fun w => w.launch != n,
    fills := (s.fills.map fun f => { f with joined := f.joined.filter fun j => j.1 != n }).filter fun f => !f.joined.isEmpty }
  s.pushStamp l.order state code n

/-- LAUNCH_DONE (R61). -/
def execLaunchDone (n : Word) (s : State) : Host.Outcome State Fault Refusal :=
  match s.launch? n with
  | none => .next s
  | some l => if l.st == .running && s.launchQuiet n then .next (s.finishLaunch l 3 0) else .next s

/-- Ending a launch with a code (R228, R377); one that still waits for dispatch ends without having run (DEDUCED, log 37). -/
def State.killLaunch (s : State) (n : Word) (code : Code) : State :=
  match s.pending.find? fun p => p.checked && p.number == n with
  | some p =>
    let s := { s with pending := s.pending.filter fun x => x.order != p.order }
    s.pushStamp p.order 5 code.byte n
  | none => s.abortLaunch n code

/-- HOSTKILL (R377, R388). -/
def execHostkill (n : Word) (s : State) : Host.Outcome State Fault Refusal := .next (s.killLaunch n .hostkill)

end Sys2Proof.Machine
end

