-- ==== Sys2Proof/Machine/Jobs.lean ====
section
/-!
DEFINITION. The rules of job cards (R254), edges and engines (R251, R256), and what a job does when it is performed (R255–R265).
-/
namespace Sys2Proof.Machine

/-! ## The rules of a card (R254) -/

/-- RND. -/
def cardRnd (c : BitVec 2048) : Rm := Rm.of ((cardCtl c).extractLsb' 22 2)
/-- The sign-extended 32-bit parameter at an offset. -/
def cardS32 (c : BitVec 2048) (off : Nat) : Int := (BitVec.ofNat 32 (cardField c off 4)).toInt

/-- The float format of an 8-, 16- or 32-bit type code of R97. -/
def typeFmt (top : Bool) : Nat → Fmt
  | 3 => bf16
  | 4 => fp16
  | 5 => e4m3 top
  | 6 => e5m2 top
  | _ => fp32

/-- The bytes of a type code. -/
def typeBytes : Nat → Nat
  | 2 => 4
  | 3 => 2
  | 4 => 2
  | _ => 1

/-- COP, ROP, ETYPE, P, RANK, COMM and RMAP stand in the parameters of a collective card (R365). -/
def collField (c : BitVec 2048) (off n : Nat) : Nat := cardField c (0x40 + off) n

/-- The pattern parameters of a kind obey their rules, and unused parameter bytes are 0 (R254, R259). -/
def cardParamsOk (c : BitVec 2048) : Bool :=
  let p (off n : Nat) := cardField c (0x40 + off) n
  match cardKind c with
  | 2 => (List.range 4).all (fun i => p (4 * i) 4 != 0) && p 0x30 16 == 0
  | 3 =>
    let blk := p 0 4
    blk % 16 == 0 && decide (16 ≤ blk) && inRange (p 4 4) 1 32 && decide (p 8 4 ≤ 16383) && p 12 52 == 0
    && (cardDst c).toNat / 2 ^ 54 == 6 && (cardRegions c 0xC0).isEmpty
  | 4 =>
    (List.range 6).all (fun i => p (4 * i) 4 != 0) && (List.range 6).all (fun i => p (0x18 + 2 * i) 2 != 0)
    && p (0x30 + cardBytes c) (16 - cardBytes c) == 0
  | _ => p 0 64 == 0

/-- A card that its submitting instruction, which names the kinds it accepts, may submit (R254); the collective card's own
rules are R365's. -/
def cardValid (collOk : BitVec 2048 → Bool) (kinds : List Nat) (c : BitVec 2048) : Bool :=
  let ctl := cardCtl c
  let k := cardKind c
  let narrow := k == 5
  let gs := k == 6 || k == 7
  kinds.contains k
  && ctl.extractLsb' 24 8 == 0 && ctl.extractLsb' 4 4 == 0 && cardField c 0x04 4 == 0
  && decide (cardEsize c ≤ 4) && decide (cardLen c ≤ 2 ^ 32)
  && (cardStampa c).toNat % 8 == 0 && !(cardStampv c).getLsbD 63
  && ((cardRegions c 0x80) ++ (cardRegions c 0xC0)).all (fun r => decide (r.1 + r.2 ≤ 2 ^ 57))
  && (gs || (!cardIdx64 c && cardIdxa c == 0 && cardBmap c == 0))
  && (k == 7 || cardSop c == 0) && cardSop c != 3 && (cardSop c == 0 || cardEsize c == 2)
  && (if narrow then
        inRange (cardStype c) 2 5 && inRange (cardDtype c) 2 5 && cardStype c != cardDtype c && !(cardSat c && cardDtype c == 2)
      else ctl.extractLsb' 14 10 == 0)
  && ((k != 1 && !narrow) || cardEsize c == 0)
  && (k != 2 || cardLen c == 0)
  && (k != 8 || (cardField c 0x90 48 == 0 && cardField c 0xD0 48 == 0))
  && (if k == 8 then collOk c else cardParamsOk c)

/-! ## Edges and engines (R251, R256) -/

/-- Whether a card takes an edge to an earlier card (R256). -/
def cardEdge (j i : BitVec 2048) : Bool :=
  regionsMeet (cardReads j) (cardWrites i) || regionsMeet (cardWrites j) (cardReads i) || regionsMeet (cardWrites j) (cardWrites i)

/-- The frame whose scheduler takes a context's jobs (R251): a reckoner's go to frame 0 of its board. -/
def Ctx.scheduler (c : Ctx) : Nat := if c.away then 4 * boardNo c.key.core else frameNo c.key.core

/-- The engine of a job (R251, R366): copy engines 0–15, collective engines 16–19, request collectors 20 + the frame. -/
def Job.engine (j : Job) : Nat :=
  let die := j.frame / 144
  let board := j.frame / 4 % 36
  if cardKind j.card = 8 then 16 + 2 * (die / 2) + collField j.card 0xC 4 % 2
  else if j.collector then 20 + j.frame
  else 4 * die + 2 * (board / 6 / 3) + board % 6 / 3

/-- The jobs that an engine runs or holds at once. -/
def engineMax (e : Nat) : Nat :=
  if e < 16 then Config.copyEngineMax else if e < 20 then Config.collectiveMax else Config.collectorMax

/-- The jobs that a scheduler holds in flight. -/
def State.jobsOf (s : State) (frame : Nat) : List Job := s.jobs.filter fun j => j.frame == frame

/-- Whether every job that a job has an edge to has completed. -/
def State.jobReady (s : State) (j : Job) : Bool := s.jobs.all fun i => !j.edges.contains i.num

/-- The job of a number. -/
def State.job? (s : State) (n : Nat) : Option Job := s.jobs.find? fun j => j.num == n

/-- Changing a job in place. -/
def State.modJob (s : State) (n : Nat) (f : Job → Job) : State :=
  { s with jobs := s.jobs.map fun j => if j.num == n then f j else j }

/-- Changing the context of an identity, resident or saved. -/
def State.modUid (s : State) (uid : Nat) (f : Ctx → Ctx) : State :=
  let g (c : Ctx) : Ctx := if c.uid == uid then f c else c
  { s with ctxs := s.ctxs.map g, launches := s.launches.map fun l => { l with saved := l.saved.map g } }

/-- Changing a tag of the submitter of a job. -/
def State.modTag (s : State) (uid : Nat) (t : Fin 64) (f : Tag → Tag) : State :=
  s.modUid uid fun c => { c with arch := { c.arch with tags := c.arch.tags.set t (f c.arch.tags[t]) } }

/-! ## Accesses of a job (R255, R257) -/

/-- A job as the maker of an access: it counts as the frame of the thread that submitted it (R214), and uses the translations
that it has obtained (R223). -/
def Job.accessor (j : Job) : Accessor :=
  let core := mkCore (coreDie j.key.core).val (coreBoard j.key.core) (coreFrame j.key.core) 15
  ⟨j.launch, j.pasid, coreDie j.key.core, core, frameNo j.key.core, none, core, j.refused, j.held⟩

/-- Whether every byte of an access, at an exact address (R7), lies in some region. -/
def inRegions (rs : List (Nat × Nat)) (va : Int) (n : Nat) : Bool :=
  decide (0 ≤ va) && (List.range n).all fun i => rs.any fun r => inRange (va.toNat + i) r.1 r.2

/-- A job in the course of its elements: the state, the elements performed (newest first), whether an element met a failed
link, and whether a WINDOW ran past the batch. -/
structure JobRun where
  s     : State
  bits  : List Bool
  flink : Bool
  past  : Bool
  deriving DecidableEq, Repr

/-- What a run comes to: its end, a status that ends it, or a page that it waits for. -/
inductive JobEnd where
  | done (r : JobRun)
  | stop (r : JobRun) (c : Code)
  | wait (w : PageWait)
  deriving DecidableEq, Repr

/-- A run that has performed nothing yet. -/
def JobRun.start (s : State) : JobRun := ⟨s, [], false, false⟩

/-- The record of the uncorrectable error that a job's read at an address met (R227, R403). -/
def State.recordJob (s : State) (j : Job) (va : DWord) : State :=
  match s.resolve j.accessor va 1 1 .load with
  | .ok p => s.recordMemue (((s.byUid j.uid).map fun c => (c.arch.lane 0).tid).getD 0) p
  | _ => s

/-- The place of a job's access that passes its checks but the footprint's; its errors are counted or end the job (R226, R227). -/
def JobRun.place (r : JobRun) (j : Job) (va : DWord) (n align : Nat) (k : AccessKind) (go : JobRun → Place → JobEnd) : JobEnd :=
  match (if k == .load then r.s.resolveRead j.accessor va n align k else r.s.resolveWrite j.accessor va n align k) with
  | .ok p => if r.s.unreachable p then .stop r .flink else go (if k == .store then r else { r with s := r.s.noteRead p n }) p
  | .fault c => .stop (if c == .memue then { r with s := r.s.recordJob j va } else r) c
  | .miss w => .wait w

/-- A read of n bytes at a multiple of `align`, in the read regions: the place and the value. The footprint is tested before
R225's checks (DESIGN CHOICE, log 77). -/
def JobRun.read (r : JobRun) (j : Job) (va : Int) (n align : Nat) (go : JobRun → Place → Nat → JobEnd) : JobEnd :=
  if !inRegions (cardReads j.card) va n then .stop r .footprint
  else r.place j (BitVec.ofInt 64 va) n align .load fun r p => go r p (leNat (r.s.homeBytes p n))

/-- A job's write at its serving point (R257): the line leaves every frame that holds it as host memory (R43, R219). -/
def State.jobStore (s : State) (j : Job) (p : Place) (bs : List Byte) : State := (s.snoopLine p).homeWrite (some j.pasid) p bs

/-- The write of a near-memory addition of device memory (R220): the stack's logic die performs it in the line's order, and the home slice,
which passed it on after its own newer bytes, holds no copy of the line. -/
def State.nearStore (s : State) (j : Job) (p : Place) (bs : List Byte) : State :=
  match p with
  | .dev d => (State.putHomes { s with l2 := s.l2.filter fun x => x.line != d / 128 } p bs).noteWrite p
  | p => s.jobStore j p bs

/-- A write of bytes at a multiple of `align`, in the write regions; PERM of a window is checked as it arrives (R214). -/
def JobRun.write (r : JobRun) (j : Job) (va : Int) (align : Nat) (bs : List Byte) (go : JobRun → JobEnd) : JobEnd :=
  if !inRegions (cardWrites j.card) va bs.length then .stop r .footprint
  else r.place j (BitVec.ofInt 64 va) bs.length align .store fun r p => go { r with s := r.s.jobStore j p bs }

/-- Whether a place is host memory that a job reaches by PCIe AtomicOps (R43). -/
def State.pcieHost (s : State) (j : Job) (p : Place) : Bool :=
  (match p with | .host _ => true | _ => false) && s.ports[diePort (coreDie j.key.core)].mode != .cxl

/-- A SCATTER addition at its location's serialization point (R261). In PCIe-only mode the host's completer may refuse it: HATOM,
and the port's HCAP bit clears (R44). -/
def JobRun.add (r : JobRun) (j : Job) (va : Int) (float refused : Bool) (x : Word) (go : JobRun → JobEnd) : JobEnd :=
  if !inRegions (cardWrites j.card) va 4 then .stop r .footprint
  else r.place j (BitVec.ofInt 64 va) 4 4 (.atomic (if float then none else hostAtomicBit .add .b32)) fun r p =>
    if refused && r.s.pcieHost j p then
      let port := diePort (coreDie j.key.core)
      let q := r.s.ports[port]
      .stop { r with s := { r.s with ports := r.s.ports.set port { q with hcap := q.hcap &&& ~~~(1#32 <<< 3) } } } .hatom
    else
      let m : Word := BitVec.ofNat 32 (leNat (r.s.homeBytes p 4))
      go { r with s := r.s.nearStore j p (leBytes (if float then afaddWord m x else m + x).toNat 4) }

/-! ## Running a job -/

/-- Elements i, i + 1, … in order, until one ends the job. -/
def jobLoop (f : Nat → JobRun → JobEnd) : Nat → Nat → JobRun → JobEnd
  | 0, _, r => .done r
  | n + 1, i, r =>
    match f i r with
    | .done r => jobLoop f n (i + 1) r
    | e => e

/-- Reading n elements of m bytes each from an address on, before any write; `xs` holds the values so far, newest first. -/
def jobReadAll (j : Job) (va : Int) (m align : Nat) (xs : List Nat) (go : JobRun → List Nat → JobEnd) : Nat → JobRun → JobEnd
  | 0, r => go r xs.reverse
  | n + 1, r => r.read j va m align fun r _ x => jobReadAll j (va + m) m align (x :: xs) go n r

/-- Writing bytes one after another from an address on. -/
def jobWriteAll (j : Job) (va : Int) : List Byte → JobRun → JobEnd
  | [], r => .done r
  | x :: xs, r => r.write j va 1 [x] fun r => jobWriteAll j (va + 1) xs r

/-- SRC as an exact address. -/
def srcAddr (c : BitVec 2048) : Int := (cardSrc c).toNat
/-- DST as an exact address. -/
def dstAddr (c : BitVec 2048) : Int := (cardDst c).toNat

/-- LINEAR (R258). -/
def jobLinear (j : Job) (r : JobRun) : JobEnd :=
  jobReadAll j (srcAddr j.card) 1 1 [] (fun r xs => jobWriteAll j (dstAddr j.card) (xs.map (BitVec.ofNat 8)) r) (cardLen j.card) r

/-- The little-endian groups of n bytes of a list. -/
def groupBytes (n : Nat) : Nat → List Nat → List Nat
  | 0, _ => []
  | k + 1, xs => leNat ((xs.take n).map (BitVec.ofNat 8)) :: groupBytes n k (xs.drop n)

/-- NARROW (R258): the reading declared by the card must be the one that the submitter carried (R156). -/
def jobNarrow (j : Job) (r : JobRun) : JobEnd :=
  let c := j.card
  if j.top != cardDtop c then .stop r .nfmt
  else
    let src := typeFmt (cardDtop c) (cardStype c)
    let dst := typeFmt (cardDtop c) (cardDtype c)
    let m := typeBytes (cardStype c)
    jobReadAll j (srcAddr c) 1 1 [] (fun r xs =>
      jobWriteAll j (dstAddr c)
        ((groupBytes m (cardLen c) xs).flatMap fun x => leBytes (dst.enc (cardRnd c) (cardSat c) (src.dec x)).1 (typeBytes (cardDtype c))) r)
      (cardLen c * m) r

/-- The address of an AFFINE element: Σ ik × stride k, exact (R7). -/
def affineAddr (c : BitVec 2048) (base : Int) (strides : Nat) (e : Nat) : Int :=
  let n (k : Nat) := cardField c (0x40 + 4 * k) 4
  let i0 := e % n 0
  let i1 := e / n 0 % n 1
  let i2 := e / (n 0 * n 1) % n 2
  let i3 := e / (n 0 * n 1 * n 2)
  base + i0 * cardS32 c strides + i1 * cardS32 c (strides + 4) + i2 * cardS32 c (strides + 8) + i3 * cardS32 c (strides + 12)

/-- One AFFINE element (R259). Each byte that it moves is what its source byte held before the job or holds now, by a free
choice where the job's own writes have changed it (DESIGN CHOICE, log 2). -/
def affineElem (j : Job) (before : State) (e : Nat) (r : JobRun) : JobEnd :=
  let c := j.card
  let n := cardBytes c
  r.read j (affineAddr c (srcAddr c) 0x50 e) n n fun r p y =>
    let x := leNat (before.homeBytes p n)
    let bs := (List.range n).map fun i =>
      (BitVec.ofNat 8 ((if Config.freeBool (r.s.freeCtr + i) then x else y) / 256 ^ i) : Byte)
    r.write j (affineAddr c (dstAddr c) 0x60 e) n bs fun r => .done { r with s := { r.s with freeCtr := r.s.freeCtr + n } }

/-- AFFINE (R259). -/
def jobAffine (j : Job) (r : JobRun) : JobEnd :=
  let n (k : Nat) := cardField j.card (0x40 + 4 * k) 4
  jobLoop (affineElem j r.s) (n 0 * n 1 * n 2 * n 3) 0 r

/-- One byte of a DEAL (R259). -/
def dealElem (j : Job) (e : Nat) (r : JobRun) : JobEnd :=
  let c := j.card
  let blk := cardField c 0x40 4
  let ntgt := cardField c 0x44 4
  let b := e / blk
  let base := (cardDst c).toNat
  let core := base / 2 ^ 40 % 2 ^ 14
  let home := base - core * 2 ^ 40 + (core + b % ntgt * cardField c 0x48 4) % 2 ^ 14 * 2 ^ 40 + b / ntgt * blk + e % blk
  r.read j (srcAddr c + e) 1 1 fun r _ x => r.write j (home : Nat) 1 [BitVec.ofNat 8 x] .done

/-- One output element of a WINDOW (R260), by its number o. -/
def windowElem (j : Job) (o : Nat) (r : JobRun) : JobEnd :=
  let c := j.card
  let p4 (off : Nat) := cardField c off 4
  let p2 (off : Nat) := cardField c off 2
  let n := p4 0x40; let h := p4 0x44; let w := p4 0x48; let ch := p4 0x4C
  let oh := p4 0x50; let ow := p4 0x54
  let fh := p2 0x58; let fw := p2 0x5A
  let p := cardField c 0x68 8 + o / (fh * fw * ch)
  let fy := o / (fw * ch) % fh
  let fx := o / ch % fw
  let iy : Int := (p / ow % oh * p2 0x5C : Nat) - (p2 0x64 : Int) + (fy * p2 0x60 : Nat)
  let ix : Int := (p % ow * p2 0x5E : Nat) - (p2 0x66 : Int) + (fx * p2 0x62 : Nat)
  let m := cardBytes c
  let put (past : Bool) (r : JobRun) (x : Nat) : JobEnd :=
    r.write j (dstAddr c + (o * m : Nat)) m (leBytes x m) fun r => .done { r with past := r.past || past }
  if n ≤ p / (oh * ow) then put true r (cardField c 0x70 16)
  else if iy < 0 ∨ (h : Int) ≤ iy ∨ ix < 0 ∨ (w : Int) ≤ ix then put false r (cardField c 0x70 16)
  else
    let at_ := ((p / (oh * ow) * h + iy.toNat) * w + ix.toNat) * ch + o % ch
    r.read j (srcAddr c + (at_ * m : Nat)) m m fun r _ x => put false r x

/-- WINDOW (R260). -/
def jobWindow (j : Job) (r : JobRun) : JobEnd :=
  let c := j.card
  jobLoop (windowElem j) (cardLen c * cardField c 0x58 2 * cardField c 0x5A 2 * cardField c 0x4C 4) 0 r

/-- The index of an element of GATHER and SCATTER (R261): signed in 32 bits, an address in 64. -/
def JobRun.index (r : JobRun) (j : Job) (e : Nat) (go : JobRun → Int → JobEnd) : JobEnd :=
  let c := j.card
  if cardIdx64 c then r.read j (((cardIdxa c).toNat + 8 * e : Nat) : Int) 8 8 fun r _ x => go r x
  else r.read j (((cardIdxa c).toNat + 4 * e : Nat) : Int) 4 4 fun r _ x => go r (BitVec.ofNat 32 x).toInt

/-- One element of GATHER or SCATTER, without the failed-link case. -/
def gatherElem (j : Job) (errors : JobErrors) (e : Nat) (r : JobRun) : JobEnd :=
  let c := j.card
  let n := cardBytes c
  r.index j e fun r i =>
    let far (base : Int) : Int := if cardIdx64 c then i else base + i * n
    let near (base : Int) : Int := base + (e * n : Nat)
    let src := if cardKind c = 6 then far (srcAddr c) else near (srcAddr c)
    let dst := if cardKind c = 6 then near (dstAddr c) else far (dstAddr c)
    if errors.bad.contains e then .stop { r with s := r.s.recordJob j (BitVec.ofInt 64 src) } .memue
    else
      r.read j src n n fun r _ x =>
        let go (r : JobRun) : JobEnd := .done { r with bits := true :: r.bits }
        if cardSop c = 0 then r.write j dst n (leBytes x n) go
        else r.add j dst (cardSop c = 2) (errors.refused.contains e) (BitVec.ofNat 32 x) go

/-- One element of GATHER or SCATTER: one that crosses a failed link is not performed, and the job goes on (R263). -/
def gatherStep (j : Job) (errors : JobErrors) (e : Nat) (r : JobRun) : JobEnd :=
  match gatherElem j errors e r with
  | .stop r .flink => .done { r with flink := true, bits := false :: r.bits }
  | x => x

/-- GATHER and SCATTER (R261, R263). -/
def jobGather (j : Job) (errors : JobErrors) (r : JobRun) : JobEnd :=
  let c := j.card
  if (cardIdxa c).toNat % (if cardIdx64 c then 8 else 4) ≠ 0 then .stop r .align
  else
    match jobLoop (gatherStep j errors) (cardLen c) 0 r with
    | .done r => if r.flink then .stop r .flink else .done r
    | x => x

/-- Whether a region overlaps a text window of the local aperture (R107, R212). -/
def meetsTextWindow (r : Nat × Nat) : Bool :=
  let lo := max r.1 (6 * 2 ^ 54)
  let hi := min (r.1 + r.2) (7 * 2 ^ 54)
  if hi ≤ lo then false
  else
    let w := lo / 2 ^ 40 * 2 ^ 40 + 0xFFFFE * 2 ^ 20
    let w := if lo < w + 2 ^ 20 then w else w + 2 ^ 40
    decide (max lo w < hi)

/-- Whether a card declares a region that no job may touch: text in the local aperture (R107), or the MMIO aperture (R216). -/
def cardForbidden (c : BitVec 2048) : Bool :=
  (cardReads c ++ cardWrites c).any fun x => meetsTextWindow x || decide (7 * 2 ^ 54 < x.1 + x.2)

/-- The performance of a job's elements (R257–R261) (DEDUCED, log 30). -/
def runJob (j : Job) (errors : JobErrors) (r : JobRun) : JobEnd :=
  if cardForbidden j.card then .stop r .perm
  else
    let fail (e : JobEnd) : JobEnd := if errors.bad.isEmpty then e else .stop { r with s := r.s.recordJob j (cardSrc j.card) } .memue
    match cardKind j.card with
    | 1 => fail (jobLinear j r)
    | 2 => fail (jobAffine j r)
    | 3 => fail (jobLoop (dealElem j) (cardLen j.card) 0 r)
    | 4 => fail (jobWindow j r)
    | 5 => fail (jobNarrow j r)
    | _ => jobGather j errors r

/-! ## The end of a job (R263–R266) -/

/-- The arrival bitmap's byte i: bit e is 1 when element 8i + e was performed. -/
def bitmapByte (bits : List Bool) (i : Nat) : Byte :=
  BitVec.ofNat 8 (((bits.drop (8 * i)).take 8).foldr (fun b x => 2 * x + (if b then 1 else 0)) 0)

/-- Writing the arrival bitmap (R263): `bits` in element order, in whole bytes (DESIGN CHOICE, log 76). -/
def jobBitmap (j : Job) (bits : List Bool) (r : JobRun) : JobEnd :=
  let c := j.card
  if cardBmap c = 0 then .done r
  else jobWriteAll j (cardBmap c).toNat ((List.range ((cardLen c + 7) / 8)).map (bitmapByte bits)) r

/-- Writing the stamp of a job that ends with a code (R265). -/
def jobStamp (j : Job) (code : Option Code) (r : JobRun) : JobEnd :=
  let c := j.card
  if cardStampa c = 0 then .done r
  else
    let v := if code.isSome then cardStampv c ||| (1#64 <<< 63) else cardStampv c
    r.place j (cardStampa c) 8 8 .store fun r p => .done { r with s := r.s.jobStore j p (leBytes v.toNat 8) }

/-- The status word of a completed job (R266). -/
def doneStatus (code : BitVec 8) (stampf past : Bool) : Word :=
  (code.setWidth 32 <<< 24) ||| 0x00300000 ||| (if stampf then 0x00020000 else 0) ||| (if past then 0x00010000 else 0)

/-- The tag of a completed job enters SET, its interrupt source becomes pending, and waits on tags execute again (R264,
R268, R379). -/
def State.finishTag (s : State) (j : Job) (w : Word) : State :=
  (s.modTag j.uid j.tag fun _ => ⟨.set, w⟩).modUid j.uid fun c => { c with
    arch := { c.arch with pend := if (match c.kind with | .called _ _ => true | _ => false) then c.arch.pend else c.arch.pend ||| 1 },
    st := if c.st == .parked .tags then .live else c.st }

/-- The end of a job: bitmap, stamp, tag, and the regions that its writes kept (R393); a page that one of the writes misses keeps it waiting. -/
def State.endJob (s : State) (j : Job) (e : JobEnd) : State :=
  let tail (r : JobRun) (code : Option Code) : State :=
    let bits := r.bits.reverse ++ List.replicate (cardLen j.card - r.bits.length) false
    let gs := cardKind j.card == 6 || cardKind j.card == 7
    let afterBits (r : JobRun) (code : Option Code) : State :=
      let close (r : JobRun) (stampf : Bool) (code : Option Code) : State :=
        let s := { r.s with jobs := r.s.jobs.filter fun x => x.num != j.num }
        (s.finishTag j (doneStatus ((code.map Code.byte).getD 0) stampf r.past)).freeWritten j.launch
      match jobStamp j code r with
      | .done r => close r false code
      | .stop r c => close r true (code.or (some c))
      | .wait w => (s.askPage w).modJob j.num fun j => { j with waits := [w] }
    match (if gs then jobBitmap j bits r else .done r) with
    | .done r => afterBits r code
    | .stop r c => afterBits r (code.or (some c))
    | .wait w => (s.askPage w).modJob j.num fun j => { j with waits := [w] }
  match e with
  | .done r => tail r none
  | .stop r c => tail r (some c)
  | .wait w => (s.askPage w).modJob j.num fun j => { j with waits := [w] }

end Sys2Proof.Machine
end

