-- ==== Sys2Proof/Machine/JobInstr.lean ====
section
/-!
DEFINITION. The meanings of family 0x0C (R264–R271) and the events of jobs and of MWAIT.
-/
namespace Sys2Proof.Machine

/-! ## COPY, GATH, SCAT (R267) -/

/-- The status word of a job that waits on its edges (R266, STATE 1). -/
def statusQueued : Word := 0x00100000
/-- The status word of a dispatched job (R266, STATE 2). -/
def statusRunning : Word := 0x00200000

/-- A job enters its scheduler, with its edges (R251, R256), and its tag becomes PENDING (R264). -/
def State.enterJob (s : State) (c : Ctx) (card : BitVec 2048) (t : Fin 64) : State :=
  let frame := c.scheduler
  let gs := cardKind card == 6 || cardKind card == 7
  let j : Job :=
    ⟨s.jobNum, frame, c.key, c.uid, c.launch, s.pasidOf c.launch, t, card, nfmtTop c.arch.nfmt,
      ((s.jobsOf frame).filter fun i => cardEdge card i.card).map (·.num), .queued, c.away, [], [], [], none, gs && c.kind != .rod⟩
  ({ s with jobs := s.jobs ++ [j], jobNum := s.jobNum + 1 }).modTag c.uid t fun _ => ⟨.pending, statusQueued⟩

/-- The status of a submission (R267): 2 TAGBUSY, 3 BADCARD, 1 FULL, 0 entered. -/
def State.submitStatus (s : State) (c : Ctx) (collOk : BitVec 2048 → Bool) (kinds : List Nat) (card : BitVec 2048)
    (t : Fin 64) : Word :=
  if c.arch.tags[t].st ≠ .free then 2
  else if !cardValid collOk kinds card then 3
  else if Config.jobsMax ≤ (s.jobsOf c.scheduler).length then 1
  else 0

/-- Submission of a job card (R267, R366): the release, the card, and the status; in lock-step it is bracketed by
checkpoints (R397). -/
def State.submitOp (s : State) (collOk : BitVec 2048 → Bool) (kinds : List Nat) (sc : Scope) (d : Reg) (a : SPair)
    (t : Fin 64) : Host.Outcome State Fault Refusal :=
  s.withIssue fun iss c =>
    s.guarded iss c ⟨[], [d], [pairName (pairOfS a)]⟩ (regType d == .uniform) true <|
      let addr := c.arch.spair a
      (s.readDesc c addr 64 0).andThen s iss c fun _ =>
        let s := s.release c.key sc
        (s.readPieces c addr addr 32).andThen s iss c fun x =>
          let card := BitVec.ofNat 2048 x
          let s := s.noteDesc c addr 32
          let status := s.submitStatus c collOk kinds card t
          let s := if status = 0 then s.enterJob c card t else s
          .done ((s.modCtx c.key fun c =>
            { c with arch := (c.arch.writeS d status).advance iss, refused := [] }).checkpoint c.key)

/-- COPY (R267): kinds 1 to 5. -/
def execCopy (d : Reg) (a : SPair) (tag : Fin 64) (s : State) : Host.Outcome State Fault Refusal :=
  s.submitOp (fun _ => false) [1, 2, 3, 4, 5] .dev d a tag

/-- GATH (R267): kind 6. -/
def execGath (d : Reg) (a : SPair) (tag : Fin 64) (s : State) : Host.Outcome State Fault Refusal :=
  s.submitOp (fun _ => false) [6] .dev d a tag

/-- SCAT (R267): kind 7. -/
def execScat (d : Reg) (a : SPair) (tag : Fin 64) (s : State) : Host.Outcome State Fault Refusal :=
  s.submitOp (fun _ => false) [7] .dev d a tag

/-! ## Tags (R268, R269, R271) -/

/-- The tags of a mask in a state. -/
def Arch.tagsIn (ar : Arch) (m : DWord) (st : TagState) : List (Fin 64) :=
  (List.finRange 64).filter fun i => m.getLsbD i.val && ar.tags[i].st == st

/-- The index of the lowest tag of a list, or 64. -/
def lowTag : List (Fin 64) → Word
  | [] => 64
  | i :: _ => BitVec.ofNat 32 i.val

/-- Parking at an interruptible point with PC at the instruction: a checkpoint (R398), then the wait. -/
def State.parkAt (s : State) (k : CtxKey) (w : Wait) : State :=
  ((s.flushStreams k).checkpoint k).modCtx k fun c => { c with st := .parked w }

/-- A tag instruction: `f` gives its result and whether it reports a SET tag, or none while it waits. -/
def State.tagOp (s : State) (d : Reg) (a : SPair) (f : Arch → DWord → Option (Word × Bool)) : Host.Outcome State Fault Refusal :=
  s.withIssue fun iss c =>
    s.guarded iss c ⟨[], [d], [pairName (pairOfS a)]⟩ (regType d == .uniform) true <|
      match f c.arch (c.arch.spair a) with
      | none => .done (s.parkAt c.key .tags)
      | some (x, reports) =>
        let s := if reports then s.acquireMem c.key .dev else s
        .done (s.modCtx c.key fun c => { c with arch := (c.arch.writeS d x).advance iss })

/-- WAITANY's result (R268). -/
def waitAnyResult (ar : Arch) (m : DWord) : Option (Word × Bool) :=
  match ar.tagsIn m .set, ar.tagsIn m .pending with
  | [], [] => some (64, false)
  | [], _ :: _ => none
  | i :: is, _ => some (lowTag (i :: is), true)

/-- WAITANY (R268). -/
def execWaitany (d : Reg) (a : SPair) (s : State) : Host.Outcome State Fault Refusal := s.tagOp d a waitAnyResult

/-- WAITALL's result (R268). -/
def waitAllResult (ar : Arch) (m : DWord) : Option (Word × Bool) :=
  if ar.tagsIn m .pending = [] then some (BitVec.ofNat 32 (ar.tagsIn m .set).length, ar.tagsIn m .set != []) else none

/-- WAITALL (R268). -/
def execWaitall (d : Reg) (a : SPair) (s : State) : Host.Outcome State Fault Refusal := s.tagOp d a waitAllResult

/-- FFR's result (R268). -/
def ffrResult (ar : Arch) (m : DWord) : Option (Word × Bool) := some (lowTag (ar.tagsIn m .set), ar.tagsIn m .set != [])

/-- FFR (R268). -/
def execFfr (d : Reg) (a : SPair) (s : State) : Host.Outcome State Fault Refusal := s.tagOp d a ffrResult

/-- The tags after TAGCLR: SET tags of the mask are FREE, and keep their status words (R266, R269). -/
def clearTags (ts : Vector Tag 64) (m : DWord) : Vector Tag 64 :=
  Vector.ofFn fun (i : Fin 64) => if m.getLsbD i.val && ts[i].st == .set then { ts[i] with st := .free } else ts[i]

/-- TAGCLR (R269). -/
def execTagclr (a : SPair) (s : State) : Host.Outcome State Fault Refusal :=
  s.withIssue fun iss c =>
    s.guarded iss c ⟨[], [], [pairName (pairOfS a)]⟩ true true <|
      .done (s.setCtx { c with arch := ({ c.arch with tags := clearTags c.arch.tags (c.arch.spair a) }).advance iss })

/-- JOBST (R271). -/
def execJobst (d : Reg) (tag : Fin 64) (s : State) : Host.Outcome State Fault Refusal :=
  s.withIssue fun iss c => s.simple iss c ⟨[], [d], []⟩ (regType d == .uniform) true fun ar => ar.writeS d ar.tags[tag].status

/-! ## MWAIT (R270) -/

/-- Whether a limit has elapsed. -/
def deadlinePassed (deadline : Option Nat) (tick : Nat) : Bool :=
  match deadline with
  | some t => decide (t ≤ tick)
  | none => false

/-- One reading of an MWAIT that has waited or not: the value, an acquire, and its end when the value is at least x or the
limit has passed. -/
def State.mwaitRead (s : State) (c : Ctx) (exec : BitVec 64) (va : DWord) (p : Place) (d : Pair) (x : DWord) (sc : Scope)
    (deadline : Option Nat) (next : DWord) : State :=
  let v : DWord := (s.loadValue c va p 8 sc).setWidth 64
  let s := (s.noteLoad c va p 8 sc).acquireMem c.key sc
  if decide (x.toNat ≤ v.toNat) || deadlinePassed deadline s.tick then
    s.modCtx c.key fun c => { c with arch := (c.arch.setPair 0 d v).goto exec next, st := .live, woken := false, refused := [] }
  else
    s.modCtx c.key fun c => { c with st := .parked (.mwait va (some p) d x sc deadline s.tick next), woken := false, refused := [] }

/-- An MWAIT whose address misses a translation waits for the page in the same execution: its limit goes on counting (R223,
R270). -/
def State.mwaitPage (s : State) (k : CtxKey) (w : PageWait) (va : DWord) (d : Pair) (x : DWord) (sc : Scope) (deadline : Option Nat)
    (next : DWord) : State :=
  (s.askPage w).modCtx k fun c => { c with st := .parked (.mwait va none d x sc deadline s.tick next), woken := true }

/-- MWAIT (R270): the limit counts from the issue. -/
def execMwait (scope : Scope) (limit : Fin 41) (d : Pair) (a : SPair) (b : SPair) (s : State) : Host.Outcome State Fault Refusal :=
  s.withIssue fun iss c =>
    s.guarded iss c ⟨[], [], [pairName d, pairName (pairOfS a), pairName (pairOfS b)]⟩ (pairIsS d) true <|
      let va := c.arch.spair a
      let deadline := if limit.val = 0 then none else some (s.tick + 2 ^ limit.val)
      let go (s : State) : State := (s.flushStreams c.key).checkpoint c.key
      match s.resolveLoad c va 8 8 scope with
      | .fault code => .trap s (Trap.one code va iss.pc)
      | .miss w => .done ((go s).mwaitPage c.key w va d (c.arch.spair b) scope deadline (nextPc iss))
      | .ok p => .done ((go s).mwaitRead c iss.exec va p d (c.arch.spair b) scope deadline (nextPc iss))

/-- Reading again for a context parked in MWAIT, when its condition to read holds and no self-test holds the access (R401); its
address is translated again (R224). The
end of the wait writes its register back, which a lock-step pair compares (R395). -/
def State.mwaitAgain (s : State) (k : CtxKey) (may : Ctx → Option Place → Option Nat → Nat → Bool) : State :=
  match s.ctx? k with
  | none => s
  | some c =>
    match c.st with
    | .parked (.mwait va p d x sc deadline polled next) =>
      if may c p deadline polled && !s.bankTested c.launch (some c.core) then
        match s.resolveLoad c va 8 8 sc with
        | .ok p =>
          let t := s.mwaitRead c c.liveSet va p d x sc deadline next
          if (t.ctx? k).map Ctx.st == some .live then s.unlessStruck k t else t
        | .miss w => s.mwaitPage k w va d x sc deadline next
        | .fault code => s.deliver k (Trap.one code va (c.arch.lane ((lanesOf c.liveSet).headD 0)).pc)
      else s
    | _ => s

/-- MWAIT_WAKE (R270): a write to the line wakes the waiter, which reads again in the same execution. -/
def execMwaitWake (key : CtxKey) (s : State) : Host.Outcome State Fault Refusal :=
  .next (s.mwaitAgain key fun c _ _ _ => c.woken)

/-- MWAIT_LIMIT_EXPIRY (R270): the value read when the limit has elapsed is returned. -/
def execMwaitLimitExpiry (key : CtxKey) (s : State) : Host.Outcome State Fault Refusal :=
  .next (s.mwaitAgain key fun _ _ deadline _ => deadlinePassed deadline s.tick)

/-- MWAIT_POLL (R270): with the port in PCIe-only mode a wait on host memory reads every 2,048 cycles. -/
def execMwaitPoll (key : CtxKey) (s : State) : Host.Outcome State Fault Refusal :=
  .next (s.mwaitAgain key fun c p _ polled =>
    (match p with | some (.host _) => true | _ => false) && s.ports[diePort (coreDie c.key.core)].mode == .pcie && decide (polled + 2048 ≤ s.tick))

/-! ## The events of jobs -/

/-- Whether an engine takes a queued job: it is ready, it is the first such job of its engine in submission order, and the
engine has room (R251, R256, R366). -/
def State.mayDispatch (s : State) (j : Job) : Bool :=
  let e := j.engine
  j.st == .queued && s.jobReady j
  && (s.jobs.all fun i => i.engine != e || i.st != .queued || !(s.jobReady i) || decide (j.num ≤ i.num))
  && decide ((s.jobs.filter fun i => i.engine == e && i.st == .running).length < engineMax e)

/-- JOB_DISPATCH (R256). -/
def execJobDispatch (num : Nat) (s : State) : Host.Outcome State Fault Refusal :=
  match s.job? num with
  | none => .next s
  | some j =>
    if s.mayDispatch j then
      .next ((s.modJob num fun j => { j with st := .running }).modTag j.uid j.tag fun t => { t with status := statusRunning })
    else .next s

/-- The elements of a collective's destination (R368). -/
def collElems (c : BitVec 2048) : Nat :=
  match collField c 0 1 with
  | 2 => collField c 4 4 * cardLen c
  | 3 => cardLen c / collField c 4 4
  | _ => cardLen c

/-- The end of a job that an abort or a failed link has ended already (R263, R369, R377): its destination bytes are undefined
when its flag says so, then come the bitmap, the stamp and the tag. -/
def State.endCoded (s : State) (j : Job) (code : Code) (undefinedDst : Bool) : State :=
  if undefinedDst then
    let n := collElems j.card * cardBytes j.card
    let bs := (List.range n).map fun i => Config.freeByte (s.freeCtr + i)
    match jobWriteAll j (dstAddr j.card) bs (JobRun.start { s with freeCtr := s.freeCtr + n }) with
    | .done r => s.endJob j (.stop r code)
    | .stop r _ => s.endJob j (.stop r code)
    | .wait w => s.endJob j (.wait w)
  else s.endJob j (.stop (JobRun.start s) code)

/-- JOB_COMPLETE (R255–R266): a dispatched job that waits for no page and whose accesses no self-test holds (R401) is performed and ends. A collective ends at its match, unless a code has ended it. -/
def execJobComplete (num : Nat) (errors : JobErrors) (s : State) : Host.Outcome State Fault Refusal :=
  match s.job? num with
  | none => .next s
  | some j =>
    if s.bankTested j.launch none then .next s
    else match j.waits, j.code with
    | _ :: _, _ => .next s
    | [], some (code, undefinedDst) => .next (s.endCoded j code undefinedDst)
    | [], none =>
      if j.st == .running && cardKind j.card != 8 then .next (s.endJob j (runJob j errors (JobRun.start s))) else .next s

/-- REQUEST_COLLECTOR_FLUSH (R262): merging the requests of a collector changes when its jobs complete and nothing else. -/
def execRequestCollectorFlush (_frame : Nat) (s : State) : Host.Outcome State Fault Refusal := .next s

end Sys2Proof.Machine
end

