-- ==== Sys2Proof/Machine/Verdict.lean ====
section
/-!
DEFINITION. Verdict-class accumulation (R336–R352): family 0x12.
-/
namespace Sys2Proof.Machine

/-! ## Abandoned results (R343, R344) and VHDR (R339) -/

/-- An abandoned result's verdict bit. -/
def abandonedTrue (p : Word) : Bool := p.getLsbD 19

/-- VTEST (R344). -/
def vtestWord (p : Word) : Word :=
  if isAbandoned p then (p <<< 16) ||| (if abandonedTrue p then 2 else 1) else 0

/-- VKEY (R344). -/
def vkeyWord (p : Word) : Word :=
  if isAbandoned p then (if abandonedTrue p then 0xFFFFFFFF else 1) else fkeyWord .f32 p

/-- VTEST and VKEY. -/
def State.verdictOp (s : State) (d : Reg) (a : SvReg) (f : Word → Word) : Host.Outcome State Fault Refusal :=
  s.withIssue fun iss c =>
    let r := regOfSv a
    s.runReg iss c false d (.op (.reg r)) .no .no (regType r) (fun _ _ _ => ⟨0, 0⟩) fun _ x _ _ => f x

/-- VTEST (R344). -/
def execVtest (d : Reg) (a : SvReg) (s : State) : Host.Outcome State Fault Refusal := s.verdictOp d a vtestWord

/-- VKEY (R344). -/
def execVkey (d : Reg) (a : SvReg) (s : State) : Host.Outcome State Fault Refusal := s.verdictOp d a vkeyWord

/-- BB, the bytes of a verdict block (R337), and the unit in which it is read. -/
def verdictBlock : VerdictTy → Nat × Nat
  | .bf16 => (128, 2)
  | .e4m3 => (64, 4)
  | .f4x => (36, 4)

/-- k of a verdict type (R340). -/
def verdictGroup : VerdictTy → Nat
  | .bf16 => 4
  | .e4m3 => 8
  | .f4x => 16

/-- Term t of a verdict block (R337). -/
def verdictTerm (ty : VerdictTy) (top : Bool) (bytes : List Byte) (t : Nat) : Num :=
  let at_ (i : Nat) : Nat := (bytes.getD i 0).toNat
  match ty with
  | .bf16 => bf16.dec (at_ (2 * t) + 256 * at_ (2 * t + 1))
  | .e4m3 => (e4m3 top).dec (at_ t)
  | .f4x =>
    let b := 18 * (t / 32)
    f4xDec (at_ (b + 16) + 256 * at_ (b + 17)) (at_ (b + t % 32 / 2) / 16 ^ (t % 2))

/-- The magnitude of a value. -/
def Num.abs : Num → Num
  | .nan s => .nan s
  | .inf _ => .inf false
  | .fin _ m e => .fin false m e

/-- up(Σ |dec(w_t)|) over a block (R339). -/
def vhdrWord (ty : VerdictTy) (top : Bool) (bytes : List Byte) : Word :=
  let xs := (List.range 64).map fun t => (verdictTerm ty top bytes t).abs
  (fp32.word .rup (xs.foldl (fun a x => (a.add .rne x).1) (.fin false 0 0))).1

/-- The place of a check in the order of R225; codes that the table does not name come after its translation's. -/
def Code.order : Code → Nat
  | .null => 1
  | .align => 2
  | .notmapped => 3
  | .perm => 4
  | _ => 5

/-- The checks of an access over several units, as of one access (R225, R231): the translation of every unit is settled before a later
check of any (R232). -/
def blockChecks (rs : List Resolved) : Fetched :=
  let codes := sortOn Code.order (rs.filterMap fun r => match r with | .fault code => some code | _ => none)
  let misses := (rs.filterMap fun r => match r with | .miss w => some w | _ => none).eraseDups
  match codes, misses with
  | code :: _, [] => .fault code 0
  | code :: _, ws => if code.order ≤ 3 then .fault code 0 else .miss ws
  | [], [] => .ok [] []
  | [], ws => .miss ws

/-- Reading a block of n bytes at an address that is a multiple of `align`, as one relaxed device-scope load: any fault names the
block's address, and MEMUE comes after every other check of the block (R225, R232, R339, R347). -/
def State.fetchBlock (s : State) (c : Ctx) (align n : Nat) (va : DWord) : Fetched :=
  match blockChecks ((List.range (n / align)).map fun i => s.resolveAt c (va + BitVec.ofNat 64 (align * i)) align align .load .dev) with
  | .ok _ _ =>
    match s.fetchUnits c .dev align va (n / align) with
    | .fault code _ => .fault code va
    | r => r
  | .fault code _ => .fault code va
  | .miss ws => .miss ws

/-- A result of an instruction that reads memory lane by lane: the pages missed, the lane faults, the values by lane and the places
read. -/
structure LaneReads (α : Type) where
  misses : List PageWait
  faults : List LaneFault
  vals   : List (Nat × α)
  from_  : List (DWord × Place)

/-- Reading a list of bytes for each lane of a list (R232). -/
def readLanes {α : Type} (f : Nat → Fetched) (g : List Byte → α) : List Nat → LaneReads α
  | [] => ⟨[], [], [], []⟩
  | i :: is =>
    let t := readLanes f g is
    match f i with
    | .ok bs ps => { t with vals := (i, g bs) :: t.vals, from_ := ps ++ t.from_ }
    | .fault code va => { t with faults := ⟨i, code, va⟩ :: t.faults }
    | .miss ws => { t with misses := ws ++ t.misses }

/-- Ending an instruction that wrote results lane by lane (R233): the lanes without a fault go on; a uniform one, or a
thread of a rod, that faults changes nothing. -/
def State.endLanewise (s : State) (iss : Issue) (c : Ctx) (once : Bool) (faults : List LaneFault) (write : Arch → Arch) : Eff :=
  match faults with
  | [] => .done (s.modCtx c.key fun c => { c with arch := (write c.arch).advance iss, refused := [] })
  | f :: fs =>
    if once || c.kind == .rod then .trap s (Trap.one f.code f.addr iss.pc)
    else .trap (s.modCtx c.key fun c => { c with arch := (write c.arch).goto (goodLanes iss.exec (f :: fs)) (nextPc iss), refused := [] })
      ⟨f :: fs, false, iss.pc⟩

/-- VHDR (R339). -/
def execVhdr (ty : VerdictTy) (d : Reg) (a : Pair) (s : State) : Host.Outcome State Fault Refusal :=
  s.withIssue fun iss c =>
    let once := pairIsS a
    s.guarded iss c ⟨[], [d], [pairName a]⟩ (regType d == pairType a) once <|
      let (n, unit) := verdictBlock ty
      let t := readLanes (fun i => s.fetchBlock c unit n (c.arch.pair i a)) (vhdrWord ty (nfmtTop c.arch.nfmt))
        (partLanes once iss.exec)
      match t.misses with
      | w :: ws => .done (s.parkPages c.key (w :: ws))
      | [] =>
        s.withStreams iss c ⟨[], [d], []⟩ fun _ pushes _ =>
          if s.gateFull c (pushCount pushes) then .done (s.parkGate c.key) else
          match (s.fillAll c .dev 1 t.from_).endLanewise iss c once t.faults fun ar => t.vals.foldl (fun ar v => ar.putReg v.1 d 0 v.2) ar with
          | .done s => .done (match s.ctx? c.key with
            | some c => s.commit c c.arch pushes
            | none => s)
          | e => e

/-! ## The bound monitor (R340–R342) -/

/-- X ⊗ Y, X ⊕ Y with a directed rounding. -/
def dirMul (rm : Rm) (x y : Num) : Num := num32 (fp32.word rm (x.mul y).1).1
/-- The directed sum. -/
def dirAdd (rm : Rm) (x y : Num) : Num := num32 (fp32.word rm (x.add rm y).1).1

/-- M after the values that a block rounded (R340). -/
def monitorMag (m : Word) (rs : List Word) : Word :=
  rs.foldl (fun m r => (fp32.word .rup ((num32 m).add .rup (num32 r).abs).1).1) m

/-- Summing a block into S and M (R340). -/
def monitorBlock (ty : VerdictTy) (top : Bool) (w x : List Byte) (sum mag : Word) : Word × Word :=
  let k := verdictGroup ty
  (List.range (64 / k)).foldl (fun (p : Word × Word) g =>
    let r := addGroupLog p.1 ((List.range k).map fun t => (verdictTerm ty top w (g * k + t), verdictTerm .bf16 top x (g * k + t)))
    (r.1, monitorMag p.2 r.2)) (sum, mag)

/-- θ of a check (R341): none before a sample. -/
def checkTheta (pred : VdotPred) (tau : Option Word) : Option Num :=
  match pred with
  | .sign => some (.fin false 0 0)
  | .gt => tau.map num32
  | .lt => tau.map fun t => (num32 t).negate

/-- Whether a value is negative. -/
def Num.isNegative (x : Num) : Bool := x.neg? && !x.isZero

/-- A check of the monitor (R341, R342): the verdict with which the accumulation abandons, if it does. -/
def monitorCheck (m : VdotMode) (xinf t : Num) (theta : Option Num) (c : Nat) (sum mag : Num) : Option Bool :=
  match theta with
  | none => none
  | some th =>
    if sum.isNan || sum.isInf || mag.isNan || mag.isInf || xinf.isNan || t.isNan || th.isNan || xinf.isNegative || t.isNegative then none
    else
      let r := dirMul .rup xinf t
      let g := 2 * c * 64 / verdictGroup m.ty
      let floor : Num := .fin false 1 (-126)
      let e := dirMul .rup (.fin false g (-23)) (if mag.cmp floor == some .lt then floor else mag)
      let hi := dirAdd .rup (dirAdd .rup sum r) e
      let lo := dirAdd .rdn (dirAdd .rdn sum r.negate) e.negate
      let gt (x y : Num) : Bool := x.cmp y == some .gt
      let le (x y : Num) : Bool := x.cmp y == some .lt || x.cmp y == some .eq
      let (yes, no) : Bool × Bool := match m.pred with
        | .lt => (gt th hi, le th lo)
        | _ => (gt lo th, le hi th)
      if no then some false else if yes && m.ab2 then some true else none

/-! ## VDOT (R345–R347, R350–R352) -/

/-- The operands of one lane's accumulation: P, X, NB, MINB, X∞, the cell, and the reading of E4M3. -/
structure VdotArgs where
  row  : DWord
  x    : DWord
  nb   : Nat
  minb : Nat
  xinf : Word
  cell : Option DWord
  top  : Bool

/-- A sample of the cell (R350, R351): the greatest so far, with the place that it read. One that faults is not taken; one whose
translation is not cached asks for it without a page request, and takes nothing until it is there (R221). -/
def State.sampleCell (s : State) (c : Ctx) (cell : Option DWord) (tau : Option Word) :
    Option Word × List (DWord × Place) × List PageWait :=
  match cell with
  | none => (tau, [], [])
  | some va =>
    match s.resolveLoad c va 8 8 .dev with
    | .ok p =>
      let x := (s.loadValue c va p 4 .dev).setWidth 32
      (match tau with
        | none => some x
        | some t => some (minMaxWord true t x).1, [(va, p)], [])
    | .miss w => (tau, [], [{ w with quiet := true }])
    | .fault _ => (tau, [], [])

/-- What one issue of a VDOT comes to in a lane: it has finished, it goes on with its next block, it faults, or it misses
pages. -/
inductive VdotStop where
  | done
  | more
  | fault (gang : Bool) (code : Code) (va : DWord)
  | miss (ws : List PageWait)
  deriving DecidableEq, Repr

/-- A lane after one issue of a VDOT: its state, how it stands, the places that it read, and the translation that a sample asks for. -/
structure VdotRun where
  lane  : VdotLane
  stop  : VdotStop
  from_ : List (DWord × Place)
  ask   : List PageWait
  deriving DecidableEq, Repr

/-- One turn of the loop of R346 for one lane: a block is read, summed and checked; the header that the check after the block
reads is read with the block. -/
def State.vdotBlock (s : State) (c : Ctx) (m : VdotMode) (v : VdotArgs) (st : VdotLane) : VdotRun :=
  match st.fault with
  | some (code, va) => ⟨st, .fault false code va, [], []⟩
  | none =>
  if st.done.isSome || decide (v.nb ≤ st.c) then ⟨{ st with done := some (st.done.getD st.sum) }, .done, [], []⟩
  else
    let (bb, unit) := verdictBlock m.ty
    let j := st.c
    let at_ (o : Nat) : DWord := v.row + BitVec.ofNat 64 o
    let due := decide (v.minb ≤ j + 1) && decide (j + 1 < v.nb)
    let reads := [s.fetchBlock c 4 4 (at_ (4 * j)),
      s.fetchBlock c unit bb (at_ (roundUp (4 * v.nb) 64 + j * bb)),
      if due then s.fetchBlock c 4 4 (at_ (4 * (j + 1))) else .ok [] []]
    match reads, s.fetchBlock c 2 128 (v.x + BitVec.ofNat 64 (128 * j)) with
    | [.ok _ hs, .ok w ws, .ok t ts], .ok x xs =>
      let (sum, mag) := monitorBlock m.ty v.top w x st.sum st.mag
      let st := { st with c := j + 1, sum := sum, mag := mag }
      let take := if due && m.pred != .sign then s.sampleCell c v.cell st.tau else (st.tau, [], [])
      let from_ := hs ++ ws ++ ts ++ xs ++ take.2.1
      let go (st : VdotLane) : VdotRun :=
        if v.nb ≤ st.c then ⟨{ st with done := some st.sum }, .done, from_, take.2.2⟩ else ⟨st, .more, from_, take.2.2⟩
      if due then
        let st := { st with tau := take.1 }
        match monitorCheck m (num32 v.xinf) (num32 (BitVec.ofNat 32 (leNat t))) (checkTheta m.pred take.1) (j + 1) (num32 sum) (num32 mag) with
        | some yes => ⟨{ st with done := some (0x7FB00000 ||| (if yes then 0x80000 else 0) ||| BitVec.ofNat 32 (j + 1)) }, .done, from_, take.2.2⟩
        | none => go st
      else go st
    | rs, x =>
      match rs.find? fun r => match r with | .ok _ _ => false | _ => true with
      | some (.fault code va) => ⟨{ st with fault := some (code, va) }, .fault false code va, [], []⟩
      | some (.miss ws) => ⟨st, .miss ws, [], []⟩
      | _ => match x with
        | .fault code va => ⟨st, .fault true code va, [], []⟩
        | .miss ws => ⟨st, .miss ws, [], []⟩
        | .ok _ _ => ⟨st, .done, [], []⟩

/-- A lane's state at the start of a VDOT, or as its progress record holds it (R352). -/
def Arch.vdotStart (ar : Arch) (pc : DWord) (lane : Nat) : VdotLane :=
  match ar.vdot with
  | some r => if r.pc = pc then (r.lanes.find? fun l => l.lane == lane).getD ⟨lane, 0, 0, 0, none, none, none⟩ else ⟨lane, 0, 0, 0, none, none, none⟩
  | none => ⟨lane, 0, 0, 0, none, none, none⟩

/-- The progress record of a context (R352). -/
def State.recordVdot (s : State) (k : CtxKey) (r : Option VdotRecord) : State :=
  s.modCtx k fun c => { c with arch := { c.arch with vdot := r } }

/-- A VDOT that is not through: its progress record stands, and its issues to come are of the same instruction, whose comparator check
its lanes have passed (R352, R413). -/
def State.keepVdot (s : State) (k : CtxKey) (iss : Issue) (lanes : List VdotLane) : State :=
  (s.recordVdot k (some ⟨iss.pc, lanes⟩)).modCtx k fun c => { c with passed := some (iss.exec, iss.pc) }

/-- VDOT (R346): each issue sums one block of every lane that has not finished and keeps the progress record, with the PC at the
instruction, so that an interrupt, a save or a page that a lane misses finds every lane at a block boundary (R347, R352) (DEDUCED,
log 61). The destination is written once every lane has finished; a lane that faults stands at its block until the others have. -/
def execVdot (m : VdotMode) (slot : Fin 8) (d : Reg) (a : Pair) (b cc : SPair) (s : State) : Host.Outcome State Fault Refusal :=
  s.withIssue fun iss c =>
    let once := pairIsS a
    s.guarded iss c ⟨[], [d], [pairName a, pairName (pairOfS b), pairName (pairOfS cc)]⟩ (regType d == pairType a) once <|
      let ths := c.arch.ths[slot]
      let ctl := (c.arch.regAt 0 (regOfPair (pairOfS cc)) 1).toNat
      let xinf := c.arch.regAt 0 (regOfPair (pairOfS cc)) 0
      if c.pair.isSome || (m.pred != .sign && !ths.getLsbD 63) then faultAt s iss .ill
      else if isAbandoned xinf then faultAt s iss .abnd
      else
        let cell := if m.pred == .sign then none else some (ths &&& 0x01FFFFFFFFFFFFF8)
        let args (i : Nat) : VdotArgs :=
          ⟨c.arch.pair i a, c.arch.spair b, ctl % 65536, max 1 (ctl / 65536 % 256), xinf, cell, nfmtTop c.arch.nfmt⟩
        let runs := (partLanes once iss.exec).map fun i => s.vdotBlock c m (args i) (c.arch.vdotStart iss.pc i)
        let misses := runs.flatMap fun r => match r.stop with | .miss ws => ws | _ => []
        let gangs := runs.filterMap fun r => match r.stop with | .fault true code va => some (code, va) | _ => none
        let faults := runs.filterMap fun r => match r.stop with | .fault false code va => some (⟨r.lane.lane, code, va⟩ : LaneFault) | _ => none
        let read := (runs.flatMap (·.ask)).foldl State.askPage (s.fillAll c .dev 1 (runs.flatMap (·.from_)))
        let kept := read.keepVdot c.key iss (runs.map (·.lane))
        match gangs, misses with
        | (code, va) :: _, _ => .trap (read.recordVdot c.key none) (Trap.one code va iss.pc)
        | [], w :: ws => .done (kept.parkPages c.key (w :: ws))
        | [], [] =>
          if runs.any fun r => r.stop == .more then .done (kept.settle c.key)
          else
            s.withStreams iss c ⟨[], [d], []⟩ fun _ pushes _ =>
              if s.gateFull c (pushCount pushes) then .done (s.parkGate c.key) else
              match (read.recordVdot c.key none).endLanewise iss c once faults fun ar =>
                  runs.foldl (fun ar r => match r.stop with | .done => ar.putReg r.lane.lane d 0 (r.lane.done.getD 0) | _ => ar) ar with
              | .done s => .done (match s.ctx? c.key with
                | some c => s.commit c c.arch pushes
                | none => s)
              | e => e

/-! ## Threshold cells (R348, R349) -/

/-- The cell that a slot names, if it is bound. -/
def Arch.thsCell (ar : Arch) (n : Fin 8) : Option DWord :=
  if ar.ths[n].getLsbD 63 then some (ar.ths[n] &&& 0x01FFFFFFFFFFFFF8) else none

/-- THS.BIND (R349). -/
def execThsBind (n : Fin 8) (a : SPair) (s : State) : Host.Outcome State Fault Refusal :=
  s.withIssue fun iss c =>
    s.guarded iss c ⟨[], [], [pairName (pairOfS a)]⟩ true true <|
      let addr := c.arch.spair a
      let put (s : State) (x : DWord) : Eff :=
        .done (s.setCtx { c with arch := { c.arch.advance iss with ths := c.arch.ths.set n x }, refused := [] })
      if addr = 0 then put s 0
      else
        match s.resolveLoad c addr 8 8 .dev with
        | .fault code => .trap s (Trap.one code addr iss.pc)
        | .miss w => .done (s.parkPages c.key [w])
        | .ok p => put (s.noteLoad c addr p 8 .dev) (0x8000000000000000 ||| (addr &&& 0x01FFFFFFFFFFFFF8))

/-- The cell after a raise to y (R349). -/
def raised (old : DWord) (y : Word) : DWord :=
  let t := num32 (old.setWidth 32)
  let v := num32 y
  if !v.isNan && (t.isNan || t.before v) then (old.extractLsb' 32 32 + 1) ++ y else old

/-- The raises of the lanes of a list, in ascending order (R241): the state and the old values. -/
def State.raiseAll (s : State) (c : Ctx) (va : DWord) (p : Place) (y : Nat → Word) : List Nat → State × List (Nat × DWord)
  | [] => (s, [])
  | i :: is =>
    let s := (s.noteRead p 8).syncHome c va p
    let old := BitVec.ofNat 64 (leNat (s.homeBytes p 8))
    let new := raised old (y i)
    let s := if new = old then s else s.storeBytes c.frame? (s.pasidOf c.launch) va.toNat p .dev (leBytes new.toNat 8)
    let r := State.raiseAll (s.touch c.key (touchedBits (domainAperture va) p)) c va p y is
    (r.1, (i, old) :: r.2)

/-- The checks of an 8-byte atomic at a cell, WINPERM and MEMUE among them (R214, R220, R227). -/
def State.resolveThs (s : State) (c : Ctx) (va : DWord) : Resolved := s.resolveWrite (s.accessor c) va 8 8 (.atomic none)

/-- THS.RAISE (R349): with release at device scope, lane by lane; in lock-step between two checkpoints (R397). -/
def State.raiseOp (s : State) (d : Pair) (n : Fin 8) (b : Src) : Host.Outcome State Fault Refusal :=
  s.withIssue fun iss c =>
    let once := b.type == .uniform
    s.guarded iss c ⟨b.regs, [], [pairName d]⟩ (pairType d == b.type) once <|
      match c.arch.thsCell n with
      | none => faultAt s iss .ill
      | some va =>
        s.withStreams iss c ⟨b.regs, [], []⟩ fun pops _ ar =>
          let lanes := partLanes once iss.exec
          let bad := lanes.filter fun i => isAbandoned (ar.srcWord i b)
          let good := lanes.filter fun i => !isAbandoned (ar.srcWord i b)
          let abnd := bad.map fun i => (⟨i, .abnd, iss.pc⟩ : LaneFault)
          if good.isEmpty then s.endLanewise iss c once abnd id
          else
            match s.resolveThs c va with
            | .miss w => .done (s.parkPages c.key [w])
            | .fault code => s.endLanewise iss c once (sortFaults (abnd ++ good.map fun i => ⟨i, code, va⟩)) id
            | .ok p =>
              let s := (s.notePopped c ar).release c.key .dev
              let r := (s.checkpoint c.key).raiseAll c va p (fun i => ar.srcWord i b) good
              match r.1.endLanewise iss c once abnd fun ar =>
                  r.2.foldl (fun ar v => ar.setPair v.1 d v.2) (pops.foldl Arch.pop ar) with
              | .done s => .done (s.checkpoint c.key)
              | e => e

/-- A source of THS.RAISE as a source. -/
def srcOfSv (b : SvOp) : Src := .op (opOfSv b)

/-- THS.RAISE, 64-bit form (R349). -/
def execThsRaise64 (d : Pair) (n : Fin 8) (b : SvOp) (s : State) : Host.Outcome State Fault Refusal := s.raiseOp d n (srcOfSv b)

/-- THS.RAISE, 96-bit form (R349). -/
def execThsRaise96 (d : Pair) (n : Fin 8) (lit : Word) (s : State) : Host.Outcome State Fault Refusal := s.raiseOp d n (.lit lit)

/-- THS.READ (R349): a load with acquire at device scope. -/
def execThsRead (d : Pair) (n : Fin 8) (s : State) : Host.Outcome State Fault Refusal :=
  s.withIssue fun iss c =>
    s.guarded iss c ⟨[], [], [pairName d]⟩ (pairIsS d) true <|
      match c.arch.thsCell n with
      | none => faultAt s iss .ill
      | some va =>
        match s.resolveLoad c va 8 8 .dev with
        | .fault code => .trap s (Trap.one code va iss.pc)
        | .miss w => .done (s.parkPages c.key [w])
        | .ok p =>
          let x := (s.loadValue c va p 8 .dev).setWidth 64
          .done (((s.noteLoad c va p 8 .dev).acquireMem c.key .dev).modCtx c.key fun c =>
            { c with arch := (c.arch.setPair 0 d x).advance iss, refused := [] })

end Sys2Proof.Machine
end

