-- ==== Sys2Proof/Machine/Sync.lean ====
section
/-!
DEFINITION. Barriers, cross-lane operations and collectives (R353–R369): family 0x14 and COLLECTIVE_MATCH.
-/
namespace Sys2Proof.Machine

/-! ## The barrier log (R357, R415) -/

/-- One byte of a CRC-32C (Castagnoli, reflected). -/
def crcByte (c : Word) (x : Byte) : Word :=
  (List.range 8).foldl (fun (c : Word) _ => if c.getLsbD 0 then (c >>> 1) ^^^ 0x82F63B78 else c >>> 1) (c ^^^ x.setWidth 32)

/-- The CRC-32C of a byte string. -/
def crc32c (bs : List Byte) : Word := ~~~(bs.foldl crcByte 0xFFFFFFFF)

/-- The byte string of a lane's digest (R357): its registers; one in stream mode contributes zeros. -/
def State.digestBytes (s : State) (c : Ctx) (lane : Nat) : List Byte :=
  let o := s.objectOf c.launch
  let word (w : Word) : List Byte := leBytes w.toNat 4
  ((List.finRange 64).filter fun i => decide (i.val < o.scnt)).flatMap (fun i => word c.arch.s[i])
  ++ ((List.finRange 32).filter fun i => decide (1 ≤ i.val ∧ i.val < o.acnt)).flatMap
      (fun i => word (c.arch.areg i).base ++ word (c.arch.areg i).stride)
  ++ ((List.finRange 64).filter fun i => decide (i.val < c.arch.vc)).flatMap
      (fun i => word (if (c.strm? (.v i)).isSome then 0 else c.arch.vreg lane i))

/-- The 32 bytes of an arrival record (R357). -/
def State.arrivalRecord (s : State) (c : Ctx) (exec : BitVec 64) (cell : DWord) (phase : Word) : List Byte :=
  let lanes := lanesOf exec
  let sum := lanes.foldl (fun x i => x + (crc32c (s.digestBytes c i)).toNat) 0
  leBytes cell.toNat 8 ++ leBytes phase.toNat 4 ++ leBytes lanes.length 4
    ++ leBytes ((c.arch.lane (lanes.headD 0)).tid.toNat % 2 ^ 32) 4 ++ leBytes 0 4 ++ leBytes sum 8

/-- Appending an arrival record to the log of its launch (R415): WIDX is reserved, and a full ring counts the loss. -/
def State.logArrival (s : State) (c : Ctx) (record : List Byte) : State :=
  match (s.launch? c.launch).bind (·.logRing) with
  | none => s
  | some base =>
    let i := s.dev.read base 8
    let s := s.homeWrite none (.dev base) (leBytes (i + 1) 8)
    let nent := s.dev.read (base + 0x18) 4
    if nent ≤ i - s.dev.read (base + 8) 8 then s.homeWrite none (.dev (base + 0x10)) (leBytes (s.dev.read (base + 0x10) 8 + 1) 8)
    else (s.homeWrite none (.dev (base + 0x40 + 32 * (i % nent))) record).releaseMem c.key .dev

/-! ## BAR (R354–R356) -/

/-- The wait of a BAR for its phase to end, and what follows it. -/
def State.barWait (s : State) (iss : Issue) (k : CtxKey) (sc : Scope) (d : Reg) (p : Place) (phase : Word) : State :=
  if (s.cellAt p).phase = phase then
    (s.modCtx k fun c =>
      { c with st := .parked (.barrier p phase), refused := [], arch := { c.arch with mark := some (iss.pc, phase) } }).checkpoint k
  else
    ((s.acquireMem k sc).modCtx k fun c =>
      { c with refused := [], arch := ({ c.arch with mark := none }.writeS d 0).advance iss }).checkpoint k

/-- BAR (R354): one arrival for the active lanes; the instruction at the marked PC only waits. -/
def execBar64 (scope : Scope) (d : Reg) (a : SPair) (s : State) : Host.Outcome State Fault Refusal :=
  s.withIssue fun iss c =>
    s.guarded iss c ⟨[], [d], [pairName (pairOfS a)]⟩ (regType d == .uniform) true <|
      let addr := c.arch.spair a
      match s.resolveCell c addr with
      | .fault code => .trap s (Trap.one code addr iss.pc)
      | .miss w => .done (s.parkPages c.key [w])
      | .ok p =>
        match c.arch.mark with
        | some (pc, phase) =>
          if pc = iss.pc then .done (s.barWait iss c.key scope d p phase) else arrive s iss c addr p
        | none => arrive s iss c addr p
where
  /-- A fresh arrival; one at .FRM is a frame-scope release to the cell's line, which its home slice records (R79, R277, R288). -/
  arrive (s : State) (iss : Issue) (c : Ctx) (addr : DWord) (p : Place) : Eff :=
    let record := s.arrivalRecord c iss.exec addr
    let s := s.release c.key scope
    let r := (s.checkpoint c.key).updateCell c addr p fun g => g.arrive (lanesOf iss.exec).length
    if r.2.2 then
      let t := if scope == .frm then r.1.registerReleaser c.frame? (domainAperture addr) p else r.1
      .done ((t.logArrival c (record r.2.1.phase)).barWait iss c.key scope d p r.2.1.phase)
    else .done ((r.1.modCtx c.key fun c => { c with refused := [], arch := (c.arch.writeS d 1).advance iss }).checkpoint c.key)

/-! ## Trees (R163, R358–R360) -/

/-- A value with the lowest lane that holds it. -/
structure Tagged where
  x : Word
  i : Nat
  deriving DecidableEq, Repr

/-- Whether a word is an FP32 NaN. -/
def isNanWord (x : Word) : Bool := (num32 x).isNan

/-- The combine of R358 and R359, its first operand from the lower lanes, and the flags that it raises. -/
def combine (op : RedOp) (ty : RedTy) (a b : Tagged) : Tagged × Word :=
  match ty, op with
  | .i32, .add => (⟨a.x + b.x, a.i⟩, 0)
  | .i32, .min | .i32, .mini => (if b.x.toInt < a.x.toInt then b else a, 0)
  | .i32, .max | .i32, .maxi => (if a.x.toInt < b.x.toInt then b else a, 0)
  | _, .and => (⟨a.x &&& b.x, a.i⟩, 0)
  | _, .or => (⟨a.x ||| b.x, a.i⟩, 0)
  | _, .xor => (⟨a.x ^^^ b.x, a.i⟩, 0)
  | .f32, .add => let r := faddWord .rne a.x b.x; (⟨r.1, a.i⟩, r.2)
  | .f32, .min | .f32, .mini =>
    (if isNanWord a.x then (if isNanWord b.x then a else b)
     else if !isNanWord b.x && (num32 b.x).before (num32 a.x) then b else a, 0)
  | .f32, .max | .f32, .maxi =>
    (if isNanWord a.x then (if isNanWord b.x then a else b)
     else if !isNanWord b.x && (num32 a.x).before (num32 b.x) then b else a, 0)

/-- One level of the tree: neighbours combine, an absent one gives way. -/
def treeLevel (op : RedOp) (ty : RedTy) : List (Option Tagged) → List (Option Tagged) × Word
  | [] => ([], 0)
  | [x] => ([x], 0)
  | x :: y :: r =>
    let t := treeLevel op ty r
    match x, y with
    | some a, some b => let c := combine op ty a b; (some c.1 :: t.1, c.2 ||| t.2)
    | some a, none => (some a :: t.1, t.2)
    | none, y => (y :: t.1, t.2)

/-- The root of the tree over a list, with the flags of its combines; `n` levels. -/
def treeRoot (op : RedOp) (ty : RedTy) : Nat → List (Option Tagged) → Option Tagged × Word
  | 0, xs => (xs.head?.join, 0)
  | n + 1, xs =>
    let l := treeLevel op ty xs
    let r := treeRoot op ty n l.1
    (r.1, l.2 ||| r.2)

/-- A NaN made canonical (R145), for a type. -/
def canonWord (ty : RedTy) (x : Word) : Word := if ty == .f32 && isNanWord x then 0x7FC00000 else x

/-- The value of the empty case (R358). -/
def emptyWord (op : RedOp) (ty : RedTy) : Word :=
  match op, ty with
  | .min, .i32 | .mini, .i32 => 0x7FFFFFFF
  | .max, .i32 | .maxi, .i32 => 0x80000000
  | .min, .f32 | .mini, .f32 => 0x7F800000
  | .max, .f32 | .maxi, .f32 => 0xFF800000
  | .and, _ => 0xFFFFFFFF
  | _, _ => 0

/-- XSTAT.NV when a signalling NaN is among the values (R360). -/
def snanFlags (ty : RedTy) (xs : List Word) : Word :=
  if ty == .f32 then xs.foldl (fun f x => f ||| (num32 x).snanFlag) 0 else 0

/-! ## Cross-lane operations (R358–R363) -/

/-- The registers of a mask field. -/
def Ctx.maskField (c : Ctx) : Option (Fin 64) → Names
  | some i => ⟨(c.maskNames (.s i)).1, [], (c.maskNames (.s i)).2⟩
  | none => ⟨[], [], []⟩

/-- The lanes that take part (R353). -/
def Arch.partMask (ar : Arch) (exec : BitVec 64) : Option (Fin 64) → BitVec 64
  | some i => exec &&& ar.maskOf i
  | none => exec

/-- An abandoned result among the values of a reduction: a gang fault that names the lowest such lane (R360). -/
def abandonedLane (ty : RedTy) (xs : List (Nat × Word)) : Option Nat :=
  if ty == .f32 then (xs.find? fun x => isAbandoned x.2).map (·.1) else none

/-- A cross-lane instruction: its checks and streams, the fault of an abandoned value, and its effect. -/
def State.crossOp (s : State) (nm : Names) (d : Reg) (mask : Option (Fin 64)) (a : Reg) (ty : RedTy) (whole : Bool)
    (effect : BitVec 64 → List (Nat × Word) → Arch → Arch) : Host.Outcome State Fault Refusal :=
  s.withIssue fun iss c =>
    let nm := (nm.also ⟨[a], [], []⟩).also (c.maskField mask)
    s.guarded iss c nm (regType d == if whole then .uniform else .varying) whole <|
      s.withStreams iss c nm fun pops pushes ar =>
        let xs := (lanesOf (ar.partMask iss.exec mask)).map fun i => (i, ar.reg i a)
        match abandonedLane ty xs with
        | some i => .trap s ⟨[⟨i, .abnd, iss.pc⟩], true, iss.pc⟩
        | none =>
          if s.gateFull c (pushCount pushes) then .done (s.parkGate c.key)
          else .done (s.commit c ((effect (ar.partMask iss.exec mask) xs (pops.foldl Arch.pop c.arch)).advance iss) pushes)

/-- The levels of a gang's tree (R33, R163). -/
def Arch.treeLevels (ar : Arch) : Nat := if ar.wide then 6 else 5

/-- Level 0 of the tree over the lanes that take part. -/
def levelZero (n : Nat) (xs : List (Nat × Word)) : List (Option Tagged) :=
  (List.range n).map fun i => (xs.find? fun x => x.1 == i).map fun x => ⟨x.2, x.1⟩

/-- REDUCE (R359). -/
def reduceArch (m : ReduceMode) (d : Reg) (xs : List (Nat × Word)) (ar : Arch) : Arch :=
  let put (x i : Word) : Arch :=
    let ar := ar.putReg 0 d 0 x
    if m.op == .mini || m.op == .maxi then ar.putReg 0 d 1 i else ar
  let r := treeRoot m.op m.ty ar.treeLevels (levelZero (2 ^ ar.treeLevels) xs)
  match r.1 with
  | none => (put (emptyWord m.op m.ty) 0xFFFFFFFF).orXstat 0x100
  | some t => (put (canonWord m.ty t.x) (BitVec.ofNat 32 t.i)).orXstat (r.2 ||| snanFlags m.ty (xs.map (·.2)))

/-- REDUCE (R358–R360). -/
def execReduce (m : ReduceMode) (mask : Option (Fin 64)) (d : Reg) (a : Reg) (s : State) : Host.Outcome State Fault Refusal :=
  s.crossOp (if m.op == .mini || m.op == .maxi then ⟨[], [], [(d, 2)]⟩ else ⟨[], [d], []⟩) d mask a m.ty true fun _ xs ar =>
    reduceArch m d xs ar

/-- The running combine of SCAN (R361): the values of the lanes in order, and the flags. -/
def scanRun (op : RedOp) (ty : RedTy) (exc : Bool) : Option Word → List (Nat × Word) → List (Nat × Word) × Word
  | _, [] => ([], 0)
  | prev, (i, x) :: xs =>
    let r : Word × Word := match prev with
      | none => (canonWord ty x, 0)
      | some p => let c := combine op ty ⟨p, 0⟩ ⟨x, 1⟩; (canonWord ty c.1.x, c.2)
    let t := scanRun op ty exc (some r.1) xs
    ((i, if exc then prev.getD (emptyWord op ty) else r.1) :: t.1, r.2 ||| t.2)

/-- SCAN (R361). -/
def execScan (m : ScanMode) (mask : Option (Fin 64)) (d : Reg) (a : Reg) (s : State) : Host.Outcome State Fault Refusal :=
  s.crossOp ⟨[], [d], []⟩ d mask a m.ty false fun _ xs ar =>
    let r := scanRun m.op m.ty m.exc none xs
    (r.1.foldl (fun ar v => ar.putReg v.1 d 0 v.2) ar).orXstat (r.2 ||| snanFlags m.ty (xs.map (·.2)))

/-- The lane that SHFL reads for lane i (R362). -/
def shflLane (var : ShflVar) (n : Nat) (i : Nat) (b : Word) : Int :=
  match var with
  | .idx => (b.toNat % n : Nat)
  | .up => (i : Int) - b.toNat
  | .down => (i : Int) + b.toNat
  | .xor => (i ^^^ (b.toNat % n) : Nat)

/-- SHFL (R362). -/
def execShfl (var : ShflVar) (d : Reg) (a : Reg) (b : Operand) (s : State) : Host.Outcome State Fault Refusal :=
  s.withIssue fun iss c =>
    s.simple iss c ⟨a :: opRegs b, [d], []⟩ (regType d == .varying) false fun ar =>
      let n := if ar.wide then 64 else 32
      ar.write iss.exec d .varying ⟨0, 0⟩ fun i =>
        let j := shflLane var n i (ar.opWord i b)
        if 0 ≤ j ∧ j < n ∧ iss.exec.getLsbD j.toNat then ar.reg j.toNat a else ar.reg i a

/-- The stable order of R363: by key, in the direction, equal keys in the order of the list. -/
def sortPairs (desc : Bool) (xs : List DWord) : List DWord :=
  sortOn (fun x => if desc then 2 ^ 32 - 1 - x.toNat % 2 ^ 32 else x.toNat % 2 ^ 32) xs

/-- BSORT and BMERGE (R363): the candidates in lane order, the first m written to the lanes that take part. -/
def State.sortOp (s : State) (desc : Bool) (mask : Option (Fin 64)) (d : Pair) (src : List VPair) : Host.Outcome State Fault Refusal :=
  s.withIssue fun iss c =>
    let nm := (⟨[], [], pairName d :: src.map fun a => pairName (pairOfV a)⟩ : Names).also (c.maskField mask)
    s.simple iss c nm (pairType d == .varying) false fun ar =>
      let lanes := lanesOf (ar.partMask iss.exec mask)
      let xs := sortPairs desc (src.flatMap fun a => lanes.map fun i => ar.pair i (pairOfV a))
      (lanes.zip xs).foldl (fun ar v => ar.setPair v.1 d v.2) ar

/-- BSORT (R363). -/
def execBsort (desc : Bool) (mask : Option (Fin 64)) (d : Pair) (a : VPair) (s : State) : Host.Outcome State Fault Refusal :=
  s.sortOp desc mask d [a]

/-- BMERGE (R363). -/
def execBmerge (desc : Bool) (mask : Option (Fin 64)) (d : Pair) (a b : VPair) (s : State) : Host.Outcome State Fault Refusal :=
  s.sortOp desc mask d [a, b]

/-! ## COLL (R365, R366) -/

/-- The rules of a collective card (R365). -/
def collValid (c : BitVec 2048) : Bool :=
  let f := collField c
  let cop := f 0 1
  let rop := f 1 1
  let ety := f 2 1
  let p := f 4 4
  inRange cop 1 3 && f 3 1 == 0 && inRange p 1 576 && decide (f 8 4 < p) && f 0x18 8 % 2 == 0 && f 0x20 32 == 0
    && (if cop = 2 then rop == 0 else [0, 1, 2, 5, 6, 7].contains rop)
    && [0, 2, 3].contains ety && (decide (rop < 5) || ety == 0) && cardEsize c == (if ety = 3 then 1 else 2)
    && (cardCtl c).extractLsb' 11 21 == 0 && (cop != 3 || cardLen c % p == 0)

/-- COLL (R366). -/
def execColl (d : Reg) (a : SPair) (tag : Fin 64) (s : State) : Host.Outcome State Fault Refusal :=
  s.submitOp collValid [8] .dom d a tag

/-! ## COLLECTIVE_MATCH (R367, R368) -/

/-- Whether two collective cards agree in COP, ROP, ETYPE, P and LEN (R367) (DEDUCED, log 43). -/
def collAgree (c d : BitVec 2048) : Bool :=
  collField c 0 3 == collField d 0 3 && collField c 4 4 == collField d 4 4 && cardLen c == cardLen d

/-- Reading a job's RMAP (R365), under its PASID. -/
def State.readRmap (s : State) (j : Job) (va : DWord) : Nat → Checked (List Nat)
  | 0 => .ok []
  | n + 1 =>
    match s.resolveRead j.accessor va 2 2 .load with
    | .fault c => .fault c va
    | .miss w => .miss w
    | .ok p =>
      match State.readRmap s j (va + 2) n with
      | .ok xs => .ok (leNat (s.homeBytes p 2) :: xs)
      | r => r

/-- A local rank of a collective: its job, RMAP and source elements. -/
structure Rank where
  job  : Job
  rmap : List Nat
  src  : List Nat

/-- RANK of a card. -/
def cardRank (c : BitVec 2048) : Nat := collField c 8 4

/-- The operation of a collective (R365). -/
def collOp (c : BitVec 2048) : RedOp :=
  match collField c 1 1 with
  | 1 => .min
  | 2 => .max
  | 5 => .and
  | 6 => .or
  | 7 => .xor
  | _ => .add

/-- The element that the ranks' elements reduce to (R164, R368). -/
def collReduce (c : BitVec 2048) (xs : List Nat) : Nat :=
  let ety := collField c 2 1
  let ty : RedTy := if ety = 0 then .i32 else .f32
  let words := xs.map fun x => BitVec.ofNat 32 (if ety = 3 then x * 65536 else x)
  match (treeRoot (collOp c) ty 10 (words.map fun w => some ⟨w, 0⟩)).1 with
  | none => 0
  | some t =>
    let x := canonWord ty t.x
    if ety = 3 then ((bf16.word .rne (num32 x)).1).toNat else x.toNat

/-- The destination elements of a rank (R368), from the elements of every rank in rank order. -/
def collResult (c : BitVec 2048) (all : List (List Nat)) : List Nat :=
  let len := cardLen c
  let p := collField c 4 4
  let elem (e : Nat) : Nat := collReduce c (all.map fun xs => xs.getD e 0)
  match collField c 0 1 with
  | 1 => (List.range len).map elem
  | 2 => all.flatten
  | _ => (List.range (len / p)).map fun e => elem (cardRank c * (len / p) + e)

/-- Ending the jobs of a list with a code. -/
def State.endJobs (s : State) (js : List Job) (code : Code) : State :=
  js.foldl (fun s j => s.endJob j (.stop (JobRun.start s) code)) s

/-- Each local rank with its RMAP, or the first rank that stops or waits; a card that declares text or the MMIO aperture ends
PERM (R107, R216). -/
def State.gatherRanks (s : State) : List Job → Except (Job × Option Code × Option PageWait) (List Rank)
  | [] => .ok []
  | j :: js =>
    if cardForbidden j.card then .error (j, some .perm, none) else
    match s.readRmap j (BitVec.ofNat 64 (collField j.card 0x18 8)) (collField j.card 4 4) with
    | .fault c _ => .error (j, some c, none)
    | .miss w => .error (j, none, some w)
    | .ok rmap =>
      if rmap.any fun x => !(s.domain.contains x) then .error (j, some .notmapped, none)
      else
        match State.gatherRanks s js with
        | .ok rs => .ok (⟨j, rmap, []⟩ :: rs)
        | e => e

/-- Reading elements of n bytes, as far as they can be read: their values, or the code or page that ends the reading. -/
def State.collRead (s : State) (j : Job) (va : Int) (n : Nat) : Nat → Except (Option Code × Option PageWait) (List Nat)
  | 0 => .ok []
  | m + 1 =>
    if !inRegions (cardReads j.card) va n then .error (some .footprint, none)
    else match s.resolveRead j.accessor (BitVec.ofInt 64 va) n n .load with
      | .fault c => .error (some c, none)
      | .miss w => .error (none, some w)
      | .ok p =>
        match State.collRead s j (va + n) n m with
        | .ok xs => .ok (leNat (s.homeBytes p n) :: xs)
        | e => e

/-- The sources of the ranks, read in rank order. -/
def State.readRanks (s : State) : List Rank → Except (Job × Option Code × Option PageWait) (List Rank)
  | [] => .ok []
  | r :: rs =>
    match s.collRead r.job (srcAddr r.job.card) (cardBytes r.job.card) (cardLen r.job.card) with
    | .error e => .error (r.job, e)
    | .ok xs =>
      match State.readRanks s rs with
      | .ok qs => .ok ({ r with src := xs } :: qs)
      | e => e

/-- The reads of a rank, of its RMAP and its source, as far as they can be made: the errors that they corrected are counted (R226). -/
def State.noteJobReads (s : State) (j : Job) (va : Int) (n : Nat) : Nat → State
  | 0 => s
  | m + 1 =>
    match s.resolveRead j.accessor (BitVec.ofInt 64 va) n n .load with
    | .ok p => State.noteJobReads (s.noteRead p n) j (va + n) n m
    | _ => s

/-- What the reads of a collective's ranks did besides (R226). -/
def State.noteRanks (s : State) (js : List Job) : State :=
  js.foldl (fun (s : State) j =>
    (s.noteJobReads j (collField j.card 0x18 8 : Nat) 2 (collField j.card 4 4)).noteJobReads j (srcAddr j.card) (cardBytes j.card) (cardLen j.card)) s

/-- A rank that stops ends its own job, and one that misses a page waits for it; the others wait for their peers. -/
def State.rankStops (s : State) (e : Job × Option Code × Option PageWait) : State :=
  match e with
  | (j, some c, _) => s.endJob j (.stop (JobRun.start (if c == .memue then s.recordJob j (cardSrc j.card) else s)) c)
  | (j, none, some w) => (s.askPage w).modJob j.num fun j => { j with waits := [w] }
  | (_, none, none) => s

/-- Writing elements of n bytes one after another from an address on. -/
def jobWriteVals (j : Job) (va : Int) (n : Nat) : List Nat → JobRun → JobEnd
  | [], r => .done r
  | x :: xs, r => r.write j va n (leBytes x n) fun r => jobWriteVals j (va + n) n xs r

/-- Writing the destinations of the local ranks, each in turn; a page that one misses leaves every destination as it was. -/
def writeRanks (all : List (List Nat)) : List Rank → List (Job × Option Code) → JobRun → JobEnd × List (Job × Option Code)
  | [], done, r => (.done r, done)
  | q :: qs, done, r =>
    let c := q.job.card
    let n := cardBytes c
    match jobWriteVals q.job (dstAddr c) n (collResult c all) r with
    | .done r => writeRanks all qs ((q.job, none) :: done) r
    | .stop r code => writeRanks all qs ((q.job, some code) :: done) r
    | .wait w => (.wait w, (q.job, none) :: done)

/-- COMM and SEQ of a collective card, as one number. -/
def collKey (c : BitVec 2048) : Nat := collField c 0xC 0xC

/-- The ranks still to come of a collective that has failed to agree, or 0 (R367). -/
def State.stillToEnd (s : State) (key : Nat) : Nat := ((s.mismatched.find? fun x => x.1 == key).map (·.2)).getD 0

/-- Ending ranks of a collective that failed to agree, `left` ranks being still to come (R367) (DEDUCED, log 43). -/
def State.endMismatch (s : State) (key : Nat) (js : List Job) (left : Nat) : State :=
  let rest := s.mismatched.filter fun x => x.1 != key
  State.endJobs { s with mismatched := if left = 0 then rest else (key, left) :: rest } js .cmismatch

/-- COLLECTIVE_MATCH (R367, R368): the local jobs of the collective of job `num` with the other packages' ranks. A
disagreement ends every job, those still to come too; with all P ranks gathered the results are written. A failed link to a rank's package ends every
job (R369). A self-test that holds an access of one of the jobs holds the match (R401). -/
def execCollectiveMatch (num : Nat) (peers : List Peer) (s : State) : Host.Outcome State Fault Refusal :=
  match s.job? num with
  | none => .next s
  | some lead =>
    let same (j : Job) : Bool := cardKind j.card == 8 && j.st == .running && j.code.isNone
      && collKey j.card == collKey lead.card
    let js := s.jobs.filter same
    let key := collKey lead.card
    if !same lead || js.any (fun j => !j.waits.isEmpty || s.bankTested j.launch none) then .next s
    else if s.stillToEnd key ≠ 0 then .next (s.endMismatch key js (s.stillToEnd key - js.length))
    else
      match s.gatherRanks js with
      | .error e => .next (s.rankStops e)
      | .ok ranks =>
        if ranks.any fun r => r.rmap.any fun x => x != s.pkg && s.deadPeers.contains x then
          .next { s with jobs := s.jobs.map fun j => if same j then { j with code := some (.flink, true) } else j }
        else
        let n := cardLen lead.card
        let p := collField lead.card 4 4
        let map := (ranks.head?.map (·.rmap)).getD []
        let nums := js.map (fun j => cardRank j.card) ++ peers.map (·.rank)
        let peerOk (q : Peer) : Bool :=
          q.agree && q.bytes.length == n * cardBytes lead.card && decide (q.rank < p) && map.getD q.rank s.pkg != s.pkg
        if !(ranks.all fun r => collAgree r.job.card lead.card && r.rmap == map && r.rmap.getD (cardRank r.job.card) 0 == s.pkg)
            || !(peers.all peerOk) || nums.eraseDups.length != nums.length then
          .next (s.endMismatch key js (p - nums.length))
        else if nums.length < p then .next s
        else
          match s.readRanks ranks with
          | .error e => .next ((s.noteRanks js).rankStops e)
          | .ok ranks =>
            let s := s.noteRanks js
            let all := (List.range p).map fun i =>
              match ranks.find? fun r => cardRank r.job.card == i with
              | some r => r.src
              | none => ((peers.find? fun q => q.rank == i).map fun q =>
                  groupBytes (cardBytes lead.card) n (q.bytes.map BitVec.toNat)).getD []
            match writeRanks all ranks [] (JobRun.start s) with
            | (.done r, ends) =>
              .next (ends.reverse.foldl (fun s e =>
                s.endJob e.1 (match e.2 with | some c => .stop (JobRun.start s) c | none => .done (JobRun.start s))) r.s)
            | (.wait w, (j, _) :: _) => .next ((s.askPage w).modJob j.num fun j => { j with waits := [w] })
            | _ => .next s

end Sys2Proof.Machine
end

