-- ==== Sys2Proof/Machine/MemEvents.lean ====
section
/-!
DEFINITION. The events of memory: translation (R222–R224), replies (R44, R120, R227), errors (R226, R228), accesses from
outside the package (R41, R43, R215) and links (R39, R364, R388).
-/
namespace Sys2Proof.Machine

/-! ## Translation requests (R221–R224) -/

/-- Whether a page wait names a die's page. -/
def PageWait.names (w : PageWait) (die : Fin 4) (pasid : BitVec 20) (page : Nat) : Bool :=
  w.die == die && w.pasid == pasid && w.page == page

/-- The pages that a context waits for. -/
def Ctx.waits (c : Ctx) : List PageWait :=
  match c.st with
  | .parked (.pages ps) => ps
  | _ => []

/-- Every page that something waits for. -/
def State.allWaits (s : State) : List PageWait :=
  s.ctxs.flatMap Ctx.waits ++ s.jobs.flatMap Job.waits ++ s.pending.flatMap Pending.waits ++ s.stamps.flatMap Stamp.waits

/-- The pages whose translation a context looks for: those that it waits for, or the page of an MWAIT (R270). -/
def Ctx.wants (c : Ctx) (pasid : BitVec 20) (page : Nat) : Bool :=
  match c.st with
  | .parked (.pages ps) => ps.any fun w => w.pasid == pasid && w.page == page
  | .parked (.mwait va none _ _ _ _ _ _) => pageOf va.toNat == page
  | _ => false

/-- A context that reads its translation again by itself: one in SYSTEM handling or in MWAIT. -/
def Ctx.retries (c : Ctx) : Bool :=
  match c.st with
  | .parked .system => true
  | .parked (.mwait _ _ _ _ _ _ _ _) => true
  | _ => false

/-- A context whose page has replayed or been refused (R223): it executes again once it waits for no page. -/
def Ctx.settlePage (c : Ctx) (w : PageWait) (code : Option Code) : Ctx :=
  let note (c : Ctx) : Ctx := match code with
    | some x => { c with refused := (w, x) :: c.refused }
    | none => c
  if c.waits.contains w then
    match c.waits.filter fun x => x != w with
    | [] => { note c with st := .live }
    | ws => { note c with st := .parked (.pages ws) }
  else if c.retries then note c
  else c

/-- Adding a refusal, if there is one. -/
def addRefusal (w : PageWait) (code : Option Code) (rs : List (PageWait × Code)) : List (PageWait × Code) :=
  match code with
  | some x => (w, x) :: rs
  | none => rs

/-- The outcome of a page for everything that waits for it: it replays, or it is refused with a code (R223). -/
def State.settlePage (s : State) (w : PageWait) (code : Option Code) : State :=
  let due := (s.stamps.filter fun t => t.waits.contains w).map (·.order)
  let s := { s with
    ctxs := s.ctxs.map fun c => c.settlePage w code,
    jobs := s.jobs.map fun j =>
      if j.waits.contains w then { j with waits := j.waits.filter fun x => x != w, refused := addRefusal w code j.refused } else j,
    pending := s.pending.map fun p =>
      if p.waits.contains w then { p with waits := p.waits.filter fun x => x != w, refused := addRefusal w code p.refused } else p,
    stamps := s.stamps.map fun t =>
      if t.waits.contains w then { t with waits := t.waits.filter fun x => x != w, refused := addRefusal w code t.refused } else t }
  due.foldl (fun s o =>
    match s.stamps.find? fun t => t.order == o with
    | some t => s.pumpStamp o t.queue
    | none => s) s

/-- A page request to the host, or without PRI the refusal at once (R40, R223). -/
def State.requestPage (s : State) (w : PageWait) : State :=
  if s.ports[diePort w.die].hcap.getLsbD 2 then (if s.pri.contains w then s else { s with pri := s.pri ++ [w] })
  else s.settlePage w (some .notmapped)

/-- The set of a level that a page falls in (R221: entries over ways) (DESIGN CHOICE, log 16). -/
def TlbEntry.index (e : TlbEntry) : Nat := e.page % (Config.tlbMax e.level / Config.tlbWays e.level)

/-- Entering a translation at a level: in a full set the oldest entry goes (DESIGN CHOICE, log 16). -/
def State.enterTlb (s : State) (e : TlbEntry) : State :=
  let same (x : TlbEntry) : Bool := x.level == e.level && x.owner == e.owner && x.index == e.index
  let kept := (s.tlb.filter fun x => same x && !(x.pasid == e.pasid && x.page == e.page && x.log2 == e.log2)).take (Config.tlbWays e.level - 1)
  { s with tlb := e :: (kept ++ s.tlb.filter fun x => !(same x)) }

/-- What a completed request leaves in the caches (R221): the die cache, and the TLBs of the boards and frames whose contexts look for
the page, take it; a hit in a lower level fills no other level (DESIGN CHOICE, log 62). -/
def State.cacheTranslation (s : State) (die : Fin 4) (pasid : BitVec 20) (page base log2 : Nat) (write : Bool) : State :=
  let entry (level : Fin 3) (owner : Nat) : TlbEntry := ⟨level, owner, pasid, page * 4096 / 2 ^ log2, log2, base, write⟩
  let cs := s.ctxs.filter fun c => coreDie c.key.core == die && s.pasidOf c.launch == pasid && c.wants pasid page
  let s := s.enterTlb (entry 2 die.val)
  cs.foldl (fun (s : State) (c : Ctx) =>
    let s := s.enterTlb (entry 1 (boardNo c.key.core))
    if c.away then s else s.enterTlb (entry 0 (frameNo c.key.core))) s

/-- The jobs that wait for a page keep its translation until they end or it is invalidated: each page of a job is asked for once,
however many it has (R223, R257) (DEDUCED, log 33). -/
def State.holdPage (s : State) (w : PageWait) (e : TlbEntry) : State :=
  { s with jobs := s.jobs.map fun j => if j.waits.contains w then { j with held := e :: j.held } else j }

/-- ATS_COMPLETION (R222, R223): only an outstanding request completes; what waits for it replays, or asks the host, which a VDOT's sample
never does (R350). -/
def execAtsCompletion (die : Fin 4) (pasid : BitVec 20) (page : Nat) (ans : AtsAnswer) (s : State) : Host.Outcome State Fault Refusal :=
  let mine (w : PageWait) : Bool := w.names die pasid page
  let sent := (s.ats.filter fun w => w.die == die).take Config.atsMax
  if s.ports[diePort die].mode == .down || !(sent.any mine) then .next s
  else
    let ws := ((s.ats ++ s.allWaits).filter fun w => mine w && !(s.pri.contains w)).eraseDups
    let s' := { s with ats := s.ats.filter fun w => !(mine w) }
    match ans with
    | .refused => .next ((ws.filter fun w => !w.quiet || s.allWaits.contains w).foldl State.requestPage s')
    | .granted base log2 write =>
      if [12, 21, 30].contains log2 && base % 2 ^ log2 == 0 then
        let e : TlbEntry := ⟨2, die.val, pasid, page * 4096 / 2 ^ log2, log2, base, write⟩
        .next (ws.foldl (fun s w => if write || !w.write then (s.holdPage w e).settlePage w none else s.requestPage w)
          (s'.cacheTranslation die pasid page base log2 write))
      else .next s

/-- PRI_RESPONSE (R223): Gyhouc reports a Response Failure. -/
def execPriResponse (die : Fin 4) (pasid : BitVec 20) (page : Nat) (ans : PriAnswer) (s : State) : Host.Outcome State Fault Refusal :=
  let mine (w : PageWait) : Bool := w.names die pasid page
  let sent := (s.pri.filter fun w => diePort w.die == diePort die).take Config.priMax
  let ws := sent.filter mine
  if s.ports[diePort die].mode == .down || ws.isEmpty then .next s
  else
    let s := { s with pri := s.pri.filter fun w => !(ws.contains w) }
    match ans with
    | .success => .next (ws.foldl (fun s w => s.settlePage w none) s)
    | .absent => .next (ws.foldl (fun s w => s.settlePage w (some .notmapped)) s)
    | .present => .next (ws.foldl (fun s w => s.settlePage w (some .perm)) s)
    | .failure =>
      let s := ws.foldl (fun s w => s.settlePage w (some .notmapped)) s
      .next { s with reports := s.reports ++ [.pageFailure pasid page] }

/-- Whether a virtual address of a PASID lies in the pages of an invalidation, or in a larger page whose entry it removed (R224). -/
def Invalidation.covers (i : Invalidation) (va : Nat) : Bool :=
  inRange va (4096 * i.page) (4096 * i.pages) || i.wide.any fun r => inRange va r.1 r.2

/-- Whether an access of a context that waits for its reply used a translation of a range (R224). -/
def State.usesPages (s : State) (c : Ctx) (i : Invalidation) : Bool :=
  match c.st with
  | .parked (.reply r) => s.pasidOf c.launch == i.pasid && r.acc.any fun x => i.covers x.va.toNat
  | _ => false

/-- What an invalidation makes of a parked MWAIT or BAR on a removed page: it translates again (R224). -/
def Ctx.retranslate (c : Ctx) (i : Invalidation) : Ctx :=
  match c.st with
  | .parked (.mwait va _ d x sc t polled next) =>
    if i.covers va.toNat then { c with st := .parked (.mwait va none d x sc t polled next), woken := true } else c
  | .parked (.barrier _ _) => { c with st := .live }
  | _ => c

/-- Whether a cached translation meets an invalidation. -/
def TlbEntry.meets (e : TlbEntry) (i : Invalidation) : Bool :=
  e.pasid == i.pasid && rangesMeet (e.page * 2 ^ e.log2) (2 ^ e.log2) (4096 * i.page) (4096 * i.pages)

/-- The invalidation of a range of 4 KiB pages: of an entry for a larger page that it removes, all of the page (R221, R224). -/
def State.invalidation (s : State) (pasid : BitVec 20) (page pages : Nat) : Invalidation :=
  let i : Invalidation := ⟨pasid, page, pages, []⟩
  let gone := (s.tlb ++ s.jobs.flatMap Job.held).filter fun e => e.meets i
  { i with wide := (gone.map fun e => (e.page * 2 ^ e.log2, 2 ^ e.log2)).eraseDups }

/-- Performing at system scope what used a range's translations (R224): the pushes and gated stores of the PASID's contexts, and the
frame-cache lines of the range, which leave the frames. -/
def State.dropRange (s : State) (i : Invalidation) : State :=
  let keys := (s.ctxs.filter fun c => s.pasidOf c.launch == i.pasid).map (·.key)
  let s := keys.foldl (fun s k => (s.flushStreams k).checkpoint k) s
  let hit (l : CacheLine) : Bool := l.pasid == i.pasid && i.covers (128 * l.line)
  let s := s.writeBackAll (s.cache.filter hit)
  { s with
    cache := s.cache.filter fun l => !(hit l),
    hostLines := s.hostLines.filter fun h => !(h.pasid == i.pasid && i.covers (128 * h.line)) }

/-- The completions of the invalidations that nothing outstanding holds back any more go to the host (R224). -/
def State.settleInvals (s : State) : State :=
  let due := s.invals.filter fun i => s.ctxs.all fun c => !(s.usesPages c i)
  due.foldl (fun (s : State) i =>
    let s := s.dropRange i
    { s with invals := s.invals.filter fun x => x != i, reports := s.reports ++ [Report.invalidated i.pasid i.page i.pages] }) s

/-- ATS_INVALIDATION (R224): the matching entries go at once at every level, and what used them is performed at system scope; its
completion is sent when no access that used one is outstanding. -/
def execAtsInvalidation (pasid : BitVec 20) (page : Nat) (pages : Nat) (s : State) : Host.Outcome State Fault Refusal :=
  let i := s.invalidation pasid page pages
  let s := s.dropRange i
  let s : State := { s with
    invals := s.invals ++ [i],
    tlb := s.tlb.filter fun e => !(e.meets i),
    jobs := s.jobs.map fun j => { j with held := j.held.filter fun e => !(e.meets i) },
    ctxs := s.ctxs.map fun c => if s.pasidOf c.launch == pasid then c.retranslate i else c }
  .next s.settleInvals

/-! ## Errors of storage (R226–R228) -/

/-- SCRUB_PASS (R226): each symbol that the pass corrects is written back and counted against its row; `corrected` names further rows
in which it met one. -/
def execScrubPass (stack : Fin 12) (corrected : List Nat) (s : State) : Host.Outcome State Fault Refusal :=
  let mine (f : Flaw) : Bool := match f with | .home (.dev d) 1 => homeStack d == stack.val | _ => false
  let rows := (s.flaws.filter mine).filterMap Flaw.slice?
  let s := { s with flaws := s.flaws.filter fun f => !(mine f) }
  .next ((rows ++ corrected.map fun r => Slice.row (12 * r + stack.val)).foldl State.countCorrected s)

/-- Aborting every launch of a PASID (R228). -/
def State.killPasid (s : State) (pasid : BitVec 20) (code : Code) : State :=
  let ns := ((s.launches.filter fun x => x.pasid == pasid).map (·.number))
    ++ (s.pending.filter fun p => p.checked && p.pasid == pasid).map (·.number)
  ns.foldl (fun s n => s.killLaunch n code) s

/-- The record of an error in a bank (R403). -/
def State.recordBank (s : State) (bank : Nat) : State :=
  { s with reports := s.reports ++ [Report.record (errorRecord 0x18 3 bank s.tick 0 bank)] }

/-- MACHINE_CHECK (R228): a dirty line that cannot be written back is lost, and every launch of its PASID is aborted; a clean one is
dropped, and the next access fetches it again. `line` is the virtual line that tags a line of a frame's cache, with its PASID, and the
number in device memory of one of a home slice. -/
def execMachineCheck (u : CacheUnit) (pasid : BitVec 20) (line : Nat) (s : State) : Host.Outcome State Fault Refusal :=
  match u with
  | .frame frame =>
    match s.line? frame pasid (128 * line) with
    | some l =>
      if l.dirty == 0 then .next { s with cache := s.cache.filter fun x => !(x.holds frame pasid (128 * line)) }
      else .next (((s.loseLine l).recordBank (cacheBank frame line)).killPasid pasid .memue)
    | none =>
      match s.hostLines.find? fun h => h.holds frame pasid (128 * line) with
      | none => .next s
      | some h =>
        let s := { s with hostLines := s.hostLines.filter fun x => x != h }
        if h.dirty then
          let s := s.putHomes (.host (128 * h.pa)) (lineBytes h.stale)
          let s := { s with reports := s.reports ++ [Report.machineCheck (.host (128 * h.pa))] }
          .next ((s.recordBank (cacheBank frame line)).killPasid pasid .memue)
        else .next s
  | .slice =>
    match s.l2.find? fun x => x.line == line with
    | none => .next s
    | some x =>
      let s := { s with l2 := s.l2.filter fun y => y.line != line }
      if x.dirty then
        let s := s.putHomes (.dev (128 * line)) (lineBytes x.stale)
        let s := { s with reports := s.reports ++ [Report.machineCheck (.dev (128 * line))] }
        let s := s.recordBank (sliceCacheBank line)
        .next (match x.pasid with
          | some p => s.killPasid p .memue
          | none => s)
      else .next s

/-! ## Replies (R44, R120, R227) -/

/-- Whether an access became a PCIe AtomicOp (R43). -/
def State.isHostOp (s : State) (c : Ctx) (r : Request) (x : Access) : Bool :=
  (match r.kind with | .atomic _ _ => true | _ => false) && (match x.place with | .host _ => true | _ => false)
  && s.ports[diePort (coreDie c.key.core)].mode != .cxl

/-- The entries of the gated store buffer that landing a request takes (R396). -/
def Ctx.replyGates (c : Ctx) (r : Request) : Nat :=
  pushCount r.pushes + match r.kind with
    | .store => gatedCount c r.acc
    | .claim slot _ _ _ => (c.streamsIn (nestRegs c.arch.iter[slot].desc)).length
    | _ => 0

/-- Whether a reply can land: every host AtomicOp of its request has completed, the gated store buffer has room (R396), and no
self-test holds a bank that it goes through (R401). -/
def State.replyReady (s : State) (c : Ctx) (r : Request) : Bool :=
  (r.acc.all fun x => x.answer.isSome || !(s.isHostOp c r x)) && !s.gateFull c (c.replyGates r) && !s.bankTested c.launch (some c.core)

/-- Whether a reply waits for room in the gated store buffer of a context's pair (R396). -/
def State.gateWaits (s : State) (k : CtxKey) : Bool :=
  s.ctxs.any fun c => pairCore c.key.core == pairCore k.core &&
    match c.st with
    | .parked (.reply r) => s.gateFull c (c.replyGates r)
    | _ => false

/-- Whether landing a reply has something that a lock-step pair compares (R395): registers that it writes back or data that enters the
gated store buffer. The operands of an external operation were compared when it was sent (DEDUCED, log 32). -/
def Ctx.replyCompared (c : Ctx) (r : Request) : Bool :=
  match r.kind with
  | .load _ _ => true
  | .store => r.acc.all fun x => c.gatedPlace x.place
  | _ => false

/-- The element that an instruction pushes with its result and that its owning pool refuses as it arrives (R214, R247). -/
def State.pushRefused (s : State) (c : Ctx) (r : Request) : Option DWord :=
  r.pushes.findSome? fun p => p.dest.bind fun x => if s.windowRefused (s.accessor c) x.1 x.2 then some x.1 else none

/-- Landing a reply by its kind (DEDUCED, log 14). A result that goes into a window which refuses it faults the instruction before it
has any effect (R214, R247). -/
def State.landReply (s : State) (c : Ctx) (r : Request) (errors : List Nat) : State :=
  match r.faults, s.pushRefused c r with
  | [], some va => s.completeRequest c.key { r with pops := [], pushes := [] } id [⟨0, .winperm, va⟩]
  | _, _ =>
  match r.kind with
  | .load d prm => s.landLoad c.key c r d prm errors
  | .store => s.landStore c.key c r
  | .atomic op d => s.landAtomic c.key c r op d errors
  | .claim slot body taken empty => s.landClaim c.key c r slot body taken empty errors

/-- MEMORY_REPLY (R120, R226, R227): `errors` names the lanes that met an uncorrectable error, `corrected` the slices in which
an error was corrected. A lock-step mismatch at the write-back rolls the context back (R395, R400). -/
def execMemoryReply (key : CtxKey) (errors : List Nat) (corrected : List Slice) (s : State) : Host.Outcome State Fault Refusal :=
  match s.ctx? key with
  | none => .next s
  | some c =>
    match c.st with
    | .parked (.reply r) =>
      if !(s.replyReady c r) then .next s
      else if c.replyCompared r && s.struck key then .next (s.rollBack key)
      else .next ((corrected.foldl State.countCorrected (s.landReply c r errors)).freeWritten c.launch).settleInvals
    | _ => .next s

/-- The host memory that a performed AtomicOp leaves, and the old value (R43): the completer performs it, and every frame loses
the line. -/
def State.hostAtomic (s : State) (pasid : BitVec 20) (op : AtomicOp) (n pa : Nat) (x : Access) : State × BitVec 128 :=
  let m := BitVec.ofNat 128 (s.host.read pa n)
  match atomicResult afaddWord op n m x.x x.y with
  | some y => ((s.snoopLine (.host pa)).homeWrite (some pasid) (.host pa) (leBytes y.toNat n), m)
  | none => (s, m)

/-- HOST_ATOMIC_COMPLETION (R43, R44, R241): the lanes of one location complete in ascending order, each after the release of its
order (R286); a refusal faults HATOM in the lane, clears the HCAP bit and releases nothing (R292). -/
def execHostAtomicCompletion (key : CtxKey) (lane : Nat) (ok : Bool) (s : State) : Host.Outcome State Fault Refusal :=
  match s.ctx? key with
  | none => .next s
  | some c =>
    match c.st with
    | .parked (.reply r) =>
      match r.kind, r.acc.find? fun x => x.lane == lane && x.answer.isNone && s.isHostOp c r x with
      | .atomic op _, some x =>
        if r.acc.any fun y => decide (y.lane < lane) && y.place == x.place && y.answer.isNone then .next s
        else
          let port := diePort (coreDie c.key.core)
          match x.place, ok with
          | .host pa, true =>
            let h := (s.relBefore key r.ord (accScope r.acc r.scope)).hostAtomic (s.pasidOf c.launch) op (bytesOf r.size) pa x
            let acc := r.acc.map fun y => if y.lane == lane then { y with answer := some h.2 } else y
            .next (h.1.modCtx key fun c => { c with st := .parked (.reply { r with acc := acc }) })
          | _, _ =>
            let p := s.ports[port]
            let bits := match hostAtomicBit op r.size with
              | some i => p.hcap &&& ~~~(1#32 <<< i)
              | none => p.hcap
            let r := { r with acc := r.acc.filter fun y => y.lane != lane, faults := ⟨lane, .hatom, x.va⟩ :: r.faults }
            let s := { s with ports := s.ports.set port { p with hcap := bits } }
            .next (s.modCtx key fun c => { c with st := .parked (.reply r) })
      | _, _ => .next s
    | _ => .next s

/-! ## Accesses from outside the package (R41, R43, R215, R220) -/

/-- The offset and the bytes of an outside access to this package's device memory. -/
def reqRange : OutsideReq → Nat × Nat
  | .barRead _ _ => (0, 0)
  | .barWrite _ _ _ => (0, 0)
  | .remote _ _ _ => (0, 0)
  | .read off n => (off, n)
  | .write off n _ => (off, n)
  | .fetchAdd off n _ => (off, n)
  | .swap off n _ => (off, n)
  | .cas off n _ _ => (off, n)

/-- The value that an outside access writes, given the old value. -/
def reqNew (m : BitVec 128) : OutsideReq → Option (BitVec 128)
  | .barRead _ _ => none
  | .barWrite _ _ _ => none
  | .remote _ _ _ => none
  | .read _ _ => none
  | .write _ _ x => some x
  | .fetchAdd _ n x => some (BitVec.ofNat 128 ((m.toNat + x.toNat) % 2 ^ (8 * n)))
  | .swap _ _ x => some x
  | .cas _ _ x y => if m == x then some y else none

/-- Performing an outside access at its home slice: the answer is a fault code, or 0 and the value (R215, R220). Text is
changed by Gyhouc alone (R107). -/
def State.outsideAccess (s : State) (req : OutsideReq) : State × BitVec 8 × BitVec 128 :=
  let (off, n) := reqRange req
  if n = 0 ∨ 16 < n ∨ Config.devBytes < off + n then (s, Code.byte .notmapped, 0)
  else
    let m := BitVec.ofNat 128 (s.dev.read off n)
    match reqNew m req with
    | none => (s.enterL2 none false (.dev off), 0, m)
    | some x =>
      if (List.range n).any fun i => s.isText (off + i) then (s, Code.byte .perm, 0)
      else (s.homeWrite none (.dev off) (leBytes x.toNat n), 0, m)

/-- An outside access with its answer (DEDUCED, log 35). -/
def State.answerOutside (s : State) (req : OutsideReq) : State :=
  let r := s.outsideAccess req
  { r.1 with reports := r.1.reports ++ [.answer r.2.1 r.2.2] }

/-- The value of a queue's register by its offset in the queue's block (R48); other offsets read 0 (DEDUCED, log 37). -/
def Queue.read (q : Queue) : Nat → Nat
  | 0x00 => q.base.toNat
  | 0x08 => q.log2n.toNat + if q.en then 256 else 0
  | 0x10 => q.tail
  | 0x18 => q.head
  | 0x20 => q.stat.toNat
  | _ => 0

/-- A host write of a whole register of a queue by its offset (R48): LQHEAD is read-only. -/
def State.queueSet (s : State) (port : Fin 2) (q : Fin 16) (off : Nat) (v : DWord) : Host.Outcome State Fault Refusal :=
  match off with
  | 0x00 => execLqbaseWrite port q v s
  | 0x08 =>
    if v.getLsbD 8 then execLqctlEnable port q (v.extractLsb' 0 5) s
    else if (s.ports[port].queues[q]).en then execLqctlDisable port q s
    else execLqctlResize port q (v.extractLsb' 0 5) s
  | 0x10 => execLqtailWrite port q v s
  | 0x20 => execLqstatClear port q v s
  | _ => .next s

/-- The queue and the register offset of a BAR0 offset in the launch window (R48). -/
def windowReg (off : Nat) : Option (Fin 16 × Nat) :=
  if inRange off 0x10000 0x1000 then some (⟨(off - 0x10000) / 0x100 % 16, Nat.mod_lt _ (by decide)⟩, off % 0x100 / 8 * 8) else none

/-- A read of n bytes at an offset of a port's BAR0 (R48): the bytes of the register that holds it. -/
def State.barRead (s : State) (port : Fin 2) (off n : Nat) : Nat :=
  match windowReg off with
  | some (q, r) => (s.ports[port].queues[q]).read r / 256 ^ (off % 8) % 256 ^ min n (8 - off % 8)
  | none => 0

/-- A write of n bytes at an offset of a port's BAR0 (R48): the register's other bytes keep their value; those of LQSTAT, where a 1
clears, are written as 0. -/
def State.barWrite (s : State) (port : Fin 2) (off n : Nat) (x : DWord) : Host.Outcome State Fault Refusal :=
  match windowReg off with
  | some (q, r) =>
    let lo := 256 ^ (off % 8)
    let span := 256 ^ min n (8 - off % 8)
    let old := if r = 0x20 then 0 else (s.ports[port].queues[q]).read r
    s.queueSet port q r (BitVec.ofNat 64 (old - old / lo % span * lo + x.toNat % span * lo))
  | none => .next s

/-- A request from outside to device memory is answered, a cycle later where the self-test of a home slice's bank holds it (R401). -/
def State.serveOutside (s : State) (event : Instr) (req : OutsideReq) : State :=
  if s.sliceTested (reqRange req).1 (reqRange req).2 then { s with inputs := s.inputs ++ [(s.tick + 1, event)] } else s.answerOutside req

/-- HOST_MEMORY_REQUEST (R41, R46, R48): a trained port reaches the registers of its launch window by its BAR0, and device memory by
CXL.mem alone. -/
def execHostMemoryRequest (port : Fin 2) (req : OutsideReq) (s : State) : Host.Outcome State Fault Refusal :=
  if s.boot != .running || s.ports[port].mode == .down then .next s
  else match req with
    | .barRead off n => .next { s with reports := s.reports ++ [.answer 0 (BitVec.ofNat 128 (s.barRead port off n))] }
    | .barWrite off n x => s.barWrite port off n x
    | .remote _ _ _ => .next s
    | req => .next (if s.ports[port].mode == .cxl then s.serveOutside (.hostMemoryRequest port req) req else s)

/-- What another package writes to its own device memory (R215): this package sees it there, and its waits on it end (R270, R354)
(DEDUCED, log 34). -/
def State.remoteWrite (s : State) (pkg off n : Nat) (x : BitVec 128) : State :=
  if Config.devBytes < off + n then s else s.homeWrite none (.dom pkg off) (leBytes x.toNat n)

/-- DOMAIN_REQUEST (R215): another package of the domain reaches the offsets that are opened to its PASID, or writes its own memory. -/
def execDomainRequest (pkg : Nat) (pasid : BitVec 20) (req : OutsideReq) (s : State) : Host.Outcome State Fault Refusal :=
  let (off, n) := reqRange req
  if s.boot != .running || pkg == s.pkg || !(s.domain.contains pkg) || s.deadPeers.contains pkg then .next s
  else match req with
    | .remote off n x => .next (s.remoteWrite pkg off n x)
    | req =>
      if Config.devBytes ≤ off then .next { s with reports := s.reports ++ [.answer (Code.byte .notmapped) 0] }
      else if s.opened.any fun o => o.1 == s.pkg && o.2.1 == pasid && inRange off o.2.2.1 o.2.2.2 && decide (off + n ≤ o.2.2.1 + o.2.2.2) then
        .next (s.serveOutside (.domainRequest pkg pasid req) req)
      else .next { s with reports := s.reports ++ [.answer (Code.byte .perm) 0] }

/-- SNOOP (R43, R270): the host's writes to a line of its memory. In CXL mode the snoop takes the line from the frame caches
and wakes MWAIT; in PCIe-only mode nothing of it reaches the device. -/
def execSnoop (line : Nat) (bytes : List (Nat × Byte)) (s : State) : Host.Outcome State Fault Refusal :=
  let s := { s with host := bytes.foldl (fun m x => m.put (128 * line + x.1 % 128) x.2) s.host }
  if s.ports[0].mode == .cxl || s.ports[1].mode == .cxl then
    .next ((s.snoopLine (.host (128 * line))).noteWrite (.host (128 * line)))
  else .next s

/-! ## Links (R39, R42, R364, R388) -/

/-- HCAP after training: the atomic bits stay, the others are set (R42) (DEDUCED, log 34). -/
def trainedHcap (old : Word) (cxl ats pri : Bool) : Word :=
  (old &&& 0x3F8) ||| 0x60000 ||| (if pri then 4 else 0) ||| (if ats then 2 else 0) ||| (if cxl then 1 else 0)

/-- The accesses of a request that a failed link takes with it, as faults of their lanes. -/
def Request.lose (r : Request) (code : Code) (lost : Access → Bool) : Request :=
  { r with acc := r.acc.filter fun x => !(lost x),
           faults := (r.acc.filter lost).map (fun x => ⟨x.lane, code, x.va⟩) ++ r.faults }

/-- Losing accesses of every request that waits. -/
def State.loseReplies (s : State) (code : Code) (lost : Ctx → Request → Access → Bool) : State :=
  { s with ctxs := s.ctxs.map fun c =>
      match c.st with
      | .parked (.reply r) => { c with st := .parked (.reply (r.lose code (lost c r))) }
      | _ => c }

/-- A host port goes down: HCAP.SPEED reads 0, and the accesses through it that have not completed fault HLINK (R388)
(DEDUCED, log 34). -/
def State.dropLink (s : State) (port : Fin 2) : State :=
  let p := s.ports[port]
  let s := { s with ports := s.ports.set port { p with mode := .down, hcap := p.hcap &&& 0xFFF0FFFF } }
  let s := s.loseReplies .hlink fun c _ x =>
    (match x.place with | .host _ => true | _ => false) && x.answer.isNone && diePort (coreDie c.key.core) == port
  { s with reports := s.reports ++ [.linkDown port] }

/-- HOST_LINK_DOWN (R388). -/
def execHostLinkDown (port : Fin 2) (s : State) : Host.Outcome State Fault Refusal :=
  .next (if s.ports[port].mode == .down then s else s.dropLink port)

/-- ATOMIC_WIDTH_REPORT (R42): Gyhouc clears an atomic bit of HCAP. -/
def execAtomicWidthReport (port : Fin 2) (bit : Fin 7) (s : State) : Host.Outcome State Fault Refusal :=
  let p := s.ports[port]
  .next { s with ports := s.ports.set port { p with hcap := p.hcap &&& ~~~(1#32 <<< (3 + bit.val)) } }

/-- Whether a running collective exchanges with a package (R369). -/
def State.exchangesWith (s : State) (j : Job) (peer : Nat) : Bool :=
  cardKind j.card == 8 && j.st == .running && j.code.isNone
  && match s.readRmap j (BitVec.ofNat 64 (collField j.card 0x18 8)) (collField j.card 4 4) with
    | .ok xs => xs.contains peer
    | _ => false

/-- Reporting the packages that no healthy route reaches any more: the accesses that wait for them fault FLINK, but for loads
that a line of their frame serves, and the collectives with them end (R364, R369). -/
def State.losePeers (s : State) (before : List Nat) : State :=
  let gone := s.deadPeers.filter fun p => !(before.contains p)
  gone.foldl (fun (s : State) peer =>
    let s := { s with reports := s.reports ++ [Report.linkFailed peer] }
    let served (c : Ctx) (r : Request) (x : Access) : Bool :=
      match r.kind with | .load _ _ => (s.lineServes c x.va (bytesOf r.size) .load r.scope).isSome | _ => false
    let s := s.loseReplies .flink fun c r x => (match x.place with | .dom p _ => p == peer | _ => false) && !served c r x
    { s with jobs := s.jobs.map fun j => if s.exchangesWith j peer then { j with code := some (.flink, true) } else j }) s

/-- LINK_FAILURE (R364, R369): a port of the fabric fails, and Gyhouc reports it; a package that another healthy port reaches is
reached still. -/
def execLinkFailure (port : Fin 72) (s : State) : Host.Outcome State Fault Refusal :=
  let y := s.ysl[port]
  if !y.up then .next s
  else
    let t : State := { s with ysl := s.ysl.set port { y with up := false }, reports := s.reports ++ [Report.portFailed port] }
    .next (t.losePeers s.deadPeers)

/-- LINK_TRAINING (R39, R438): a host port that disagrees with the other is held down, and the mismatch is reported: it is
the one that trains later (DESIGN CHOICE, log 71). A port of the
fabric comes up with the packages that it reaches; one whose cable is absent trains down, counts as failed and is reported (R364).
The mode and what the host enables are a host port's. -/
def execLinkTraining (link : TrainedLink) (cxl ats pri : Bool) (s : State) : Host.Outcome State Fault Refusal :=
  if s.boot == .off then .next s
  else match link with
    | .host port =>
      let mode : LinkMode := if cxl then .cxl else .pcie
      let p := s.ports[port]
      let other := s.ports[1 - port].mode
      if p.mode != .down then .next s
      else if other != .down && other != mode then
        let s := { s with ports := s.ports.set port { p with held := true } }
        .next { s with reports := s.reports ++ [.portMismatch port] }
      else .next { s with ports := s.ports.set port { p with mode := mode, held := false, hcap := trainedHcap p.hcap cxl ats pri } }
    | .ysl port peers =>
      if peers.isEmpty then
        let t : State := { s with ysl := s.ysl.set port ⟨false, []⟩, reports := s.reports ++ [Report.portFailed port] }
        .next (t.losePeers s.deadPeers)
      else .next { s with ysl := s.ysl.set port ⟨true, peers⟩ }

end Sys2Proof.Machine
end

