-- ==== Sys2Proof/Machine/Preempt.lean ====
section
/-!
DEFINITION. Pre-emption, restore and the watchdog (R389–R392), dispatch by priority (R58), and the self-tests (R398–R404).
-/
namespace Sys2Proof.Machine

/-! ## Pre-emption (R389) -/

/-- Whether a context can be taken now, at its row of R389. -/
def State.takeable (s : State) (c : Ctx) : Bool :=
  match c.st with
  | .live => true
  | .draining => false
  | .parked w =>
    match w with
    | .reply _ => false
    | .spawn _ _ => false
    | .selfTest => s.tests.all fun t => t.target != .pair (pairCore c.key.core)
    | _ => true

/-- Whether a caller's entry is RUNNING (R306). -/
def State.entryRuns (s : State) (uid : Nat) : Bool := s.rdv.any fun e => e.st == .running && e.callers.contains uid

/-- An operation that waits for its round is withdrawn with its gang. -/
def State.withdraw (s : State) (c : Ctx) (n : Fin 8) : State :=
  s.modRegion c.key.core c.launch c.group fun r =>
    { r with cvg := r.cvg.set n { r.cvg[n] with
        issued := r.cvg[n].issued.filter fun g => g != c.index,
        waiting := r.cvg[n].waiting.filter fun o => o.key != c.key } }

/-- The matrix operation of a beam that a gang's operation completes with: its own, or its round's. -/
def State.opOf (s : State) (k : CtxKey) : Option MatrixOp := (s.beam k.core).ops.find? fun o => o.keys.contains k

/-- Bringing a context to the point at which it is saved: an instruction that has not completed executes again on restore, a
delivery that waits for a trap slot or is in Gyhouc's hands repeats, Gyhouc completes an SVC that it serves, and a caller of a
running gang stays bound to it (R306, R333, R389). -/
def State.takePoint (s : State) (k : CtxKey) : State :=
  let s := s.endTurn k
  match s.ctx? k with
  | none => s
  | some c =>
    let live (s : State) : State := s.modCtx k fun c => { c with st := .live, woken := false }
    match c.st with
    | .parked (.gcall _ _ _) => if s.entryRuns c.uid then s else live s
    | .parked .trapSlot => s.freeSlot k
    | .parked .system =>
      (s.freeSlot k).modCtx k fun c => { c with st := .parked .trapSlot, away := c.away && c.place.isSome }
    | .parked (.roundBad _) => s
    | .parked (.matrix _) =>
      match s.opOf k with
      | some o => s.stopOp o
      | none => s
    | .parked (.round n) =>
      match s.opOf k with
      | some o => s.stopOp o
      | none => live (s.withdraw c n)
    | .parked (.svc _ _ _ _ _ slot) => if slot then s.completeService k else live (s.freeSlot k)
    | .parked (.stopped _) => live (s.freeSlot k)
    | .parked (.debugWait _) => live (s.freeSlot k)
    | .parked _ => live s
    | _ => s

/-- The contexts of a launch. -/
def State.ctxsOf (s : State) (n : Word) : List Ctx := s.ctxs.filter fun c => c.launch == n

/-- The replies that are due to a launch's contexts land before they are taken, and those of lock-step pairs take a checkpoint
(R389) (DEDUCED, log 36). -/
def State.landAll (s : State) (n : Word) : State :=
  let s := (s.ctxsOf n).foldl (fun (s : State) (c : Ctx) => s.checkpoint c.key) s
  (s.ctxsOf n).foldl (fun (s : State) (c : Ctx) =>
    match s.ctx? c.key with
    | none => s
    | some c =>
      match c.st with
      | .parked (.reply r) =>
        if !(s.replyReady c r) then s
        else if c.replyCompared r then s.unlessStruck c.key (s.landReply c r []) else s.landReply c r []
      | _ => s) s

/-- Whether a debug stop holds the watchdog timers of a launch (R413), as it does unless Gyhouc's policy counts stopped threads. -/
def State.timersHeld (s : State) (n : Word) : Bool :=
  !s.policy.stoppedCount && (s.ctxsOf n).any fun c => match c.st with
    | .parked (.stopped _) => true
    | .parked (.debugWait _) => true
    | _ => false

/-- The time that a timer has counted (R392). -/
def State.timerNow (s : State) (n : Word) (t : Timer) : Nat := t.spent + if s.timersHeld n then 0 else s.tick - t.since

/-- Timers that stop count what they have so far. -/
def State.stopTimers (s : State) (n : Word) : State :=
  s.modLaunch n fun l => { l with timers := l.timers.map fun t => { t with spent := s.timerNow n t, since := s.tick } }

/-- A state `t` that follows `s`, with the timers that a debug stop, a resume or a policy stops or starts between the two: each keeps
what it had counted, and one that runs counts on from now (R392, R413). -/
def State.retimed (t s : State) : State :=
  { t with launches := t.launches.map fun l =>
      if s.timersHeld l.number == t.timersHeld l.number then l
      else { l with timers := l.timers.map fun x => { x with spent := s.timerNow l.number x, since := s.tick } } }

/-- Saving a launch whose contexts all stand at their points (R389): each releases at device scope; contexts, regions and
windows leave the cores (DEDUCED, log 36), and entries that are not RUNNING become FREE (DESIGN CHOICE for OPEN ones, log 78). -/
def State.saveLaunch (s : State) (n : Word) (why : Nat) : State :=
  let keys := (s.ctxsOf n).map (·.key)
  let s := s.stopTimers n
  let s := keys.foldl State.takePoint s
  let idle := s.rdv.filter fun e => e.launch == n && e.st != .running
  let s := idle.foldl (fun s e => s.freeEntry e.frame e.num) s
  let s := keys.foldl (fun s k => s.release k .dev) s
  let cs := s.ctxsOf n
  let s := s.writeSaveArea n why cs
  let s := s.modLaunch n fun l => { l with
    st := .saved, halt := none,
    saved := cs.map fun c => { c with arch := { c.arch with tbase := s.tbaseOf c }, issued := none, yielded := [], turn := none },
    savedRegs := s.regions.filter fun r => r.launch == n,
    savedWins := (s.windows.filter fun w => w.launch == n).map fun w => (w.core, w.tbase, w.xb) }
  { s with
    ctxs := s.ctxs.filter fun c => c.launch != n,
    regions := s.regions.filter fun r => r.launch != n,
    windows := s.windows.filter fun w => w.launch != n,
    fills := (s.fills.map fun f => { f with joined := f.joined.filter fun j => j.1 != n }).filter fun f => !f.joined.isEmpty,
    strikes := s.strikes.filter fun k => !keys.contains k }

/-- Whether a launch runs, with every context at a point where it can be taken. -/
def State.allTakeable (s : State) (n : Word) : Bool :=
  (((s.launch? n).map (·.st)) == some .running) && (s.ctxsOf n).all s.takeable

/-- Pre-empting a launch: its contexts issue nothing more, and it is saved once each stands at its point; one that does not yet
delays the save. -/
def State.preempt (s : State) (n : Word) (why : Nat) : State :=
  let s := (s.modLaunch n fun l => { l with halt := some why }).landAll n
  if s.allTakeable n then s.saveLaunch n why else s

/-! ## The stop of an aborted launch (R377, R389) -/

/-- Stopping a launch that is being aborted, once each of its contexts stands at its point of R389: what they have performed is released
at device scope, they are saved with WHY = 3 (R390), and they drain. A SPAWN whose message is still on its way is given up, and what
the last instructions pushed is not performed (R377) (DEDUCED, log 36). -/
def State.stopAborted (s : State) (n : Word) : State :=
  let s := s.landAll n
  let cs := (s.ctxsOf n).filter fun c => c.st != .draining
  let atStop (c : Ctx) : Bool := s.takeable c || (match c.st with | .parked (.spawn _ _) => true | _ => false)
  if !(cs.all atStop) then s
  else
    let keys := cs.map (·.key)
    let s := keys.foldl State.takePoint s
    let s := keys.foldl (fun (s : State) k => s.modCtx k fun c => { c with arch := { c.arch with pushes := [] } }) s
    let s : State := { s with
      gates := s.gates.filter fun g => !keys.contains g.key,
      regions := s.regions.map fun r => if r.launch == n then { r with cvg := r.cvg.map fun v => { v with waiting := [] } } else r,
      beams := s.beams.map fun b => { b with ops := s.goOn b.core (b.ops.filter fun o => !keys.contains o.key) } }
    let s := keys.foldl (fun s k => s.releaseMem k .dev) s
    let now := (s.ctxsOf n).filter fun c => keys.contains c.key
    let s := if now.isEmpty then s else s.writeSaveArea n 3 now
    (keys.foldl State.drain s).modLaunch n fun l => { l with halt := none }

/-- ABORT_COMPLETE (R377): the launch's threads and gangs stop, and once every one and every job has stopped its stamp is written. -/
def execAbortComplete (n : Word) (s : State) : Host.Outcome State Fault Refusal :=
  match s.launch? n with
  | none => .next s
  | some l =>
    match l.st with
    | .aborting code =>
      if l.halt.isSome then .next (s.stopAborted n)
      else if s.launchQuiet n then .next (s.finishLaunch l 5 code.byte) else .next s
    | _ => .next s

/-! ## Restore (R391) and dispatch (R58) -/

/-- Where a core's contexts go under the moves of a restore (R404). -/
def movedCore (moves : List (CoreId × CoreId)) (c : CoreId) : CoreId := ((moves.find? fun m => m.1 == c).map (·.2)).getD c

/-- A saved launch under the moves of a restore. -/
def Launch.moved (l : Launch) (moves : List (CoreId × CoreId)) : Launch :=
  { l with
    map := l.map.map (movedCore moves),
    saved := l.saved.map fun c => { c with key := { c.key with core := movedCore moves c.key.core } },
    savedRegs := l.savedRegs.map fun r => { r with core := movedCore moves r.core },
    savedWins := l.savedWins.map fun w => (movedCore moves w.1, w.2) }

/-- Moves are legal when each takes a retired core to a core of its kind, and no two cores become one. -/
def State.movesOk (s : State) (moves : List (CoreId × CoreId)) : Bool :=
  moves.all (fun m => !(s.enabled m.1) && isBeam m.1 == isBeam m.2 && isRod m.1 == isRod m.2)
  && (moves.map (·.2)).eraseDups.length == moves.length

/-- Whether a saved launch's share of a core fits there now (R58, R391); the operand buffer is not asked (DESIGN CHOICE, log 79). -/
def State.restoreFits (s : State) (l : Launch) (core : CoreId) : Bool :=
  let o := (s.objects.find? fun o => o.addr == l.obj).getD CodeObject.none
  let xb := ((l.savedWins.filter fun w => w.1 == core).map fun w => w.2.2).foldl (· + ·) 0
  let rs := l.savedRegs.filter fun r => r.core == core
  let bytes := xb + (rs.map fun r => regionBytes core r.pw).foldl (· + ·) 0
  let slots := ((l.saved.filter fun c => c.key.core == core).map fun c => if c.pair.isSome then 2 else 1).foldl (· + ·) 0
  s.enabled core && decide (s.poolUsed core + bytes ≤ poolBytes core) && decide (slots ≤ (s.slotsFree core).length)
  && (!(isRod core) || s.pairFree core (pktLockstep l.pkt) (xb + (rs.map fun r => shadowBytes o core r.pw).foldl (· + ·) 0))

/-- Whether the reckoners have room for the threads that were there (R88, R391). -/
def State.awayFits (s : State) (l : Launch) : Bool :=
  (List.range 144).all fun b =>
    let n := (l.saved.filter fun c => c.place.isSome && boardNo c.key.core == b).length
    n == 0 || (s.enabled (boardReckoner b) && decide (s.awayCount b + n ≤ Config.awayMax))

/-- Whether a saved launch can be restored now (R391). -/
def State.canRestore (s : State) (l : Launch) (moves : List (CoreId × CoreId)) : Bool :=
  let l' := l.moved moves
  l.st == .saved && s.movesOk moves && !(s.heldBack l.order (pktPrio l.pkt)) && s.awayFits l'
  && ((l'.savedWins.map (·.1)).eraseDups).all (s.restoreFits l')

/-- Whether no launch of higher priority can dispatch or be restored (R58). -/
def State.highestReady (s : State) (prio : Nat) : Bool :=
  s.pending.all (fun x => decide (pktPrio x.pkt ≤ prio) || !(s.canDispatch x))
  && s.launches.all fun l => decide (pktPrio l.pkt ≤ prio) || !(s.canRestore l [])

/-- The machine as saving some launches would leave its cores. -/
def State.without (s : State) (ns : List Word) : State :=
  { s with
    ctxs := s.ctxs.filter fun c => !ns.contains c.launch,
    regions := s.regions.filter fun r => !ns.contains r.launch,
    windows := s.windows.filter fun w => !ns.contains w.launch }

/-- Whether a waiting launch of priority `prio`, with demands on some cores, waits for a running launch: it cannot go on now, it could
once every running launch of lower priority were saved, and this one is of lower priority and holds a part of those cores (R58, R389)
(DEDUCED, log 36). -/
def State.waitsFor (s : State) (l : Launch) (prio : Nat) (cores : List CoreId) (can : State → Bool) : Bool :=
  let lower := (s.launches.filter fun x => x.st == .running && decide (pktPrio x.pkt < prio)).map (·.number)
  decide (pktPrio l.pkt < prio) && !(can s) && can (s.without lower)
  && (s.windows.any fun w => w.launch == l.number && cores.contains w.core)

/-- Whether Gyhouc may pre-empt a launch: to dispatch or restore one of higher priority (R58, R389), or because a core on which it
runs was retired (R335, R404). -/
def State.mayPreempt (s : State) (l : Launch) : Bool :=
  l.st == .running &&
    ((s.ctxsOf l.number).any (fun c => !(s.enabled c.core))
    || (s.pending.any fun p =>
        let o := (s.objects.find? fun o => o.addr == pktObj p.pkt).getD CodeObject.none
        s.waitsFor l (pktPrio p.pkt) ((demandsOf o p.pkt p.map).map (·.core)) fun t => t.canDispatch p)
    || (s.launches.any fun x => x.st == .saved
        && s.waitsFor l (pktPrio x.pkt) (x.savedWins.map (·.1)) fun t => t.canRestore x []))

/-- PREEMPTION (R389). -/
def execPreemption (n : Word) (s : State) : Host.Outcome State Fault Refusal :=
  match s.launch? n with
  | none => .next s
  | some l => if s.mayPreempt l || (l.st == .running && l.halt == some 1) then .next (s.preempt n 1) else .next s

/-- LAUNCH_DISPATCH (R58): of the launches that can dispatch, one of the highest priority. -/
def execLaunchDispatch (order : Nat) (s : State) : Host.Outcome State Fault Refusal :=
  match s.pending.find? fun p => p.order == order with
  | none => .next s
  | some p =>
    match s.objects.find? fun o => o.addr == pktObj p.pkt with
    | none => .next s
    | some o => if s.canDispatch p && s.highestReady (pktPrio p.pkt) then .next (s.dispatchLaunch p o) else .next s

/-- Restoring a context in a free slot of its core (R119, R391): it starts with an acquire at device scope, and a delivery
that waited for a trap slot repeats. -/
def State.restoreCtx (s : State) (c : Ctx) : State :=
  let slots := s.slotsFree c.key.core
  match (if c.kind == .rod then s.rodNumber c.key.core else slots.head?) with
  | none => s
  | some i =>
    let key : CtxKey := ⟨c.key.core, i⟩
    let pair := if c.pair.isSome then slots.tail.head? else none
    let s := ({ s with ctxs := s.ctxs ++ [{ c with key := key, pair := pair, place := if c.place.isSome then some (s.freePlace (boardNo key.core)) else none }] }).acquireMem key .dev
    if c.st == .parked .trapSlot then s.requestSlot key .system else s

/-- Restoring a saved launch (R391, R392). Records keep their operand-buffer ranges (R316) (DESIGN CHOICE, log 79). -/
def State.restoreLaunch (s : State) (l : Launch) : State :=
  let s := { s with regions := s.regions ++ l.savedRegs }
  let s := s.modLaunch l.number fun _ => { l with
    st := .running, halt := none, saved := [], savedRegs := [], savedWins := [],
    timers := l.timers.map fun t => { t with since := s.tick, spent := if t.group.isSome then 0 else t.spent } }
  let s := l.savedWins.foldl (fun (s : State) w => s.openWindow l.number w.1 (pktPw l.pkt w.1) w.2.1) s
  l.saved.foldl State.restoreCtx s

/-- RESTORE (R391): `moves` re-places what stood on retired cores (R404). -/
def execRestore (n : Word) (moves : List (CoreId × CoreId)) (s : State) : Host.Outcome State Fault Refusal :=
  match s.launch? n with
  | none => .next s
  | some l => if s.canRestore l moves && s.highestReady (pktPrio l.pkt) then .next (s.restoreLaunch (l.moved moves)) else .next s

/-! ## The watchdog (R392) -/

/-- The limit W of a launch, in cycles. -/
def State.watchLimit (s : State) (l : Launch) : Nat :=
  Config.cyclesPerMicro *
    (if pktWdog l.pkt ≠ 0 then pktWdog l.pkt else if pktPersist l.pkt then s.policy.wdogPersist else s.policy.wdogOther)

/-- Whether a timer of a running launch has reached the limit; a workgroup that has no thread or gang left has no timer. -/
def State.timerDue (s : State) (l : Launch) (t : Timer) : Bool :=
  decide (s.watchLimit l ≤ s.timerNow l.number t)
  && match t.group with
    | none => true
    | some w => (s.ctxsOf l.number).any fun c => c.group == w && !c.isCalled && c.st != .draining

/-- WATCHDOG_FIRE (R392): the launch is pre-empted into the error save area and aborted with WDOG, and its interrupt follows
the stamp write in any case. -/
def execWatchdogFire (n : Word) (s : State) : Host.Outcome State Fault Refusal :=
  match s.launch? n with
  | none => .next s
  | some l =>
    if l.st == .running && (l.halt == some 2 || l.timers.any (s.timerDue l)) then
      let s := s.preempt n 2
      if ((s.launch? n).map (·.st)) == some .saved then
        .next ((s.modStamp l.order fun t => { t with always := true }).abortLaunch n .wdog)
      else .next s
    else .next s

/-! ## Checkpoints and self-tests (R398–R404) -/

/-- Whether a lock-step context takes a checkpoint of its own accord (R396, R398): after 4,096 retired instructions, or when an entry
of its pair's full gated store buffer is its own. -/
def State.checkpointDue (s : State) (c : Ctx) : Bool :=
  s.inLockstep c && (decide (4096 ≤ c.retired)
    || ((s.gateWanted c.key || s.gateWaits c.key) && s.gates.any fun g => g.key == c.key))

/-- CHECKPOINT_COUNT_EXPIRY (R396, R398). -/
def execCheckpointCountExpiry (key : CtxKey) (s : State) : Host.Outcome State Fault Refusal :=
  match s.ctx? key with
  | none => .next s
  | some c => .next (if s.checkpointDue c then s.checkpoint key else s)

/-- The cycles that a self-test takes (R401); a row's test is the logic die's choice. -/
def TestTarget.duration : TestTarget → Nat
  | .pair _ => 4096
  | .column _ => 2048
  | .storage (.bank _) => 8192
  | .storage (.row _) => 0

/-- The contexts of a lock-step pair that are on it. -/
def State.pairCtxs (s : State) (core : CoreId) : List Ctx :=
  s.ctxs.filter fun c => c.kind == .rod && !c.away && pairCore c.key.core == core

/-- Fencing rods (R13): a thread that waits for one of them goes on with the old count (R84), which a lock-step pair compares (R395). -/
def State.fenceCores (s : State) (cs : List CoreId) : State :=
  let t : State := { s with
    disabled := cs ++ s.disabled.filter fun c => !cs.contains c,
    ctxs := s.ctxs.map fun c =>
      match c.st with
      | .parked (.waitfree t d old next) =>
        if cs.contains t then { c with st := .live, arch := (c.arch.putReg 0 d 0 old).goto c.liveSet next } else c
      | _ => c }
  (cs.flatMap s.waitsFree).foldl (fun (t : State) k => t.unlessStruck k t) t

/-- Whether an external operation of a context is under way (R397): it was sent once, and its outcome is taken when it comes. -/
def State.externalSent (s : State) (c : Ctx) : Bool :=
  match c.st with
  | .draining => true
  | .parked (.reply r) => (match r.kind with | .load _ _ => false | _ => true)
  | .parked (.spawn _ _) => true
  | .parked (.svc _ _ _ _ _ slot) => slot
  | .parked (.gcall _ _ _) => s.entryRuns c.uid
  | _ => false

/-- A caller leaves an entry that is not RUNNING (R298, R306); an entry that every caller has left becomes FREE, an
OPEN one too (DESIGN CHOICE, log 78). -/
def State.leaveEntry (s : State) (uid : Nat) : State :=
  (s.rdv.filter fun e => e.st != .running && e.callers.contains uid).foldl (fun (s : State) e =>
    if e.callers == [uid] then s.freeEntry e.frame e.num
    else { s with rdv := s.rdv.map fun x =>
      if x.frame == e.frame && x.num == e.num then { x with callers := x.callers.filter fun u => u != uid } else x }) s

/-- A context of a failed pair goes back to its newest checkpoint and parks there, and its gated stores are discarded (R404). What it
waited for is given up, but an external operation that is under way. -/
def State.backToCheckpoint (s : State) (k : CtxKey) : State :=
  let s : State := { s with gates := s.gates.filter fun g => g.key != k }
  match s.ctx? k with
  | none => s
  | some c =>
    if s.externalSent c then s
    else ((s.freeSlot k).leaveEntry c.uid).modCtx k fun c =>
      { c with arch := c.arch.rolledBack (c.ckpt.headD c.arch), retired := 0, woken := false, refused := [], st := .parked .selfTest }

/-- A context that waits for the self-test of its pair goes on. -/
def Ctx.pastTest (c : Ctx) : Ctx := if c.st == .parked .selfTest then { c with st := .live } else c

/-- A thread of a failed pair moves to the reckoner of its board under R88's ordering (R277, R404). -/
def State.moveAway (s : State) (core : CoreId) (k : CtxKey) : State :=
  let s := s.release k .dev
  s.modCtx k fun c => { c.pastTest with
    away := true, place := some (s.freePlace (boardNo core)), arch := { c.arch with tbase := s.tbaseOf c } }

/-- What Gyhouc does about a fault: its choice, or without one what its policy says (R405). -/
def State.faultChoice (s : State) (choice : FaultAction) : FaultAction := if choice == .hold then s.policy.faultAction else choice

/-- A failed pair (R402–R404): the record, the fence, and Gyhouc's choice. Threads for which the reckoner has no room go on as a retired
pair's do (DEDUCED, log 32). -/
def State.failPair (s : State) (t : SelfTest) (core : CoreId) (choice : FaultAction) : State :=
  let r := errorRecord (Code.byte .lsmm) 1 core.toNat t.tick (s.tidFor t.key) t.detail
  let keys := (s.pairCtxs core).map (·.key)
  let ns := ((s.pairCtxs core).map (·.launch)).eraseDups
  let s := { s with reports := s.reports ++ [Report.record r] }
  let s := (keys.foldl State.backToCheckpoint s).fenceCores [core, oddRod core]
  let retire (s : State) : State := keys.foldl (fun s k => s.modCtx k Ctx.pastTest) s
  match s.faultChoice choice with
  | .hold => s
  | .retire => retire s
  | .migrate =>
    if decide (s.awayCount (boardNo core) + keys.length ≤ Config.awayMax) && s.enabled (boardReckoner (boardNo core)) then
      keys.foldl (fun s k => s.moveAway core k) s
    else retire s
  | .abort => ns.foldl (fun s n => s.abortLaunch n .lsmm) s

/-- A pair that passed (R402): the rolled-back context re-executes. -/
def State.passPair (s : State) (t : SelfTest) : State :=
  match t.key with
  | some k => s.modCtx k Ctx.pastTest
  | none => s

/-- Whether the tested context was rolled back four times without a checkpoint between (R402). -/
def State.repeated (s : State) (t : SelfTest) : Bool :=
  ((t.key.bind s.ctx?).map fun c => decide (4 ≤ c.rollbacks)).getD false

/-- A column's test (R335): on a pass the engine repeats from its copy, or goes on with what was issued meanwhile; on a fail the column
is fenced, and every operation that waited for the engine takes MMAERR. -/
def State.endColumn (s : State) (t : SelfTest) (core : CoreId) (passed : Bool) (choice : FaultAction) : State :=
  let held := (s.beam core).ops.find? fun o => o.check.isSome
  if passed then
    match held with
    | some o =>
      let (k, n) := s.opShape o
      let done := (s.termsDone o - o.k0) / k * n / 64
      s.setBeam { s.beam core with ops := (s.beam core).ops.map fun x =>
        if x.num == o.num then { x with check := none, started := some (s.engineClock - done) } else x }
    | none => s.setOps core (s.beam core).ops
  else
    let s := match held with
      | some o => s.fenceColumn o (s.termsDone o) t.detail t.tick
      | none =>
        let r := errorRecord (Code.byte .mmaerr) 2 core.toNat t.tick (s.tidFor t.key) t.detail
        { s with reports := s.reports ++ [Report.record r] }.fenceBeam core
    match s.faultChoice choice with
    | .retire => s.fenceCores [core]
    | .abort =>
      (((s.ctxs.filter fun c => c.key.core == core).map (·.launch)).eraseDups).foldl (fun s n => s.abortLaunch n .mmaerr) s
    | _ => s

/-- The end of a storage slice's service on a spare: its count is cleared, and a row's spare is free again (R402). -/
def State.returnSlice (s : State) (x : Slice) : State :=
  { s with
    ecc := s.ecc.filter fun e => e.1 != x,
    rowSpares := s.rowSpares.filter fun r => Slice.row r.1 != x }

/-- A storage slice's test (R402, R403). -/
def State.endStorage (s : State) (t : SelfTest) (x : Slice) (passed : Bool) : State :=
  if passed then s.returnSlice x
  else
    let r := match x with
      | .bank b => errorRecord 0x60 3 b t.tick 0 t.detail
      | .row i => errorRecord 0x61 4 i t.tick 0 t.detail
    { s with fenced := x :: s.fenced, reports := s.reports ++ [Report.record r] }

/-- SELF_TEST_COMPLETE (R335, R401–R404): the n-th test in progress ends once its cycles have passed. -/
def execSelfTestComplete (n : Nat) (passed : Bool) (choice : FaultAction) (s : State) : Host.Outcome State Fault Refusal :=
  match s.tests[n]? with
  | none => .next s
  | some t =>
    if s.tick < t.tick + t.target.duration then .next s
    else
      let s := { s with tests := s.tests.eraseIdx n }
      match t.target with
      | .pair core => .next (if passed && !(s.repeated t) then s.passPair t else s.failPair t core choice)
      | .column core => .next (s.endColumn t core passed choice)
      | .storage x => .next (s.endStorage t x passed)

/-- FENCED_SLICE_CLEAR (R404). -/
def execFencedSliceClear (slice : Slice) (s : State) : Host.Outcome State Fault Refusal :=
  if s.fenced.contains slice then .next ({ s with fenced := s.fenced.filter fun x => x != slice }.returnSlice slice) else .next s

end Sys2Proof.Machine
end

