-- ==== Sys2Proof/Machine/SpecialRegs.lean ====
section
/-!
DEFINITION. The meanings of family 0x04 (R134–R142): type moves and special registers. MEET is in Machine/Control.lean.
-/
namespace Sys2Proof.Machine

/-- PROMA. -/
def State.promaOp (s : State) (d : Reg) (a b : Src) : Host.Outcome State Fault Refusal :=
  s.withIssue fun iss c =>
    s.simple iss c ⟨a.regs ++ b.regs, [d], []⟩ (regType d == .affine) true fun ar =>
      match d with
      | .a i => ar.setA i ⟨ar.srcWord 0 a, ar.srcWord 0 b⟩
      | _ => ar

/-- PROMA, 64-bit form (R137). -/
def execProma64 (d : Reg) (a b : UniformOp) (s : State) : Host.Outcome State Fault Refusal :=
  s.promaOp d (.op (opOfU a)) (.op (opOfU b))

/-- PROMA, 96-bit form (R137). -/
def execProma96 (d : Reg) (a : UniformOp) (lit : Word) (s : State) : Host.Outcome State Fault Refusal :=
  s.promaOp d (.op (opOfU a)) (.lit lit)

/-- PROMV (R138). -/
def execPromv (d : Reg) (a : SaOp) (s : State) : Host.Outcome State Fault Refusal :=
  s.withIssue fun iss c =>
    s.simple iss c ⟨opRegs (opOfSa a), [d], []⟩ (regType d == .varying) false fun ar =>
      ar.write iss.exec d .varying ⟨0, 0⟩ fun i => ar.opWord i (opOfSa a)

/-- DEMF and DEMC (R139). -/
def State.demOp (s : State) (check : Bool) (d : Reg) (a : Fin 64) : Host.Outcome State Fault Refusal :=
  s.withIssue fun iss c =>
    s.simple iss c ⟨[.v a], [d], []⟩ (regType d == .uniform) true fun ar =>
      let lanes := lanesOf iss.exec
      let x := ar.vreg (lanes.headD 0) a
      let ar' := ar.writeS d x
      if check && lanes.any (fun i => ar.vreg i a != x) then ar'.orXstat flagNuni else ar'

/-- DEMF (R139). -/
def execDemf (d : Reg) (a : Fin 64) (s : State) : Host.Outcome State Fault Refusal := s.demOp false d a

/-- DEMC (R139). -/
def execDemc (d : Reg) (a : Fin 64) (s : State) : Host.Outcome State Fault Refusal := s.demOp true d a

/-! ## MOVXR and MOVXW -/

/-- Whether a special register has one value per lane (R134). -/
def xregVarying : XReg → Bool
  | .meet | .tid | .gid => true
  | _ => false

/-- Whether a special register takes a pair; EXEC does in a 64-lane group (R124, R134). -/
def xregWide (c : Ctx) (x : XReg) : Bool := if x = .exec then c.arch.wide else x.wide

/-- The TAGS register: bit t is 1 when tag t is SET (R264). -/
def Arch.tagsReg (ar : Arch) : DWord :=
  (List.finRange 64).foldl (fun m i => if ar.tags[i].st == .set then m ||| (1#64 <<< i.val) else m) 0#64

/-- The value of a special register in a lane (R134). -/
def State.readXreg (s : State) (iss : Issue) (c : Ctx) (x : XReg) (lane : Nat) : DWord :=
  let ar := c.arch
  let z (w : Word) : DWord := w.setWidth 64
  match x with
  | .exec => iss.exec
  | .meet => (ar.lane lane).meet
  | .tid => (ar.lane lane).tid
  | .core => c.core.setWidth 64
  | .gid => (ar.lane lane).gid
  | .tbase => s.tbaseOf c
  | .xb => BitVec.ofNat 64 (windowBytes (s.pwOf c))
  | .ovh => ar.ovh
  | .uhnd => ar.uhnd
  | .tags => ar.tagsReg
  | .nfmt => z ar.nfmt
  | .fpctl => z ar.fpctl
  | .xstat => z ar.xstat
  | .cvg n => z (((s.region? c.key.core c.launch c.group).map fun r => r.cvg[n].signed).getD 0)
  | .ths n => ar.ths[n]
  | .mprog => z ar.mprog
  | .epc => ar.epc
  | .ecode => z ar.ecode
  | .eaddr => ar.eaddr
  | .elane => z ar.elane
  | .pw => z (s.pwOf c)
  | .tick => BitVec.ofNat 64 s.tick
  | .hcap => z s.ports[diePort (coreDie c.key.core)].hcap
  | .perm => ((s.region? c.key.core c.launch c.group).map (·.perm)).getD 0

/-- The register fields of a special-register move. -/
def xregNames (c : Ctx) (x : XReg) (r : Reg) (dest : Bool) : Names :=
  if xregWide c x then ⟨[], [], [(r, 2)]⟩ else if dest then ⟨[], [r], []⟩ else ⟨[r], [], []⟩

/-- Writing one or two registers from a 64-bit value in a lane. -/
def Arch.putWide (ar : Arch) (lane : Nat) (wide : Bool) (r : Reg) (x : DWord) : Arch :=
  let ar := ar.putReg lane r 0 (x.extractLsb' 0 32)
  if wide then ar.putReg lane r 1 (x.extractLsb' 32 32) else ar

/-- MOVXR (R140). -/
def execMovxr (x : XReg) (d : Reg) (s : State) : Host.Outcome State Fault Refusal :=
  s.withIssue fun iss c =>
    let varying := xregVarying x
    s.simple iss c (xregNames c x d true) (regType d == if varying then .varying else .uniform) (!varying) fun ar =>
      if varying then ar.forLanes (lanesOf iss.exec) fun ar i => ar.putWide i (xregWide c x) d (s.readXreg iss c x i)
      else ar.putWide 0 (xregWide c x) d (s.readXreg iss c x 0)

/-- The value that a register field of one or two registers holds in a lane. -/
def Arch.getWide (ar : Arch) (lane : Nat) (wide : Bool) (r : Reg) : DWord :=
  (if wide then ar.regAt lane r 1 else 0) ++ ar.regAt lane r 0

/-- The effect of MOVXW on the registers of the context (R141); reserved bits are ignored (R5). -/
def Arch.writeXreg (ar : Arch) (exec : BitVec 64) (x : XReg) (get : Nat → DWord) : Arch :=
  let v := get 0
  let w := v.setWidth 32
  match x with
  | .meet => ar.forLanes (lanesOf exec) fun ar i => ar.modLane i fun l => { l with meet := meetBits (get i) }
  | .gid => ar.forLanes (lanesOf exec) fun ar i => ar.modLane i fun l => { l with gid := get i }
  | .ovh => { ar with ovh := v }
  | .uhnd => { ar with uhnd := meetBits v }
  | .nfmt => { ar with nfmt := w &&& 0x7 }
  | .fpctl => { ar with fpctl := w &&& 0x3 }
  | .xstat => { ar with xstat := ar.xstat &&& w }
  | .mprog => { ar with mprog := w &&& 0xFFFFC7FF }
  | .epc => { ar with epc := v &&& 0x01FFFFFFFFFFFFFF }
  | _ => ar

/-- The checks of a write to TBASE (R110): the fault, if any. -/
def State.tbaseFault (s : State) (c : Ctx) (v : DWord) : Option Code :=
  let o := s.objectOf c.launch
  if v.toNat % 4096 ≠ 0 then some .align
  else if inRange v.toNat o.text o.textSize then none
  else some .perm

/-- MOVXW (R141). -/
def execMovxw (x : XReg) (a : SvReg) (s : State) : Host.Outcome State Fault Refusal :=
  s.withIssue fun iss c =>
    let r := regOfSv a
    let varying := xregVarying x
    let wide := xregWide c x
    let nm := xregNames c x r false
    let typeOk := regType r == if varying then .varying else .uniform
    match x with
    | .tbase =>
      let v := c.arch.getWide 0 true r
      s.guarded iss c nm typeOk true <|
        match s.tbaseFault c v with
        | some code => .trap s (Trap.one code v iss.pc)
        | none =>
          let s := s.setCtx { c with arch := { (c.arch.advance iss) with tbase := v } }
          .done (if c.away then s else s.moveWindow c.key c.launch c.key.core v)
    | .perm =>
      let v := c.arch.getWide 0 true r
      s.guarded iss c nm typeOk true <|
        .done ((s.setCtx { c with arch := c.arch.advance iss }).modRegion c.key.core c.launch c.group fun g =>
          { g with perm := v &&& 0x00000FFFFFFFFFFF })
    | _ => s.simple iss c nm typeOk (!varying) fun ar => ar.writeXreg iss.exec x fun i => ar.getWide i wide r

end Sys2Proof.Machine
end

