-- ==== Sys2Proof/Machine/Fetch.lean ====
section
/-!
DEFINITION. Fetching (R104–R112), text-window fills (R110, R111), and debug stops (R411–R414).
-/
namespace Sys2Proof.Machine

/-! ## The look at a PC (R106) -/

/-- The length in words of the instruction whose word0 is given (R90). -/
def lengthOf (w0 : Word) : Nat :=
  match (w0.extractLsb' 0 2).toNat with
  | 2 => 2
  | 3 => 3
  | _ => 1

/-- What a fetch comes to: an instruction's words at a PC, which forwarding may have replaced (R35), a fault, or OVL. -/
inductive Look where
  | words (pc : DWord) (ws : List Word)
  | fault (code : Code) (pc : DWord)
  | overlay (pc : DWord)
  deriving DecidableEq, Repr

/-- The words at a text-space address as a reader gives them, when every one of them lies in the range [lo, lo + n). -/
def wordsIn (read : Nat → Nat → List Byte) (lo n pc : Nat) : Option (List Word) :=
  if decide (lo ≤ pc) && decide (pc + 4 ≤ lo + n) then
    let k := 4 * lengthOf ((wordsOfBytes (read pc 4)).headD 0)
    if pc + k ≤ lo + n then some (wordsOfBytes (read pc k)) else none
  else none

/-- The text that a context reads past its window (R109, R112): on its rod or beam through the frame cache at frame scope,
on a reckoner from the code heap. -/
def State.textBytes (s : State) (c : Ctx) (va n : Nat) : List Byte :=
  s.loadBytes c.key c.frame? (s.pasidOf c.launch) va (.dev (s.heapOffset va)) .frm n

/-- The words at a PC of the text itself; none when one of them lies outside it. -/
def State.textWords (s : State) (c : Ctx) (pc : Nat) : Option (List Word) :=
  wordsIn (s.textBytes c) (s.objectOf c.launch).text (s.objectOf c.launch).textSize pc

/-- Whether a fetch from the text itself meets an uncorrectable error (R227). -/
def State.textFlawed (s : State) (pc n : Nat) : Bool := s.flawed (.dev (s.heapOffset pc)) n

/-- What a fetch from the text itself leaves (R109, R226, R274): the lines that it read are in the frame's cache, and the errors that
it corrected are counted. -/
def State.fetchText (s : State) (c : Ctx) (pc : DWord) (n : Nat) : State :=
  let fill (s : State) (va : DWord) : State := s.loadFill c va (.dev (s.heapOffset va.toNat)) .frm
  fill (fill (s.noteRead (.dev (s.heapOffset pc.toNat)) n) pc) (pc + BitVec.ofNat 64 (n - 1))

/-- A reckoner's fetch (R112, R179): outside the text PERM, at a misaligned PC ALIGN (DEDUCED, log 46). -/
def State.lookAway (s : State) (c : Ctx) (pc : DWord) : Look :=
  if inRange pc.toNat (s.objectOf c.launch).text (s.objectOf c.launch).textSize && pc.toNat % 4 != 0 then .fault .align pc
  else
    match s.textWords c pc.toNat with
    | some ws => if s.textFlawed pc.toNat (4 * ws.length) then .fault .memue pc else .words pc ws
    | none => .fault .perm pc

/-- The words in the window of a context (R104, R106 step 3); the window does not serve an overlay handler. -/
def State.windowWords (s : State) (c : Ctx) (pc : Nat) : Option (List Word) :=
  if c.arch.overlay then none
  else
    match s.window? c.launch c.key.core with
    | some w => wordsIn (fun a n => w.bytes.bytes (a - w.tbase.toNat) n) w.tbase.toNat w.xb pc
    | none => none

/-- Whether the window of a context has no text because its fill met an uncorrectable error (R227). -/
def State.windowBad (s : State) (c : Ctx) : Bool := ((s.window? c.launch c.key.core).map (·.bad)).getD false

/-- The checks of a fetch, in order (R106, R109); a window whose fill failed gives no text to any thread (R227); each replacement of the PC starts again at the first (R35). -/
def State.lookFrom (s : State) (c : Ctx) : Nat → DWord → Look
  | fuel, pc =>
    if pc.toNat % 4 ≠ 0 then .fault .align pc
    else if pc.toNat < 0x10000 then .fault .null pc
    else
      match s.windowWords c pc.toNat with
      | some ws => if s.windowBad c then .fault .memue pc else .words pc ws
      | none =>
        match fuel, s.forward (coreDie c.key.core) c.launch pc with
        | fuel + 1, some q => State.lookFrom s c fuel q
        | _, _ =>
          match s.textWords c pc.toNat with
          | none => .fault .perm pc
          | some ws =>
            if !c.arch.overlay then .overlay pc
            else if s.textFlawed pc.toNat (4 * ws.length) then .fault .memue pc
            else .words pc ws

/-- The look at a PC: a forwarding chain has at most as many links as a table has entries. -/
def State.look (s : State) (c : Ctx) (pc : DWord) : Look :=
  if c.away then s.lookAway c pc else s.lookFrom c Config.forwardMax pc

/-! ## Comparators (R411, R412) -/

/-- Whether a comparator serves a launch by its source (R412). -/
def Comparator.serves (x : Comparator) : Source → Bool
  | .host p q => x.dbflt.getLsbD (16 + p.val) && x.dbflt.getLsbD q.val
  | .device _ _ _ => x.dbflt.getLsbD 18

/-- Whether a lane of a context matches a comparator at a PC (R412). -/
def Comparator.hits (x : Comparator) (src : Source) (c : Ctx) (lane : Nat) (pc : DWord) : Bool :=
  x.dbpc.getLsbD 63 && pc == (x.dbpc &&& 0x01FFFFFFFFFFFFFC) && x.serves src
  && (!(x.dbflt.getLsbD 19) || (c.arch.lane lane).tid == x.dbtid)
  && (!(x.dbflt.getLsbD 20) || (c.arch.lane lane).gid == x.dbgid)
  && (x.dbflt.getLsbD 21 || (!c.arch.uh && !c.arch.overlay))

/-- A comparator that is not armed. -/
def Comparator.clear : Comparator := ⟨0, 0, 0, 0⟩

/-- The comparators of a core (R411). -/
def State.cmpsOf (s : State) (core : CoreId) : Vector (Word × Comparator) 8 :=
  ((s.cmps.find? fun x => x.core == core).map (·.cmps)).getD (Vector.replicate 8 (0, Comparator.clear))

/-- The cores on which a launch's comparators are armed (R411): those that hold a text window or a leaf region of it, and the
reckoners of their boards, where its migrated threads are. -/
def State.armedCores (s : State) (n : Word) : List CoreId :=
  let held := ((s.windows.filter fun w => w.launch == n).map (·.core))
    ++ ((s.regions.filter fun r => r.launch == n && r.w == 0xFFFFF).map (·.core))
  (held ++ (held.map boardNo).map boardReckoner).eraseDups

/-- The comparators of every core, armed for the launches that it holds (R411); of two launches that arm one comparator of a core, the
one that was armed there stays (DESIGN CHOICE, log 49). -/
def State.armCores (s : State) : State :=
  let ls := s.launches.filter fun l => l.cmps.toList.any fun x => x != Comparator.clear
  let cores := (ls.flatMap fun l => s.armedCores l.number).eraseDups
  { s with cmps := cores.map fun core =>
      let here := ls.filter fun l => (s.armedCores l.number).contains core
      let old := s.cmpsOf core
      ⟨core, Vector.ofFn fun (n : Fin 8) =>
        let armed := here.filter fun l => l.cmps[n] != Comparator.clear
        match armed.find? fun l => l.number == old[n].1 with
        | some l => (l.number, l.cmps[n])
        | none => match armed with
          | l :: _ => (l.number, l.cmps[n])
          | [] => (0, Comparator.clear)⟩ }

/-- A write of a launch's comparator reaches every core that holds it, whichever launch armed it there before (R411). -/
def State.takeCmp (s : State) (n : Word) (cmp : Fin 8) : State :=
  let cores := s.armedCores n
  { s with cmps := s.cmps.map fun (x : CoreCmps) =>
      if cores.contains x.core then { x with cmps := x.cmps.set cmp (n, (x.cmps[cmp]).2) } else x }.armCores

/-- The stop set of a converged set at a PC, with the lowest matching comparator of the core (R412, R413): lanes that a resume let
pass do not match there again. -/
def State.stopAt (s : State) (c : Ctx) (set : BitVec 64) (pc : DWord) : Option DebugStop :=
  match s.launch? c.launch with
  | none => none
  | some l =>
    let lanes := (lanesOf set).filter fun i => !((c.passed.map fun p => p.2 == pc && p.1.getLsbD i).getD false)
    let hit (n : Fin 8) : List Nat := lanes.filter fun i => ((s.cmpsOf c.core)[n]).2.hits l.source c i pc
    match (List.finRange 8).find? fun n => !(hit n).isEmpty with
    | none => none
    | some n => some ⟨maskOfLanes (lanes.filter fun i => (List.finRange 8).any fun n => (hit n).contains i), false, n.val⟩

/-- A debug stop (R413): a checkpoint, the timers of R392 pause, the context parks in place, and it asks for a trap slot. -/
def State.debugStop (s : State) (k : CtxKey) (d : DebugStop) : State :=
  (((s.checkpoint k).modCtx k fun c => { c with st := .parked (.debugWait d) }).requestSlot k .debug).retimed s

/-! ## The issue of a context -/

/-- What is about to issue in a context: the context with its held lanes (R126), the converged set, and the look at its PC;
none while the context is not ready, an interrupt is due (R380), or no lane may issue. -/
def State.candidate (s : State) (k : CtxKey) : Option (Ctx × BitVec 64 × Look) :=
  match s.ctx? k with
  | none => none
  | some c =>
    if !s.ready c || s.interruptDue c then none
    else
      let x := c.select
      if x.2 == 0 then none else some (x.1, x.2, s.look x.1 (x.1.pcOf x.2))

/-- Counting an issue of a context (R89, R119): contexts that yielded to it no longer wait for it. -/
def State.noteIssue (s : State) (k : CtxKey) : State :=
  { s with ctxs := s.ctxs.map fun c =>
      if c.key == k then { c with issued := some s.tick, yielded := [] }
      else { c with yielded := c.yielded.filter fun x => x != k } }

/-- A fault that a fetch makes in each lane of the converged set (R106). -/
def fetchTrap (set : BitVec 64) (code : Code) (pc : DWord) : Trap := ⟨(lanesOf set).map fun i => ⟨i, code, pc⟩, false, pc⟩

/-- DEBUG_STOP (R412, R413): the check comes after the fetch has passed. -/
def execDebugStop (key : CtxKey) (s : State) : Host.Outcome State Fault Refusal :=
  match s.candidate key with
  | some (c, set, .words pc _) =>
    match s.stopAt c set pc with
    | some d => .next ((s.setCtx { c with arch := c.arch.goto set pc }).debugStop key d)
    | none => .next s
  | _ => .next s

/-- INSTRUCTION_FETCH (R106, R108): the words for the step that decodes them, a fault of each lane of the set, or the overlay
handler; an OVL that is nested in a USER handler is delivered (R373). A gang whose operation its round or a fenced column stopped
faults here (R331, R335). -/
def execInstructionFetch (key : CtxKey) (s : State) : Host.Outcome State Fault Refusal :=
  match s.ctx? key with
  | none => .next s
  | some c0 =>
    match c0.st with
    | .parked (.roundBad code) =>
      let c1 := { c0 with st := .live }
      let set := c1.select.2
      .next ((s.setCtx c1).deliver key (Trap.one code (c1.pcOf set) (c1.pcOf set)))
    | _ =>
      match s.candidate key with
      | none => .next s
      | some (c, set, look) =>
        let s := (s.setCtx c).noteIssue key
        match look with
        | .fault code pc => .next (s.deliver key (fetchTrap set code pc))
        | .overlay pc =>
          if c.arch.ovh == 0 || c.arch.uh then .next (s.deliver key (fetchTrap set .ovl pc))
          else .next (((s.endTurn key).checkpoint key).modCtx key fun c => c.enterOverlay set pc)
        | .words pc ws =>
          if (s.stopAt c set pc).isSome then .next s
          else
            let s := if c.away || c.arch.overlay then s.fetchText c pc (4 * ws.length) else s
            let s := s.modCtx key fun c => { c with
              arch := c.arch.goto set pc,
              passed := if (c.passed.map (·.2)) == some pc then none else c.passed }
            .next { s with issue := some ⟨key, set, pc, 4 * ws.length⟩, fetched := some ws }

/-! ## Fills (R110, R111) -/

/-- The pending fills of a frame that are in flight: the oldest eight (R111). -/
def State.fillsInFlight (s : State) (frame : Nat) : List Fill := (s.fills.filter fun f => f.frame == frame).take 8

/-- A fill without a window: its frame has read it for every window that joined it. -/
def State.leaveFill (s : State) (f : Fill) (launch : Word) (core : CoreId) : State :=
  let fs := s.fills.map fun g => if g == f then { g with read := true, joined := g.joined.filter fun j => j != (launch, core) } else g
  { s with fills := fs.filter fun g => !g.joined.isEmpty }

/-- The contexts that are parked on a window's fill: those that moved it, and those that would fetch from it (R110). -/
def State.parkedOnFill (s : State) (launch : Word) (core : CoreId) : List Ctx :=
  s.ctxs.filter fun c => c.launch == launch && c.key.core == core && !c.away && (c.st == .parked .fill || (c.st == .live && !c.arch.overlay))

/-- The contexts that wait for a window go on once no fill of it is pending (R110). -/
def State.wakeFill (s : State) (launch : Word) (core : CoreId) : State :=
  if s.fillPending launch core then s
  else { s with ctxs := s.ctxs.map fun c =>
    if c.launch == launch && c.key.core == core && c.st == .parked .fill then { c with st := .live } else c }

/-- An uncorrectable error under a fill (R227): each parked thread faults MEMUE at its PC (DEDUCED, log 31). -/
def State.fillFailed (s : State) (cs : List Ctx) : State :=
  cs.foldl (fun (s : State) (c : Ctx) =>
    let x := { c with st := .live }.select
    if x.2 == 0 then s
    else (s.setCtx x.1).deliver c.key (fetchTrap x.2 .memue (x.1.pcOf x.2))) s

/-- The end of a fill whose one read met an uncorrectable error, for a window that joined it (R111, R227): the threads parked on it
fault, and a window that has not moved on has no text, so that its other threads and lanes fault as they fetch. -/
def State.failFill (s : State) (f : Fill) (launch : Word) (core : CoreId) : State :=
  let parked := s.parkedOnFill launch core
  ((s.modWindow launch core fun w => if w.tbase == f.tbase then { w with bad := true } else w).fillFailed parked).wakeFill launch core

/-- TEXT_FILL_COMPLETE (R110, R111): a joined window holds its text, unless a later write of TBASE has moved the window on, whose own
fill then brings its text. The fill is read once for every window that joined it: an uncorrectable error, which `error` or storage
brings before any of them has its text, fails them all (R227). The self-test of a home slice's bank holds the read (R401). -/
def execTextFillComplete (launch : Word) (core : CoreId) (error : Bool) (s : State) : Host.Outcome State Fault Refusal :=
  match (s.fillsInFlight (frameNo core)).find? fun f => f.joined.contains (launch, core) with
  | none => .next s
  | some f =>
    let o := s.objectOf launch
    let text := s.windowText o f.tbase f.xb
    let n := min (f.tbase.toNat + f.xb) (o.text + o.textSize) - f.tbase.toNat
    if !f.read && s.sliceTested (s.heapOffset f.tbase.toNat) n then .next s
    else if !f.read && (error || s.textFlawed f.tbase.toNat n) then
      let s := { s with fills := s.fills.filter fun g => g != f }
      .next (f.joined.foldl (fun (s : State) j => s.failFill f j.1 j.2) s)
    else
      let s := (if f.read then s else s.noteRead (.dev (s.heapOffset f.tbase.toNat)) n).leaveFill f launch core
      .next ((s.modWindow launch core fun w => if w.tbase == f.tbase then { w with bytes := text, bad := false } else w).wakeFill launch core)

/-! ## The debugger (R411–R414) -/

/-- BKPT (R414). -/
def execBkpt (n : BitVec 8) (s : State) : Host.Outcome State Fault Refusal :=
  s.withIssue fun iss c =>
    if ((s.launch? c.launch).map (·.debugger)).getD false then .done (s.debugStop c.key ⟨iss.exec, true, n.toNat⟩)
    else trapHere s iss c .bkpt n

/-- DEBUG_RESUME (R413, R414): after a comparator's stop the lanes of the stop set pass its check once; after BKPT they go on
at PC + 8. -/
def execDebugResume (key : CtxKey) (s : State) : Host.Outcome State Fault Refusal :=
  match s.ctx? key with
  | none => .next s
  | some c =>
    match c.st with
    | .parked (.stopped d) =>
      let pc := c.pcOf d.set
      let c := if d.bkpt then { c with st := .live, arch := c.arch.goto d.set (pc + 8) } else { c with st := .live, passed := some (d.set, pc) }
      .next (((s.freeSlot key).setCtx c).retimed s)
    | _ => .next s

/-- Writing register 0–3 of a comparator; reserved bits stay 0 (R411). -/
def Comparator.write (x : Comparator) (reg : Fin 4) (v : DWord) : Comparator :=
  match reg with
  | 0 => { x with dbpc := v &&& 0x81FFFFFFFFFFFFFC }
  | 1 => { x with dbflt := v.setWidth 32 &&& 0x003FFFFF }
  | 2 => { x with dbtid := v }
  | 3 => { x with dbgid := v }

/-- What the debug handler writes of a stopped context (R413): a PC keeps R372's bits, TID is read only, and the other
special registers take what MOVXW would write. -/
def Arch.debugWrite (ar : Arch) (f : ContextReg) (v : DWord) : Arch :=
  match f with
  | .reg lane (.a i) => if lane = 0 then ar.setA i { ar.areg i with base := v.setWidth 32 } else ar
  | .reg lane r => ar.putReg lane.val r 0 (v.setWidth 32)
  | .stride i => ar.setA i { ar.areg i with stride := v.setWidth 32 }
  | .pc lane => ar.modLane lane.val fun l => { l with pc := epcBits v }
  | .special lane x => if x.writable then ar.writeXreg (1#64 <<< lane.val) x fun _ => v else ar

/-- What the debug handler writes of a stopped context beyond its own registers (R413): TBASE moves the window, as R110 and R112 say,
and PERM is its region's. A PC gives up the place in its beam's issue order. -/
def State.debugWrite (s : State) (c : Ctx) (f : ContextReg) (v : DWord) : State :=
  match f with
  | .special _ .tbase =>
    if (s.tbaseFault c v).isSome then s
    else
      let s := s.modCtx c.key fun c => { c with arch := { c.arch with tbase := v } }
      if c.away then s else s.requestFill c.launch c.key.core v
  | .special _ .perm => s.modRegion c.key.core c.launch c.group fun g => { g with perm := v &&& 0x00000FFFFFFFFFFF }
  | .pc _ => s.endTurn c.key
  | _ => s

/-- REGISTER_WRITE (R411, R413, R415): a comparator of a launch on its cores, a register of a context whose stop the handler holds, or
RIDX of a barrier-log ring (DEDUCED, log 49). -/
def execRegisterWrite (target : RegTarget) (v : DWord) (s : State) : Host.Outcome State Fault Refusal :=
  match target with
  | .comparator n cmp reg => .next ((s.modLaunch n fun l => { l with cmps := l.cmps.set cmp (l.cmps[cmp].write reg v) }).takeCmp n cmp)
  | .ridx n =>
    .next (match (s.launch? n).bind (·.logRing) with
      | some base => s.homeWrite none (.dev (base + 8)) (leBytes v.toNat 8)
      | none => s)
  | .context key f =>
    match s.ctx? key with
    | none => .next s
    | some c =>
      match c.st with
      | .parked (.stopped _) => .next ((s.modCtx key fun c => { c with arch := c.arch.debugWrite f v }).debugWrite c f v)
      | _ => .next s

/-- DEBUGGER_ATTACH (R414). -/
def execDebuggerAttach (n : Word) (s : State) : Host.Outcome State Fault Refusal :=
  .next (s.modLaunch n fun l => { l with debugger := true })

/-- DEBUGGER_DETACH (R411): every comparator of the launch is cleared. -/
def execDebuggerDetach (n : Word) (s : State) : Host.Outcome State Fault Refusal :=
  .next (s.modLaunch n fun l => { l with debugger := false, cmps := Vector.replicate 8 Comparator.clear }).armCores

/-! ## Barrier logging (R415) -/

/-- BARRIER_LOGGING_ENABLE (R415): the ring's header, in device memory. -/
def execBarrierLoggingEnable (n : Word) (base nent : Nat) (s : State) : Host.Outcome State Fault Refusal :=
  if (s.launch? n).isSome && ((List.range 15).any fun i => nent == 2 ^ (10 + i)) && decide (base + 64 + 32 * nent ≤ Config.devBytes) then
    .next ((s.homeWrite none (.dev base) (leBytes 0 24 ++ leBytes nent 4 ++ leBytes 0 36)).modLaunch n fun l => { l with logRing := some base })
  else .next s

end Sys2Proof.Machine
end

