-- ==== Sys2Proof/Machine/CodeHeap.lean ====
section
/-!
DEFINITION. Gyhouc's load and unload services (R20–R32, R440) and the compaction of the code heap (R34–R36).
-/
namespace Sys2Proof.Machine

/-! ## The image (R20–R30) -/

/-- The n-byte field of an image at an offset (R3, R20). -/
def imgField (img : List Byte) (off n : Nat) : Nat := leNat ((img.drop off).take n)

/-- A section of the directory (R23). -/
structure Section where
  kind : Nat
  rsvd : Nat
  off  : Nat
  size : Nat
  deriving DecidableEq, Repr

/-- NSECT. -/
def imgNsect (img : List Byte) : Nat := imgField img 0x06 2
/-- REGS. -/
def imgRegs (img : List Byte) : Nat := imgField img 0x08 4
/-- WIDTH. -/
def imgWidth (img : List Byte) : Nat := imgField img 0x0C 1
/-- NFMTREQ. -/
def imgNfmtreq (img : List Byte) : Nat := imgField img 0x0D 1
/-- FLAGS. -/
def imgFlags (img : List Byte) : Nat := imgField img 0x0E 2
/-- FLAGS.SIGNED. -/
def imgSigned (img : List Byte) : Bool := imgFlags img % 2 == 1

/-- The directory (R23). -/
def imgSections (img : List Byte) : List Section :=
  (List.range (imgNsect img)).map fun i =>
    let at_ := 0x20 + 16 * i
    ⟨imgField img at_ 4, imgField img (at_ + 4) 4, imgField img (at_ + 8) 4, imgField img (at_ + 12) 4⟩

/-- The section of a kind. -/
def imgSection (img : List Byte) (kind : Nat) : Option Section := (imgSections img).find? fun x => x.kind == kind

/-- The first and second words, third word and fourth word of each 16-byte entry of a table section (R24, R27). -/
def imgTable (img : List Byte) (kind : Nat) : List (Nat × Nat × Nat × Nat) :=
  match imgSection img kind with
  | none => []
  | some x => (List.range (x.size / 16)).map fun i =>
    let at_ := x.off + 16 * i
    (imgField img at_ 4, imgField img (at_ + 4) 4, imgField img (at_ + 8) 4, imgField img (at_ + 12) 4)

/-- The bytes of the text section. -/
def imgText (img : List Byte) : Section := (imgSection img 1).getD ⟨1, 0, 0, 0⟩

/-- A section of a known kind with the size that its contents need, within the bounds (R23; DEDUCED, log 20
for the table sizes). A text section of SIZE 0, to which R23 and R31 give no status, is BADSECT as no text (DESIGN CHOICE, log 63); where an empty one of
another kind may stand, and that the signature is the last by its end, is the choice of log 69. -/
def Section.legal (x : Section) (dirEnd objSize : Nat) : Bool :=
  decide (dirEnd ≤ x.off) && decide (x.off + x.size ≤ objSize) &&
  match x.kind with
  | 1 => x.off % 4096 == 0 && x.size % 4096 == 0 && x.size != 0
  | 2 | 7 => true
  | 3 | 4 | 5 => x.size % 16 == 0
  | 6 => x.size == 64
  | 8 => x.size == 29856 && x.off + x.size == objSize
  | _ => false

/-- Whether two sections are of different kinds and do not overlap; one of SIZE 0 overlaps none (DESIGN CHOICE, log 69). -/
def Section.apart (x y : Section) : Bool :=
  x.kind != y.kind && (x.size == 0 || y.size == 0 || !(rangesMeet x.off x.size y.off y.size))

/-- Whether every section stands apart from every later one. -/
def sectionsApart : List Section → Bool
  | [] => true
  | x :: xs => xs.all x.apart && sectionsApart xs

/-- BADMAGIC (R20, R31). -/
def imgMagicOk (img : List Byte) : Bool :=
  decide (32 ≤ img.length) && imgField img 0x00 4 == 0x4F564331 && imgField img 0x04 2 == 1

/-- BADSECT (R31). -/
def imgSectionsOk (img : List Byte) : Bool :=
  let n := imgNsect img
  let dirEnd := 0x20 + 16 * n
  decide (1 ≤ n) && decide (n ≤ 12) && imgField img 0x10 8 == img.length && decide (dirEnd ≤ img.length)
  && (imgSections img).all (fun x => x.legal dirEnd img.length) && sectionsApart (imgSections img)
  && (imgSection img 1).isSome && imgSigned img == (imgSection img 8).isSome

/-- RSVD (R20, R21, R23, R24, R27). -/
def imgReservedOk (img : List Byte) : Bool :=
  imgField img 0x18 8 == 0 && imgFlags img / 2 == 0 && imgRegs img / 2 ^ 24 == 0
  && (imgSections img).all (fun x => x.rsvd == 0)
  && (imgTable img 3).all (fun e => e.2.2.1 == 0 && e.2.2.2 == 0)
  && (imgTable img 4).all (fun e => e.2.2.2 / 2 == 0)
  && (imgTable img 5).all (fun e => e.2.2.2 == 0)

/-- BADREGS (R21). -/
def imgRegsOk (img : List Byte) : Bool :=
  let r := imgRegs img
  decide (r % 256 ≤ 64) && decide (r / 2 ^ 8 % 256 ≤ 32) && decide (r / 2 ^ 16 % 256 ≤ 64)

/-- BADWIDTH (R31). -/
def imgWidthOk (img : List Byte) : Bool :=
  decide (imgWidth img ≤ 2) && !(imgWidth img == 2 && !(imgTable img 4).isEmpty)

/-- BADLEAF (R24, R25, R27, R31). -/
def imgTablesOk (img : List Byte) : Bool :=
  let t := (imgText img).size
  let entry (e : Nat × Nat × Nat × Nat) : Bool := e.1 % 4 == 0 && decide (e.1 < t)
  (imgTable img 3).all entry
  && (imgTable img 4).all (fun e => entry e && (e.2.2.1 == 0 || (decide (64 ≤ e.2.2.1) && decide (e.2.2.1 ≤ 65535))))
  && (imgTable img 5).all fun e =>
      e.1 % 4096 == 0 && e.2.1 % 4096 == 0 && e.2.1 != 0 && e.2.2.1 % 4096 == 0 && decide (e.1 + e.2.1 ≤ t)

/-- BADDISP (R28). -/
def imgDispOk (img : List Byte) : Bool :=
  match imgSection img 6 with
  | none => true
  | some x => ((img.drop x.off).take 64).all fun b => (List.range 4).all fun i => b.toNat / 4 ^ i % 4 != 3

/-- BADSIG (R30). -/
def State.signatureOk (s : State) (img : List Byte) : Bool :=
  match imgSection img 8 with
  | none => true
  | some x =>
    let key := BitVec.ofNat 512 (imgField img x.off 64)
    s.policy.trusted.contains key
    && Config.slhVerify key (Config.shake256 (img.take x.off)) ((img.drop (x.off + 64)).take 29792)

/-- The status of an image before it is placed, at the first failure (R31). -/
def State.loadStatus (s : State) (img : List Byte) : Word :=
  if !imgMagicOk img then 0x01
  else if !imgSectionsOk img then 0x02
  else if !imgReservedOk img then 0x03
  else if !imgRegsOk img then 0x04
  else if !imgWidthOk img then 0x05
  else if 2 < imgNfmtreq img then 0x06
  else if !imgTablesOk img then 0x07
  else if !imgDispOk img then 0x08
  else if s.policy.requireSigned && !imgSigned img then 0x09
  else if imgSigned img && !s.signatureOk img then 0x0A
  else 0x00

/-- The object of an image at a heap address. -/
def objectAt (img : List Byte) (addr : Nat) : CodeObject where
  addr := addr
  size := img.length
  scnt := imgRegs img % 256
  acnt := max 1 (imgRegs img / 2 ^ 8 % 256)
  vcnt := imgRegs img / 2 ^ 16 % 256
  width := imgWidth img
  nfmtreq := imgNfmtreq img
  kernels := (imgTable img 3).map (·.1)
  leaves := (imgTable img 4).map fun e => (e.1, e.2.2.1, e.2.2.2 % 2 == 1)
  overlays := (imgTable img 5).map (·.2.1)
  textOff := (imgText img).off
  textSize := (imgText img).size

/-! ## Loading and unloading (R31, R32, R440) -/

/-- Whether an object of a size may stand at a heap address: a multiple of 4,096, within the code heap, clear of every other
object but the one named. -/
def State.heapRoom (s : State) (but addr size : Nat) : Bool :=
  addr % 4096 == 0 && decide (s.codeHeap.1 ≤ addr) && decide (addr + size ≤ s.codeHeap.1 + s.codeHeap.2.2)
  && s.objects.all fun o => o.addr == but || !(rangesMeet addr size o.addr o.size)

/-- A free heap address for an object of a size: Gyhouc's choice when it is free, else the first that is (DEDUCED, log 48). -/
def State.loadPlace (s : State) (size choice : Nat) : Option Nat :=
  (choice :: s.codeHeap.1 :: sortOn id (s.objects.map fun o => roundUp (o.addr + o.size) 4096)).find? fun a => s.heapRoom 0 a size

/-- Whether an object is referred to (R32): by a live or saved thread or gang, a pending launch, a rendezvous entry, or an
armed comparator (DEDUCED, log 48). -/
def State.objectBusy (s : State) (o : CodeObject) : Bool :=
  let names (n : Word) : Bool := ((s.launch? n).map fun l => l.obj == o.addr).getD false
  s.ctxs.any (fun c => names c.launch)
  || s.launches.any (fun l => l.obj == o.addr && !l.saved.isEmpty)
  || s.pending.any (fun p => !p.dead && pktObj p.pkt == o.addr)
  || s.rdv.any (fun e => names e.launch)
  || s.launches.any fun l => l.cmps.toList.any fun x => x.dbpc.getLsbD 63 && inRange (x.dbpc.toNat % 2 ^ 57) o.text o.textSize

/-- UNLOAD (R440). -/
def execUnload (addr : DWord) (s : State) : Host.Outcome State Fault Refusal :=
  let answer (s : State) (status : Word) : Host.Outcome State Fault Refusal :=
    .next { s with reports := s.reports ++ [Report.unloadStatus status] }
  if s.boot != .running then .next s
  else
  match s.objects.find? fun o => o.addr == addr.toNat with
  | none => answer s 0x0D
  | some o =>
    if s.objectBusy o then answer s 0x0C
    else
      answer { s with objects := s.objects.filter fun x => x.addr != o.addr,
                      forwards := s.forwards.filter fun f => f.object != o.addr } 0x00

/-! ## Compaction (R34–R36) -/

/-- An address of a moved range at its new place. -/
def movedTo (base size target : Nat) (x : DWord) : DWord :=
  if inRange x.toNat base size then BitVec.ofNat 64 (x.toNat - base + target) else x

/-- The PCs that a context's registers save, EPC, MEET and TBASE (R34); code addresses in UHND, OVH and ordinary registers
stay, and reach the text through forwarding (R35). -/
def Arch.mapPcs (ar : Arch) (f : DWord → DWord) : Arch :=
  { ar with
    lanes := ar.lanes.map fun l => { l with pc := f l.pc, meet := f l.meet },
    epc := f ar.epc,
    tbase := f ar.tbase,
    link := ar.link.map f,
    iter := ar.iter.map fun i => { i with body := f i.body },
    mark := ar.mark.map fun m => (f m.1, m.2),
    vdot := ar.vdot.map fun v => { v with pc := f v.pc } }

/-- The PCs that a claim saves. -/
def RequestKind.mapPcs (k : RequestKind) (f : DWord → DWord) : RequestKind :=
  match k with
  | .claim slot body taken empty => .claim slot (f body) (f taken) (f empty)
  | k => k

/-- The PCs that a wait saves. -/
def Wait.mapPcs (w : Wait) (f : DWord → DWord) : Wait :=
  match w with
  | .reply r => .reply { r with kind := r.kind.mapPcs f, pc := f r.pc, next := f r.next }
  | .gcall call next pops => .gcall (f call) (f next) pops
  | .gcallFree leaf key t call next pops order => .gcallFree (f leaf) key t (f call) (f next) pops order
  | .waitfree core d old next => .waitfree core d old (f next)
  | .mwait va place d x sc dl polled next => .mwait va place d x sc dl polled (f next)
  | .grow n order d next => .grow n order d (f next)
  | .spawn d next => .spawn d (f next)
  | .svc d a b n next slot => .svc d a b n (f next) slot
  | w => w

/-- The PCs that a context saves. -/
def Ctx.mapPcs (c : Ctx) (f : DWord → DWord) : Ctx :=
  { c with
    arch := c.arch.mapPcs f,
    ckpt := c.ckpt.map fun ar => ar.mapPcs f,
    passed := c.passed.map fun p => (p.1, f p.2),
    st := match c.st with
      | .parked w => .parked (w.mapPcs f)
      | st => st }

/-- The PCs that an operation saves. -/
def MatrixOp.mapPcs (o : MatrixOp) (f : DWord → DWord) : MatrixOp :=
  { o with pc := f o.pc, next := f o.next, members := o.members.map fun m => (m.1, f m.2) }

/-- A region's waiting operations. -/
def Region.mapPcs (r : Region) (f : DWord → DWord) : Region :=
  { r with cvg := r.cvg.map fun v => { v with waiting := v.waiting.map (·.mapPcs f), performed := v.performed.map (·.mapPcs f) } }

/-- The comparators of a launch: each is rewritten whose ADDR lies in the moved text, whatever object the launch runs (R34). -/
def Launch.mapCmps (l : Launch) (f : DWord → DWord) : Launch :=
  { l with cmps := l.cmps.map fun x => { x with dbpc := (x.dbpc &&& 0xFE00000000000003) ||| f (x.dbpc &&& 0x01FFFFFFFFFFFFFC) } }

/-- A launch's saved contexts, regions and windows, and its object. -/
def Launch.mapPcs (l : Launch) (f : DWord → DWord) (obj : Nat) : Launch :=
  { l with
    obj := obj,
    saved := l.saved.map (·.mapPcs f),
    savedRegs := l.savedRegs.map (·.mapPcs f),
    savedWins := l.savedWins.map fun w => (w.1, f w.2.1, w.2.2) }

/-- A packet with another OBJ (R51). -/
def pktSetObj (p : BitVec 1536) (obj : Nat) : BitVec 1536 :=
  let low := pktField p 0 8
  BitVec.ofNat 1536 (low + 2 ^ 64 * (obj % 2 ^ 64) + 2 ^ 128 * (p.toNat / 2 ^ 128))

/-- Whether Gyhouc may move an object to a heap address: a range that no other object holds, with a forwarding entry left on every
die (R36), whose text lies clear of the object's old text, where R35 would forward the new addresses too (DEDUCED, log 48). -/
def State.mayMove (s : State) (o : CodeObject) (target : Nat) : Bool :=
  s.heapRoom o.addr target o.size && !(rangesMeet (target + o.textOff) o.textSize o.text o.textSize)
  && s.forwards.all (fun f => f.object != o.addr || !(rangesMeet (target + o.textOff) o.textSize f.base f.size))
  && (List.finRange 4).all fun d => decide ((s.forwards.filter fun f => f.die == d).length < Config.forwardMax)

/-- The matrix operations of an object's gangs stop as for pre-emption (R34, R333). -/
def State.stopMatrix (s : State) (o : CodeObject) : State :=
  s.ctxs.foldl (fun (s : State) (c : Ctx) =>
    if ((s.launch? c.launch).map fun l => l.obj == o.addr).getD false then
      match s.opOf c.key with
      | some x => s.stopOp x
      | none => s
    else s) s

/-- Moving an object (R34): its bytes, every saved address, the forwarding entries, and the refills (DEDUCED, log 47). -/
def State.moveObject (s : State) (o : CodeObject) (target : Nat) : State :=
  let mine (n : Word) : Bool := ((s.launch? n).map fun l => l.obj == o.addr).getD false
  let f := movedTo o.text o.textSize (target + o.textOff)
  let wins := s.windows.filter fun w => mine w.launch
  let s : State := { s with
    dev := s.dev.putBytes (s.heapOffset target) (s.heapBytes o.addr o.size),
    objects := s.objects.map fun x => if x.addr == o.addr then { x with addr := target } else x,
    forwards := (s.forwards.map fun w => if w.object == o.addr then { w with object := target } else w)
      ++ (List.finRange 4).map fun d => ⟨d, target, o.text, o.textSize, target + o.textOff⟩,
    ctxs := s.ctxs.map fun c => if mine c.launch then c.mapPcs f else c,
    regions := s.regions.map fun r => if mine r.launch then r.mapPcs f else r,
    beams := s.beams.map fun b => { b with ops := b.ops.map fun x => if mine x.launch then x.mapPcs f else x },
    rdv := s.rdv.map fun e => if mine e.launch then { e with leaf := f e.leaf } else e,
    pending := s.pending.map fun p => if pktObj p.pkt == o.addr then { p with pkt := pktSetObj p.pkt target } else p,
    windows := s.windows.map fun w => if mine w.launch then { w with tbase := f w.tbase } else w,
    fills := s.fills.map fun g => if g.object == o.addr then { g with object := target, tbase := f g.tbase } else g,
    launches := s.launches.map fun l => if l.obj == o.addr then (l.mapCmps f).mapPcs f target else l.mapCmps f }
  (wins.foldl (fun (s : State) w => s.requestFill w.launch w.core (f w.tbase)) s).armCores

/-- CODE_HEAP_COMPACTION (R34, R36): one object moves to a free range that Gyhouc chose. -/
def execCodeHeapCompaction (object target : Nat) (s : State) : Host.Outcome State Fault Refusal :=
  match s.objects.find? fun o => o.addr == object with
  | none => .next s
  | some o => .next (if s.mayMove o target then (s.stopMatrix o).moveObject o target else s)

/-! ## Loading with compaction (R31, R34, R36) -/

/-- The heap addresses to which an object can be packed, the best first: down, after the start of the heap or another object; up, before
its end or another object. -/
def State.packTargets (s : State) (up : Bool) (o : CodeObject) : List Nat :=
  let down (n : Nat) : Nat := n / 4096 * 4096
  let edge := s.codeHeap.1 + s.codeHeap.2.2
  if up then
    (sortOn id ((edge :: s.objects.map (·.addr)).map fun a => down (a - o.size))).reverse.filter fun a => decide (o.addr < a)
  else (sortOn id (s.codeHeap.1 :: s.objects.map fun x => roundUp (x.addr + x.size) 4096)).filter fun a => decide (a < o.addr)

/-- One move of a compaction that packs the heap towards an end. -/
def State.packOne (s : State) (up : Bool) : Option State :=
  (sortOn (·.addr) s.objects).findSome? fun o =>
    ((s.packTargets up o).find? fun a => s.mayMove o a).map fun a => (s.stopMatrix o).moveObject o a

/-- A compaction that packs the heap towards an end until an object of a size has room; none where it makes none. -/
def State.pack (s : State) (up : Bool) (size : Nat) : Nat → Option State
  | 0 => none
  | n + 1 =>
    match s.packOne up with
    | none => none
    | some s => if (s.loadPlace size 0).isSome then some s else State.pack s up size n

/-- The heap addresses to which objects may be moved: its multiples of 4,096. -/
def State.heapPages (s : State) : List Nat :=
  (List.range (s.codeHeap.2.2 / 4096 + 1)).map fun i => roundUp s.codeHeap.1 4096 + 4096 * i

/-- A compaction of at most n moves, of any objects to any free ranges, after which an object of a size has room; none where there is
none. -/
def State.compact (size : Nat) : Nat → State → Option State
  | n, s =>
    if (s.loadPlace size 0).isSome then some s
    else match n with
      | 0 => none
      | n + 1 => s.objects.findSome? fun o => s.heapPages.findSome? fun a =>
          if a != o.addr && s.mayMove o a then State.compact size n ((s.stopMatrix o).moveObject o a) else none

/-- The compaction that a LOAD asks for when no free range has its size: Gyhouc packs the heap down, or else up, or else takes the
shortest compaction that makes room, where there is one at all, as there is none where the free bytes are too few; each move takes a forwarding entry, of which each die has 256 (R31,
R34, R36) (DEDUCED, log 48). -/
def State.makeRoom (s : State) (size : Nat) : State :=
  if s.codeHeap.2.2 < ((s.objects.filter fun o => o.addr != 0).map (·.size)).sum + size then s
  else match s.pack false size Config.forwardMax with
  | some s => s
  | none =>
    match s.pack true size Config.forwardMax with
    | some s => s
    | none => ((List.range (Config.forwardMax + 1)).findSome? fun n => State.compact size n s).getD s

/-- LOAD (R31): `image` is what Gyhouc reads at the start address given, `place` its choice of a heap address. With no free range the
heap is compacted first; where that makes no room nothing moves (R31, R34, R36). -/
def execLoad (image : List Byte) (place : Nat) (s : State) : Host.Outcome State Fault Refusal :=
  let answer (s : State) (status : Word) (addr : Nat) : Host.Outcome State Fault Refusal :=
    .next { s with reports := s.reports ++ [Report.loadStatus status addr] }
  if s.boot != .running then .next s
  else if s.loadStatus image != 0 then answer s (s.loadStatus image) 0
  else
    let s := if (s.loadPlace image.length place).isSome then s else s.makeRoom image.length
    match s.loadPlace image.length place with
    | none => answer s 0x0B 0
    | some a =>
      let s : State := { s with dev := s.dev.putBytes (s.heapOffset a) image, objects := s.objects ++ [objectAt image a] }
      answer s 0x00 a

end Sys2Proof.Machine
end

