-- ==== Sys2Proof/Machine/Device.lean ====
section
/-!
DEFINITION. The package as a whole: reset and measurements (R407, R408), attestation (R409), policy, power, clamps and trips
(R405, R406, R434–R436, R439), and the sampling pulse (R416).
-/
namespace Sys2Proof.Machine

/-! ## Reset (R407, R408) -/

/-- Extending a measurement register with the digest of what is measured (R408; DESIGN CHOICE, log 3). -/
def extendMeasure (m : BitVec 512) (bytes : List Byte) : BitVec 512 :=
  Config.shake256 (leBytes m.toNat 64 ++ leBytes (Config.shake256 bytes).toNat 64)

/-- What outlives a package reset: the outside world, whose memory does not have what a frame cache had not written back (R219), what it was told, the package's number, domain and cables, the flash, the fenced
slices with their spares (R404) and the cores that left the enabled set (DESIGN CHOICE, log 10). -/
def State.keepOver (s : State) (r : State) : State :=
  { r with
    inputs := s.inputs.map fun x => (x.1 - s.tick, x.2),
    agenda := s.agenda,
    freeCtr := s.freeCtr,
    pkg := s.pkg,
    domain := s.domain,
    opened := s.opened,
    ysl := s.ysl,
    hdmBase := s.hdmBase,
    codeHeap := s.codeHeap,
    host := (s.hostLines.filter (·.dirty)).foldl (fun m h => m.putBytes (128 * h.pa) (lineBytes h.stale)) s.host,
    dom := s.dom,
    disabled := s.disabled,
    fenced := s.fenced,
    rowSpares := s.rowSpares.filter fun x => s.fenced.contains (.row x.1),
    flash := s.flash,
    reports := s.reports }

/-- Whether the boot ROM of an I/O die accepts a Gyhouc image under its fuses (R407): the key's digest is in an unrevoked slot, the
signature verifies, and the security version is not below the rollback counter. -/
def bootAccepts (f : Fuses) (image : List Byte) : Bool :=
  let key := Config.imageKey image
  (List.finRange 4).any (fun i => !(f.revoked.getLsbD i.val) && f.slots[i] == Config.shake256 (leBytes key.toNat 64))
  && Config.slhVerify key (Config.shake256 (Config.imageBody image)) (Config.imageSig image)
  && decide (f.rollback ≤ Config.imageVersion image)

/-- The fuse state as it is measured (R408). -/
def fuseBytes (f : Fuses) : List Byte :=
  f.slots.toList.flatMap (fun x => leBytes x.toNat 64) ++ leBytes f.revoked.toNat 1 ++ leBytes f.rollback 8

/-- PACKAGE_RESET (R407): each I/O die checks the image that it read from the flash; Gyhouc starts when both accept the same image, and
is measured; otherwise the package stays in recovery. -/
def execPackageReset (image0 image1 : List Byte) (fuses : Fuses) (policy keys : List Byte) (s : State) : Host.Outcome State Fault Refusal :=
  let r := s.keepOver State.reset
  if bootAccepts fuses image0 && bootAccepts fuses image1 && image0 == image1 then
    .next { r with measure := #v[extendMeasure r.measure[0] image0, extendMeasure r.measure[1] policy,
                                 extendMeasure r.measure[2] (fuseBytes fuses), extendMeasure r.measure[3] keys] }
  else .next { r with boot := .recovery }

/-! ## Attestation (R409; PRESUMED, log 3 for the bytes of SPDM 1.3) -/

/-- An SPDM message: version 1.3, the code, two parameters, and the body. -/
def spdmMessage (code p1 p2 : Nat) (body : List Byte) : List Byte :=
  [0x13, BitVec.ofNat 8 code, BitVec.ofNat 8 p1, BitVec.ofNat 8 p2] ++ body

/-- ERROR with a code: 0x01 InvalidRequest, 0x04 UnexpectedRequest, 0x07 UnsupportedRequest. -/
def spdmError (code : Nat) : List Byte := spdmMessage 0x7F code 0 []

/-- Answering a request: the answer goes out, and both join the transcript. -/
def State.spdmAnswer (s : State) (req answer : List Byte) : State :=
  { s with
    spdm := { s.spdm with transcript := s.spdm.transcript ++ req ++ answer },
    reports := s.reports ++ [Report.spdm answer] }

/-- A request that PCIe DOE delivers: nothing answers without power, and one that needs algorithms that were not negotiated is not
supported. -/
def State.spdmServe (s : State) (req : List Byte) (needs able : Bool) (answer : List Byte) : Host.Outcome State Fault Refusal :=
  if s.boot == .off then .next s
  else if needs && !s.spdm.negotiated then .next (s.spdmAnswer req (spdmError 0x04))
  else if !able then .next (s.spdmAnswer req (spdmError 0x07))
  else .next (s.spdmAnswer req answer)

/-- GET_VERSION (R409): a session starts anew. -/
def execGetVersion (req : List Byte) (s : State) : Host.Outcome State Fault Refusal :=
  if s.boot == .off then .next s
  else .next ({ s with spdm := ⟨false, false, false, []⟩ }.spdmAnswer req (spdmMessage 0x04 0 0 [0x00, 0x01, 0x00, 0x13]))

/-- GET_CAPABILITIES (R409): certificates, challenge and signed measurements. -/
def execGetCapabilities (req : List Byte) (s : State) : Host.Outcome State Fault Refusal :=
  s.spdmServe req false true (spdmMessage 0x61 0 0 (leBytes 0 4 ++ leBytes 0x16 4))

/-- The extended algorithm structures of a NEGOTIATE_ALGORITHMS request, signatures then hashes, as the values of their four bytes. -/
def extAlgorithms (req : List Byte) : List Nat × List Nat :=
  let n := imgField req 28 1
  let m := imgField req 29 1
  ((List.range n).map fun i => imgField req (32 + 4 * i) 4, (List.range m).map fun i => imgField req (32 + 4 * n + 4 * i) 4)

/-- NEGOTIATE_ALGORITHMS (R409): the answer selects what the requester offers of SHAKE256 and SLH-DSA-SHAKE-256f; a requester that offers
neither receives UnsupportedRequest. The request is its header, its fixed fields, and the extended algorithm structures behind them. -/
def execNegotiateAlgorithms (head fixed ext : List Byte) (s : State) : Host.Outcome State Fault Refusal :=
  let req := head ++ fixed ++ ext
  let sign := (extAlgorithms req).1.contains Config.spdmSignId.toNat
  let hash := (extAlgorithms req).2.contains Config.spdmHashId.toNat
  if s.boot == .off then .next s
  else if !hash && !sign then .next (s.spdmAnswer req (spdmError 0x07))
  else
    let s : State := { s with spdm := { s.spdm with negotiated := true, sign := sign, hash := hash } }
    let one (b : Bool) (id : Nat) : List Byte := if b then leBytes id 4 else []
    let chosen := one sign Config.spdmSignId.toNat ++ one hash Config.spdmHashId.toNat
    .next (s.spdmAnswer req (spdmMessage 0x63 0 0
      (leBytes (36 + chosen.length) 2 ++ leBytes 0 26 ++ leBytes (if sign then 1 else 0) 1 ++ leBytes (if hash then 1 else 0) 1
        ++ leBytes 0 2 ++ chosen)))

/-- GET_DIGESTS (R409). -/
def execGetDigests (req : List Byte) (s : State) : Host.Outcome State Fault Refusal :=
  s.spdmServe req true s.spdm.hash (spdmMessage 0x01 0 1 (leBytes (Config.shake256 Config.certChain).toNat 64))

/-- GET_CERTIFICATE (R409): the part of the chain in slot 0 that the request's offset and length name. The request is its header and what follows. -/
def execGetCertificate (head body : List Byte) (s : State) : Host.Outcome State Fault Refusal :=
  let req := head ++ body
  let slot := imgField req 2 1 % 16
  let off := imgField req 4 2
  let part := (Config.certChain.drop off).take (imgField req 6 2)
  s.spdmServe req true true
    (if slot = 0 && decide (off ≤ Config.certChain.length) then
      spdmMessage 0x02 0 0 (leBytes part.length 2 ++ leBytes (Config.certChain.length - off - part.length) 2 ++ part)
    else spdmError 0x01)

/-- An answer with the device's signature over the transcript, the request and the answer (R409). -/
def State.signedAnswer (s : State) (req answer : List Byte) : List Byte :=
  answer ++ Config.slhSign (s.spdm.transcript ++ req ++ answer)

/-- The measurement registers, index 1 first (R408). -/
def State.measureBytes (s : State) : List Byte :=
  s.measure.toList.flatMap fun m => leBytes m.toNat 64

/-- The nonce of an answer: 32 free bytes (DESIGN CHOICE, log 2). -/
def State.nonce (s : State) : List Byte := (List.range 32).map fun i => Config.freeByte (s.freeCtr + i)

/-- CHALLENGE (R409): the digests of the chain and of the measurements, with the nonce and the requester's context, signed. -/
def execChallenge (req : List Byte) (s : State) : Host.Outcome State Fault Refusal :=
  { s with freeCtr := s.freeCtr + 32 }.spdmServe req true (s.spdm.sign && s.spdm.hash)
    (s.signedAnswer req (spdmMessage 0x03 0 1
      (leBytes (Config.shake256 Config.certChain).toNat 64 ++ s.nonce ++ leBytes (Config.shake256 s.measureBytes).toNat 64
        ++ leBytes 0 2 ++ (req.drop 36).take 8)))

/-- A measurement block (R408, R409): its index and the value of its register. -/
def measureBlock (i : Nat) (m : BitVec 512) : List Byte :=
  leBytes i 1 ++ leBytes 1 1 ++ leBytes 67 2 ++ leBytes 0 1 ++ leBytes 64 2 ++ leBytes m.toNat 64

/-- GET_MEASUREMENTS (R409): the count of the registers, one of them or all, signed where the request asks for it. -/
def execGetMeasurements (req : List Byte) (s : State) : Host.Outcome State Fault Refusal :=
  let signed := imgField req 2 1 % 2 == 1
  let op := imgField req 3 1
  let which := (List.finRange 4).filter fun i => op == 255 || op == i.val + 1
  let body := which.flatMap fun i => measureBlock (i.val + 1) s.measure[i]
  let context := (req.drop (if signed then 37 else 4)).take 8
  let answer := spdmMessage 0x60 (if op == 0 then 4 else 0) 0
    (leBytes which.length 1 ++ leBytes body.length 3 ++ body ++ s.nonce ++ leBytes 0 2 ++ context)
  { s with freeCtr := s.freeCtr + 32 }.spdmServe req true (!signed || s.spdm.sign)
    (if signed then s.signedAnswer req answer else answer)

/-! ## Policy (R405, R439) -/

/-- A value within limits. -/
def clampTo (lo hi x : Nat) : Nat := max lo (min hi x)

/-- The place of a quantity among the targets. -/
def clampIndex : ClampKind → Fin 4
  | .junction => 0
  | .current => 1
  | .voltage => 2
  | .heat => 3

/-- The limits within which Gyhouc's targets lie (R405, R435): the trip points of temperature, current and voltage, the clamp of the heat
flux; °C, A, mV, W/cm². -/
def targetLimits : ClampKind → Nat × Nat
  | .junction => (0, 110)
  | .current => (0, 64)
  | .voltage => (600, 950)
  | .heat => (0, 200)

/-- POLICY_WRITE (R405): values beyond the hardware limits are clamped. Watchdog timers stop or run on as a new policy for stopped
threads says (R413). -/
def execPolicyWrite (w : PolicyWrite) (s : State) : Host.Outcome State Fault Refusal :=
  let p := s.policy
  .next (State.retimed { s with policy :=
    match w with
    | .rdvDefault n => { p with rdvDefault := clampTo 64 65535 n }
    | .wdogPersist n => { p with wdogPersist := n }
    | .wdogOther n => { p with wdogOther := n }
    | .requireSigned b => { p with requireSigned := b }
    | .trust k => { p with trusted := k :: p.trusted.filter fun x => x != k }
    | .threshold n => { p with threshold := clampTo 1 255 n }
    | .samplePeriod n => { p with samplePeriod := n }
    | .powerTarget n => { p with powerTarget := min 2800 n }
    | .target k n => { p with targets := p.targets.set (clampIndex k) (clampTo (targetLimits k).1 (targetLimits k).2 n) }
    | .heapLimit n => { p with heapLimit := n }
    | .queuePriority port q n => { p with queuePrio := p.queuePrio.set (16 * port.val + q.val) n }
    | .faultRetirement a => { p with faultAction := a }
    | .pageForwarding b => { p with pageForward := b }
    | .stoppedCount b => { p with stoppedCount := b } } s)

/-- POWER_TARGET_WRITE (R439): a baseboard controller may only lower the target. -/
def execPowerTargetWrite (watts : Nat) (s : State) : Host.Outcome State Fault Refusal :=
  .next { s with policy := { s.policy with powerTarget := min watts s.policy.powerTarget } }

/-! ## Clamps and trips (R406, R434–R436) -/

/-- The state without power after a trip (R436): the compute dies and the stacks lose what they hold, the links are down, and the trip is
recorded in the flash; the I/O dies keep their queues, policy, measurements and ports (DEDUCED, log 50). -/
def State.trip (s : State) (cause : TripCause) : State :=
  let off (p : Port) : Port := { p with mode := .down, hcap := p.hcap &&& 0xFFF0FFFF }
  let down : List Report := [Report.linkDown 0, Report.linkDown 1]
  let s' := s.keepOver State.reset
  { s' with
    tick := s.tick,
    inputs := s.inputs,
    boot := .off,
    ports := s.ports.map off,
    policy := s.policy,
    power := { s.power with samples := [], throttle := false, clamps := [] },
    spdm := s.spdm,
    measure := s.measure,
    flash := s.flash ++ [(cause, s.tick)],
    reports := s.reports ++ Report.flash cause s.tick :: down }

/-- Whether a reading of a quantity is beyond its trip point (R435). -/
def beyondTrip (cause : TripCause) (x : Nat) : Bool :=
  match cause with
  | .power => decide (3100 < x)
  | .current => decide (64 < x)
  | .temperature => decide (110 < x)
  | .voltage => decide (x < 600) || decide (950 < x)
  | .heat => decide (230 < x)

/-- The quantity that a sensor reads. -/
def sensorKind : Sensor → ClampKind
  | .junction _ => .junction
  | .current => .current
  | .voltage _ => .voltage
  | .heat _ => .heat

/-- Whether a reading of a quantity is beyond its clamp (R435). -/
def beyondClamp (kind : ClampKind) (x : Nat) : Bool :=
  match kind with
  | .junction => decide (95 < x)
  | .current => decide (58 < x)
  | .voltage => decide (x < 650) || decide (900 < x)
  | .heat => decide (200 < x)

/-- The trip of a clamped quantity. -/
def clampTrip : ClampKind → TripCause
  | .junction => .temperature
  | .current => .current
  | .voltage => .voltage
  | .heat => .heat

/-- TRIP (R435, R436): a reading beyond its trip point stops a package that has power. -/
def execTrip (r : TripReading) (s : State) : Host.Outcome State Fault Refusal :=
  .next (if s.boot == .off || !(beyondTrip r.cause r.value) then s else s.trip r.cause)

/-- The samples of one millisecond (R434: one in every 10 µs) (DEDUCED, log 50). -/
def powerWindow : Nat := 100

/-- POWER_MEASUREMENT (R434, R435): against the one-millisecond average, the trip point, then the clamp, which throttles until the average
falls below it; and against the limit of 3,000 W at the input. -/
def execPowerMeasurement (m : Measured) (s : State) : Host.Outcome State Fault Refusal :=
  if s.boot == .off then .next s
  else
    let xs := (m.package :: s.power.samples).take powerWindow
    let sum := xs.foldl (· + ·) 0
    let whole := xs.length == powerWindow
    let exceeds (watts : Nat) : Bool := whole && decide (watts * 1000 * powerWindow < sum)
    let below : Bool := !whole || decide (sum < 2800 * 1000 * powerWindow)
    if exceeds 3100 then .next (s.trip .power)
    else .next { s with power := { s.power with
      samples := xs, measured := m,
      throttle := exceeds 2800 || decide (3000000 < m.input) || (s.power.throttle && !below) } }

/-- CLAMP (R435): the reading of one sensor; beyond its clamp it throttles, until that sensor is inside again, and beyond its trip point
only the trip applies (R436). -/
def execClamp (sensor : Sensor) (reading : Nat) (s : State) : Host.Outcome State Fault Refusal :=
  if s.boot == .off then .next s
  else
    let s : State := { s with power := { s.power with readings := (sensor, reading) :: s.power.readings.filter fun x => x.1 != sensor } }
    if beyondTrip (clampTrip (sensorKind sensor)) reading then .next (s.trip (clampTrip (sensorKind sensor)))
    else
      let rest := s.power.clamps.filter fun k => k != sensor
      .next { s with power := { s.power with clamps := if beyondClamp (sensorKind sensor) reading then sensor :: rest else rest } }

/-- Whether a clamp throttles (R406). -/
def State.throttled (s : State) : Bool := s.power.throttle || !s.power.clamps.isEmpty

/-- Whether the cycle in hand is withheld from rods, beams and matrix engines: under a throttle every second group of eight cycles is, so
that every slot of a rod keeps its turns (R406) (DEDUCED, log 50). -/
def State.withheldNow (s : State) : Bool := s.throttled && s.tick / 8 % 2 == 1

/-! ## The management interface (R437, R439) -/

/-- What a baseboard controller reads (R439): the power sensors and the coolant's inlet temperature and flow, the sensors of temperature,
current, voltage and heat flux, the trip records, the failed ports of the fabric by I/O die and lane (R438), and the host ports that a mode mismatch holds down. -/
structure Management where
  measured : Measured
  readings : List (Sensor × Nat)
  trips    : List (TripCause × Nat)
  failed   : List (Fin 2 × Fin 36)
  held     : List (Fin 2)
  deriving DecidableEq, Repr

/-- The view of the management interface (R437, R439). -/
def State.management (s : State) : Management where
  measured := s.power.measured
  readings := s.power.readings
  trips := s.flash
  failed := ((List.finRange 72).filter fun p => !(s.ysl[p]).up).map fun p => (yslIod p, yslLane p)
  held := (List.finRange 2).filter fun p => (s.ports[p]).held

/-! ## The sampling pulse (R416) -/

/-- Signed LEB128. -/
def sleb : Nat → Int → List Byte
  | 0, _ => []
  | n + 1, x =>
    let b := (x % 128).toNat
    let rest := x / 128
    if (rest = 0 ∧ b < 64) ∨ (rest = -1 ∧ 64 ≤ b) then [BitVec.ofNat 8 b] else BitVec.ofNat 8 (b + 128) :: sleb n rest

/-- The PC that an entry reports: the lowest among the live lanes. -/
def Ctx.samplePc (c : Ctx) : Nat :=
  let live := lanesOf c.arch.liveMask
  (c.arch.lane ((c.arch.lowestLanes live).headD 0)).pc.toNat

/-- STATE of an entry (DEDUCED, log 20 for which waits are for memory, and for 6). -/
def State.sampleState (s : State) (c : Ctx) : Nat :=
  match c.st with
  | .draining => 4
  | .live => if s.underTest c then 6 else 0
  | .parked w =>
    match w with
    | .pages _ => 1
    | .reply _ => 1
    | .debugWait _ => 5
    | .stopped _ => 5
    | .selfTest => 6
    | _ => 2

/-- LAST of an entry. -/
def LastBranch.code : LastBranch → Nat
  | .none => 0
  | .branch => 1
  | .call => 2
  | .ret => 3

/-- One entry, after an entry with PC p; `home` is the entry of an AWAY context's home slot. -/
def State.sampleEntry (s : State) (p : Nat) (slot : Nat) (home : Bool) (c : Ctx) : List Byte × Nat :=
  let pc := if home then 0 else c.samplePc
  let st := if home then 3 else s.sampleState c
  let live : List Byte := if c.kind == .rod then [] else [BitVec.ofNat 8 (lanesOf c.arch.liveMask).length]
  ([BitVec.ofNat 8 slot, BitVec.ofNat 8 (st + 8 * c.last.code)] ++ sleb 10 (((pc : Int) - (p : Int)) / 4) ++ live, pc)

/-- The contexts that a core reports, ascending: its slots, or on a reckoner its migrated threads. -/
def State.sampled (s : State) (core : CoreId) : List Ctx :=
  if isReckoner core then
    sortOn (fun c => c.place.getD 0) (s.migrants (boardNo core))
  else sortOn (·.key.slot.val) (s.ctxs.filter fun c => c.key.core == core)

/-- The entries of a core. -/
def State.sampleCore (s : State) (acc : List Byte × Nat) (core : CoreId) : List Byte × Nat :=
  let cs := s.sampled core
  cs.foldl (fun (a : List Byte × Nat) (c : Ctx) =>
    let rk := isReckoner core
    let e := s.sampleEntry a.2 (if rk then c.place.getD 0 else c.key.slot.val) (!rk && c.away) c
    (a.1 ++ e.1, e.2)) (acc.1 ++ leBytes core.toNat 2 ++ leBytes cs.length 2, acc.2)

/-- The record of a pulse. -/
def State.sampleRecord (s : State) : List Byte :=
  let cores := ((List.range (2 ^ 14)).map fun i => (BitVec.ofNat 14 i : CoreId)).filter s.enabled
  let body := (cores.foldl s.sampleCore ([], 0)).1
  let len := roundUp (24 + body.length) 8
  leBytes s.tick 8 ++ leBytes s.sampleSeq 4 ++ leBytes cores.length 4 ++ leBytes len 4 ++ leBytes 0 4
    ++ body ++ List.replicate (len - 24 - body.length) 0

/-- Whether the sampling period selects this tick; a period of 0 selects none. -/
def State.sampleDue (s : State) : Bool := s.boot == .running && s.policy.samplePeriod != 0 && s.tick % s.policy.samplePeriod == 0

/-- SAMPLING_PULSE (R416). -/
def execSamplingPulse (s : State) : Host.Outcome State Fault Refusal :=
  .next (if s.sampleDue then { s with samples := s.samples ++ s.sampleRecord, sampleSeq := s.sampleSeq + 1 } else s)

end Sys2Proof.Machine
end

