-- ==== Sys2Proof/Machine/Float.lean ====
section
/-!
DEFINITION. The meanings of family 0x03 (R188–R209) in the compact, 64-bit and 96-bit forms.
-/
namespace Sys2Proof.Machine

/-- FADD, compact (R194). -/
def execFaddCompact (d : Reg) (a b : Operand) (s : State) : Host.Outcome State Fault Refusal :=
  s.floatOp2 d (.op a) (.op b) faddWord

/-- FADD, 64-bit form (R194). -/
def execFadd64 (d : Reg) (a b : Operand) (s : State) : Host.Outcome State Fault Refusal :=
  s.floatOp2 d (.op a) (.op b) faddWord

/-- FADD, 96-bit form (R194). -/
def execFadd96 (d : Reg) (a : Operand) (lit : Word) (s : State) : Host.Outcome State Fault Refusal :=
  s.floatOp2 d (.op a) (.lit lit) faddWord

/-- FSUB, compact (R194). -/
def execFsubCompact (d : Reg) (a b : Operand) (s : State) : Host.Outcome State Fault Refusal :=
  s.floatOp2 d (.op a) (.op b) fsubWord

/-- FSUB, 64-bit form (R194). -/
def execFsub64 (d : Reg) (a b : Operand) (s : State) : Host.Outcome State Fault Refusal :=
  s.floatOp2 d (.op a) (.op b) fsubWord

/-- FSUB, 96-bit form (R194). -/
def execFsub96 (d : Reg) (a : Operand) (lit : Word) (s : State) : Host.Outcome State Fault Refusal :=
  s.floatOp2 d (.op a) (.lit lit) fsubWord

/-- FMUL, compact (R194). -/
def execFmulCompact (d : Reg) (a b : Operand) (s : State) : Host.Outcome State Fault Refusal :=
  s.floatOp2 d (.op a) (.op b) fmulWord

/-- FMUL, 64-bit form (R194). -/
def execFmul64 (d : Reg) (a b : Operand) (s : State) : Host.Outcome State Fault Refusal :=
  s.floatOp2 d (.op a) (.op b) fmulWord

/-- FMUL, 96-bit form (R194). -/
def execFmul96 (d : Reg) (a : Operand) (lit : Word) (s : State) : Host.Outcome State Fault Refusal :=
  s.floatOp2 d (.op a) (.lit lit) fmulWord

/-- FMIN, compact (R195). -/
def execFminCompact (d : Reg) (a b : Operand) (s : State) : Host.Outcome State Fault Refusal :=
  s.floatOp2 d (.op a) (.op b) (fun _ => minMaxWord false)

/-- FMIN, 64-bit form (R195). -/
def execFmin64 (d : Reg) (a b : Operand) (s : State) : Host.Outcome State Fault Refusal :=
  s.floatOp2 d (.op a) (.op b) (fun _ => minMaxWord false)

/-- FMIN, 96-bit form (R195). -/
def execFmin96 (d : Reg) (a : Operand) (lit : Word) (s : State) : Host.Outcome State Fault Refusal :=
  s.floatOp2 d (.op a) (.lit lit) (fun _ => minMaxWord false)

/-- FMAX, compact (R195). -/
def execFmaxCompact (d : Reg) (a b : Operand) (s : State) : Host.Outcome State Fault Refusal :=
  s.floatOp2 d (.op a) (.op b) (fun _ => minMaxWord true)

/-- FMAX, 64-bit form (R195). -/
def execFmax64 (d : Reg) (a b : Operand) (s : State) : Host.Outcome State Fault Refusal :=
  s.floatOp2 d (.op a) (.op b) (fun _ => minMaxWord true)

/-- FMAX, 96-bit form (R195). -/
def execFmax96 (d : Reg) (a : Operand) (lit : Word) (s : State) : Host.Outcome State Fault Refusal :=
  s.floatOp2 d (.op a) (.lit lit) (fun _ => minMaxWord true)

/-- FFMA, 64-bit form (R194). -/
def execFfma64 (d : Reg) (a b e : Operand) (s : State) : Host.Outcome State Fault Refusal :=
  s.floatOp false d (.op a) (.op b) (.op e) [.op a, .op b, .op e] fun ar _ x y z => ffmaWord (fpctlRm ar.fpctl) x y z

/-- FFMA, 96-bit form (R194). -/
def execFfma96 (d : Reg) (a e : Operand) (lit : Word) (s : State) : Host.Outcome State Fault Refusal :=
  s.floatOp false d (.op a) (.lit lit) (.op e) [.op a, .lit lit, .op e] fun ar _ x y z => ffmaWord (fpctlRm ar.fpctl) x y z

/-- FCMP, 64-bit form (R197). -/
def execFcmp64 (cond : FCond) (d : Reg) (a b : Operand) (s : State) : Host.Outcome State Fault Refusal :=
  s.floatOp2 d (.op a) (.op b) fun _ x y =>
    (boolWord (fcondHolds cond x y).1, (fcondHolds cond x y).2)

/-- FCMP, 96-bit form (R197). -/
def execFcmp96 (cond : FCond) (d : Reg) (a : Operand) (lit : Word) (s : State) : Host.Outcome State Fault Refusal :=
  s.floatOp2 d (.op a) (.lit lit) fun _ x y =>
    (boolWord (fcondHolds cond x y).1, (fcondHolds cond x y).2)

/-- FCMPM, 64-bit form (R197). -/
def execFcmpm64 (cond : FCond) (d : Reg) (a b : Operand) (s : State) : Host.Outcome State Fault Refusal :=
  s.fcmpmOp cond d (.op a) (.op b)

/-- FCMPM, 96-bit form (R197). -/
def execFcmpm96 (cond : FCond) (d : Reg) (a : Operand) (lit : Word) (s : State) : Host.Outcome State Fault Refusal :=
  s.fcmpmOp cond d (.op a) (.lit lit)

/-- FCLASS (R198). -/
def execFclass (d : Reg) (a : Operand) (s : State) : Host.Outcome State Fault Refusal :=
  s.floatOp1 d (.op a) fun _ x => (fclassWord x, 0)

/-- FRCP (R200). -/
def execFrcp (d : Reg) (a : Operand) (s : State) : Host.Outcome State Fault Refusal :=
  s.floatOp1 d (.op a) fun _ x => frcpWord x

/-- FRSQ (R200). -/
def execFrsq (d : Reg) (a : Operand) (s : State) : Host.Outcome State Fault Refusal :=
  s.floatOp1 d (.op a) fun _ x => frsqWord x

/-- FSQRT (R200). -/
def execFsqrt (d : Reg) (a : Operand) (s : State) : Host.Outcome State Fault Refusal :=
  s.floatOp1 d (.op a) fun _ x => fsqrtWord x

/-- FEXP2 (R200). -/
def execFexp2 (d : Reg) (a : Operand) (s : State) : Host.Outcome State Fault Refusal :=
  s.floatOp1 d (.op a) fun _ x => fexp2Word x

/-- FLOG2 (R200). -/
def execFlog2 (d : Reg) (a : Operand) (s : State) : Host.Outcome State Fault Refusal :=
  s.floatOp1 d (.op a) fun _ x => flog2Word x

/-- FDIV, 64-bit form (R200). -/
def execFdiv64 (d : Reg) (a b : Operand) (s : State) : Host.Outcome State Fault Refusal :=
  s.floatOp2 d (.op a) (.op b) fun _ x y => fdivWord x y

/-- FDIV, 96-bit form (R200). -/
def execFdiv96 (d : Reg) (a : Operand) (lit : Word) (s : State) : Host.Outcome State Fault Refusal :=
  s.floatOp2 d (.op a) (.lit lit) fun _ x y => fdivWord x y

/-- FRND (R202). -/
def execFrnd (rm : RoundSel) (d : Reg) (a : Operand) (s : State) : Host.Outcome State Fault Refusal :=
  s.floatOp1 d (.op a) fun dyn x => frndWord (roundSelRm rm dyn) x

/-- F2I (R202). -/
def execF2i (rm : RoundSel) (ty : IntTy) (d : Reg) (a : Operand) (s : State) : Host.Outcome State Fault Refusal :=
  s.floatOp1 d (.op a) fun dyn x => f2iWord (roundSelRm rm dyn) ty x

/-- I2F (R202). -/
def execI2f (ty : IntTy) (d : Reg) (a : Operand) (s : State) : Host.Outcome State Fault Refusal :=
  s.floatOp false d (.op a) .no .no [] fun ar _ x _ _ => i2fWord (fpctlRm ar.fpctl) ty x

/-- FCVT (R203). -/
def execFcvt (m : CvtMode) (d : Reg) (a : Operand) (s : State) : Host.Outcome State Fault Refusal :=
  s.floatOp false d (.op a) .no .no (if m.src = .f32 then [.op a] else []) fun ar _ x _ _ =>
    fcvtWord ar.fpctl ar.nfmt m x

/-- F4XP, 64-bit form (R206). -/
def execF4xp64 (d : Reg) (a b e : Operand) (s : State) : Host.Outcome State Fault Refusal :=
  s.floatOp true d (.op a) (.op b) (.op e) [.op a] fun ar old x y z => f4xpWord ar.nfmt old x y z

/-- F4XP, 96-bit form (R206). -/
def execF4xp96 (d : Reg) (a e : Operand) (lit : Word) (s : State) : Host.Outcome State Fault Refusal :=
  s.floatOp true d (.op a) (.lit lit) (.op e) [.op a] fun ar old x y z => f4xpWord ar.nfmt old x y z

/-- F4XU, 64-bit form (R207). -/
def execF4xu64 (d : Reg) (a b e : Operand) (s : State) : Host.Outcome State Fault Refusal :=
  s.floatOp false d (.op a) (.op b) (.op e) [] fun ar _ x y z => f4xuWord (fpctlRm ar.fpctl) x y z

/-- F4XU, 96-bit form (R207). -/
def execF4xu96 (d : Reg) (a e : Operand) (lit : Word) (s : State) : Host.Outcome State Fault Refusal :=
  s.floatOp false d (.op a) (.lit lit) (.op e) [] fun ar _ x y z => f4xuWord (fpctlRm ar.fpctl) x y z

/-- SCLE (R205). -/
def execScle (d : Reg) (a : Operand) (s : State) : Host.Outcome State Fault Refusal :=
  s.floatOp1 d (.op a) fun _ x => (scleWord x, 0)

/-- HADD2, 64-bit form (R208). -/
def execHadd264 (ty : HalfTy) (d : Reg) (a b : Operand) (s : State) : Host.Outcome State Fault Refusal :=
  s.floatOp false d (.op a) (.op b) .no [] fun ar _ x y _ => hadd2Word (fpctlRm ar.fpctl) ty x y

/-- HADD2, 96-bit form (R208). -/
def execHadd296 (ty : HalfTy) (d : Reg) (a : Operand) (lit : Word) (s : State) : Host.Outcome State Fault Refusal :=
  s.floatOp false d (.op a) (.lit lit) .no [] fun ar _ x y _ => hadd2Word (fpctlRm ar.fpctl) ty x y

/-- HMUL2, 64-bit form (R208). -/
def execHmul264 (ty : HalfTy) (d : Reg) (a b : Operand) (s : State) : Host.Outcome State Fault Refusal :=
  s.floatOp false d (.op a) (.op b) .no [] fun ar _ x y _ => hmul2Word (fpctlRm ar.fpctl) ty x y

/-- HMUL2, 96-bit form (R208). -/
def execHmul296 (ty : HalfTy) (d : Reg) (a : Operand) (lit : Word) (s : State) : Host.Outcome State Fault Refusal :=
  s.floatOp false d (.op a) (.lit lit) .no [] fun ar _ x y _ => hmul2Word (fpctlRm ar.fpctl) ty x y

/-- HFMA2, 64-bit form (R208). -/
def execHfma264 (ty : HalfTy) (d : Reg) (a b e : Operand) (s : State) : Host.Outcome State Fault Refusal :=
  s.floatOp false d (.op a) (.op b) (.op e) [] fun ar _ x y z => hfma2Word (fpctlRm ar.fpctl) ty x y z

/-- HFMA2, 96-bit form (R208). -/
def execHfma296 (ty : HalfTy) (d : Reg) (a e : Operand) (lit : Word) (s : State) : Host.Outcome State Fault Refusal :=
  s.floatOp false d (.op a) (.lit lit) (.op e) [] fun ar _ x y z => hfma2Word (fpctlRm ar.fpctl) ty x y z

/-- FKEY (R209). -/
def execFkey (ty : KeyTy) (d : Reg) (a : Operand) (s : State) : Host.Outcome State Fault Refusal :=
  s.floatOp false d (.op a) .no .no (if ty = .f32 then [.op a] else []) fun _ _ x _ _ => (fkeyWord ty x, 0)

end Sys2Proof.Machine
end

