-- ==== Sys2Proof/Machine/Integer.lean ====
section
/-!
DEFINITION. The meanings of family 0x01 (R167–R176): integer, bit, compare, select and mask instructions, in the compact,
64-bit and 96-bit forms.
-/
namespace Sys2Proof.Machine

/-- ADD, compact (R172). -/
def execAddCompact (d : Reg) (a b : Operand) (s : State) : Host.Outcome State Fault Refusal :=
  s.addOp IntMode.plain d (.op a) (.op b)

/-- ADD, 64-bit form (R172). -/
def execAdd64 (m : IntMode) (d : Reg) (a b : Operand) (s : State) : Host.Outcome State Fault Refusal :=
  s.addOp m d (.op a) (.op b)

/-- ADD, 96-bit form (R172). -/
def execAdd96 (m : IntMode) (d : Reg) (a : Operand) (lit : Word) (s : State) : Host.Outcome State Fault Refusal :=
  s.addOp m d (.op a) (.lit lit)

/-- SUB, compact (R172). -/
def execSubCompact (d : Reg) (a b : Operand) (s : State) : Host.Outcome State Fault Refusal :=
  s.subOp IntMode.plain d (.op a) (.op b)

/-- SUB, 64-bit form (R172). -/
def execSub64 (m : IntMode) (d : Reg) (a b : Operand) (s : State) : Host.Outcome State Fault Refusal :=
  s.subOp m d (.op a) (.op b)

/-- SUB, 96-bit form (R172). -/
def execSub96 (m : IntMode) (d : Reg) (a : Operand) (lit : Word) (s : State) : Host.Outcome State Fault Refusal :=
  s.subOp m d (.op a) (.lit lit)

/-- MUL, compact (R172). -/
def execMulCompact (d : Reg) (a b : Operand) (s : State) : Host.Outcome State Fault Refusal :=
  s.mulOp d (.op a) (.op b)

/-- MUL, 64-bit form (R172). -/
def execMul64 (d : Reg) (a b : Operand) (s : State) : Host.Outcome State Fault Refusal :=
  s.mulOp d (.op a) (.op b)

/-- MUL, 96-bit form (R172). -/
def execMul96 (d : Reg) (a : Operand) (lit : Word) (s : State) : Host.Outcome State Fault Refusal :=
  s.mulOp d (.op a) (.lit lit)

/-- SHL, compact (R172). -/
def execShlCompact (d : Reg) (a b : Operand) (s : State) : Host.Outcome State Fault Refusal :=
  s.shlOp d (.op a) (.op b)

/-- SHL, 64-bit form (R172). -/
def execShl64 (d : Reg) (a b : Operand) (s : State) : Host.Outcome State Fault Refusal :=
  s.shlOp d (.op a) (.op b)

/-- SHL, 96-bit form (R172). -/
def execShl96 (d : Reg) (a : Operand) (lit : Word) (s : State) : Host.Outcome State Fault Refusal :=
  s.shlOp d (.op a) (.lit lit)

/-- MULHI, compact (R172). -/
def execMulhiCompact (d : Reg) (a b : Operand) (s : State) : Host.Outcome State Fault Refusal :=
  s.intOp2 d (.op a) (.op b) mulhiWord

/-- MULHI, 64-bit form (R172). -/
def execMulhi64 (d : Reg) (a b : Operand) (s : State) : Host.Outcome State Fault Refusal :=
  s.intOp2 d (.op a) (.op b) mulhiWord

/-- MULHI, 96-bit form (R172). -/
def execMulhi96 (d : Reg) (a : Operand) (lit : Word) (s : State) : Host.Outcome State Fault Refusal :=
  s.intOp2 d (.op a) (.lit lit) mulhiWord

/-- MULHU, compact (R172). -/
def execMulhuCompact (d : Reg) (a b : Operand) (s : State) : Host.Outcome State Fault Refusal :=
  s.intOp2 d (.op a) (.op b) mulhuWord

/-- MULHU, 64-bit form (R172). -/
def execMulhu64 (d : Reg) (a b : Operand) (s : State) : Host.Outcome State Fault Refusal :=
  s.intOp2 d (.op a) (.op b) mulhuWord

/-- MULHU, 96-bit form (R172). -/
def execMulhu96 (d : Reg) (a : Operand) (lit : Word) (s : State) : Host.Outcome State Fault Refusal :=
  s.intOp2 d (.op a) (.lit lit) mulhuWord

/-- MIN, compact (R172). -/
def execMinCompact (d : Reg) (a b : Operand) (s : State) : Host.Outcome State Fault Refusal :=
  s.intOp2 d (.op a) (.op b) minWord

/-- MIN, 64-bit form (R172). -/
def execMin64 (d : Reg) (a b : Operand) (s : State) : Host.Outcome State Fault Refusal :=
  s.intOp2 d (.op a) (.op b) minWord

/-- MIN, 96-bit form (R172). -/
def execMin96 (d : Reg) (a : Operand) (lit : Word) (s : State) : Host.Outcome State Fault Refusal :=
  s.intOp2 d (.op a) (.lit lit) minWord

/-- MAX, compact (R172). -/
def execMaxCompact (d : Reg) (a b : Operand) (s : State) : Host.Outcome State Fault Refusal :=
  s.intOp2 d (.op a) (.op b) maxWord

/-- MAX, 64-bit form (R172). -/
def execMax64 (d : Reg) (a b : Operand) (s : State) : Host.Outcome State Fault Refusal :=
  s.intOp2 d (.op a) (.op b) maxWord

/-- MAX, 96-bit form (R172). -/
def execMax96 (d : Reg) (a : Operand) (lit : Word) (s : State) : Host.Outcome State Fault Refusal :=
  s.intOp2 d (.op a) (.lit lit) maxWord

/-- MINU, compact (R172). -/
def execMinuCompact (d : Reg) (a b : Operand) (s : State) : Host.Outcome State Fault Refusal :=
  s.intOp2 d (.op a) (.op b) minuWord

/-- MINU, 64-bit form (R172). -/
def execMinu64 (d : Reg) (a b : Operand) (s : State) : Host.Outcome State Fault Refusal :=
  s.intOp2 d (.op a) (.op b) minuWord

/-- MINU, 96-bit form (R172). -/
def execMinu96 (d : Reg) (a : Operand) (lit : Word) (s : State) : Host.Outcome State Fault Refusal :=
  s.intOp2 d (.op a) (.lit lit) minuWord

/-- MAXU, compact (R172). -/
def execMaxuCompact (d : Reg) (a b : Operand) (s : State) : Host.Outcome State Fault Refusal :=
  s.intOp2 d (.op a) (.op b) maxuWord

/-- MAXU, 64-bit form (R172). -/
def execMaxu64 (d : Reg) (a b : Operand) (s : State) : Host.Outcome State Fault Refusal :=
  s.intOp2 d (.op a) (.op b) maxuWord

/-- MAXU, 96-bit form (R172). -/
def execMaxu96 (d : Reg) (a : Operand) (lit : Word) (s : State) : Host.Outcome State Fault Refusal :=
  s.intOp2 d (.op a) (.lit lit) maxuWord

/-- AND, compact (R172). -/
def execAndCompact (d : Reg) (a b : Operand) (s : State) : Host.Outcome State Fault Refusal :=
  s.intOp2 d (.op a) (.op b) (· &&& ·)

/-- AND, 64-bit form (R172). -/
def execAnd64 (d : Reg) (a b : Operand) (s : State) : Host.Outcome State Fault Refusal :=
  s.intOp2 d (.op a) (.op b) (· &&& ·)

/-- AND, 96-bit form (R172). -/
def execAnd96 (d : Reg) (a : Operand) (lit : Word) (s : State) : Host.Outcome State Fault Refusal :=
  s.intOp2 d (.op a) (.lit lit) (· &&& ·)

/-- OR, compact (R172). -/
def execOrCompact (d : Reg) (a b : Operand) (s : State) : Host.Outcome State Fault Refusal :=
  s.intOp2 d (.op a) (.op b) (· ||| ·)

/-- OR, 64-bit form (R172). -/
def execOr64 (d : Reg) (a b : Operand) (s : State) : Host.Outcome State Fault Refusal :=
  s.intOp2 d (.op a) (.op b) (· ||| ·)

/-- OR, 96-bit form (R172). -/
def execOr96 (d : Reg) (a : Operand) (lit : Word) (s : State) : Host.Outcome State Fault Refusal :=
  s.intOp2 d (.op a) (.lit lit) (· ||| ·)

/-- XOR, compact (R172). -/
def execXorCompact (d : Reg) (a b : Operand) (s : State) : Host.Outcome State Fault Refusal :=
  s.intOp2 d (.op a) (.op b) (· ^^^ ·)

/-- XOR, 64-bit form (R172). -/
def execXor64 (d : Reg) (a b : Operand) (s : State) : Host.Outcome State Fault Refusal :=
  s.intOp2 d (.op a) (.op b) (· ^^^ ·)

/-- XOR, 96-bit form (R172). -/
def execXor96 (d : Reg) (a : Operand) (lit : Word) (s : State) : Host.Outcome State Fault Refusal :=
  s.intOp2 d (.op a) (.lit lit) (· ^^^ ·)

/-- ANDN, compact (R172). -/
def execAndnCompact (d : Reg) (a b : Operand) (s : State) : Host.Outcome State Fault Refusal :=
  s.intOp2 d (.op a) (.op b) (fun x y => x &&& ~~~y)

/-- ANDN, 64-bit form (R172). -/
def execAndn64 (d : Reg) (a b : Operand) (s : State) : Host.Outcome State Fault Refusal :=
  s.intOp2 d (.op a) (.op b) (fun x y => x &&& ~~~y)

/-- ANDN, 96-bit form (R172). -/
def execAndn96 (d : Reg) (a : Operand) (lit : Word) (s : State) : Host.Outcome State Fault Refusal :=
  s.intOp2 d (.op a) (.lit lit) (fun x y => x &&& ~~~y)

/-- SHR, compact (R172). -/
def execShrCompact (d : Reg) (a b : Operand) (s : State) : Host.Outcome State Fault Refusal :=
  s.intOp2 d (.op a) (.op b) shrWord

/-- SHR, 64-bit form (R172). -/
def execShr64 (d : Reg) (a b : Operand) (s : State) : Host.Outcome State Fault Refusal :=
  s.intOp2 d (.op a) (.op b) shrWord

/-- SHR, 96-bit form (R172). -/
def execShr96 (d : Reg) (a : Operand) (lit : Word) (s : State) : Host.Outcome State Fault Refusal :=
  s.intOp2 d (.op a) (.lit lit) shrWord

/-- SAR, compact (R172). -/
def execSarCompact (d : Reg) (a b : Operand) (s : State) : Host.Outcome State Fault Refusal :=
  s.intOp2 d (.op a) (.op b) sarWord

/-- SAR, 64-bit form (R172). -/
def execSar64 (d : Reg) (a b : Operand) (s : State) : Host.Outcome State Fault Refusal :=
  s.intOp2 d (.op a) (.op b) sarWord

/-- SAR, 96-bit form (R172). -/
def execSar96 (d : Reg) (a : Operand) (lit : Word) (s : State) : Host.Outcome State Fault Refusal :=
  s.intOp2 d (.op a) (.lit lit) sarWord

/-- ROL, compact (R172). -/
def execRolCompact (d : Reg) (a b : Operand) (s : State) : Host.Outcome State Fault Refusal :=
  s.intOp2 d (.op a) (.op b) rolWord

/-- ROL, 64-bit form (R172). -/
def execRol64 (d : Reg) (a b : Operand) (s : State) : Host.Outcome State Fault Refusal :=
  s.intOp2 d (.op a) (.op b) rolWord

/-- ROL, 96-bit form (R172). -/
def execRol96 (d : Reg) (a : Operand) (lit : Word) (s : State) : Host.Outcome State Fault Refusal :=
  s.intOp2 d (.op a) (.lit lit) rolWord

/-- MSKB, compact (R175). -/
def execMskbCompact (d : Reg) (a b : Operand) (s : State) : Host.Outcome State Fault Refusal :=
  s.intOp2 d (.op a) (.op b) mskbWord

/-- MSKB, 64-bit form (R175). -/
def execMskb64 (d : Reg) (a b : Operand) (s : State) : Host.Outcome State Fault Refusal :=
  s.intOp2 d (.op a) (.op b) mskbWord

/-- MSKB, 96-bit form (R175). -/
def execMskb96 (d : Reg) (a : Operand) (lit : Word) (s : State) : Host.Outcome State Fault Refusal :=
  s.intOp2 d (.op a) (.lit lit) mskbWord

/-- SEXT, compact (R172). -/
def execSextCompact (d : Reg) (a b : Operand) (s : State) : Host.Outcome State Fault Refusal :=
  s.intOp2 d (.op a) (.op b) sextWord

/-- SEXT, 64-bit form (R172). -/
def execSext64 (d : Reg) (a b : Operand) (s : State) : Host.Outcome State Fault Refusal :=
  s.intOp2 d (.op a) (.op b) sextWord

/-- SEXT, 96-bit form (R172). -/
def execSext96 (d : Reg) (a : Operand) (lit : Word) (s : State) : Host.Outcome State Fault Refusal :=
  s.intOp2 d (.op a) (.lit lit) sextWord

/-- MAD, 64-bit form (R172). -/
def execMad64 (d : Reg) (a b e : Operand) (s : State) : Host.Outcome State Fault Refusal :=
  s.madOp d (.op a) (.op b) (.op e)

/-- MAD, 96-bit form (R172). -/
def execMad96 (d : Reg) (a e : Operand) (lit : Word) (s : State) : Host.Outcome State Fault Refusal :=
  s.madOp d (.op a) (.lit lit) (.op e)

/-- ABS, compact (R172). -/
def execAbsCompact (d : Reg) (a : Operand) (s : State) : Host.Outcome State Fault Refusal :=
  s.intOp1 d (.op a) (absWord false)

/-- ABS, 64-bit form (R172). -/
def execAbs64 (sat : Bool) (d : Reg) (a : Operand) (s : State) : Host.Outcome State Fault Refusal :=
  s.intOp1 d (.op a) (absWord sat)

/-- CLZ, compact (R172). -/
def execClzCompact (d : Reg) (a : Operand) (s : State) : Host.Outcome State Fault Refusal :=
  s.intOp1 d (.op a) clzWord

/-- CLZ, 64-bit form (R172). -/
def execClz64 (d : Reg) (a : Operand) (s : State) : Host.Outcome State Fault Refusal :=
  s.intOp1 d (.op a) clzWord

/-- CTZ, compact (R172). -/
def execCtzCompact (d : Reg) (a : Operand) (s : State) : Host.Outcome State Fault Refusal :=
  s.intOp1 d (.op a) ctzWord

/-- CTZ, 64-bit form (R172). -/
def execCtz64 (d : Reg) (a : Operand) (s : State) : Host.Outcome State Fault Refusal :=
  s.intOp1 d (.op a) ctzWord

/-- POPC, compact (R172). -/
def execPopcCompact (d : Reg) (a : Operand) (s : State) : Host.Outcome State Fault Refusal :=
  s.intOp1 d (.op a) popcWord

/-- POPC, 64-bit form (R172). -/
def execPopc64 (d : Reg) (a : Operand) (s : State) : Host.Outcome State Fault Refusal :=
  s.intOp1 d (.op a) popcWord

/-- BREV, compact (R172). -/
def execBrevCompact (d : Reg) (a : Operand) (s : State) : Host.Outcome State Fault Refusal :=
  s.intOp1 d (.op a) brevWord

/-- BREV, 64-bit form (R172). -/
def execBrev64 (d : Reg) (a : Operand) (s : State) : Host.Outcome State Fault Refusal :=
  s.intOp1 d (.op a) brevWord

/-- BFX, 64-bit form (R172). -/
def execBfx64 (d : Reg) (a b e : Operand) (s : State) : Host.Outcome State Fault Refusal :=
  s.intOp3 d (.op a) (.op b) (.op e) bfxWord

/-- BFX, 96-bit form (R172). -/
def execBfx96 (d : Reg) (a e : Operand) (lit : Word) (s : State) : Host.Outcome State Fault Refusal :=
  s.intOp3 d (.op a) (.lit lit) (.op e) bfxWord

/-- ADDC, 64-bit form (R172). -/
def execAddc64 (d : Reg) (a b e : Operand) (s : State) : Host.Outcome State Fault Refusal :=
  s.intOp3 d (.op a) (.op b) (.op e) addcWord

/-- ADDC, 96-bit form (R172). -/
def execAddc96 (d : Reg) (a e : Operand) (lit : Word) (s : State) : Host.Outcome State Fault Refusal :=
  s.intOp3 d (.op a) (.lit lit) (.op e) addcWord

/-- SUBC, 64-bit form (R172). -/
def execSubc64 (d : Reg) (a b e : Operand) (s : State) : Host.Outcome State Fault Refusal :=
  s.intOp3 d (.op a) (.op b) (.op e) subcWord

/-- SUBC, 96-bit form (R172). -/
def execSubc96 (d : Reg) (a e : Operand) (lit : Word) (s : State) : Host.Outcome State Fault Refusal :=
  s.intOp3 d (.op a) (.lit lit) (.op e) subcWord

/-- SEL, 64-bit form (R174). -/
def execSel64 (d : Reg) (a b e : Operand) (s : State) : Host.Outcome State Fault Refusal :=
  s.intOp3 d (.op a) (.op b) (.op e) selWord

/-- SEL, 96-bit form (R174). -/
def execSel96 (d : Reg) (a e : Operand) (lit : Word) (s : State) : Host.Outcome State Fault Refusal :=
  s.intOp3 d (.op a) (.lit lit) (.op e) selWord

/-- BFI, 64-bit form (R172). -/
def execBfi64 (d : Reg) (a b e : Operand) (s : State) : Host.Outcome State Fault Refusal :=
  s.bfiOp d (.op a) (.op b) (.op e)

/-- BFI, 96-bit form (R172). -/
def execBfi96 (d : Reg) (a e : Operand) (lit : Word) (s : State) : Host.Outcome State Fault Refusal :=
  s.bfiOp d (.op a) (.lit lit) (.op e)

/-- MOV, compact (R172). -/
def execMovCompact (d : Reg) (a : Operand) (s : State) : Host.Outcome State Fault Refusal :=
  s.movOp d (.op a)

/-- MOV, 64-bit form (R172). -/
def execMov64 (d : Reg) (a : Operand) (s : State) : Host.Outcome State Fault Refusal :=
  s.movOp d (.op a)

/-- CMP, 64-bit form (R174). -/
def execCmp64 (cond : Cond) (ty : IntTy) (d : Reg) (a b : Operand) (s : State) : Host.Outcome State Fault Refusal :=
  s.intOp2 d (.op a) (.op b) fun x y => boolWord (condHolds cond ty x y)

/-- CMP, 96-bit form (R174). -/
def execCmp96 (cond : Cond) (ty : IntTy) (d : Reg) (a : Operand) (lit : Word) (s : State) : Host.Outcome State Fault Refusal :=
  s.intOp2 d (.op a) (.lit lit) fun x y => boolWord (condHolds cond ty x y)

/-- CMPM, 64-bit form (R174). -/
def execCmpm64 (cond : Cond) (ty : IntTy) (d : Reg) (a b : Operand) (s : State) : Host.Outcome State Fault Refusal :=
  s.maskOp d (.op a) (.op b) (condHolds cond ty)

/-- CMPM, 96-bit form (R174). -/
def execCmpm96 (cond : Cond) (ty : IntTy) (d : Reg) (a : Operand) (lit : Word) (s : State) : Host.Outcome State Fault Refusal :=
  s.maskOp d (.op a) (.lit lit) (condHolds cond ty)

end Sys2Proof.Machine
end

