-- ==== Sys2Proof/Machine/Iteration.lean ====
section
/-!
DEFINITION. The meanings of the iteration fetcher's instructions (R180–R187).
-/
namespace Sys2Proof.Machine

/-- ITER.INIT (R186): status 1 when the descriptor is not valid. -/
def execIterInit (slot : Fin 2) (d : Reg) (a : SPair) (s : State) : Host.Outcome State Fault Refusal :=
  s.withIssue fun iss c =>
    if c.kind != .rod then faultAt s iss .ill
    else
      s.guarded iss c ⟨[], [d], [pairName (pairOfS a)]⟩ (regType d == .uniform) true <|
        (s.readDesc c (c.arch.spair a) 8 7).andThen s iss c fun x =>
          let desc := BitVec.ofNat 448 x
          let ok := nestValid desc (s.objectOf c.launch).vcnt
          let ar := if ok then { c.arch with iter := c.arch.iter.set slot ⟨.loaded, desc, 0, 0, 0⟩ } else c.arch
          .done ((s.noteDesc c (c.arch.spair a) 7).commit c ((ar.writeS d (if ok then 0 else 1)).advance iss) [])

/-- Going on with iteration `l` of a slot's chunk, or claiming the next chunk when it is used up (R187): `taken` is where
an iteration runs, `empty` where the thread goes when the nest is exhausted. A claim keeps the refusals that it met for the elements
that it pushes (R223). -/
def State.iterate (s : State) (iss : Issue) (c : Ctx) (slot : Fin 2) (l : Nat) (body taken empty : DWord) : Eff :=
  let it := c.arch.iter[slot]
  let nm : Names := ⟨[], nestRegs it.desc, []⟩
  s.guarded iss c nm true false <|
    if l < it.e.toNat then
      s.withStreams iss c nm fun _ pushes ar =>
        if s.gateFull c (pushCount pushes) then .done (s.parkGate c.key)
        else
          let ar := { ar with iter := ar.iter.set slot (it.enter body l it.e.toNat) }
          .done (s.commit c ((ar.putIndices it.desc l (nestLevels it.desc)).goto iss.exec taken) pushes)
    else
      match s.resolve (s.accessor c) (nestCnt it.desc) 8 8 (.atomic none) with
      | .fault code => .trap s (Trap.one code (nestCnt it.desc) iss.pc)
      | .miss w => .done (s.parkPages c.key [w])
      | .ok p =>
        .done ((((s.flushStreams c.key).checkpoint c.key).parkReply c.key ⟨.claim slot body taken empty, .b64, .rlx, .dev, iss.pc, empty,
          [⟨0, nestCnt it.desc, p, 0, 0, none⟩], [], [], [], iss.exec, true⟩).modCtx c.key fun x => { x with refused := c.refused })

/-- ITER.NEXT (R187). -/
def State.iterNextOp (s : State) (slot : Fin 2) (disp : DWord) : Host.Outcome State Fault Refusal :=
  s.withIssue fun iss c =>
    if c.kind != .rod then faultAt s iss .ill
    else
      let it := c.arch.iter[slot]
      if it.st = .idle then faultAt s iss .ill
      else s.iterate iss c slot it.l.toNat (nextPc iss) (nextPc iss) (branchTarget iss disp)

/-- ITER.NEXT, 64-bit form (R187). -/
def execIterNext64 (slot : Fin 2) (disp : BitVec 16) (s : State) : Host.Outcome State Fault Refusal :=
  s.iterNextOp slot (disp16 disp)

/-- ITER.NEXT, 96-bit form (R187). -/
def execIterNext96 (slot : Fin 2) (disp : Word) (s : State) : Host.Outcome State Fault Refusal :=
  s.iterNextOp slot (disp32 disp)

/-- ITER.STEP (R187). -/
def execIterStep (slot : Fin 2) (s : State) : Host.Outcome State Fault Refusal :=
  s.withIssue fun iss c =>
    if c.kind != .rod then faultAt s iss .ill
    else
      let it := c.arch.iter[slot]
      if it.st ≠ .active then faultAt s iss .ill
      else s.iterate iss c slot (it.l.toNat + 1) it.body it.body (nextPc iss)

end Sys2Proof.Machine
end

