-- ==== Sys2Proof/Machine/LoadStore.lean ====
section
/-!
DEFINITION. The meanings of families 0x08 and 0x09 (R229–R243): loads, stores, prefetches and atomics, in the 64-bit and
96-bit forms.
-/
namespace Sys2Proof.Machine

/-- PFCH (R238): its only checks are ILL and UPART, and its only effect is on timing. An offset that is a read stream is popped
and checked as R247 says (DESIGN CHOICE, log 73). -/
def State.prefetchOp (s : State) (f : AddrForm) : Host.Outcome State Fault Refusal :=
  s.withIssueIf (fun c => !(c.streamsIn f.names.src).isEmpty) fun iss c => s.simple iss c f.names true (spread f.types == .uniform) id

/-- LD, 64-bit form (R236). -/
def execLd64 (m : LoadMode) (d : Reg) (a : Pair) (b : Operand) (disp : BitVec 16) (s : State) : Host.Outcome State Fault Refusal :=
  s.loadOp m.prm m.ord m.scope m.size d ⟨some a, .op b, disp16 disp⟩

/-- LD, 96-bit form (R236). -/
def execLd96 (m : LoadMode) (d : Reg) (a : Pair) (off : Option Reg) (disp : Word) (s : State) : Host.Outcome State Fault Refusal :=
  s.loadOp m.prm m.ord m.scope m.size d ⟨some a, offSrc off, disp32 disp⟩

/-- ST, 64-bit form (R236). -/
def execSt64 (m : MemMode) (d : Reg) (a : Pair) (b : Operand) (disp : BitVec 16) (s : State) : Host.Outcome State Fault Refusal :=
  s.storeOp m.ord m.scope m.size d ⟨some a, .op b, disp16 disp⟩

/-- ST, 96-bit form (R236). -/
def execSt96 (m : MemMode) (d : Reg) (a : Pair) (off : Option Reg) (disp : Word) (s : State) : Host.Outcome State Fault Refusal :=
  s.storeOp m.ord m.scope m.size d ⟨some a, offSrc off, disp32 disp⟩

/-- LDL, 64-bit form (R237). -/
def execLdl64 (m : MemMode) (d : Reg) (b : Operand) (disp : BitVec 16) (s : State) : Host.Outcome State Fault Refusal :=
  s.loadOp false m.ord m.scope m.size d ⟨none, .op b, disp16 disp⟩

/-- LDL, 96-bit form (R237). -/
def execLdl96 (m : MemMode) (d : Reg) (off : Option Reg) (disp : Word) (s : State) : Host.Outcome State Fault Refusal :=
  s.loadOp false m.ord m.scope m.size d ⟨none, offSrc off, disp32 disp⟩

/-- STL, 64-bit form (R237). -/
def execStl64 (m : MemMode) (d : Reg) (b : Operand) (disp : BitVec 16) (s : State) : Host.Outcome State Fault Refusal :=
  s.storeOp m.ord m.scope m.size d ⟨none, .op b, disp16 disp⟩

/-- STL, 96-bit form (R237). -/
def execStl96 (m : MemMode) (d : Reg) (off : Option Reg) (disp : Word) (s : State) : Host.Outcome State Fault Refusal :=
  s.storeOp m.ord m.scope m.size d ⟨none, offSrc off, disp32 disp⟩

/-- PFCH, 64-bit form (R238). -/
def execPfch64 (_scope : Scope) (a : Pair) (b : Operand) (disp : BitVec 16) (s : State) : Host.Outcome State Fault Refusal :=
  s.prefetchOp ⟨some a, .op b, disp16 disp⟩

/-- PFCH, 96-bit form (R238). -/
def execPfch96 (_scope : Scope) (a : Pair) (off : Option Reg) (disp : Word) (s : State) : Host.Outcome State Fault Refusal :=
  s.prefetchOp ⟨some a, offSrc off, disp32 disp⟩

/-- AADD, 64-bit form (R240). -/
def execAadd64 (m : MemMode) (d : Reg) (a : Pair) (b c : Operand) (s : State) : Host.Outcome State Fault Refusal :=
  s.atomicOp .add m.ord m.scope m.size d ⟨some a, .op b, 0⟩ c none

/-- AADD, 96-bit form (R240). -/
def execAadd96 (m : MemMode) (d : Reg) (a : Pair) (off : Option Reg) (c : Operand) (disp : Word) (s : State) : Host.Outcome State Fault Refusal :=
  s.atomicOp .add m.ord m.scope m.size d ⟨some a, offSrc off, disp32 disp⟩ c none

/-- AMIN, 64-bit form (R240). -/
def execAmin64 (m : MemMode) (d : Reg) (a : Pair) (b c : Operand) (s : State) : Host.Outcome State Fault Refusal :=
  s.atomicOp .min m.ord m.scope m.size d ⟨some a, .op b, 0⟩ c none

/-- AMIN, 96-bit form (R240). -/
def execAmin96 (m : MemMode) (d : Reg) (a : Pair) (off : Option Reg) (c : Operand) (disp : Word) (s : State) : Host.Outcome State Fault Refusal :=
  s.atomicOp .min m.ord m.scope m.size d ⟨some a, offSrc off, disp32 disp⟩ c none

/-- AMAX, 64-bit form (R240). -/
def execAmax64 (m : MemMode) (d : Reg) (a : Pair) (b c : Operand) (s : State) : Host.Outcome State Fault Refusal :=
  s.atomicOp .max m.ord m.scope m.size d ⟨some a, .op b, 0⟩ c none

/-- AMAX, 96-bit form (R240). -/
def execAmax96 (m : MemMode) (d : Reg) (a : Pair) (off : Option Reg) (c : Operand) (disp : Word) (s : State) : Host.Outcome State Fault Refusal :=
  s.atomicOp .max m.ord m.scope m.size d ⟨some a, offSrc off, disp32 disp⟩ c none

/-- AAND, 64-bit form (R240). -/
def execAand64 (m : MemMode) (d : Reg) (a : Pair) (b c : Operand) (s : State) : Host.Outcome State Fault Refusal :=
  s.atomicOp .and m.ord m.scope m.size d ⟨some a, .op b, 0⟩ c none

/-- AAND, 96-bit form (R240). -/
def execAand96 (m : MemMode) (d : Reg) (a : Pair) (off : Option Reg) (c : Operand) (disp : Word) (s : State) : Host.Outcome State Fault Refusal :=
  s.atomicOp .and m.ord m.scope m.size d ⟨some a, offSrc off, disp32 disp⟩ c none

/-- AOR, 64-bit form (R240). -/
def execAor64 (m : MemMode) (d : Reg) (a : Pair) (b c : Operand) (s : State) : Host.Outcome State Fault Refusal :=
  s.atomicOp .or m.ord m.scope m.size d ⟨some a, .op b, 0⟩ c none

/-- AOR, 96-bit form (R240). -/
def execAor96 (m : MemMode) (d : Reg) (a : Pair) (off : Option Reg) (c : Operand) (disp : Word) (s : State) : Host.Outcome State Fault Refusal :=
  s.atomicOp .or m.ord m.scope m.size d ⟨some a, offSrc off, disp32 disp⟩ c none

/-- AXOR, 64-bit form (R240). -/
def execAxor64 (m : MemMode) (d : Reg) (a : Pair) (b c : Operand) (s : State) : Host.Outcome State Fault Refusal :=
  s.atomicOp .xor m.ord m.scope m.size d ⟨some a, .op b, 0⟩ c none

/-- AXOR, 96-bit form (R240). -/
def execAxor96 (m : MemMode) (d : Reg) (a : Pair) (off : Option Reg) (c : Operand) (disp : Word) (s : State) : Host.Outcome State Fault Refusal :=
  s.atomicOp .xor m.ord m.scope m.size d ⟨some a, offSrc off, disp32 disp⟩ c none

/-- AXCH, 64-bit form (R240). -/
def execAxch64 (m : MemMode) (d : Reg) (a : Pair) (b c : Operand) (s : State) : Host.Outcome State Fault Refusal :=
  s.atomicOp .xch m.ord m.scope m.size d ⟨some a, .op b, 0⟩ c none

/-- AXCH, 96-bit form (R240). -/
def execAxch96 (m : MemMode) (d : Reg) (a : Pair) (off : Option Reg) (c : Operand) (disp : Word) (s : State) : Host.Outcome State Fault Refusal :=
  s.atomicOp .xch m.ord m.scope m.size d ⟨some a, offSrc off, disp32 disp⟩ c none

/-- AFADD, 64-bit form (R240, R243). -/
def execAfadd64 (m : OrderMode) (d : Reg) (a : Pair) (b c : Operand) (s : State) : Host.Outcome State Fault Refusal :=
  s.atomicOp .fadd m.ord m.scope .b32 d ⟨some a, .op b, 0⟩ c none

/-- AFADD, 96-bit form (R240, R243). -/
def execAfadd96 (m : OrderMode) (d : Reg) (a : Pair) (off : Option Reg) (c : Operand) (disp : Word) (s : State) : Host.Outcome State Fault Refusal :=
  s.atomicOp .fadd m.ord m.scope .b32 d ⟨some a, offSrc off, disp32 disp⟩ c none

/-- ACAS, 64-bit form (R240). -/
def execAcas64 (m : MemMode) (d : Reg) (a : Pair) (b c q : Operand) (s : State) : Host.Outcome State Fault Refusal :=
  s.atomicOp .cas m.ord m.scope m.size d ⟨some a, .op b, 0⟩ c (some q)

/-- ACAS, 96-bit form (R240). -/
def execAcas96 (m : MemMode) (d : Reg) (a : Pair) (off : Option Reg) (c q : Operand) (disp : Word) (s : State) : Host.Outcome State Fault Refusal :=
  s.atomicOp .cas m.ord m.scope m.size d ⟨some a, offSrc off, disp32 disp⟩ c (some q)

end Sys2Proof.Machine
end

