-- ==== Sys2Proof/Machine/StreamInstr.lean ====
section
/-!
DEFINITION. The meanings of family 0x0A (R244–R250): STRM.OPEN and STRM.CLOSE; and of family 0x0B (R293, R294): FENCE and
CFL.
-/
namespace Sys2Proof.Machine

/-- STRM.OPEN (R245): status 1 when the descriptor is not valid. -/
def execStrmOpen (d : Reg) (a : SPair) (st : Fin 8) (s : State) : Host.Outcome State Fault Refusal :=
  s.withIssue fun iss c =>
    if c.kind != .rod || decide (c.arch.vc ≤ 56 + st.val) then faultAt s iss .ill
    else
      s.guarded iss c ⟨[], [d], [pairName (pairOfS a)]⟩ (regType d == .uniform) true <|
        (s.readDesc c (c.arch.spair a) 8 8).andThen s iss c fun x =>
          let desc := BitVec.ofNat 512 x
          let s := (s.noteDesc c (c.arch.spair a) 8).flushStreams c.key
          .done (s.modCtx c.key fun c =>
            let ar := c.arch.closeStream st
            let ok := strmValid desc
            let ar := if ok then { ar with streams := ar.streams.set st (some ⟨desc, 0, 0⟩) } else ar
            { c with arch := (ar.writeS d (if ok then 0 else 1)).advance iss, refused := [] })

/-- STRM.CLOSE (R250); in lock-step the pushes go into the gated store buffer (DESIGN CHOICE, log 74). -/
def execStrmClose (st : Fin 8) (s : State) : Host.Outcome State Fault Refusal :=
  s.withIssueIf (fun c => c.arch.streams[st].isSome) fun iss c =>
    if c.kind != .rod || decide (c.arch.vc ≤ 56 + st.val) then faultAt s iss .ill
    else
      .done ((s.flushStreams c.key).modCtx c.key fun c => { c with arch := (c.arch.closeStream st).advance iss })

/-- FENCE (R293): a release and an acquire at the scope. -/
def execFence (scope : Scope) (s : State) : Host.Outcome State Fault Refusal :=
  s.withIssueQuiet fun iss c =>
    .done (((s.release c.key scope).acquireMem c.key scope).modCtx c.key fun c => { c with arch := c.arch.advance iss })

/-- The checks of CFL's address (R294). -/
def cflFault (va : DWord) (aovf : Bool) : Option Code :=
  let v := va.toNat
  if aovf then some .aovf
  else if 2 ^ 57 ≤ v then some .notmapped
  else if v < 0x10000 then some .null
  else if 0x1C0000000000000 ≤ v then some .perm
  else none

/-- CFL on one line of the issuer's frame cache (R294): a dirty line goes home and its group is marked, and INV invalidates it.
A host-memory line that the frame holds in CXL mode is treated alike; its bytes are coherent already (R219, R274). -/
def State.flushLine (s : State) (c : Ctx) (inv : Bool) (va : DWord) : State :=
  match c.frame? with
  | none => s
  | some f =>
    let pasid := s.pasidOf c.launch
    let s := match s.hostLines.find? fun h => h.holds f pasid va.toNat with
      | none => s
      | some h =>
        let s := if h.dirty then s.touch c.key (touchedBits (domainAperture va) (.host (128 * h.pa))) else s
        { s with hostLines := s.hostLines.filterMap fun (x : HostLine) =>
            if x.holds f pasid va.toNat then (if inv then none else some { x with dirty := false }) else some x }
    match s.line? f pasid va.toNat with
    | none => s
    | some l =>
      let s := if l.dirty == 0 then s else (s.writeBack l).touch c.key (touchedBits (domainAperture va) l.place)
      if inv then { s with cache := s.cache.filter fun x => !x.holds f pasid va.toNat } else s

/-- CFL (R294). -/
def execCfl (inv : Bool) (a : Pair) (b : Operand) (s : State) : Host.Outcome State Fault Refusal :=
  s.withIssueIf (fun c => !(c.streamsIn (opRegs b)).isEmpty) fun iss c =>
    let f : AddrForm := ⟨some a, .op b, 0⟩
    let once := spread f.types == .uniform
    s.guarded iss c f.names true once <|
      s.withStreams iss c f.names fun pops _ ar =>
        let tries := (partLanes once iss.exec).map fun i => (i, ar.address f i, cflFault (ar.address f i) (ar.offset f.off i).2)
        let faults := tries.filterMap fun t => t.2.2.map fun code => (⟨t.1, code, t.2.1⟩ : LaneFault)
        let good := if once then iss.exec else goodLanes iss.exec faults
        let lines := tries.filter fun t => t.2.2.isNone
        if lines.isEmpty then accessTrap s c once faults iss.pc
        else
          let s := lines.foldl (fun s t => s.flushLine c inv t.2.1) ((s.notePopped c ar).flushStreams c.key)
          let s := s.modCtx c.key fun c => { c with arch := (pops.foldl Arch.pop c.arch).goto good (nextPc iss), refused := [] }
          accessTrap s c once faults iss.pc

end Sys2Proof.Machine
end

