-- ==== Sys2Proof/Machine/Dispatch.lean ====
section
/-!
DEFINITION. One arm for each instruction and event: its meaning, or its rejection by name.
-/
namespace Sys2Proof.Machine

def exec (i : Instr) (s : State) : Host.Outcome State Fault Refusal :=
  match i with
  | .linkTraining link cxl ats pri => Sys2Proof.Machine.execLinkTraining link cxl ats pri s
  | .packageReset image0 image1 fuses policy keys => Sys2Proof.Machine.execPackageReset image0 image1 fuses policy keys s
  | .getVersion req => Sys2Proof.Machine.execGetVersion req s
  | .getCapabilities req => Sys2Proof.Machine.execGetCapabilities req s
  | .negotiateAlgorithms head fixed ext => Sys2Proof.Machine.execNegotiateAlgorithms head fixed ext s
  | .getDigests req => Sys2Proof.Machine.execGetDigests req s
  | .getCertificate head body => Sys2Proof.Machine.execGetCertificate head body s
  | .challenge req => Sys2Proof.Machine.execChallenge req s
  | .getMeasurements req => Sys2Proof.Machine.execGetMeasurements req s
  | .powerTargetWrite watts => Sys2Proof.Machine.execPowerTargetWrite watts s
  | .powerMeasurement m => Sys2Proof.Machine.execPowerMeasurement m s
  | .trip reading => Sys2Proof.Machine.execTrip reading s
  | .load image place => Sys2Proof.Machine.execLoad image place s
  | .unload addr => Sys2Proof.Machine.execUnload addr s
  | .codeHeapCompaction object target => Sys2Proof.Machine.execCodeHeapCompaction object target s
  | .lqbaseWrite port q v => Sys2Proof.Machine.execLqbaseWrite port q v s
  | .lqctlEnable port q log2n => Sys2Proof.Machine.execLqctlEnable port q log2n s
  | .lqctlDisable port q => Sys2Proof.Machine.execLqctlDisable port q s
  | .lqctlResize port q log2n => Sys2Proof.Machine.execLqctlResize port q log2n s
  | .lqtailWrite port q v => Sys2Proof.Machine.execLqtailWrite port q v s
  | .lqstatClear port q v => Sys2Proof.Machine.execLqstatClear port q v s
  | .ringEntryRead port q failed => Sys2Proof.Machine.execRingEntryRead port q failed s
  | .launchCheck order => Sys2Proof.Machine.execLaunchCheck order s
  | .launchDispatch order => Sys2Proof.Machine.execLaunchDispatch order s
  | .launchDone n => Sys2Proof.Machine.execLaunchDone n s
  | .hostMemoryRequest port req => Sys2Proof.Machine.execHostMemoryRequest port req s
  | .atsCompletion die pasid page ans => Sys2Proof.Machine.execAtsCompletion die pasid page ans s
  | .priResponse die pasid page ans => Sys2Proof.Machine.execPriResponse die pasid page ans s
  | .atsInvalidation pasid page pages => Sys2Proof.Machine.execAtsInvalidation pasid page pages s
  | .hostAtomicCompletion key lane ok => Sys2Proof.Machine.execHostAtomicCompletion key lane ok s
  | .memoryReply key errors corrected => Sys2Proof.Machine.execMemoryReply key errors corrected s
  | .machineCheck u pasid line => Sys2Proof.Machine.execMachineCheck u pasid line s
  | .scrubPass stack corrected => Sys2Proof.Machine.execScrubPass stack corrected s
  | .selfTestComplete n passed choice => Sys2Proof.Machine.execSelfTestComplete n passed choice s
  | .linkFailure port => Sys2Proof.Machine.execLinkFailure port s
  | .textFillComplete launch core error => Sys2Proof.Machine.execTextFillComplete launch core error s
  | .instructionFetch key => Sys2Proof.Machine.execInstructionFetch key s
  | .spawnMessage core => Sys2Proof.Machine.execSpawnMessage core s
  | .contextFree key => Sys2Proof.Machine.execContextFree key s
  | .drainComplete core launch w => Sys2Proof.Machine.execDrainComplete core launch w s
  | .rendezvousDeadline frame entry => Sys2Proof.Machine.execRendezvousDeadline frame entry s
  | .gangPlacement frame entry => Sys2Proof.Machine.execGangPlacement frame entry s
  | .requestCollectorFlush frame => Sys2Proof.Machine.execRequestCollectorFlush frame s
  | .jobDispatch num => Sys2Proof.Machine.execJobDispatch num s
  | .jobComplete num errors => Sys2Proof.Machine.execJobComplete num errors s
  | .collectiveMatch num peers => Sys2Proof.Machine.execCollectiveMatch num peers s
  | .matrixOperationComplete core residue => Sys2Proof.Machine.execMatrixOperationComplete core residue s
  | .mwaitWake key => Sys2Proof.Machine.execMwaitWake key s
  | .mwaitLimitExpiry key => Sys2Proof.Machine.execMwaitLimitExpiry key s
  | .mwaitPoll key => Sys2Proof.Machine.execMwaitPoll key s
  | .userInterrupt key => Sys2Proof.Machine.execUserInterrupt key s
  | .trapSlotGrant board => Sys2Proof.Machine.execTrapSlotGrant board s
  | .systemServiceComplete key choice => Sys2Proof.Machine.execSystemServiceComplete key choice s
  | .alloc key place base => Sys2Proof.Machine.execAlloc key place base s
  | .free key => Sys2Proof.Machine.execFree key s
  | .post key => Sys2Proof.Machine.execPost key s
  | .nosvc key => Sys2Proof.Machine.execNosvc key s
  | .hostkill n => Sys2Proof.Machine.execHostkill n s
  | .abortComplete n => Sys2Proof.Machine.execAbortComplete n s
  | .preemption n => Sys2Proof.Machine.execPreemption n s
  | .restore n moves => Sys2Proof.Machine.execRestore n moves s
  | .watchdogFire n => Sys2Proof.Machine.execWatchdogFire n s
  | .checkpointCountExpiry key => Sys2Proof.Machine.execCheckpointCountExpiry key s
  | .debugStop key => Sys2Proof.Machine.execDebugStop key s
  | .debugResume key => Sys2Proof.Machine.execDebugResume key s
  | .samplingPulse => Sys2Proof.Machine.execSamplingPulse s
  | .registerWrite target v => Sys2Proof.Machine.execRegisterWrite target v s
  | .atomicWidthReport port bit => Sys2Proof.Machine.execAtomicWidthReport port bit s
  | .snoop line bytes => Sys2Proof.Machine.execSnoop line bytes s
  | .hostLinkDown port => Sys2Proof.Machine.execHostLinkDown port s
  | .domainRequest pkg pasid req => Sys2Proof.Machine.execDomainRequest pkg pasid req s
  | .clamp kind reading => Sys2Proof.Machine.execClamp kind reading s
  | .debuggerAttach n => Sys2Proof.Machine.execDebuggerAttach n s
  | .debuggerDetach n => Sys2Proof.Machine.execDebuggerDetach n s
  | .fencedSliceClear slice => Sys2Proof.Machine.execFencedSliceClear slice s
  | .policyWrite w => Sys2Proof.Machine.execPolicyWrite w s
  | .barrierLoggingEnable n base nent => Sys2Proof.Machine.execBarrierLoggingEnable n base nent s
  | .nopCompact => Sys2Proof.Machine.execNopCompact s
  | .brCompact disp => Sys2Proof.Machine.execBrCompact disp s
  | .brzCompact cond disp => Sys2Proof.Machine.execBrzCompact cond disp s
  | .brnzCompact cond disp => Sys2Proof.Machine.execBrnzCompact cond disp s
  | .callCompact disp => Sys2Proof.Machine.execCallCompact disp s
  | .retCompact => Sys2Proof.Machine.execRetCompact s
  | .addCompact d a b => Sys2Proof.Machine.execAddCompact d a b s
  | .subCompact d a b => Sys2Proof.Machine.execSubCompact d a b s
  | .mulCompact d a b => Sys2Proof.Machine.execMulCompact d a b s
  | .mulhiCompact d a b => Sys2Proof.Machine.execMulhiCompact d a b s
  | .mulhuCompact d a b => Sys2Proof.Machine.execMulhuCompact d a b s
  | .absCompact d a => Sys2Proof.Machine.execAbsCompact d a s
  | .minCompact d a b => Sys2Proof.Machine.execMinCompact d a b s
  | .maxCompact d a b => Sys2Proof.Machine.execMaxCompact d a b s
  | .minuCompact d a b => Sys2Proof.Machine.execMinuCompact d a b s
  | .maxuCompact d a b => Sys2Proof.Machine.execMaxuCompact d a b s
  | .andCompact d a b => Sys2Proof.Machine.execAndCompact d a b s
  | .orCompact d a b => Sys2Proof.Machine.execOrCompact d a b s
  | .xorCompact d a b => Sys2Proof.Machine.execXorCompact d a b s
  | .andnCompact d a b => Sys2Proof.Machine.execAndnCompact d a b s
  | .shlCompact d a b => Sys2Proof.Machine.execShlCompact d a b s
  | .shrCompact d a b => Sys2Proof.Machine.execShrCompact d a b s
  | .sarCompact d a b => Sys2Proof.Machine.execSarCompact d a b s
  | .rolCompact d a b => Sys2Proof.Machine.execRolCompact d a b s
  | .clzCompact d a => Sys2Proof.Machine.execClzCompact d a s
  | .ctzCompact d a => Sys2Proof.Machine.execCtzCompact d a s
  | .popcCompact d a => Sys2Proof.Machine.execPopcCompact d a s
  | .brevCompact d a => Sys2Proof.Machine.execBrevCompact d a s
  | .mskbCompact d a b => Sys2Proof.Machine.execMskbCompact d a b s
  | .sextCompact d a b => Sys2Proof.Machine.execSextCompact d a b s
  | .movCompact d a => Sys2Proof.Machine.execMovCompact d a s
  | .faddCompact d a b => Sys2Proof.Machine.execFaddCompact d a b s
  | .fsubCompact d a b => Sys2Proof.Machine.execFsubCompact d a b s
  | .fmulCompact d a b => Sys2Proof.Machine.execFmulCompact d a b s
  | .fminCompact d a b => Sys2Proof.Machine.execFminCompact d a b s
  | .fmaxCompact d a b => Sys2Proof.Machine.execFmaxCompact d a b s
  | .add64 m d a b => Sys2Proof.Machine.execAdd64 m d a b s
  | .add96 m d a lit => Sys2Proof.Machine.execAdd96 m d a lit s
  | .sub64 m d a b => Sys2Proof.Machine.execSub64 m d a b s
  | .sub96 m d a lit => Sys2Proof.Machine.execSub96 m d a lit s
  | .mul64 d a b => Sys2Proof.Machine.execMul64 d a b s
  | .mul96 d a lit => Sys2Proof.Machine.execMul96 d a lit s
  | .mulhi64 d a b => Sys2Proof.Machine.execMulhi64 d a b s
  | .mulhi96 d a lit => Sys2Proof.Machine.execMulhi96 d a lit s
  | .mulhu64 d a b => Sys2Proof.Machine.execMulhu64 d a b s
  | .mulhu96 d a lit => Sys2Proof.Machine.execMulhu96 d a lit s
  | .mad64 d a b c => Sys2Proof.Machine.execMad64 d a b c s
  | .mad96 d a c lit => Sys2Proof.Machine.execMad96 d a c lit s
  | .abs64 sat d a => Sys2Proof.Machine.execAbs64 sat d a s
  | .min64 d a b => Sys2Proof.Machine.execMin64 d a b s
  | .min96 d a lit => Sys2Proof.Machine.execMin96 d a lit s
  | .max64 d a b => Sys2Proof.Machine.execMax64 d a b s
  | .max96 d a lit => Sys2Proof.Machine.execMax96 d a lit s
  | .minu64 d a b => Sys2Proof.Machine.execMinu64 d a b s
  | .minu96 d a lit => Sys2Proof.Machine.execMinu96 d a lit s
  | .maxu64 d a b => Sys2Proof.Machine.execMaxu64 d a b s
  | .maxu96 d a lit => Sys2Proof.Machine.execMaxu96 d a lit s
  | .and64 d a b => Sys2Proof.Machine.execAnd64 d a b s
  | .and96 d a lit => Sys2Proof.Machine.execAnd96 d a lit s
  | .or64 d a b => Sys2Proof.Machine.execOr64 d a b s
  | .or96 d a lit => Sys2Proof.Machine.execOr96 d a lit s
  | .xor64 d a b => Sys2Proof.Machine.execXor64 d a b s
  | .xor96 d a lit => Sys2Proof.Machine.execXor96 d a lit s
  | .andn64 d a b => Sys2Proof.Machine.execAndn64 d a b s
  | .andn96 d a lit => Sys2Proof.Machine.execAndn96 d a lit s
  | .shl64 d a b => Sys2Proof.Machine.execShl64 d a b s
  | .shl96 d a lit => Sys2Proof.Machine.execShl96 d a lit s
  | .shr64 d a b => Sys2Proof.Machine.execShr64 d a b s
  | .shr96 d a lit => Sys2Proof.Machine.execShr96 d a lit s
  | .sar64 d a b => Sys2Proof.Machine.execSar64 d a b s
  | .sar96 d a lit => Sys2Proof.Machine.execSar96 d a lit s
  | .rol64 d a b => Sys2Proof.Machine.execRol64 d a b s
  | .rol96 d a lit => Sys2Proof.Machine.execRol96 d a lit s
  | .clz64 d a => Sys2Proof.Machine.execClz64 d a s
  | .ctz64 d a => Sys2Proof.Machine.execCtz64 d a s
  | .popc64 d a => Sys2Proof.Machine.execPopc64 d a s
  | .brev64 d a => Sys2Proof.Machine.execBrev64 d a s
  | .bfx64 d a b c => Sys2Proof.Machine.execBfx64 d a b c s
  | .bfx96 d a c lit => Sys2Proof.Machine.execBfx96 d a c lit s
  | .bfi64 d a b c => Sys2Proof.Machine.execBfi64 d a b c s
  | .bfi96 d a c lit => Sys2Proof.Machine.execBfi96 d a c lit s
  | .addc64 d a b c => Sys2Proof.Machine.execAddc64 d a b c s
  | .addc96 d a c lit => Sys2Proof.Machine.execAddc96 d a c lit s
  | .subc64 d a b c => Sys2Proof.Machine.execSubc64 d a b c s
  | .subc96 d a c lit => Sys2Proof.Machine.execSubc96 d a c lit s
  | .sext64 d a b => Sys2Proof.Machine.execSext64 d a b s
  | .sext96 d a lit => Sys2Proof.Machine.execSext96 d a lit s
  | .mov64 d a => Sys2Proof.Machine.execMov64 d a s
  | .sel64 d a b c => Sys2Proof.Machine.execSel64 d a b c s
  | .sel96 d a c lit => Sys2Proof.Machine.execSel96 d a c lit s
  | .cmp64 cond ty d a b => Sys2Proof.Machine.execCmp64 cond ty d a b s
  | .cmp96 cond ty d a lit => Sys2Proof.Machine.execCmp96 cond ty d a lit s
  | .cmpm64 cond ty d a b => Sys2Proof.Machine.execCmpm64 cond ty d a b s
  | .cmpm96 cond ty d a lit => Sys2Proof.Machine.execCmpm96 cond ty d a lit s
  | .mskb64 d a b => Sys2Proof.Machine.execMskb64 d a b s
  | .mskb96 d a lit => Sys2Proof.Machine.execMskb96 d a lit s
  | .br64 disp => Sys2Proof.Machine.execBr64 disp s
  | .br96 disp => Sys2Proof.Machine.execBr96 disp s
  | .brz64 a disp => Sys2Proof.Machine.execBrz64 a disp s
  | .brz96 a disp => Sys2Proof.Machine.execBrz96 a disp s
  | .brnz64 a disp => Sys2Proof.Machine.execBrnz64 a disp s
  | .brnz96 a disp => Sys2Proof.Machine.execBrnz96 a disp s
  | .brm64 test a disp => Sys2Proof.Machine.execBrm64 test a disp s
  | .brm96 test a disp => Sys2Proof.Machine.execBrm96 test a disp s
  | .call64 link disp => Sys2Proof.Machine.execCall64 link disp s
  | .call96 link disp => Sys2Proof.Machine.execCall96 link disp s
  | .calli link a => Sys2Proof.Machine.execCalli link a s
  | .ret64 a => Sys2Proof.Machine.execRet64 a s
  | .jmpi a => Sys2Proof.Machine.execJmpi a s
  | .nop64 => Sys2Proof.Machine.execNop64 s
  | .iterInit slot d a => Sys2Proof.Machine.execIterInit slot d a s
  | .iterNext64 slot disp => Sys2Proof.Machine.execIterNext64 slot disp s
  | .iterNext96 slot disp => Sys2Proof.Machine.execIterNext96 slot disp s
  | .iterStep slot => Sys2Proof.Machine.execIterStep slot s
  | .fadd64 d a b => Sys2Proof.Machine.execFadd64 d a b s
  | .fadd96 d a lit => Sys2Proof.Machine.execFadd96 d a lit s
  | .fsub64 d a b => Sys2Proof.Machine.execFsub64 d a b s
  | .fsub96 d a lit => Sys2Proof.Machine.execFsub96 d a lit s
  | .fmul64 d a b => Sys2Proof.Machine.execFmul64 d a b s
  | .fmul96 d a lit => Sys2Proof.Machine.execFmul96 d a lit s
  | .ffma64 d a b c => Sys2Proof.Machine.execFfma64 d a b c s
  | .ffma96 d a c lit => Sys2Proof.Machine.execFfma96 d a c lit s
  | .fmin64 d a b => Sys2Proof.Machine.execFmin64 d a b s
  | .fmin96 d a lit => Sys2Proof.Machine.execFmin96 d a lit s
  | .fmax64 d a b => Sys2Proof.Machine.execFmax64 d a b s
  | .fmax96 d a lit => Sys2Proof.Machine.execFmax96 d a lit s
  | .fcmp64 cond d a b => Sys2Proof.Machine.execFcmp64 cond d a b s
  | .fcmp96 cond d a lit => Sys2Proof.Machine.execFcmp96 cond d a lit s
  | .fcmpm64 cond d a b => Sys2Proof.Machine.execFcmpm64 cond d a b s
  | .fcmpm96 cond d a lit => Sys2Proof.Machine.execFcmpm96 cond d a lit s
  | .fclass d a => Sys2Proof.Machine.execFclass d a s
  | .frcp d a => Sys2Proof.Machine.execFrcp d a s
  | .frsq d a => Sys2Proof.Machine.execFrsq d a s
  | .fsqrt d a => Sys2Proof.Machine.execFsqrt d a s
  | .fdiv64 d a b => Sys2Proof.Machine.execFdiv64 d a b s
  | .fdiv96 d a lit => Sys2Proof.Machine.execFdiv96 d a lit s
  | .fexp2 d a => Sys2Proof.Machine.execFexp2 d a s
  | .flog2 d a => Sys2Proof.Machine.execFlog2 d a s
  | .frnd rm d a => Sys2Proof.Machine.execFrnd rm d a s
  | .f2i rm ty d a => Sys2Proof.Machine.execF2i rm ty d a s
  | .i2f ty d a => Sys2Proof.Machine.execI2f ty d a s
  | .fcvt m d a => Sys2Proof.Machine.execFcvt m d a s
  | .f4xp64 d a b c => Sys2Proof.Machine.execF4xp64 d a b c s
  | .f4xp96 d a c lit => Sys2Proof.Machine.execF4xp96 d a c lit s
  | .f4xu64 d a b c => Sys2Proof.Machine.execF4xu64 d a b c s
  | .f4xu96 d a c lit => Sys2Proof.Machine.execF4xu96 d a c lit s
  | .scle d a => Sys2Proof.Machine.execScle d a s
  | .hadd264 ty d a b => Sys2Proof.Machine.execHadd264 ty d a b s
  | .hadd296 ty d a lit => Sys2Proof.Machine.execHadd296 ty d a lit s
  | .hmul264 ty d a b => Sys2Proof.Machine.execHmul264 ty d a b s
  | .hmul296 ty d a lit => Sys2Proof.Machine.execHmul296 ty d a lit s
  | .hfma264 ty d a b c => Sys2Proof.Machine.execHfma264 ty d a b c s
  | .hfma296 ty d a c lit => Sys2Proof.Machine.execHfma296 ty d a c lit s
  | .fkey ty d a => Sys2Proof.Machine.execFkey ty d a s
  | .proma64 d a b => Sys2Proof.Machine.execProma64 d a b s
  | .proma96 d a lit => Sys2Proof.Machine.execProma96 d a lit s
  | .promv d a => Sys2Proof.Machine.execPromv d a s
  | .demf d a => Sys2Proof.Machine.execDemf d a s
  | .demc d a => Sys2Proof.Machine.execDemc d a s
  | .movxr x d => Sys2Proof.Machine.execMovxr x d s
  | .movxw x a => Sys2Proof.Machine.execMovxw x a s
  | .meet64 disp => Sys2Proof.Machine.execMeet64 disp s
  | .meet96 disp => Sys2Proof.Machine.execMeet96 disp s
  | .ld64 m d a b disp => Sys2Proof.Machine.execLd64 m d a b disp s
  | .ld96 m d a off disp => Sys2Proof.Machine.execLd96 m d a off disp s
  | .st64 m d a b disp => Sys2Proof.Machine.execSt64 m d a b disp s
  | .st96 m d a off disp => Sys2Proof.Machine.execSt96 m d a off disp s
  | .ldl64 m d b disp => Sys2Proof.Machine.execLdl64 m d b disp s
  | .ldl96 m d off disp => Sys2Proof.Machine.execLdl96 m d off disp s
  | .stl64 m d b disp => Sys2Proof.Machine.execStl64 m d b disp s
  | .stl96 m d off disp => Sys2Proof.Machine.execStl96 m d off disp s
  | .pfch64 scope a b disp => Sys2Proof.Machine.execPfch64 scope a b disp s
  | .pfch96 scope a off disp => Sys2Proof.Machine.execPfch96 scope a off disp s
  | .aadd64 m d a b c => Sys2Proof.Machine.execAadd64 m d a b c s
  | .aadd96 m d a off c disp => Sys2Proof.Machine.execAadd96 m d a off c disp s
  | .afadd64 m d a b c => Sys2Proof.Machine.execAfadd64 m d a b c s
  | .afadd96 m d a off c disp => Sys2Proof.Machine.execAfadd96 m d a off c disp s
  | .amin64 m d a b c => Sys2Proof.Machine.execAmin64 m d a b c s
  | .amin96 m d a off c disp => Sys2Proof.Machine.execAmin96 m d a off c disp s
  | .amax64 m d a b c => Sys2Proof.Machine.execAmax64 m d a b c s
  | .amax96 m d a off c disp => Sys2Proof.Machine.execAmax96 m d a off c disp s
  | .aand64 m d a b c => Sys2Proof.Machine.execAand64 m d a b c s
  | .aand96 m d a off c disp => Sys2Proof.Machine.execAand96 m d a off c disp s
  | .aor64 m d a b c => Sys2Proof.Machine.execAor64 m d a b c s
  | .aor96 m d a off c disp => Sys2Proof.Machine.execAor96 m d a off c disp s
  | .axor64 m d a b c => Sys2Proof.Machine.execAxor64 m d a b c s
  | .axor96 m d a off c disp => Sys2Proof.Machine.execAxor96 m d a off c disp s
  | .axch64 m d a b c => Sys2Proof.Machine.execAxch64 m d a b c s
  | .axch96 m d a off c disp => Sys2Proof.Machine.execAxch96 m d a off c disp s
  | .acas64 m d a b c q => Sys2Proof.Machine.execAcas64 m d a b c q s
  | .acas96 m d a off c q disp => Sys2Proof.Machine.execAcas96 m d a off c q disp s
  | .strmOpen d a st => Sys2Proof.Machine.execStrmOpen d a st s
  | .strmClose st => Sys2Proof.Machine.execStrmClose st s
  | .fence scope => Sys2Proof.Machine.execFence scope s
  | .cfl inv a b => Sys2Proof.Machine.execCfl inv a b s
  | .copy d a tag => Sys2Proof.Machine.execCopy d a tag s
  | .gath d a tag => Sys2Proof.Machine.execGath d a tag s
  | .scat d a tag => Sys2Proof.Machine.execScat d a tag s
  | .waitany d a => Sys2Proof.Machine.execWaitany d a s
  | .waitall d a => Sys2Proof.Machine.execWaitall d a s
  | .ffr d a => Sys2Proof.Machine.execFfr d a s
  | .tagclr a => Sys2Proof.Machine.execTagclr a s
  | .mwait scope limit d a b => Sys2Proof.Machine.execMwait scope limit d a b s
  | .jobst d tag => Sys2Proof.Machine.execJobst d tag s
  | .gcall64 a disp => Sys2Proof.Machine.execGcall64 a disp s
  | .gcall96 a disp => Sys2Proof.Machine.execGcall96 a disp s
  | .gcallI b a => Sys2Proof.Machine.execGcallI b a s
  | .gret => Sys2Proof.Machine.execGret s
  | .grow64 d b => Sys2Proof.Machine.execGrow64 d b s
  | .grow96 d lit => Sys2Proof.Machine.execGrow96 d lit s
  | .shrink64 b => Sys2Proof.Machine.execShrink64 b s
  | .shrink96 lit => Sys2Proof.Machine.execShrink96 lit s
  | .obres64 d n b => Sys2Proof.Machine.execObres64 d n b s
  | .obres96 d n lit => Sys2Proof.Machine.execObres96 d n lit s
  | .obrel n => Sys2Proof.Machine.execObrel n s
  | .obldS d n a => Sys2Proof.Machine.execObldS d n a s
  | .obldV d n a => Sys2Proof.Machine.execObldV d n a s
  | .mma64 cv t ab b => Sys2Proof.Machine.execMma64 cv t ab b s
  | .mma96 cv t ab lit => Sys2Proof.Machine.execMma96 cv t ab lit s
  | .mmas64 cv t ab b => Sys2Proof.Machine.execMmas64 cv t ab b s
  | .mmas96 cv t ab lit => Sys2Proof.Machine.execMmas96 cv t ab lit s
  | .accz t => Sys2Proof.Machine.execAccz t s
  | .accld64 t a b => Sys2Proof.Machine.execAccld64 t a b s
  | .accld96 t a lit => Sys2Proof.Machine.execAccld96 t a lit s
  | .accst64 t a b => Sys2Proof.Machine.execAccst64 t a b s
  | .accst96 t a lit => Sys2Proof.Machine.execAccst96 t a lit s
  | .accrd64 d t b => Sys2Proof.Machine.execAccrd64 d t b s
  | .accrd96 d t lit => Sys2Proof.Machine.execAccrd96 d t lit s
  | .sign64 d n b => Sys2Proof.Machine.execSign64 d n b s
  | .sign96 d n lit => Sys2Proof.Machine.execSign96 d n lit s
  | .vdot m slot d a b c => Sys2Proof.Machine.execVdot m slot d a b c s
  | .vtest d a => Sys2Proof.Machine.execVtest d a s
  | .vkey d a => Sys2Proof.Machine.execVkey d a s
  | .vhdr ty d a => Sys2Proof.Machine.execVhdr ty d a s
  | .thsBind n a => Sys2Proof.Machine.execThsBind n a s
  | .thsRaise64 d n b => Sys2Proof.Machine.execThsRaise64 d n b s
  | .thsRaise96 d n lit => Sys2Proof.Machine.execThsRaise96 d n lit s
  | .thsRead d n => Sys2Proof.Machine.execThsRead d n s
  | .bar64 scope d a => Sys2Proof.Machine.execBar64 scope d a s
  | .reduce m mask d a => Sys2Proof.Machine.execReduce m mask d a s
  | .scan m mask d a => Sys2Proof.Machine.execScan m mask d a s
  | .shfl var d a b => Sys2Proof.Machine.execShfl var d a b s
  | .bsort desc mask d a => Sys2Proof.Machine.execBsort desc mask d a s
  | .bmerge desc mask d a b => Sys2Proof.Machine.execBmerge desc mask d a b s
  | .coll d a tag => Sys2Proof.Machine.execColl d a tag s
  | .trap64 n => Sys2Proof.Machine.execTrap64 n s
  | .eret => Sys2Proof.Machine.execEret s
  | .uimask d a b => Sys2Proof.Machine.execUimask d a b s
  | .pulse => Sys2Proof.Machine.execPulse s
  | .svc64 d a b n => Sys2Proof.Machine.execSvc64 d a b n s
  | .svc96 d a n lit => Sys2Proof.Machine.execSvc96 d a n lit s
  | .ckpt64 => Sys2Proof.Machine.execCkpt64 s
  | .bkpt n => Sys2Proof.Machine.execBkpt n s
  | .launch d a => Sys2Proof.Machine.execLaunch d a s
  | .spawn d a b c => Sys2Proof.Machine.execSpawn d a b c s
  | .waitfree d a b => Sys2Proof.Machine.execWaitfree d a b s
  | .join d a => Sys2Proof.Machine.execJoin d a s
  | .leave d a => Sys2Proof.Machine.execLeave d a s
  | .exit64 => Sys2Proof.Machine.execExit64 s
  | .migrateRk d => Sys2Proof.Machine.execMigrateRk d s
  | .migrateHm d => Sys2Proof.Machine.execMigrateHm d s
  | .yield => Sys2Proof.Machine.execYield s

end Sys2Proof.Machine
end

