-- ==== Sys2Proof/Machine/Schedule.lean ====
section
/-!
DEFINITION. What a cycle brings: the inputs that are due, the events that the machine itself makes, and the issues of rods,
beams and reckoners (R119–R122); the run of a fetched instruction; and a first instruction placed from outside (DESIGN CHOICE, log 1).
-/
namespace Sys2Proof.Machine

/-! ## Events -/

/-- The events that a context may make. -/
def Ctx.events (c : Ctx) : List Instr :=
  match c.st with
  | .live => []
  | .draining => [.contextFree c.key]
  | .parked w =>
    match w with
    | .reply _ => [.memoryReply c.key [] []]
    | .mwait _ _ _ _ _ _ _ _ => [.userInterrupt c.key, .mwaitWake c.key, .mwaitPoll c.key, .mwaitLimitExpiry c.key]
    | .waitfree _ _ _ _ => [.userInterrupt c.key]
    | .barrier _ _ => [.userInterrupt c.key]
    | .tags => [.userInterrupt c.key]
    | .grow _ _ _ _ => [.userInterrupt c.key]
    | .matrix _ => [.userInterrupt c.key]
    | .svc _ _ _ _ _ true => [.free c.key, .post c.key, .nosvc c.key]
    | .roundBad _ => [.instructionFetch c.key]
    | .pages _ => if c.inVdot then [.userInterrupt c.key] else []
    | _ => []

/-- The events that a launch may make. -/
def Launch.events (l : Launch) : List Instr :=
  match l.st with
  | .running => [.launchDone l.number, .watchdogFire l.number, .preemption l.number]
  | .saved => [.restore l.number []]
  | .aborting _ => [.abortComplete l.number]

/-- The events of a job. -/
def Job.events (j : Job) : List Instr := [.jobDispatch j.num, .jobComplete j.num ⟨[], []⟩, .collectiveMatch j.num []]

/-- The events of the launch queues: those that have an entry to read, by Gyhouc's priorities of the queues (R49, R405) (DESIGN CHOICE,
log 10). -/
def State.queueEvents (s : State) : List Instr :=
  let all := (List.finRange 2).flatMap fun p => (List.finRange 16).map fun i => (p, i)
  let due := all.filter fun (x : Fin 2 × Fin 16) => let q := s.ports[x.1].queues[x.2]; q.en && q.head != q.tail
  let prio (x : Fin 2 × Fin 16) : Nat := s.policy.queuePrio.toList.getD (16 * x.1.val + x.2.val) 0
  let top := (due.map prio).foldl max 0
  (sortOn (fun x => top - prio x) due).map fun x => .ringEntryRead x.1 x.2 false

/-- The events of a rendezvous entry before the issues of a cycle. -/
def RdvEntry.events (e : RdvEntry) : List Instr := if e.st == .sealed then [.gangPlacement e.frame e.num] else []

/-- The events that may come about in a cycle before its issues; one that is not enabled changes nothing
(DESIGN CHOICE, log 51). -/
def State.events (s : State) : List Instr :=
  (if s.sampleDue then [.samplingPulse] else [])
  ++ s.queueEvents
  ++ ((s.ctxs.filter s.checkpointDue).map fun c => .checkpointCountExpiry c.key)
  ++ s.ctxs.flatMap Ctx.events
  ++ s.spawnQ.map (fun m => .spawnMessage m.2.1)
  ++ s.fills.flatMap (fun f => f.joined.map fun j => .textFillComplete j.1 j.2 false)
  ++ s.beams.map (fun b => .matrixOperationComplete b.core .good)
  ++ (s.regions.filter fun r => r.draining != 0).map (fun r => .drainComplete r.core r.launch r.w)
  ++ s.reckoners.map (fun r => .trapSlotGrant r.board)
  ++ s.jobs.flatMap Job.events
  ++ s.rdv.flatMap RdvEntry.events
  ++ s.pending.flatMap (fun p => [.launchCheck p.order, .launchDispatch p.order])
  ++ s.launches.flatMap Launch.events

/-- The rendezvous deadlines that may come after the issues of a cycle (R297). -/
def State.deadlines (s : State) : List Instr :=
  (s.rdv.filter fun e => e.st == .opened && decide (e.deadline ≤ s.tick)).map fun e => .rendezvousDeadline e.frame e.num

/-! ## Issues (R119–R122) -/

/-- A context's place in the order of least recent issue: one that has never issued comes first, then the lowest number. -/
def Ctx.age (c : Ctx) : Nat := match c.issued with | none => 0 | some t => t + 1

/-- The ready context of a list that issued least recently (R119). -/
def State.leastRecent (s : State) (cs : List Ctx) : Option Ctx :=
  let rs := sortOn (·.key.slot.val) (cs.filter s.ready)
  rs.find? fun c => rs.all fun d => decide (c.age ≤ d.age)

/-- The issue of a rod in a cycle (R119): of the rotation slot tick mod 8. -/
def State.rodIssue (s : State) (core : CoreId) : List CtxKey :=
  ((s.leastRecent (s.ctxs.filter fun c => c.kind == .rod && !c.away && c.key.core == core && c.key.slot.val % 8 == s.tick % 8)).map
    (·.key)).toList

/-- The issue of a reckoner in a cycle (R121). -/
def State.reckonerIssue (s : State) (board : Nat) : List CtxKey :=
  ((s.leastRecent (s.ctxs.filter fun c => c.away && boardNo c.key.core == board)).map (·.key)).toList

/-- The gangs that a beam takes in a cycle (R14, R122): two that are ready, in round-robin order of slot after the last that issued, or
one group of WIDTH = 2, whose two gangs take both vector pipes (R33). The round robin starts after slot 0 (DESIGN CHOICE, log 66). -/
def State.beamIssue (s : State) (core : CoreId) : List CtxKey :=
  let rs := sortOn (·.key.slot.val) (s.ctxs.filter fun c => c.kind != .rod && c.key.core == core && s.ready c)
  let rr := (s.beam core).rr
  match (rs.filter fun c => decide (rr < c.key.slot.val)) ++ rs.filter fun c => decide (c.key.slot.val ≤ rr) with
  | [] => []
  | [c] => [c.key]
  | c :: d :: _ => if c.pair.isSome || d.pair.isSome then [c.key] else [c.key, d.key]

/-- The cores that hold contexts of a kind, each once. -/
def State.busyCores (s : State) (p : Ctx → Bool) : List CoreId := ((s.ctxs.filter p).map (·.key.core)).eraseDups

/-- The beams that hold gangs. -/
def State.busyBeams (s : State) : List CoreId := s.busyCores fun c => c.kind != .rod

/-- The boards whose reckoners hold threads. -/
def State.busyBoards (s : State) : List Nat := ((s.ctxs.filter (·.away)).map fun c => boardNo c.key.core).eraseDups

/-- The contexts that issue in a cycle; a throttle withholds cycles from rods and beams (R406). -/
def State.issues (s : State) : List CtxKey :=
  (if s.withheldNow then []
   else (s.busyCores fun c => c.kind == .rod && !c.away).flatMap s.rodIssue ++ s.busyBeams.flatMap s.beamIssue)
  ++ s.busyBoards.flatMap s.reckonerIssue

/-- A context's turn: the interrupt test (R380), the comparator check (R412), the fetch (DEDUCED, log 15). -/
def turn (k : CtxKey) : List Instr := [.userInterrupt k, .debugStop k, .instructionFetch k]

/-- Noting where the round robin of each beam stands. -/
def State.noteRounds (s : State) : State :=
  if s.withheldNow then s else s.busyBeams.foldl (fun (s : State) core =>
    match (s.beamIssue core).getLast? with
    | some k => s.setBeam { s.beam core with rr := k.slot.val }
    | none => s) s

/-- What a cycle does by itself: a cycle that a throttle withholds is one for the matrix engines too (R406), the oldest push of every
context is performed (R283), but none of a launch that is being aborted (R377), invalidations complete (R224), and comparators are armed on the cores that hold their launch (R411). -/
def State.pass (s : State) : State :=
  let s : State := if s.withheldNow then { s with power := { s.power with withheld := s.power.withheld + 1 } } else s
  ((((s.ctxs.filter fun c => !s.aborting c.launch).map (·.key)).foldl State.performOldest s).settleInvals).armCores

/-- The next cycle: TICK advances (R6), and its agenda is made. Without Gyhouc or power only inputs come about
(DESIGN CHOICE, log 53). -/
def State.newCycle (s : State) : State :=
  let s : State := { s with tick := s.tick + 1 }
  let due := (s.inputs.filter fun x => decide (x.1 ≤ s.tick)).map (·.2)
  let rest := s.inputs.filter fun x => !(decide (x.1 ≤ s.tick))
  if s.boot == .running then
    let s := s.pass
    let agenda := due ++ s.events ++ s.issues.flatMap turn ++ s.deadlines
    { s.noteRounds with inputs := rest, agenda := agenda }
  else { s with inputs := rest, agenda := due }

/-! ## The run of a fetched instruction -/

/-- Words that decode to no instruction fault ILL at their PC (R103). -/
def State.illegal (s : State) : Host.Outcome State Fault Refusal :=
  match s.issue with
  | none => .fault .noIssuer
  | some iss => .next (s.deliver iss.key (Trap.one .ill iss.pc iss.pc))

/-! ## A first instruction from outside (DESIGN CHOICE, log 1) -/

/-- The core of the thread that runs a placed instruction. -/
def firstKey : CtxKey := ⟨0, 0⟩

/-- The object whose text holds a placed instruction: every register counted, one page of text. -/
def firstObject (addr : Nat) : CodeObject :=
  { CodeObject.none with addr := addr, size := 8192, scnt := 64, acnt := 32, vcnt := 64, kernels := [0], textOff := 4096, textSize := 4096 }

/-- The partition word of its launch: one page of text, 4 KiB of registers and of scratch. -/
def firstPw : Word := 0x00040401

/-- Its packet: one workgroup of one thread. -/
def firstPacket (addr : Nat) : BitVec 1536 :=
  BitVec.ofNatLT (2 ^ 32 + addr % 2 ^ 64 * 2 ^ 64 + 2 ^ 160 + 0x00040401 * 2 ^ 192)
    (Nat.lt_of_lt_of_le (m := 2 ^ 240) (by omega) (Nat.pow_le_pow_right (by decide) (by decide)))

/-- Its launch, from queue 0 of port 0. -/
def firstLaunch (addr : Nat) : Launch where
  number := 1
  order := 0
  pkt := firstPacket addr
  obj := addr
  pasid := 0
  source := .host 0 0
  map := [0]
  st := .running
  halt := none
  spawned := 0
  allocs := []
  timers := []
  debugger := false
  cmps := Vector.replicate 8 Comparator.clear
  logRing := none
  saved := []
  savedRegs := []
  savedWins := []

/-- The region of its workgroup. -/
def firstRegion : Region where
  core := 0
  launch := 1
  w := 0
  pw := firstPw
  scratch := []
  perm := 0
  acc := []
  obs := Vector.replicate 16 ⟨false, false, 0, 0, 0, 0, 0, 0, 0⟩
  obuf := []
  cvg := Vector.replicate 8 CvgReg.idle
  draining := 0

/-- The thread, at a PC. -/
def firstCtx (pc : DWord) (uid : Nat) : Ctx where
  key := firstKey
  uid := uid
  launch := 1
  kind := .rod
  group := 0
  index := 0
  pair := none
  away := false
  place := none
  turn := none
  st := .live
  arch := { Arch.fresh [freshLane pc (tidOf 1 0) true] 64 with tbase := pc }
  refused := []
  issued := none
  yielded := []
  passed := none
  last := .none
  ckpt := []
  retired := 0
  rollbacks := 0
  woken := false

/-- A machine about to run the words placed at the PC of a thread that stands alone on core 0. -/
def State.placeWords (s : State) (ws : List Word) : State :=
  let base := s.codeHeap.1
  let text := base + 4096
  let tbase : DWord := BitVec.ofNat 64 text
  { s with
    agenda := .instructionFetch firstKey :: s.agenda,
    objects := firstObject base :: s.objects.filter fun o => o.addr != base,
    launches := firstLaunch base :: s.launches.filter fun l => l.number != 1,
    regions := firstRegion :: s.regions.filter fun r => r.core != 0,
    windows := ⟨1, 0, tbase, 4096, Mem.putBytes [] 0 (bytesOfWords ws), false⟩ :: s.windows.filter fun w => w.core != 0,
    fills := s.fills.filter fun f => f.frame != 0,
    ctxs := firstCtx tbase s.uids :: s.ctxs.filter fun c => c.key.core != 0,
    uids := s.uids + 1,
    disabled := s.disabled.filter fun c => c != 0,
    tests := s.tests.filter fun t => t.target != .pair 0,
    cmps := s.cmps.filter fun x => x.core != 0,
    forwards := s.forwards.filter fun f => f.object != base,
    strikes := s.strikes.filter fun k => k != firstKey,
    dev := s.dev.putBytes (s.heapOffset text) (bytesOfWords ws) }

end Sys2Proof.Machine
end

