-- ==== Sys2Proof/Machine/Issue.lean ====
section
/-!
DEFINITION. The run of a fetched instruction: it is decoded and executed. Lean compiles no constructor as late as the last
ones of Instr, so what runs is a second decoder that answers an instruction's meaning, and a proof that the two agree.
-/
namespace Sys2Proof.Machine

/-- The run of the words of an instruction: its meaning, or ILL (R103). -/
noncomputable def State.runWords (s : State) (ws : List Word) : Host.Outcome State Fault Refusal :=
  match decodeWords ws with
  | .ok x => exec x.1 s
  | .error _ => s.illegal

/-- What an instruction does to a state. -/
abbrev Meaning := State → Host.Outcome State Fault Refusal

/-- A meaning whose instruction is well formed only under a condition. -/
def gate (ok : Bool) (m : Meaning) : Dec Meaning := if ok then .ok m else .error .combination

/-- The meaning of an instruction that the opcode map gives. -/
def meaningOf (i : Instr) : Dec Meaning := if i.wellFormed then .ok (exec i) else .error .combination

/-- The meanings of family 0x01 in the 64-bit form. -/
def issue64Fam01 (fn : Nat) (f : Fields) : Dec Meaning :=
  match fn with
  | 0x01 => do unused f.q; unused f.c; let mx ← IntMode.dec f.mod; let dx ← Reg.dec f.d; let ax ← Operand.dec f.a; let bx ← Operand.dec f.b; gate (dx.writable && !(mx.sat && (ax.isA || bx.isA))) (execAdd64 mx dx ax bx)
  | 0x02 => do unused f.q; unused f.c; let mx ← IntMode.dec f.mod; let dx ← Reg.dec f.d; let ax ← Operand.dec f.a; let bx ← Operand.dec f.b; gate (dx.writable && !(mx.sat && (ax.isA || bx.isA))) (execSub64 mx dx ax bx)
  | 0x03 => do unused f.q; unused f.mod; unused f.c; let dx ← Reg.dec f.d; let ax ← Operand.dec f.a; let bx ← Operand.dec f.b; gate (dx.writable) (execMul64 dx ax bx)
  | 0x04 => do unused f.q; unused f.mod; unused f.c; let dx ← Reg.dec f.d; let ax ← Operand.dec f.a; let bx ← Operand.dec f.b; gate (dx.writable) (execMulhi64 dx ax bx)
  | 0x05 => do unused f.q; unused f.mod; unused f.c; let dx ← Reg.dec f.d; let ax ← Operand.dec f.a; let bx ← Operand.dec f.b; gate (dx.writable) (execMulhu64 dx ax bx)
  | 0x06 => do unused f.q; unused f.mod; let dx ← Reg.dec f.d; let ax ← Operand.dec f.a; let bx ← Operand.dec f.b; let cx ← Operand.dec f.c; gate (dx.writable) (execMad64 dx ax bx cx)
  | 0x07 => do unused f.q; unused f.c; unused f.b; let satx ← SatBit.dec f.mod; let dx ← Reg.dec f.d; let ax ← Operand.dec f.a; gate (dx.writable && !(satx && ax.isA)) (execAbs64 satx dx ax)
  | 0x08 => do unused f.q; unused f.mod; unused f.c; let dx ← Reg.dec f.d; let ax ← Operand.dec f.a; let bx ← Operand.dec f.b; gate (dx.writable) (execMin64 dx ax bx)
  | 0x09 => do unused f.q; unused f.mod; unused f.c; let dx ← Reg.dec f.d; let ax ← Operand.dec f.a; let bx ← Operand.dec f.b; gate (dx.writable) (execMax64 dx ax bx)
  | 0x0A => do unused f.q; unused f.mod; unused f.c; let dx ← Reg.dec f.d; let ax ← Operand.dec f.a; let bx ← Operand.dec f.b; gate (dx.writable) (execMinu64 dx ax bx)
  | 0x0B => do unused f.q; unused f.mod; unused f.c; let dx ← Reg.dec f.d; let ax ← Operand.dec f.a; let bx ← Operand.dec f.b; gate (dx.writable) (execMaxu64 dx ax bx)
  | 0x0C => do unused f.q; unused f.mod; unused f.c; let dx ← Reg.dec f.d; let ax ← Operand.dec f.a; let bx ← Operand.dec f.b; gate (dx.writable) (execAnd64 dx ax bx)
  | 0x0D => do unused f.q; unused f.mod; unused f.c; let dx ← Reg.dec f.d; let ax ← Operand.dec f.a; let bx ← Operand.dec f.b; gate (dx.writable) (execOr64 dx ax bx)
  | 0x0E => do unused f.q; unused f.mod; unused f.c; let dx ← Reg.dec f.d; let ax ← Operand.dec f.a; let bx ← Operand.dec f.b; gate (dx.writable) (execXor64 dx ax bx)
  | 0x0F => do unused f.q; unused f.mod; unused f.c; let dx ← Reg.dec f.d; let ax ← Operand.dec f.a; let bx ← Operand.dec f.b; gate (dx.writable) (execAndn64 dx ax bx)
  | 0x10 => do unused f.q; unused f.mod; unused f.c; let dx ← Reg.dec f.d; let ax ← Operand.dec f.a; let bx ← Operand.dec f.b; gate (dx.writable) (execShl64 dx ax bx)
  | 0x11 => do unused f.q; unused f.mod; unused f.c; let dx ← Reg.dec f.d; let ax ← Operand.dec f.a; let bx ← Operand.dec f.b; gate (dx.writable) (execShr64 dx ax bx)
  | 0x12 => do unused f.q; unused f.mod; unused f.c; let dx ← Reg.dec f.d; let ax ← Operand.dec f.a; let bx ← Operand.dec f.b; gate (dx.writable) (execSar64 dx ax bx)
  | 0x13 => do unused f.q; unused f.mod; unused f.c; let dx ← Reg.dec f.d; let ax ← Operand.dec f.a; let bx ← Operand.dec f.b; gate (dx.writable) (execRol64 dx ax bx)
  | 0x14 => do unused f.q; unused f.mod; unused f.c; unused f.b; let dx ← Reg.dec f.d; let ax ← Operand.dec f.a; gate (dx.writable) (execClz64 dx ax)
  | 0x15 => do unused f.q; unused f.mod; unused f.c; unused f.b; let dx ← Reg.dec f.d; let ax ← Operand.dec f.a; gate (dx.writable) (execCtz64 dx ax)
  | 0x16 => do unused f.q; unused f.mod; unused f.c; unused f.b; let dx ← Reg.dec f.d; let ax ← Operand.dec f.a; gate (dx.writable) (execPopc64 dx ax)
  | 0x17 => do unused f.q; unused f.mod; unused f.c; unused f.b; let dx ← Reg.dec f.d; let ax ← Operand.dec f.a; gate (dx.writable) (execBrev64 dx ax)
  | 0x18 => do unused f.q; unused f.mod; let dx ← Reg.dec f.d; let ax ← Operand.dec f.a; let bx ← Operand.dec f.b; let cx ← Operand.dec f.c; gate (dx.writable) (execBfx64 dx ax bx cx)
  | 0x19 => do unused f.q; unused f.mod; let dx ← Reg.dec f.d; let ax ← Operand.dec f.a; let bx ← Operand.dec f.b; let cx ← Operand.dec f.c; gate (dx.writable) (execBfi64 dx ax bx cx)
  | 0x1A => do unused f.q; unused f.mod; let dx ← Reg.dec f.d; let ax ← Operand.dec f.a; let bx ← Operand.dec f.b; let cx ← Operand.dec f.c; gate (dx.writable) (execSel64 dx ax bx cx)
  | 0x1B => do unused f.c; let condx ← Cond.dec f.q; let tyx ← IntTy.dec f.mod; let dx ← Reg.dec f.d; let ax ← Operand.dec f.a; let bx ← Operand.dec f.b; gate (dx.writable) (execCmp64 condx tyx dx ax bx)
  | 0x1C => do unused f.c; let condx ← Cond.dec f.q; let tyx ← IntTy.dec f.mod; let dx ← Reg.dec f.d; let ax ← Operand.dec f.a; let bx ← Operand.dec f.b; gate (dx.writable) (execCmpm64 condx tyx dx ax bx)
  | 0x1D => do unused f.q; unused f.mod; unused f.c; let dx ← Reg.dec f.d; let ax ← Operand.dec f.a; let bx ← Operand.dec f.b; gate (dx.writable) (execMskb64 dx ax bx)
  | 0x1E => do unused f.q; unused f.mod; let dx ← Reg.dec f.d; let ax ← Operand.dec f.a; let bx ← Operand.dec f.b; let cx ← Operand.dec f.c; gate (dx.writable) (execAddc64 dx ax bx cx)
  | 0x1F => do unused f.q; unused f.mod; let dx ← Reg.dec f.d; let ax ← Operand.dec f.a; let bx ← Operand.dec f.b; let cx ← Operand.dec f.c; gate (dx.writable) (execSubc64 dx ax bx cx)
  | 0x20 => do unused f.q; unused f.mod; unused f.c; let dx ← Reg.dec f.d; let ax ← Operand.dec f.a; let bx ← Operand.dec f.b; gate (dx.writable) (execSext64 dx ax bx)
  | 0x21 => do unused f.q; unused f.mod; unused f.c; unused f.b; let dx ← Reg.dec f.d; let ax ← Operand.dec f.a; gate (dx.writable) (execMov64 dx ax)
  | _ => .error .opcode

/-- The meanings of family 0x02 in the 64-bit form. -/
def issue64Fam02 (fn : Nat) (f : Fields) : Dec Meaning :=
  match fn with
  | 0x01 => do unused f.mod; unused f.b; unused f.a; unused f.d; pure (execBr64 f.disp)
  | 0x02 => do unused f.mod; unused f.b; unused f.d; let ax ← Reg.dec f.a; pure (execBrz64 ax f.disp)
  | 0x03 => do unused f.mod; unused f.b; unused f.d; let ax ← Reg.dec f.a; pure (execBrnz64 ax f.disp)
  | 0x04 => do unused f.b; unused f.d; let testx ← MaskTest.dec f.mod; let ax ← SIdx.dec f.a; pure (execBrm64 testx ax f.disp)
  | 0x05 => do unused f.mod; unused f.b; unused f.a; let linkx ← Pair.dec f.d; pure (execCall64 linkx f.disp)
  | 0x06 => do unused f.q; unused f.mod; unused f.c; unused f.b; let linkx ← Pair.dec f.d; let ax ← Pair.dec f.a; pure (execCalli linkx ax)
  | 0x07 => do unused f.q; unused f.mod; unused f.c; unused f.b; unused f.d; let ax ← Pair.dec f.a; pure (execRet64 ax)
  | 0x08 => do unused f.q; unused f.mod; unused f.c; unused f.b; unused f.d; let ax ← Pair.dec f.a; pure (execJmpi ax)
  | 0x09 => do unused f.q; unused f.c; unused f.b; let slotx ← Slot.dec f.mod; let dx ← Reg.dec f.d; let ax ← SPair.dec f.a; gate (dx.writable) (execIterInit slotx dx ax)
  | 0x0A => do unused f.b; unused f.a; unused f.d; let slotx ← Slot.dec f.mod; pure (execIterNext64 slotx f.disp)
  | 0x0B => do unused f.q; unused f.c; unused f.b; unused f.a; unused f.d; let slotx ← Slot.dec f.mod; pure (execIterStep slotx)
  | 0x0C => do unused f.q; unused f.mod; unused f.c; unused f.b; unused f.a; unused f.d; pure (execNop64)
  | _ => .error .opcode

/-- The meanings of family 0x03 in the 64-bit form. -/
def issue64Fam03 (fn : Nat) (f : Fields) : Dec Meaning :=
  match fn with
  | 0x01 => do unused f.q; unused f.c; fixed f.mod 0x02; let dx ← Reg.dec f.d; let ax ← Operand.dec f.a; let bx ← Operand.dec f.b; gate (dx.writable) (execFadd64 dx ax bx)
  | 0x02 => do unused f.q; unused f.c; fixed f.mod 0x02; let dx ← Reg.dec f.d; let ax ← Operand.dec f.a; let bx ← Operand.dec f.b; gate (dx.writable) (execFsub64 dx ax bx)
  | 0x03 => do unused f.q; unused f.c; fixed f.mod 0x02; let dx ← Reg.dec f.d; let ax ← Operand.dec f.a; let bx ← Operand.dec f.b; gate (dx.writable) (execFmul64 dx ax bx)
  | 0x04 => do unused f.q; fixed f.mod 0x02; let dx ← Reg.dec f.d; let ax ← Operand.dec f.a; let bx ← Operand.dec f.b; let cx ← Operand.dec f.c; gate (dx.writable) (execFfma64 dx ax bx cx)
  | 0x05 => do unused f.q; unused f.c; fixed f.mod 0x02; let dx ← Reg.dec f.d; let ax ← Operand.dec f.a; let bx ← Operand.dec f.b; gate (dx.writable) (execFmin64 dx ax bx)
  | 0x06 => do unused f.q; unused f.c; fixed f.mod 0x02; let dx ← Reg.dec f.d; let ax ← Operand.dec f.a; let bx ← Operand.dec f.b; gate (dx.writable) (execFmax64 dx ax bx)
  | 0x07 => do unused f.c; fixed f.mod 0x02; let condx ← FCond.dec f.q; let dx ← Reg.dec f.d; let ax ← Operand.dec f.a; let bx ← Operand.dec f.b; gate (dx.writable) (execFcmp64 condx dx ax bx)
  | 0x08 => do unused f.c; fixed f.mod 0x02; let condx ← FCond.dec f.q; let dx ← Reg.dec f.d; let ax ← Operand.dec f.a; let bx ← Operand.dec f.b; gate (dx.writable) (execFcmpm64 condx dx ax bx)
  | 0x09 => do unused f.q; unused f.c; unused f.b; fixed f.mod 0x02; let dx ← Reg.dec f.d; let ax ← Operand.dec f.a; gate (dx.writable) (execFclass dx ax)
  | 0x0A => do unused f.q; unused f.c; unused f.b; fixed f.mod 0x02; let dx ← Reg.dec f.d; let ax ← Operand.dec f.a; gate (dx.writable) (execFrcp dx ax)
  | 0x0B => do unused f.q; unused f.c; unused f.b; fixed f.mod 0x02; let dx ← Reg.dec f.d; let ax ← Operand.dec f.a; gate (dx.writable) (execFrsq dx ax)
  | 0x0C => do unused f.q; unused f.c; unused f.b; fixed f.mod 0x02; let dx ← Reg.dec f.d; let ax ← Operand.dec f.a; gate (dx.writable) (execFsqrt dx ax)
  | 0x0D => do unused f.q; unused f.c; fixed f.mod 0x02; let dx ← Reg.dec f.d; let ax ← Operand.dec f.a; let bx ← Operand.dec f.b; gate (dx.writable) (execFdiv64 dx ax bx)
  | 0x0E => do unused f.q; unused f.c; unused f.b; fixed f.mod 0x02; let dx ← Reg.dec f.d; let ax ← Operand.dec f.a; gate (dx.writable) (execFexp2 dx ax)
  | 0x0F => do unused f.q; unused f.c; unused f.b; fixed f.mod 0x02; let dx ← Reg.dec f.d; let ax ← Operand.dec f.a; gate (dx.writable) (execFlog2 dx ax)
  | 0x10 => do unused f.c; unused f.b; fixed f.mod 0x02; let rmx ← RoundSel.dec f.q; let dx ← Reg.dec f.d; let ax ← Operand.dec f.a; gate (dx.writable) (execFrnd rmx dx ax)
  | 0x11 => do unused f.c; unused f.b; let rmx ← RoundSel.dec f.q; let tyx ← F2iTy.dec f.mod; let dx ← Reg.dec f.d; let ax ← Operand.dec f.a; gate (dx.writable) (execF2i rmx tyx dx ax)
  | 0x12 => do unused f.q; unused f.c; unused f.b; let tyx ← I2fTy.dec f.mod; let dx ← Reg.dec f.d; let ax ← Operand.dec f.a; gate (dx.writable) (execI2f tyx dx ax)
  | 0x13 => do unused f.q; unused f.c; unused f.b; let mx ← CvtMode.dec f.mod; let dx ← Reg.dec f.d; let ax ← Operand.dec f.a; gate (dx.writable && mx.src != mx.dst && !(mx.sat && mx.dst == .f32)) (execFcvt mx dx ax)
  | 0x14 => do unused f.q; fixed f.mod 0x17; let dx ← Reg.dec f.d; let ax ← Operand.dec f.a; let bx ← Operand.dec f.b; let cx ← Operand.dec f.c; gate (dx.writable) (execF4xp64 dx ax bx cx)
  | 0x15 => do unused f.q; fixed f.mod 0x3A; let dx ← Reg.dec f.d; let ax ← Operand.dec f.a; let bx ← Operand.dec f.b; let cx ← Operand.dec f.c; gate (dx.writable) (execF4xu64 dx ax bx cx)
  | 0x16 => do unused f.q; unused f.c; unused f.b; fixed f.mod 0x17; let dx ← Reg.dec f.d; let ax ← Operand.dec f.a; gate (dx.writable) (execScle dx ax)
  | 0x17 => do unused f.q; unused f.c; let tyx ← HalfTy.dec f.mod; let dx ← Reg.dec f.d; let ax ← Operand.dec f.a; let bx ← Operand.dec f.b; gate (dx.writable) (execHadd264 tyx dx ax bx)
  | 0x18 => do unused f.q; unused f.c; let tyx ← HalfTy.dec f.mod; let dx ← Reg.dec f.d; let ax ← Operand.dec f.a; let bx ← Operand.dec f.b; gate (dx.writable) (execHmul264 tyx dx ax bx)
  | 0x19 => do unused f.q; let tyx ← HalfTy.dec f.mod; let dx ← Reg.dec f.d; let ax ← Operand.dec f.a; let bx ← Operand.dec f.b; let cx ← Operand.dec f.c; gate (dx.writable) (execHfma264 tyx dx ax bx cx)
  | 0x1A => do unused f.q; unused f.c; unused f.b; let tyx ← KeyTy.dec f.mod; let dx ← Reg.dec f.d; let ax ← Operand.dec f.a; gate (dx.writable) (execFkey tyx dx ax)
  | _ => .error .opcode

/-- The meanings of family 0x04 in the 64-bit form. -/
def issue64Fam04 (fn : Nat) (f : Fields) : Dec Meaning :=
  match fn with
  | 0x01 => do unused f.q; unused f.mod; unused f.c; let dx ← Reg.dec f.d; let ax ← UniformOp.dec f.a; let bx ← UniformOp.dec f.b; gate (dx.writable) (execProma64 dx ax bx)
  | 0x02 => do unused f.q; unused f.mod; unused f.c; unused f.b; let dx ← Reg.dec f.d; let ax ← SaOp.dec f.a; gate (dx.writable) (execPromv dx ax)
  | 0x03 => do unused f.q; unused f.mod; unused f.c; unused f.b; let dx ← Reg.dec f.d; let ax ← VIdx.dec f.a; gate (dx.writable) (execDemf dx ax)
  | 0x04 => do unused f.q; unused f.mod; unused f.c; unused f.b; let dx ← Reg.dec f.d; let ax ← VIdx.dec f.a; gate (dx.writable) (execDemc dx ax)
  | 0x05 => do unused f.q; unused f.c; unused f.b; unused f.a; let xx ← XReg.dec f.mod; let dx ← Reg.dec f.d; gate (dx.writable && (!xx.wide || (dx.idx % 2 == 0 && !dx.isA))) (execMovxr xx dx)
  | 0x06 => do unused f.q; unused f.c; unused f.b; unused f.d; let xx ← XReg.dec f.mod; let ax ← SvReg.dec f.a; gate (xx.writable && (!xx.wide || (match ax with | .s i => i.val % 2 == 0 | .v i => i.val % 2 == 0))) (execMovxw xx ax)
  | 0x07 => do unused f.mod; unused f.b; unused f.a; unused f.d; pure (execMeet64 f.disp)
  | _ => .error .opcode

/-- The meanings of family 0x08 in the 64-bit form. -/
def issue64Fam08 (fn : Nat) (f : Fields) : Dec Meaning :=
  match fn with
  | 0x01 => do let mx ← LoadMode.dec f.mod; let dx ← Reg.dec f.d; let ax ← Pair.dec f.a; let bx ← Operand.dec f.b; gate (dx.writable && (mx.ord == .rlx || mx.ord == .acq) && (!mx.prm || (mx.ord == .acq && mx.scope == .dev && mx.size == .b32)) && dx.carries mx.size) (execLd64 mx dx ax bx f.disp)
  | 0x02 => do let mx ← MemMode.dec f.mod; let dx ← Reg.dec f.d; let ax ← Pair.dec f.a; let bx ← Operand.dec f.b; gate ((mx.ord == .rlx || mx.ord == .rel) && dx.carries mx.size) (execSt64 mx dx ax bx f.disp)
  | 0x03 => do unused f.a; let mx ← MemMode.dec f.mod; let dx ← Reg.dec f.d; let bx ← Operand.dec f.b; gate (dx.writable && (mx.ord == .rlx || mx.ord == .acq) && dx.carries mx.size) (execLdl64 mx dx bx f.disp)
  | 0x04 => do unused f.a; let mx ← MemMode.dec f.mod; let dx ← Reg.dec f.d; let bx ← Operand.dec f.b; gate ((mx.ord == .rlx || mx.ord == .rel) && dx.carries mx.size) (execStl64 mx dx bx f.disp)
  | 0x05 => do unused f.d; let scopex ← ScopeMod.dec f.mod; let ax ← Pair.dec f.a; let bx ← Operand.dec f.b; gate ((scopex == .frm || scopex == .dev)) (execPfch64 scopex ax bx f.disp)
  | _ => .error .opcode

/-- The meanings of family 0x09 in the 64-bit form. -/
def issue64Fam09 (fn : Nat) (f : Fields) : Dec Meaning :=
  match fn with
  | 0x01 => do unused f.q; let mx ← MemMode.dec f.mod; let dx ← Reg.dec f.d; let ax ← Pair.dec f.a; let bx ← Operand.dec f.b; let cx ← Operand.dec f.c; gate (dx.writable && (mx.size == .b32 || mx.size == .b64) && dx.carries mx.size && cx.carries mx.size) (execAadd64 mx dx ax bx cx)
  | 0x02 => do unused f.q; let mx ← OrderMode.dec f.mod; let dx ← Reg.dec f.d; let ax ← Pair.dec f.a; let bx ← Operand.dec f.b; let cx ← Operand.dec f.c; gate (dx.writable) (execAfadd64 mx dx ax bx cx)
  | 0x03 => do unused f.q; let mx ← MemMode.dec f.mod; let dx ← Reg.dec f.d; let ax ← Pair.dec f.a; let bx ← Operand.dec f.b; let cx ← Operand.dec f.c; gate (dx.writable && (mx.size == .b32 || mx.size == .b64) && dx.carries mx.size && cx.carries mx.size) (execAmin64 mx dx ax bx cx)
  | 0x04 => do unused f.q; let mx ← MemMode.dec f.mod; let dx ← Reg.dec f.d; let ax ← Pair.dec f.a; let bx ← Operand.dec f.b; let cx ← Operand.dec f.c; gate (dx.writable && (mx.size == .b32 || mx.size == .b64) && dx.carries mx.size && cx.carries mx.size) (execAmax64 mx dx ax bx cx)
  | 0x05 => do unused f.q; let mx ← MemMode.dec f.mod; let dx ← Reg.dec f.d; let ax ← Pair.dec f.a; let bx ← Operand.dec f.b; let cx ← Operand.dec f.c; gate (dx.writable && (mx.size == .b32 || mx.size == .b64) && dx.carries mx.size && cx.carries mx.size) (execAand64 mx dx ax bx cx)
  | 0x06 => do unused f.q; let mx ← MemMode.dec f.mod; let dx ← Reg.dec f.d; let ax ← Pair.dec f.a; let bx ← Operand.dec f.b; let cx ← Operand.dec f.c; gate (dx.writable && (mx.size == .b32 || mx.size == .b64) && dx.carries mx.size && cx.carries mx.size) (execAor64 mx dx ax bx cx)
  | 0x07 => do unused f.q; let mx ← MemMode.dec f.mod; let dx ← Reg.dec f.d; let ax ← Pair.dec f.a; let bx ← Operand.dec f.b; let cx ← Operand.dec f.c; gate (dx.writable && (mx.size == .b32 || mx.size == .b64) && dx.carries mx.size && cx.carries mx.size) (execAxor64 mx dx ax bx cx)
  | 0x08 => do unused f.q; let mx ← MemMode.dec f.mod; let dx ← Reg.dec f.d; let ax ← Pair.dec f.a; let bx ← Operand.dec f.b; let cx ← Operand.dec f.c; gate (dx.writable && (mx.size == .b32 || mx.size == .b64) && dx.carries mx.size && cx.carries mx.size) (execAxch64 mx dx ax bx cx)
  | 0x09 => do let mx ← MemMode.dec f.mod; let dx ← Reg.dec f.d; let ax ← Pair.dec f.a; let bx ← Operand.dec f.b; let cx ← Operand.dec f.c; let qx ← Operand.dec f.q; gate (dx.writable && (mx.size == .b32 || mx.size == .b64 || mx.size == .b128) && dx.carries mx.size && cx.carries mx.size && qx.carries mx.size) (execAcas64 mx dx ax bx cx qx)
  | _ => .error .opcode

/-- The meanings of family 0x0A in the 64-bit form. -/
def issue64Fam0A (fn : Nat) (f : Fields) : Dec Meaning :=
  match fn with
  | 0x01 => do unused f.q; unused f.mod; unused f.c; let dx ← Reg.dec f.d; let ax ← SPair.dec f.a; let stx ← StreamIdx.dec f.b; gate (dx.writable) (execStrmOpen dx ax stx)
  | 0x02 => do unused f.q; unused f.mod; unused f.c; unused f.b; unused f.d; let stx ← StreamIdx.dec f.a; pure (execStrmClose stx)
  | _ => .error .opcode

/-- The meanings of family 0x0B in the 64-bit form. -/
def issue64Fam0B (fn : Nat) (f : Fields) : Dec Meaning :=
  match fn with
  | 0x01 => do unused f.q; unused f.c; unused f.b; unused f.a; unused f.d; let scopex ← ScopeMod.dec f.mod; pure (execFence scopex)
  | 0x02 => do unused f.q; unused f.c; unused f.d; let invx ← Bit0.dec f.mod; let ax ← Pair.dec f.a; let bx ← Operand.dec f.b; pure (execCfl invx ax bx)
  | _ => .error .opcode

/-- The meanings of family 0x0C in the 64-bit form. -/
def issue64Fam0C (fn : Nat) (f : Fields) : Dec Meaning :=
  match fn with
  | 0x01 => do unused f.mod; unused f.c; unused f.b; let dx ← Reg.dec f.d; let ax ← SPair.dec f.a; let tagx ← TagNum.dec f.q; gate (dx.writable) (execCopy dx ax tagx)
  | 0x02 => do unused f.mod; unused f.c; unused f.b; let dx ← Reg.dec f.d; let ax ← SPair.dec f.a; let tagx ← TagNum.dec f.q; gate (dx.writable) (execGath dx ax tagx)
  | 0x03 => do unused f.mod; unused f.c; unused f.b; let dx ← Reg.dec f.d; let ax ← SPair.dec f.a; let tagx ← TagNum.dec f.q; gate (dx.writable) (execScat dx ax tagx)
  | 0x04 => do unused f.q; unused f.mod; unused f.c; unused f.b; let dx ← Reg.dec f.d; let ax ← SPair.dec f.a; gate (dx.writable) (execWaitany dx ax)
  | 0x05 => do unused f.q; unused f.mod; unused f.c; unused f.b; let dx ← Reg.dec f.d; let ax ← SPair.dec f.a; gate (dx.writable) (execWaitall dx ax)
  | 0x06 => do unused f.q; unused f.mod; unused f.c; unused f.b; let dx ← Reg.dec f.d; let ax ← SPair.dec f.a; gate (dx.writable) (execFfr dx ax)
  | 0x07 => do unused f.q; unused f.mod; unused f.c; unused f.b; unused f.d; let ax ← SPair.dec f.a; pure (execTagclr ax)
  | 0x08 => do unused f.c; let scopex ← MwaitMod.dec f.mod; let limitx ← Limit.dec f.q; let dx ← Pair.dec f.d; let ax ← SPair.dec f.a; let bx ← SPair.dec f.b; gate (scopex != .frm) (execMwait scopex limitx dx ax bx)
  | 0x09 => do unused f.mod; unused f.c; unused f.b; unused f.a; let dx ← Reg.dec f.d; let tagx ← TagNum.dec f.q; gate (dx.writable) (execJobst dx tagx)
  | _ => .error .opcode

/-- The meanings of family 0x10 in the 64-bit form. -/
def issue64Fam10 (fn : Nat) (f : Fields) : Dec Meaning :=
  match fn with
  | 0x01 => if f.mod = 1 then do unused f.q; unused f.c; unused f.d; fixed f.mod 0x01; let bx ← Pair.dec f.b; let ax ← Operand.dec f.a; pure (execGcallI bx ax)
    else do unused f.mod; unused f.b; unused f.d; let ax ← Operand.dec f.a; pure (execGcall64 ax f.disp)
  | 0x02 => do unused f.q; unused f.mod; unused f.c; unused f.b; unused f.a; unused f.d; pure (execGret)
  | 0x03 => do unused f.q; unused f.mod; unused f.c; unused f.a; let dx ← Reg.dec f.d; let bx ← UniformOp.dec f.b; gate (dx.writable) (execGrow64 dx bx)
  | 0x04 => do unused f.q; unused f.mod; unused f.c; unused f.a; unused f.d; let bx ← UniformOp.dec f.b; pure (execShrink64 bx)
  | _ => .error .opcode

/-- The meanings of family 0x11 in the 64-bit form. -/
def issue64Fam11 (fn : Nat) (f : Fields) : Dec Meaning :=
  match fn with
  | 0x01 => do unused f.mod; unused f.c; unused f.a; let dx ← Reg.dec f.d; let nx ← Num16.dec f.q; let bx ← SIdx.dec f.b; gate (dx.writable) (execObres64 dx nx bx)
  | 0x02 => do unused f.mod; unused f.c; unused f.b; unused f.a; unused f.d; let nx ← Num16.dec f.q; pure (execObrel nx)
  | 0x03 => if f.mod = 1 then do unused f.c; unused f.b; fixed f.mod 0x01; let dx ← Reg.dec f.d; let nx ← Num16.dec f.q; let ax ← VPair.dec f.a; gate (dx.writable) (execObldV dx nx ax)
    else do unused f.mod; unused f.c; unused f.b; let dx ← Reg.dec f.d; let nx ← Num16.dec f.q; let ax ← SPair.dec f.a; gate (dx.writable) (execObldS dx nx ax)
  | 0x04 => do unused f.mod; unused f.c; let cvx ← CvField.dec f.q; let tx ← RawByte.dec f.d; let abx ← ObsPair.dec f.a; let bx ← UniformOp.dec f.b; pure (execMma64 cvx tx abx bx)
  | 0x05 => do unused f.mod; unused f.c; let cvx ← CvField.dec f.q; let tx ← RawByte.dec f.d; let abx ← ObsPair.dec f.a; let bx ← UniformOp.dec f.b; pure (execMmas64 cvx tx abx bx)
  | 0x06 => do unused f.q; unused f.mod; unused f.c; unused f.b; unused f.a; let tx ← RawByte.dec f.d; pure (execAccz tx)
  | 0x07 => do unused f.q; unused f.mod; unused f.c; let tx ← RawByte.dec f.d; let ax ← SPair.dec f.a; let bx ← UniformOp.dec f.b; pure (execAccld64 tx ax bx)
  | 0x08 => do unused f.q; unused f.mod; unused f.c; let tx ← RawByte.dec f.d; let ax ← SPair.dec f.a; let bx ← UniformOp.dec f.b; pure (execAccst64 tx ax bx)
  | 0x09 => do unused f.q; unused f.mod; unused f.a; let dx ← Reg.dec f.d; let tx ← RawByte.dec f.c; let bx ← UniformOp.dec f.b; gate (dx.writable) (execAccrd64 dx tx bx)
  | 0x0A => do unused f.mod; unused f.c; unused f.a; let dx ← Reg.dec f.d; let nx ← Num8.dec f.q; let bx ← SIdx.dec f.b; gate (dx.writable) (execSign64 dx nx bx)
  | _ => .error .opcode

/-- The meanings of family 0x12 in the 64-bit form. -/
def issue64Fam12 (fn : Nat) (f : Fields) : Dec Meaning :=
  match fn with
  | 0x01 => do let mx ← VdotMode.dec f.mod; let slotx ← Num8.dec f.q; let dx ← Reg.dec f.d; let ax ← Pair.dec f.a; let bx ← SPair.dec f.b; let cx ← SPair.dec f.c; gate (dx.writable && (mx.pred != .sign || slotx == 0)) (execVdot mx slotx dx ax bx cx)
  | 0x02 => do unused f.q; unused f.mod; unused f.c; unused f.b; let dx ← Reg.dec f.d; let ax ← SvReg.dec f.a; gate (dx.writable) (execVtest dx ax)
  | 0x03 => do unused f.q; unused f.mod; unused f.c; unused f.b; let dx ← Reg.dec f.d; let ax ← SvReg.dec f.a; gate (dx.writable) (execVkey dx ax)
  | 0x04 => do unused f.q; unused f.c; unused f.b; let tyx ← VerdictTy.dec f.mod; let dx ← Reg.dec f.d; let ax ← Pair.dec f.a; gate (dx.writable) (execVhdr tyx dx ax)
  | 0x05 => do unused f.mod; unused f.c; unused f.b; unused f.d; let nx ← Num8.dec f.q; let ax ← SPair.dec f.a; pure (execThsBind nx ax)
  | 0x06 => do unused f.mod; unused f.c; unused f.a; let dx ← Pair.dec f.d; let nx ← Num8.dec f.q; let bx ← SvOp.dec f.b; pure (execThsRaise64 dx nx bx)
  | 0x07 => do unused f.mod; unused f.c; unused f.b; unused f.a; let dx ← Pair.dec f.d; let nx ← Num8.dec f.q; pure (execThsRead dx nx)
  | _ => .error .opcode

/-- The meanings of family 0x14 in the 64-bit form. -/
def issue64Fam14 (fn : Nat) (f : Fields) : Dec Meaning :=
  match fn with
  | 0x01 => do unused f.q; unused f.c; unused f.b; let scopex ← ScopeMod.dec f.mod; let dx ← Reg.dec f.d; let ax ← SPair.dec f.a; gate (dx.writable && scopex != .sys) (execBar64 scopex dx ax)
  | 0x02 => do unused f.c; unused f.b; let mx ← ReduceMode.dec f.mod; let maskx ← QMask.dec f.q; let dx ← Reg.dec f.d; let ax ← Reg.dec f.a; gate (dx.writable && (mx.ty == .i32 || mx.op.onFloats) && (!mx.op.indexed || (dx.idx % 2 == 0 && !dx.isA))) (execReduce mx maskx dx ax)
  | 0x03 => do unused f.c; unused f.b; let mx ← ScanMode.dec f.mod; let maskx ← QMask.dec f.q; let dx ← Reg.dec f.d; let ax ← Reg.dec f.a; gate (dx.writable && (mx.ty == .i32 || mx.op.onFloats) && !mx.op.indexed) (execScan mx maskx dx ax)
  | 0x04 => do unused f.q; unused f.c; let varx ← ShflVar.dec f.mod; let dx ← Reg.dec f.d; let ax ← Reg.dec f.a; let bx ← Operand.dec f.b; gate (dx.writable) (execShfl varx dx ax bx)
  | 0x05 => do unused f.c; unused f.b; let descx ← Bit0.dec f.mod; let maskx ← QMask.dec f.q; let dx ← Pair.dec f.d; let ax ← VPair.dec f.a; pure (execBsort descx maskx dx ax)
  | 0x06 => do unused f.c; let descx ← Bit0.dec f.mod; let maskx ← QMask.dec f.q; let dx ← Pair.dec f.d; let ax ← VPair.dec f.a; let bx ← VPair.dec f.b; pure (execBmerge descx maskx dx ax bx)
  | 0x07 => do unused f.mod; unused f.c; unused f.b; let dx ← Reg.dec f.d; let ax ← SPair.dec f.a; let tagx ← TagNum.dec f.q; gate (dx.writable) (execColl dx ax tagx)
  | _ => .error .opcode

/-- The meanings of family 0x38 in the 64-bit form. -/
def issue64Fam38 (fn : Nat) (f : Fields) : Dec Meaning :=
  match fn with
  | 0x01 => do unused f.mod; unused f.c; unused f.b; unused f.a; unused f.d; let nx ← RawByte.dec f.q; pure (execTrap64 nx)
  | 0x02 => do unused f.q; unused f.mod; unused f.c; unused f.b; unused f.a; unused f.d; pure (execEret)
  | 0x03 => do unused f.q; unused f.mod; unused f.c; let dx ← Reg.dec f.d; let ax ← UniformOp.dec f.a; let bx ← UniformOp.dec f.b; gate (dx.writable) (execUimask dx ax bx)
  | 0x04 => do unused f.q; unused f.mod; unused f.c; unused f.b; unused f.a; unused f.d; pure (execPulse)
  | 0x05 => do unused f.mod; unused f.c; let dx ← Quad.dec f.d; let ax ← SPair.dec f.a; let bx ← UniformOp.dec f.b; let nx ← RawByte.dec f.q; pure (execSvc64 dx ax bx nx)
  | 0x06 => do unused f.q; unused f.mod; unused f.c; unused f.b; unused f.a; unused f.d; pure (execCkpt64)
  | 0x07 => do unused f.mod; unused f.c; unused f.b; unused f.a; unused f.d; let nx ← RawByte.dec f.q; pure (execBkpt nx)
  | _ => .error .opcode

/-- The meanings of family 0x3A in the 64-bit form. -/
def issue64Fam3A (fn : Nat) (f : Fields) : Dec Meaning :=
  match fn with
  | 0x01 => do unused f.q; unused f.mod; unused f.c; unused f.b; let dx ← Pair.dec f.d; let ax ← SPair.dec f.a; pure (execLaunch dx ax)
  | 0x02 => do unused f.q; unused f.mod; let dx ← Pair.dec f.d; let ax ← SIdx.dec f.a; let bx ← SPair.dec f.b; let cx ← SPair.dec f.c; pure (execSpawn dx ax bx cx)
  | 0x03 => do unused f.q; unused f.mod; unused f.c; let dx ← Reg.dec f.d; let ax ← SIdx.dec f.a; let bx ← SIdx.dec f.b; gate (dx.writable) (execWaitfree dx ax bx)
  | 0x04 => do unused f.q; unused f.mod; unused f.c; unused f.b; let dx ← Reg.dec f.d; let ax ← SPair.dec f.a; gate (dx.writable) (execJoin dx ax)
  | 0x05 => do unused f.q; unused f.mod; unused f.c; unused f.b; let dx ← Reg.dec f.d; let ax ← SPair.dec f.a; gate (dx.writable) (execLeave dx ax)
  | 0x06 => do unused f.q; unused f.mod; unused f.c; unused f.b; unused f.a; unused f.d; pure (execExit64)
  | 0x07 => if f.mod = 1 then do unused f.q; unused f.c; unused f.b; unused f.a; fixed f.mod 0x01; let dx ← Reg.dec f.d; gate (dx.writable) (execMigrateHm dx)
    else do unused f.q; unused f.mod; unused f.c; unused f.b; unused f.a; let dx ← Reg.dec f.d; gate (dx.writable) (execMigrateRk dx)
  | 0x08 => do unused f.q; unused f.mod; unused f.c; unused f.b; unused f.a; unused f.d; pure (execYield)
  | _ => .error .opcode

/-- The meanings of family 0x01 in the 96-bit form. -/
def issue96Fam01 (fn : Nat) (f : Fields) (lit : Word) : Dec Meaning :=
  match fn with
  | 0x01 => do unused f.q; unused f.c; literalB f.b; let mx ← IntMode.dec f.mod; let dx ← Reg.dec f.d; let ax ← Operand.dec f.a; gate (dx.writable && !(mx.sat && (ax.isA))) (execAdd96 mx dx ax lit)
  | 0x02 => do unused f.q; unused f.c; literalB f.b; let mx ← IntMode.dec f.mod; let dx ← Reg.dec f.d; let ax ← Operand.dec f.a; gate (dx.writable && !(mx.sat && (ax.isA))) (execSub96 mx dx ax lit)
  | 0x03 => do unused f.q; unused f.mod; unused f.c; literalB f.b; let dx ← Reg.dec f.d; let ax ← Operand.dec f.a; gate (dx.writable) (execMul96 dx ax lit)
  | 0x04 => do unused f.q; unused f.mod; unused f.c; literalB f.b; let dx ← Reg.dec f.d; let ax ← Operand.dec f.a; gate (dx.writable) (execMulhi96 dx ax lit)
  | 0x05 => do unused f.q; unused f.mod; unused f.c; literalB f.b; let dx ← Reg.dec f.d; let ax ← Operand.dec f.a; gate (dx.writable) (execMulhu96 dx ax lit)
  | 0x06 => do unused f.q; unused f.mod; literalB f.b; let dx ← Reg.dec f.d; let ax ← Operand.dec f.a; let cx ← Operand.dec f.c; gate (dx.writable) (execMad96 dx ax cx lit)
  | 0x08 => do unused f.q; unused f.mod; unused f.c; literalB f.b; let dx ← Reg.dec f.d; let ax ← Operand.dec f.a; gate (dx.writable) (execMin96 dx ax lit)
  | 0x09 => do unused f.q; unused f.mod; unused f.c; literalB f.b; let dx ← Reg.dec f.d; let ax ← Operand.dec f.a; gate (dx.writable) (execMax96 dx ax lit)
  | 0x0A => do unused f.q; unused f.mod; unused f.c; literalB f.b; let dx ← Reg.dec f.d; let ax ← Operand.dec f.a; gate (dx.writable) (execMinu96 dx ax lit)
  | 0x0B => do unused f.q; unused f.mod; unused f.c; literalB f.b; let dx ← Reg.dec f.d; let ax ← Operand.dec f.a; gate (dx.writable) (execMaxu96 dx ax lit)
  | 0x0C => do unused f.q; unused f.mod; unused f.c; literalB f.b; let dx ← Reg.dec f.d; let ax ← Operand.dec f.a; gate (dx.writable) (execAnd96 dx ax lit)
  | 0x0D => do unused f.q; unused f.mod; unused f.c; literalB f.b; let dx ← Reg.dec f.d; let ax ← Operand.dec f.a; gate (dx.writable) (execOr96 dx ax lit)
  | 0x0E => do unused f.q; unused f.mod; unused f.c; literalB f.b; let dx ← Reg.dec f.d; let ax ← Operand.dec f.a; gate (dx.writable) (execXor96 dx ax lit)
  | 0x0F => do unused f.q; unused f.mod; unused f.c; literalB f.b; let dx ← Reg.dec f.d; let ax ← Operand.dec f.a; gate (dx.writable) (execAndn96 dx ax lit)
  | 0x10 => do unused f.q; unused f.mod; unused f.c; literalB f.b; let dx ← Reg.dec f.d; let ax ← Operand.dec f.a; gate (dx.writable) (execShl96 dx ax lit)
  | 0x11 => do unused f.q; unused f.mod; unused f.c; literalB f.b; let dx ← Reg.dec f.d; let ax ← Operand.dec f.a; gate (dx.writable) (execShr96 dx ax lit)
  | 0x12 => do unused f.q; unused f.mod; unused f.c; literalB f.b; let dx ← Reg.dec f.d; let ax ← Operand.dec f.a; gate (dx.writable) (execSar96 dx ax lit)
  | 0x13 => do unused f.q; unused f.mod; unused f.c; literalB f.b; let dx ← Reg.dec f.d; let ax ← Operand.dec f.a; gate (dx.writable) (execRol96 dx ax lit)
  | 0x18 => do unused f.q; unused f.mod; literalB f.b; let dx ← Reg.dec f.d; let ax ← Operand.dec f.a; let cx ← Operand.dec f.c; gate (dx.writable) (execBfx96 dx ax cx lit)
  | 0x19 => do unused f.q; unused f.mod; literalB f.b; let dx ← Reg.dec f.d; let ax ← Operand.dec f.a; let cx ← Operand.dec f.c; gate (dx.writable) (execBfi96 dx ax cx lit)
  | 0x1A => do unused f.q; unused f.mod; literalB f.b; let dx ← Reg.dec f.d; let ax ← Operand.dec f.a; let cx ← Operand.dec f.c; gate (dx.writable) (execSel96 dx ax cx lit)
  | 0x1B => do unused f.c; literalB f.b; let condx ← Cond.dec f.q; let tyx ← IntTy.dec f.mod; let dx ← Reg.dec f.d; let ax ← Operand.dec f.a; gate (dx.writable) (execCmp96 condx tyx dx ax lit)
  | 0x1C => do unused f.c; literalB f.b; let condx ← Cond.dec f.q; let tyx ← IntTy.dec f.mod; let dx ← Reg.dec f.d; let ax ← Operand.dec f.a; gate (dx.writable) (execCmpm96 condx tyx dx ax lit)
  | 0x1D => do unused f.q; unused f.mod; unused f.c; literalB f.b; let dx ← Reg.dec f.d; let ax ← Operand.dec f.a; gate (dx.writable) (execMskb96 dx ax lit)
  | 0x1E => do unused f.q; unused f.mod; literalB f.b; let dx ← Reg.dec f.d; let ax ← Operand.dec f.a; let cx ← Operand.dec f.c; gate (dx.writable) (execAddc96 dx ax cx lit)
  | 0x1F => do unused f.q; unused f.mod; literalB f.b; let dx ← Reg.dec f.d; let ax ← Operand.dec f.a; let cx ← Operand.dec f.c; gate (dx.writable) (execSubc96 dx ax cx lit)
  | 0x20 => do unused f.q; unused f.mod; unused f.c; literalB f.b; let dx ← Reg.dec f.d; let ax ← Operand.dec f.a; gate (dx.writable) (execSext96 dx ax lit)
  | _ => .error .opcode

/-- The meanings of family 0x02 in the 96-bit form. -/
def issue96Fam02 (fn : Nat) (f : Fields) (lit : Word) : Dec Meaning :=
  match fn with
  | 0x01 => do unused f.q; unused f.mod; unused f.c; unused f.a; unused f.d; literalB f.b; pure (execBr96 lit)
  | 0x02 => do unused f.q; unused f.mod; unused f.c; unused f.d; literalB f.b; let ax ← Reg.dec f.a; pure (execBrz96 ax lit)
  | 0x03 => do unused f.q; unused f.mod; unused f.c; unused f.d; literalB f.b; let ax ← Reg.dec f.a; pure (execBrnz96 ax lit)
  | 0x04 => do unused f.q; unused f.c; unused f.d; literalB f.b; let testx ← MaskTest.dec f.mod; let ax ← SIdx.dec f.a; pure (execBrm96 testx ax lit)
  | 0x05 => do unused f.q; unused f.mod; unused f.c; unused f.a; literalB f.b; let linkx ← Pair.dec f.d; pure (execCall96 linkx lit)
  | 0x0A => do unused f.q; unused f.c; unused f.a; unused f.d; literalB f.b; let slotx ← Slot.dec f.mod; pure (execIterNext96 slotx lit)
  | _ => .error .opcode

/-- The meanings of family 0x03 in the 96-bit form. -/
def issue96Fam03 (fn : Nat) (f : Fields) (lit : Word) : Dec Meaning :=
  match fn with
  | 0x01 => do unused f.q; unused f.c; literalB f.b; fixed f.mod 0x02; let dx ← Reg.dec f.d; let ax ← Operand.dec f.a; gate (dx.writable) (execFadd96 dx ax lit)
  | 0x02 => do unused f.q; unused f.c; literalB f.b; fixed f.mod 0x02; let dx ← Reg.dec f.d; let ax ← Operand.dec f.a; gate (dx.writable) (execFsub96 dx ax lit)
  | 0x03 => do unused f.q; unused f.c; literalB f.b; fixed f.mod 0x02; let dx ← Reg.dec f.d; let ax ← Operand.dec f.a; gate (dx.writable) (execFmul96 dx ax lit)
  | 0x04 => do unused f.q; literalB f.b; fixed f.mod 0x02; let dx ← Reg.dec f.d; let ax ← Operand.dec f.a; let cx ← Operand.dec f.c; gate (dx.writable) (execFfma96 dx ax cx lit)
  | 0x05 => do unused f.q; unused f.c; literalB f.b; fixed f.mod 0x02; let dx ← Reg.dec f.d; let ax ← Operand.dec f.a; gate (dx.writable) (execFmin96 dx ax lit)
  | 0x06 => do unused f.q; unused f.c; literalB f.b; fixed f.mod 0x02; let dx ← Reg.dec f.d; let ax ← Operand.dec f.a; gate (dx.writable) (execFmax96 dx ax lit)
  | 0x07 => do unused f.c; literalB f.b; fixed f.mod 0x02; let condx ← FCond.dec f.q; let dx ← Reg.dec f.d; let ax ← Operand.dec f.a; gate (dx.writable) (execFcmp96 condx dx ax lit)
  | 0x08 => do unused f.c; literalB f.b; fixed f.mod 0x02; let condx ← FCond.dec f.q; let dx ← Reg.dec f.d; let ax ← Operand.dec f.a; gate (dx.writable) (execFcmpm96 condx dx ax lit)
  | 0x0D => do unused f.q; unused f.c; literalB f.b; fixed f.mod 0x02; let dx ← Reg.dec f.d; let ax ← Operand.dec f.a; gate (dx.writable) (execFdiv96 dx ax lit)
  | 0x14 => do unused f.q; literalB f.b; fixed f.mod 0x17; let dx ← Reg.dec f.d; let ax ← Operand.dec f.a; let cx ← Operand.dec f.c; gate (dx.writable) (execF4xp96 dx ax cx lit)
  | 0x15 => do unused f.q; literalB f.b; fixed f.mod 0x3A; let dx ← Reg.dec f.d; let ax ← Operand.dec f.a; let cx ← Operand.dec f.c; gate (dx.writable) (execF4xu96 dx ax cx lit)
  | 0x17 => do unused f.q; unused f.c; literalB f.b; let tyx ← HalfTy.dec f.mod; let dx ← Reg.dec f.d; let ax ← Operand.dec f.a; gate (dx.writable) (execHadd296 tyx dx ax lit)
  | 0x18 => do unused f.q; unused f.c; literalB f.b; let tyx ← HalfTy.dec f.mod; let dx ← Reg.dec f.d; let ax ← Operand.dec f.a; gate (dx.writable) (execHmul296 tyx dx ax lit)
  | 0x19 => do unused f.q; literalB f.b; let tyx ← HalfTy.dec f.mod; let dx ← Reg.dec f.d; let ax ← Operand.dec f.a; let cx ← Operand.dec f.c; gate (dx.writable) (execHfma296 tyx dx ax cx lit)
  | _ => .error .opcode

/-- The meanings of family 0x04 in the 96-bit form. -/
def issue96Fam04 (fn : Nat) (f : Fields) (lit : Word) : Dec Meaning :=
  match fn with
  | 0x01 => do unused f.q; unused f.mod; unused f.c; literalB f.b; let dx ← Reg.dec f.d; let ax ← UniformOp.dec f.a; gate (dx.writable) (execProma96 dx ax lit)
  | 0x07 => do unused f.q; unused f.mod; unused f.c; unused f.a; unused f.d; literalB f.b; pure (execMeet96 lit)
  | _ => .error .opcode

/-- The meanings of family 0x08 in the 96-bit form. -/
def issue96Fam08 (fn : Nat) (f : Fields) (lit : Word) : Dec Meaning :=
  match fn with
  | 0x01 => do unused f.q; unused f.c; let mx ← LoadMode.dec f.mod; let dx ← Reg.dec f.d; let ax ← Pair.dec f.a; let offx ← OffReg.dec f.b; gate (dx.writable && (mx.ord == .rlx || mx.ord == .acq) && (!mx.prm || (mx.ord == .acq && mx.scope == .dev && mx.size == .b32)) && dx.carries mx.size) (execLd96 mx dx ax offx lit)
  | 0x02 => do unused f.q; unused f.c; let mx ← MemMode.dec f.mod; let dx ← Reg.dec f.d; let ax ← Pair.dec f.a; let offx ← OffReg.dec f.b; gate ((mx.ord == .rlx || mx.ord == .rel) && dx.carries mx.size) (execSt96 mx dx ax offx lit)
  | 0x03 => do unused f.q; unused f.c; unused f.a; let mx ← MemMode.dec f.mod; let dx ← Reg.dec f.d; let offx ← OffReg.dec f.b; gate (dx.writable && (mx.ord == .rlx || mx.ord == .acq) && dx.carries mx.size) (execLdl96 mx dx offx lit)
  | 0x04 => do unused f.q; unused f.c; unused f.a; let mx ← MemMode.dec f.mod; let dx ← Reg.dec f.d; let offx ← OffReg.dec f.b; gate ((mx.ord == .rlx || mx.ord == .rel) && dx.carries mx.size) (execStl96 mx dx offx lit)
  | 0x05 => do unused f.q; unused f.c; unused f.d; let scopex ← ScopeMod.dec f.mod; let ax ← Pair.dec f.a; let offx ← OffReg.dec f.b; gate ((scopex == .frm || scopex == .dev)) (execPfch96 scopex ax offx lit)
  | _ => .error .opcode

/-- The meanings of family 0x09 in the 96-bit form. -/
def issue96Fam09 (fn : Nat) (f : Fields) (lit : Word) : Dec Meaning :=
  match fn with
  | 0x01 => do unused f.q; let mx ← MemMode.dec f.mod; let dx ← Reg.dec f.d; let ax ← Pair.dec f.a; let offx ← OffReg.dec f.b; let cx ← Operand.dec f.c; gate (dx.writable && (mx.size == .b32 || mx.size == .b64) && dx.carries mx.size && cx.carries mx.size) (execAadd96 mx dx ax offx cx lit)
  | 0x02 => do unused f.q; let mx ← OrderMode.dec f.mod; let dx ← Reg.dec f.d; let ax ← Pair.dec f.a; let offx ← OffReg.dec f.b; let cx ← Operand.dec f.c; gate (dx.writable) (execAfadd96 mx dx ax offx cx lit)
  | 0x03 => do unused f.q; let mx ← MemMode.dec f.mod; let dx ← Reg.dec f.d; let ax ← Pair.dec f.a; let offx ← OffReg.dec f.b; let cx ← Operand.dec f.c; gate (dx.writable && (mx.size == .b32 || mx.size == .b64) && dx.carries mx.size && cx.carries mx.size) (execAmin96 mx dx ax offx cx lit)
  | 0x04 => do unused f.q; let mx ← MemMode.dec f.mod; let dx ← Reg.dec f.d; let ax ← Pair.dec f.a; let offx ← OffReg.dec f.b; let cx ← Operand.dec f.c; gate (dx.writable && (mx.size == .b32 || mx.size == .b64) && dx.carries mx.size && cx.carries mx.size) (execAmax96 mx dx ax offx cx lit)
  | 0x05 => do unused f.q; let mx ← MemMode.dec f.mod; let dx ← Reg.dec f.d; let ax ← Pair.dec f.a; let offx ← OffReg.dec f.b; let cx ← Operand.dec f.c; gate (dx.writable && (mx.size == .b32 || mx.size == .b64) && dx.carries mx.size && cx.carries mx.size) (execAand96 mx dx ax offx cx lit)
  | 0x06 => do unused f.q; let mx ← MemMode.dec f.mod; let dx ← Reg.dec f.d; let ax ← Pair.dec f.a; let offx ← OffReg.dec f.b; let cx ← Operand.dec f.c; gate (dx.writable && (mx.size == .b32 || mx.size == .b64) && dx.carries mx.size && cx.carries mx.size) (execAor96 mx dx ax offx cx lit)
  | 0x07 => do unused f.q; let mx ← MemMode.dec f.mod; let dx ← Reg.dec f.d; let ax ← Pair.dec f.a; let offx ← OffReg.dec f.b; let cx ← Operand.dec f.c; gate (dx.writable && (mx.size == .b32 || mx.size == .b64) && dx.carries mx.size && cx.carries mx.size) (execAxor96 mx dx ax offx cx lit)
  | 0x08 => do unused f.q; let mx ← MemMode.dec f.mod; let dx ← Reg.dec f.d; let ax ← Pair.dec f.a; let offx ← OffReg.dec f.b; let cx ← Operand.dec f.c; gate (dx.writable && (mx.size == .b32 || mx.size == .b64) && dx.carries mx.size && cx.carries mx.size) (execAxch96 mx dx ax offx cx lit)
  | 0x09 => do let mx ← MemMode.dec f.mod; let dx ← Reg.dec f.d; let ax ← Pair.dec f.a; let offx ← OffReg.dec f.b; let cx ← Operand.dec f.c; let qx ← Operand.dec f.q; gate (dx.writable && (mx.size == .b32 || mx.size == .b64 || mx.size == .b128) && dx.carries mx.size && cx.carries mx.size && qx.carries mx.size) (execAcas96 mx dx ax offx cx qx lit)
  | _ => .error .opcode

/-- The meanings of family 0x10 in the 96-bit form. -/
def issue96Fam10 (fn : Nat) (f : Fields) (lit : Word) : Dec Meaning :=
  match fn with
  | 0x01 => do unused f.q; unused f.mod; unused f.c; unused f.d; literalB f.b; let ax ← Operand.dec f.a; pure (execGcall96 ax lit)
  | 0x03 => do unused f.q; unused f.mod; unused f.c; unused f.a; literalB f.b; let dx ← Reg.dec f.d; gate (dx.writable) (execGrow96 dx lit)
  | 0x04 => do unused f.q; unused f.mod; unused f.c; unused f.a; unused f.d; literalB f.b; pure (execShrink96 lit)
  | _ => .error .opcode

/-- The meanings of family 0x11 in the 96-bit form. -/
def issue96Fam11 (fn : Nat) (f : Fields) (lit : Word) : Dec Meaning :=
  match fn with
  | 0x01 => do unused f.mod; unused f.c; unused f.a; literalB f.b; let dx ← Reg.dec f.d; let nx ← Num16.dec f.q; gate (dx.writable) (execObres96 dx nx lit)
  | 0x04 => do unused f.mod; unused f.c; literalB f.b; let cvx ← CvField.dec f.q; let tx ← RawByte.dec f.d; let abx ← ObsPair.dec f.a; pure (execMma96 cvx tx abx lit)
  | 0x05 => do unused f.mod; unused f.c; literalB f.b; let cvx ← CvField.dec f.q; let tx ← RawByte.dec f.d; let abx ← ObsPair.dec f.a; pure (execMmas96 cvx tx abx lit)
  | 0x07 => do unused f.q; unused f.mod; unused f.c; literalB f.b; let tx ← RawByte.dec f.d; let ax ← SPair.dec f.a; pure (execAccld96 tx ax lit)
  | 0x08 => do unused f.q; unused f.mod; unused f.c; literalB f.b; let tx ← RawByte.dec f.d; let ax ← SPair.dec f.a; pure (execAccst96 tx ax lit)
  | 0x09 => do unused f.q; unused f.mod; unused f.a; literalB f.b; let dx ← Reg.dec f.d; let tx ← RawByte.dec f.c; gate (dx.writable) (execAccrd96 dx tx lit)
  | 0x0A => do unused f.mod; unused f.c; unused f.a; literalB f.b; let dx ← Reg.dec f.d; let nx ← Num8.dec f.q; gate (dx.writable) (execSign96 dx nx lit)
  | _ => .error .opcode

/-- The meanings of family 0x12 in the 96-bit form. -/
def issue96Fam12 (fn : Nat) (f : Fields) (lit : Word) : Dec Meaning :=
  match fn with
  | 0x06 => do unused f.mod; unused f.c; unused f.a; literalB f.b; let dx ← Pair.dec f.d; let nx ← Num8.dec f.q; pure (execThsRaise96 dx nx lit)
  | _ => .error .opcode

/-- The meanings of family 0x38 in the 96-bit form. -/
def issue96Fam38 (fn : Nat) (f : Fields) (lit : Word) : Dec Meaning :=
  match fn with
  | 0x05 => do unused f.mod; unused f.c; literalB f.b; let dx ← Quad.dec f.d; let ax ← SPair.dec f.a; let nx ← RawByte.dec f.q; pure (execSvc96 dx ax nx lit)
  | _ => .error .opcode

/-- The meanings of the 64-bit forms. -/
def issue64 (fam : BitVec 6) (fn : BitVec 8) (f : Fields) : Dec Meaning :=
  match fam.toNat with
  | 0x01 => issue64Fam01 fn.toNat f
  | 0x02 => issue64Fam02 fn.toNat f
  | 0x03 => issue64Fam03 fn.toNat f
  | 0x04 => issue64Fam04 fn.toNat f
  | 0x08 => issue64Fam08 fn.toNat f
  | 0x09 => issue64Fam09 fn.toNat f
  | 0x0A => issue64Fam0A fn.toNat f
  | 0x0B => issue64Fam0B fn.toNat f
  | 0x0C => issue64Fam0C fn.toNat f
  | 0x10 => issue64Fam10 fn.toNat f
  | 0x11 => issue64Fam11 fn.toNat f
  | 0x12 => issue64Fam12 fn.toNat f
  | 0x14 => issue64Fam14 fn.toNat f
  | 0x38 => issue64Fam38 fn.toNat f
  | 0x3A => issue64Fam3A fn.toNat f
  | _ => .error .opcode

/-- The meanings of the 96-bit forms. -/
def issue96 (fam : BitVec 6) (fn : BitVec 8) (f : Fields) (lit : Word) : Dec Meaning :=
  match fam.toNat with
  | 0x01 => issue96Fam01 fn.toNat f lit
  | 0x02 => issue96Fam02 fn.toNat f lit
  | 0x03 => issue96Fam03 fn.toNat f lit
  | 0x04 => issue96Fam04 fn.toNat f lit
  | 0x08 => issue96Fam08 fn.toNat f lit
  | 0x09 => issue96Fam09 fn.toNat f lit
  | 0x10 => issue96Fam10 fn.toNat f lit
  | 0x11 => issue96Fam11 fn.toNat f lit
  | 0x12 => issue96Fam12 fn.toNat f lit
  | 0x38 => issue96Fam38 fn.toNat f lit
  | _ => .error .opcode

/-- The meaning of the fields of an instruction. -/
def issueRaw (r : Raw) : Dec Meaning :=
  match r with
  | .compact op7 d a b => decodeCompact op7 d a b >>= meaningOf
  | .wide fam fn f none => issue64 fam fn f
  | .wide fam fn f (some l) => issue96 fam fn f l

/-- The run of the words of an instruction, as it is compiled. -/
def State.runWordsFast (s : State) (ws : List Word) : Host.Outcome State Fault Refusal :=
  match unpack ws >>= fun x => issueRaw x.1 with
  | .ok m => m s
  | .error _ => s.illegal

theorem issue64Fam01_eq (fn : Nat) (f : Fields) : issue64Fam01 fn f = decode64Fam01 fn f >>= meaningOf := by
  unfold issue64Fam01 decode64Fam01
  split <;> (try simp only [bind_assoc, pure_bind]) <;> rfl

theorem issue64Fam02_eq (fn : Nat) (f : Fields) : issue64Fam02 fn f = decode64Fam02 fn f >>= meaningOf := by
  unfold issue64Fam02 decode64Fam02
  split <;> (try simp only [bind_assoc, pure_bind]) <;> rfl

theorem issue64Fam03_eq (fn : Nat) (f : Fields) : issue64Fam03 fn f = decode64Fam03 fn f >>= meaningOf := by
  unfold issue64Fam03 decode64Fam03
  split <;> (try simp only [bind_assoc, pure_bind]) <;> rfl

theorem issue64Fam04_eq (fn : Nat) (f : Fields) : issue64Fam04 fn f = decode64Fam04 fn f >>= meaningOf := by
  unfold issue64Fam04 decode64Fam04
  split <;> (try simp only [bind_assoc, pure_bind]) <;> rfl

theorem issue64Fam08_eq (fn : Nat) (f : Fields) : issue64Fam08 fn f = decode64Fam08 fn f >>= meaningOf := by
  unfold issue64Fam08 decode64Fam08
  split <;> (try simp only [bind_assoc, pure_bind]) <;> rfl

theorem issue64Fam09_eq (fn : Nat) (f : Fields) : issue64Fam09 fn f = decode64Fam09 fn f >>= meaningOf := by
  unfold issue64Fam09 decode64Fam09
  split <;> (try simp only [bind_assoc, pure_bind]) <;> rfl

theorem issue64Fam0A_eq (fn : Nat) (f : Fields) : issue64Fam0A fn f = decode64Fam0A fn f >>= meaningOf := by
  unfold issue64Fam0A decode64Fam0A
  split <;> (try simp only [bind_assoc, pure_bind]) <;> rfl

theorem issue64Fam0B_eq (fn : Nat) (f : Fields) : issue64Fam0B fn f = decode64Fam0B fn f >>= meaningOf := by
  unfold issue64Fam0B decode64Fam0B
  split <;> (try simp only [bind_assoc, pure_bind]) <;> rfl

theorem issue64Fam0C_eq (fn : Nat) (f : Fields) : issue64Fam0C fn f = decode64Fam0C fn f >>= meaningOf := by
  unfold issue64Fam0C decode64Fam0C
  split <;> (try simp only [bind_assoc, pure_bind]) <;> rfl

theorem issue64Fam10_eq (fn : Nat) (f : Fields) : issue64Fam10 fn f = decode64Fam10 fn f >>= meaningOf := by
  unfold issue64Fam10 decode64Fam10
  by_cases h : f.mod = 1
  · split <;> (try simp only [if_pos h, bind_assoc, pure_bind]) <;> rfl
  · split <;> (try simp only [if_neg h, bind_assoc, pure_bind]) <;> rfl

theorem issue64Fam11_eq (fn : Nat) (f : Fields) : issue64Fam11 fn f = decode64Fam11 fn f >>= meaningOf := by
  unfold issue64Fam11 decode64Fam11
  by_cases h : f.mod = 1
  · split <;> (try simp only [if_pos h, bind_assoc, pure_bind]) <;> rfl
  · split <;> (try simp only [if_neg h, bind_assoc, pure_bind]) <;> rfl

theorem issue64Fam12_eq (fn : Nat) (f : Fields) : issue64Fam12 fn f = decode64Fam12 fn f >>= meaningOf := by
  unfold issue64Fam12 decode64Fam12
  split <;> (try simp only [bind_assoc, pure_bind]) <;> rfl

theorem issue64Fam14_eq (fn : Nat) (f : Fields) : issue64Fam14 fn f = decode64Fam14 fn f >>= meaningOf := by
  unfold issue64Fam14 decode64Fam14
  split <;> (try simp only [bind_assoc, pure_bind]) <;> rfl

theorem issue64Fam38_eq (fn : Nat) (f : Fields) : issue64Fam38 fn f = decode64Fam38 fn f >>= meaningOf := by
  unfold issue64Fam38 decode64Fam38
  split <;> (try simp only [bind_assoc, pure_bind]) <;> rfl

theorem issue64Fam3A_eq (fn : Nat) (f : Fields) : issue64Fam3A fn f = decode64Fam3A fn f >>= meaningOf := by
  unfold issue64Fam3A decode64Fam3A
  by_cases h : f.mod = 1
  · split <;> (try simp only [if_pos h, bind_assoc, pure_bind]) <;> rfl
  · split <;> (try simp only [if_neg h, bind_assoc, pure_bind]) <;> rfl

theorem issue96Fam01_eq (fn : Nat) (f : Fields) (lit : Word) : issue96Fam01 fn f lit = decode96Fam01 fn f lit >>= meaningOf := by
  unfold issue96Fam01 decode96Fam01
  split <;> (try simp only [bind_assoc, pure_bind]) <;> rfl

theorem issue96Fam02_eq (fn : Nat) (f : Fields) (lit : Word) : issue96Fam02 fn f lit = decode96Fam02 fn f lit >>= meaningOf := by
  unfold issue96Fam02 decode96Fam02
  split <;> (try simp only [bind_assoc, pure_bind]) <;> rfl

theorem issue96Fam03_eq (fn : Nat) (f : Fields) (lit : Word) : issue96Fam03 fn f lit = decode96Fam03 fn f lit >>= meaningOf := by
  unfold issue96Fam03 decode96Fam03
  split <;> (try simp only [bind_assoc, pure_bind]) <;> rfl

theorem issue96Fam04_eq (fn : Nat) (f : Fields) (lit : Word) : issue96Fam04 fn f lit = decode96Fam04 fn f lit >>= meaningOf := by
  unfold issue96Fam04 decode96Fam04
  split <;> (try simp only [bind_assoc, pure_bind]) <;> rfl

theorem issue96Fam08_eq (fn : Nat) (f : Fields) (lit : Word) : issue96Fam08 fn f lit = decode96Fam08 fn f lit >>= meaningOf := by
  unfold issue96Fam08 decode96Fam08
  split <;> (try simp only [bind_assoc, pure_bind]) <;> rfl

theorem issue96Fam09_eq (fn : Nat) (f : Fields) (lit : Word) : issue96Fam09 fn f lit = decode96Fam09 fn f lit >>= meaningOf := by
  unfold issue96Fam09 decode96Fam09
  split <;> (try simp only [bind_assoc, pure_bind]) <;> rfl

theorem issue96Fam10_eq (fn : Nat) (f : Fields) (lit : Word) : issue96Fam10 fn f lit = decode96Fam10 fn f lit >>= meaningOf := by
  unfold issue96Fam10 decode96Fam10
  split <;> (try simp only [bind_assoc, pure_bind]) <;> rfl

theorem issue96Fam11_eq (fn : Nat) (f : Fields) (lit : Word) : issue96Fam11 fn f lit = decode96Fam11 fn f lit >>= meaningOf := by
  unfold issue96Fam11 decode96Fam11
  split <;> (try simp only [bind_assoc, pure_bind]) <;> rfl

theorem issue96Fam12_eq (fn : Nat) (f : Fields) (lit : Word) : issue96Fam12 fn f lit = decode96Fam12 fn f lit >>= meaningOf := by
  unfold issue96Fam12 decode96Fam12
  split <;> (try simp only [bind_assoc, pure_bind]) <;> rfl

theorem issue96Fam38_eq (fn : Nat) (f : Fields) (lit : Word) : issue96Fam38 fn f lit = decode96Fam38 fn f lit >>= meaningOf := by
  unfold issue96Fam38 decode96Fam38
  split <;> (try simp only [bind_assoc, pure_bind]) <;> rfl

theorem issue64_eq (fam : BitVec 6) (fn : BitVec 8) (f : Fields) :
    issue64 fam fn f = decode64 fam fn f >>= meaningOf := by
  unfold issue64 decode64
  split <;> (try simp only [*, issue64Fam01_eq, issue64Fam02_eq, issue64Fam03_eq, issue64Fam04_eq, issue64Fam08_eq, issue64Fam09_eq, issue64Fam0A_eq, issue64Fam0B_eq, issue64Fam0C_eq, issue64Fam10_eq, issue64Fam11_eq, issue64Fam12_eq, issue64Fam14_eq, issue64Fam38_eq, issue64Fam3A_eq]) <;> rfl

theorem issue96_eq (fam : BitVec 6) (fn : BitVec 8) (f : Fields) (lit : Word) :
    issue96 fam fn f lit = decode96 fam fn f lit >>= meaningOf := by
  unfold issue96 decode96
  split <;> (try simp only [*, issue96Fam01_eq, issue96Fam02_eq, issue96Fam03_eq, issue96Fam04_eq, issue96Fam08_eq, issue96Fam09_eq, issue96Fam10_eq, issue96Fam11_eq, issue96Fam12_eq, issue96Fam38_eq]) <;> rfl

theorem issueRaw_eq (r : Raw) : issueRaw r = decodeRaw r >>= fun i => .ok (exec i) := by
  have h (x : Dec Instr) : (x >>= meaningOf)
      = (x >>= fun i => if i.wellFormed then pure i else .error .combination) >>= fun i => .ok (exec i) := by
    cases x with
    | error e => rfl
    | ok i =>
      show meaningOf i = (if i.wellFormed then pure i else .error .combination) >>= fun i => .ok (exec i)
      unfold meaningOf
      split <;> rfl
  unfold issueRaw decodeRaw
  split <;> simp only [issue64_eq, issue96_eq, h]

@[csimp] theorem runWords_eq_fast : @State.runWords = @State.runWordsFast := by
  funext s ws
  unfold State.runWords State.runWordsFast decodeWords
  cases unpack ws with
  | error e => rfl
  | ok x =>
    show (match (decodeRaw x.1 >>= fun i => pure (i, x.2)) with | .ok x => exec x.1 s | .error _ => s.illegal)
      = (match issueRaw x.1 with | .ok m => m s | .error _ => s.illegal)
    rw [issueRaw_eq]
    cases decodeRaw x.1 <;> rfl

end Sys2Proof.Machine
end

