-- ==== Sys2Proof/Machine/Step.lean ====
section
/-!
DEFINITION. One step of the machine: the next item of the agenda, with the instruction that it fetched; an empty agenda
begins a cycle.
-/
namespace Sys2Proof.Machine

/-- One step (DESIGN CHOICE, log 1). -/
def step (s : State) : Host.Outcome State Fault Refusal :=
  match s.agenda with
  | [] => .next s.newCycle
  | i :: rest =>
    match exec i { s with agenda := rest, issue := none, fetched := none } with
    | .next t =>
      match t.fetched with
      | none => .next t
      | some ws => { t with fetched := none }.runWords ws
    | .fault f => .fault f
    | .refused r => .refused r

/-- The machine with an instruction of the opcode table placed where the next step fetches (DESIGN CHOICE, log 1). -/
def State.withFetchWord (s : State) (nbits w : Nat) : State := s.placeWords (tableWords (w % 2 ^ nbits))

end Sys2Proof.Machine
end

