-- ==== Sys2Proof/Safety.lean ====
section
/-!
DEFINITION. The words in which the statements speak of the machine: the unit that issues, an instruction that only reads
and writes registers, and what such an instruction comes to when none of its checks fails.
-/
namespace Sys2Proof.Machine

/-- The lanes of a context's architectural state: one of a thread, 32 of a gang, 64 of a WIDTH = 2 group (R123, R124). -/
def Arch.shaped (ar : Arch) : Prop := ar.lanes.length = 1 ∨ ar.lanes.length = 32 ∨ ar.lanes.length = 64

/-- The context `c` issues in `s` under the issue `iss`: it is LIVE (R75), its converged set is not empty and its lanes are live (R123), and no
lock-step mismatch is found at it (R400). -/
structure Issuing (s : State) (iss : Issue) (c : Ctx) : Prop where
  issue  : s.issue = some iss
  ctx    : s.ctx? iss.key = some c
  ready  : c.st = .live
  clean  : s.struck iss.key = false
  shaped : c.arch.shaped
  active : iss.exec ≠ 0
  live   : ∀ n, iss.exec.getLsbD n = true → (c.arch.lane n).live = true

/-- What the rules say of an instruction that only reads and writes registers: the registers its fields name, whether its
destination's file fits its result type (R130), whether it needs the whole live set (R131), the context as it is left but
for its registers, its registers after the instruction from those before, and when its values let it complete in every lane. -/
structure RegForm where
  names : Names
  typed : Bool
  whole : Bool
  ctx   : Ctx
  out   : Arch → Arch
  ready : Arch → Prop

/-- A form that completes whatever the values of its registers are. -/
def RegForm.always (names : Names) (typed whole : Bool) (ctx : Ctx) (out : Arch → Arch) : RegForm :=
  ⟨names, typed, whole, ctx, out, fun _ => True⟩

/-- The conditions under which nothing stops such an instruction (R130, R131, R246, R247), on the state and the operands
alone: `pops` are the elements that its stream sources give, `ps` the places that its stream destination takes, for which a
lock-step pair's gated store buffer has room (R396). -/
structure RegForm.Meets (f : RegForm) (s : State) (iss : Issue) (pops : List Pop) (ps : List Push) : Prop where
  names : s.namesOk f.ctx f.names = true
  typed : f.typed = true
  whole : f.whole = true → iss.exec = f.ctx.liveSet
  popped : s.checkPops f.ctx (f.ctx.streamsIn f.names.src) = .ok pops
  pushed : s.checkPushes f.ctx (f.ctx.streamsIn f.names.dst) = .ok ps
  room : s.gateFull f.ctx (pushCount ps) = false
  ready : f.ready (pops.foldl Arch.pop f.ctx.arch)

/-- The state after such an instruction: its stream sources are popped, its registers written, its stream destination is
pushed, and it retires. -/
def RegForm.after (f : RegForm) (s : State) (iss : Issue) (pops : List Pop) (ps : List Push) : State :=
  (s.commit f.ctx (f.out (pops.foldl Arch.pop f.ctx.arch)) ps).retire iss.key

/-- The instruction `i` answers a next state, the one that the rules give it, whenever nothing stops it. -/
def RunsAs (i : Instr) (form : State → Issue → Ctx → RegForm) : Prop :=
  ∀ s iss c pops ps, Issuing s iss c → (form s iss c).Meets s iss pops ps →
    exec i s = .next ((form s iss c).after s iss pops ps)

/-- The checks of R130, R131, R246 and R247 that come before an instruction's own effect pass: `nm` are the registers that its
fields name, `typed` says that its destination's file fits, `whole` that it needs the whole live set, `pops` are the elements
that its stream sources give and `ps` the places that its stream destination takes, for which a lock-step pair's gated store
buffer has room (R396). -/
structure Ready (s : State) (iss : Issue) (c : Ctx) (nm : Names) (typed whole : Bool) (pops : List Pop) (ps : List Push) : Prop where
  issuing : Issuing s iss c
  names : s.namesOk c nm = true
  typed : typed = true
  whole : whole = true → iss.exec = c.liveSet
  popped : s.checkPops c (c.streamsIn nm.src) = .ok pops
  pushed : s.checkPushes c (c.streamsIn nm.dst) = .ok ps
  room : s.gateFull c (pushCount ps) = false

/-- The PC after the instruction, in the lanes of its converged set. -/
def RegForm.next (iss : Issue) (ar : Arch) : Arch := ar.goto iss.exec (iss.pc + BitVec.ofNat 64 iss.len)

/-- Every memory of the machine is in its canonical form: device, host and domain memory, and the bytes of every region and
text window, those of saved launches too. -/
def memoriesWf (s : State) : Prop :=
  s.dev.wf = true ∧ s.host.wf = true ∧ (∀ d ∈ s.dom, d.2.wf = true) ∧
  (∀ r ∈ s.regions, r.scratch.wf = true ∧ r.acc.wf = true ∧ r.obuf.wf = true) ∧
  (∀ w ∈ s.windows, w.bytes.wf = true) ∧
  (∀ l ∈ s.launches, ∀ r ∈ l.savedRegs, r.scratch.wf = true ∧ r.acc.wf = true ∧ r.obuf.wf = true)

end Sys2Proof.Machine
end

