-- ==== Sys2Proof/Rules/Integer.lean ====
section
/-!
DEFINITION. What the rules of family 0x01 say (R129, R132, R172–R175), written on integers from the rules' own formulas:
the vocabulary of the statements about integer, bit, compare, select and mask instructions.
-/
namespace Sys2Proof.Machine.Rules

/-- wrap32. -/
def wrap (x : Int) : Word := BitVec.ofInt 32 x

/-- clamp(x, lo, hi). -/
def clamp (x lo hi : Int) : Int := min (max x lo) hi

/-- The run of ones that MSKB builds (R175). -/
def ones (p w : Nat) : Word := if 32 ≤ p then 0 else BitVec.ofNat 32 ((2 ^ min w (32 - p) - 1) * 2 ^ p)

/-- A register-to-register instruction of family 0x01: its destination, whether the destination is also read, its sources,
its result type, the affine result on BASE and STRIDE, and the value of a lane from D's old value and the sources. -/
structure Row where
  d     : Reg
  readsD : Bool
  a     : Src
  b     : Src
  e     : Src
  ty    : RType
  aff   : AReg → AReg → AReg → AReg
  f     : Word → Word → Word → Word → Word

/-- A row without an affine result. -/
def plain (d : Reg) (a b e : Src) (f : Word → Word → Word → Word) : Row :=
  ⟨d, false, a, b, e, if [a, b, e].all (fun x => x.type == .uniform) then .uniform else .varying, fun x _ _ => x, fun _ => f⟩

/-- A row of two sources without an affine result. -/
def plain2 (d : Reg) (a b : Src) (f : Word → Word → Word) : Row := plain d a b .no fun x y _ => f x y

/-- A row of one source without an affine result. -/
def plain1 (d : Reg) (a : Src) (f : Word → Word) : Row := plain d a .no .no fun x _ _ => f x

/-- The result type of a row of R129 whose affine cases are given: all uniform, an affine case, or varying. -/
def typeBy (xs : List Src) (affine : Bool) : RType :=
  if xs.all (fun x => x.type == .uniform) then .uniform else if affine then .affine else .varying

/-- Whether a source is affine. -/
def isAff (x : Src) : Bool := x.type == .affine
/-- Whether a source is uniform. -/
def isUni (x : Src) : Bool := x.type == .uniform
/-- Whether one source is affine and the other uniform, in either order. -/
def affUni (x y : Src) : Bool := (isAff x && isUni y) || (isUni x && isAff y)

/-- ADD (R129, R132, R172). -/
def add (m : IntMode) (d : Reg) (a b : Src) : Row :=
  ⟨d, false, a, b, .no, typeBy [a, b] (affUni a b || (isAff a && isAff b)),
    fun x y _ => ⟨x.base + y.base, x.stride + y.stride⟩,
    fun _ x y _ => match m.sat, m.ty with
      | false, _ => wrap (x.toNat + y.toNat)
      | true, .i32 => wrap (clamp (x.toInt + y.toInt) (-2 ^ 31) (2 ^ 31 - 1))
      | true, .u32 => wrap (clamp (x.toNat + y.toNat) 0 (2 ^ 32 - 1))⟩

/-- SUB (R129, R132, R172). -/
def sub (m : IntMode) (d : Reg) (a b : Src) : Row :=
  ⟨d, false, a, b, .no, typeBy [a, b] (affUni a b || (isAff a && isAff b)),
    fun x y _ => ⟨x.base - y.base, x.stride - y.stride⟩,
    fun _ x y _ => match m.sat, m.ty with
      | false, _ => wrap ((x.toNat : Int) - y.toNat)
      | true, .i32 => wrap (clamp (x.toInt - y.toInt) (-2 ^ 31) (2 ^ 31 - 1))
      | true, .u32 => wrap (clamp ((x.toNat : Int) - y.toNat) 0 (2 ^ 32 - 1))⟩

/-- MUL (R129, R132, R172); R132's u is the uniform one of the two. -/
def mul (d : Reg) (a b : Src) : Row :=
  ⟨d, false, a, b, .no, typeBy [a, b] (affUni a b),
    fun x y _ => if isAff a then ⟨x.base * y.base, x.stride * y.base⟩ else ⟨y.base * x.base, y.stride * x.base⟩,
    fun _ x y _ => wrap (x.toNat * y.toNat)⟩

/-- MAD (R129, R132, R172). -/
def mad (d : Reg) (a b e : Src) : Row :=
  ⟨d, false, a, b, e, typeBy [a, b, e] (affUni a b && isUni e),
    fun x y z =>
      if isAff a then ⟨x.base * y.base + z.base, x.stride * y.base⟩ else ⟨y.base * x.base + z.base, y.stride * x.base⟩,
    fun _ x y z => wrap (x.toNat * y.toNat + z.toNat)⟩

/-- SHL of a pattern (R172). -/
def shlBits (x n : Word) : Word := if 32 ≤ n.toNat then 0 else wrap (x.toNat * 2 ^ n.toNat)

/-- SHL (R129, R132, R172). -/
def shl (d : Reg) (a b : Src) : Row :=
  ⟨d, false, a, b, .no, typeBy [a, b] (isAff a && isUni b),
    fun x y _ => ⟨shlBits x.base y.base, shlBits x.stride y.base⟩, fun _ x y _ => shlBits x y⟩

/-- MOV (R129, R132, R172). -/
def mov (d : Reg) (a : Src) : Row := ⟨d, false, a, .no, .no, a.type, fun x _ _ => x, fun _ x _ _ => x⟩

/-- MULHI. -/
def mulhi (x y : Word) : Word := wrap (x.toInt * y.toInt / 2 ^ 32)
/-- MULHU. -/
def mulhu (x y : Word) : Word := BitVec.ofNat 32 (x.toNat * y.toNat / 2 ^ 32)
/-- ABS. -/
def abs (sat : Bool) (x : Word) : Word := if sat then wrap (min |x.toInt| (2 ^ 31 - 1)) else wrap |x.toInt|
/-- MIN. -/
def minS (x y : Word) : Word := wrap (min x.toInt y.toInt)
/-- MAX. -/
def maxS (x y : Word) : Word := wrap (max x.toInt y.toInt)
/-- MINU. -/
def minU (x y : Word) : Word := BitVec.ofNat 32 (min x.toNat y.toNat)
/-- MAXU. -/
def maxU (x y : Word) : Word := BitVec.ofNat 32 (max x.toNat y.toNat)
/-- SHR. -/
def shr (x n : Word) : Word := if 32 ≤ n.toNat then 0 else BitVec.ofNat 32 (x.toNat / 2 ^ n.toNat)
/-- SAR. -/
def sar (x n : Word) : Word := wrap (x.toInt / 2 ^ min n.toNat 31)
/-- ROL. -/
def rol (x n : Word) : Word :=
  wrap (x.toNat * 2 ^ (n.toNat % 32)) ||| BitVec.ofNat 32 (x.toNat / 2 ^ (32 - n.toNat % 32))
/-- CLZ: the number of bit places above the highest set bit. -/
def clz (x : Word) : Word := if x = 0 then 32 else BitVec.ofNat 32 (31 - Nat.log 2 x.toNat)
/-- CTZ: how often 2 divides the value. -/
def ctz (x : Word) : Word := if x = 0 then 32 else BitVec.ofNat 32 (padicValNat 2 x.toNat)
/-- POPC. -/
def popc (x : Word) : Word := BitVec.ofNat 32 ((Finset.range 32).filter fun i => x.getLsbD i = true).card
/-- BREV. -/
def brev (x : Word) : Word := x.reverse
/-- BFX. -/
def bfx (x p w : Word) : Word :=
  if 32 ≤ p.toNat ∨ w = 0 then 0 else BitVec.ofNat 32 (x.toNat / 2 ^ p.toNat % 2 ^ min w.toNat (32 - p.toNat))
/-- BFI, with D's old value. -/
def bfi (old x p w : Word) : Word :=
  (old &&& ~~~(ones p.toNat w.toNat)) ||| (wrap (x.toNat * 2 ^ p.toNat) &&& ones p.toNat w.toNat)
/-- ADDC. -/
def addc (x y z : Word) : Word := BitVec.ofNat 32 ((x.toNat + y.toNat + z.toNat % 2) / 2 ^ 32)
/-- SUBC. -/
def subc (x y z : Word) : Word := if x.toNat < y.toNat + z.toNat % 2 then 1 else 0
/-- SEXT: bits [n − 1:0], sign-extended. -/
def sext (x n : Word) : Word :=
  if n.toNat = 0 then 0 else if 32 ≤ n.toNat then x else wrap (Int.bmod (x.toNat : Int) (2 ^ n.toNat))
/-- SEL. -/
def sel (x y z : Word) : Word := if z = 0 then y else x

/-- a cond b under a type (R173). -/
def holds (cond : Cond) (ty : IntTy) (x y : Word) : Bool :=
  match ty, cond with
  | _, .eq => decide (x = y)
  | _, .ne => decide (x ≠ y)
  | .i32, .lt => decide (x.toInt < y.toInt)
  | .i32, .le => decide (x.toInt ≤ y.toInt)
  | .i32, .gt => decide (x.toInt > y.toInt)
  | .i32, .ge => decide (x.toInt ≥ y.toInt)
  | .u32, .lt => decide (x.toNat < y.toNat)
  | .u32, .le => decide (x.toNat ≤ y.toNat)
  | .u32, .gt => decide (x.toNat > y.toNat)
  | .u32, .ge => decide (x.toNat ≥ y.toNat)

/-- CMP (R174). -/
def cmp (cond : Cond) (ty : IntTy) (x y : Word) : Word := if holds cond ty x y then 1 else 0

/-- The row of each register-to-register instruction of family 0x01 but CMPM. -/
def row : Instr → Option Row
  | .addCompact d a b => some (add ⟨.i32, false⟩ d (.op a) (.op b))
  | .add64 m d a b => some (add m d (.op a) (.op b))
  | .add96 m d a lit => some (add m d (.op a) (.lit lit))
  | .subCompact d a b => some (sub ⟨.i32, false⟩ d (.op a) (.op b))
  | .sub64 m d a b => some (sub m d (.op a) (.op b))
  | .sub96 m d a lit => some (sub m d (.op a) (.lit lit))
  | .mulCompact d a b => some (mul d (.op a) (.op b))
  | .mul64 d a b => some (mul d (.op a) (.op b))
  | .mul96 d a lit => some (mul d (.op a) (.lit lit))
  | .mulhiCompact d a b => some (plain2 d (.op a) (.op b) mulhi)
  | .mulhi64 d a b => some (plain2 d (.op a) (.op b) mulhi)
  | .mulhi96 d a lit => some (plain2 d (.op a) (.lit lit) mulhi)
  | .mulhuCompact d a b => some (plain2 d (.op a) (.op b) mulhu)
  | .mulhu64 d a b => some (plain2 d (.op a) (.op b) mulhu)
  | .mulhu96 d a lit => some (plain2 d (.op a) (.lit lit) mulhu)
  | .mad64 d a b e => some (mad d (.op a) (.op b) (.op e))
  | .mad96 d a e lit => some (mad d (.op a) (.lit lit) (.op e))
  | .absCompact d a => some (plain1 d (.op a) (abs false))
  | .abs64 sat d a => some (plain1 d (.op a) (abs sat))
  | .minCompact d a b => some (plain2 d (.op a) (.op b) minS)
  | .min64 d a b => some (plain2 d (.op a) (.op b) minS)
  | .min96 d a lit => some (plain2 d (.op a) (.lit lit) minS)
  | .maxCompact d a b => some (plain2 d (.op a) (.op b) maxS)
  | .max64 d a b => some (plain2 d (.op a) (.op b) maxS)
  | .max96 d a lit => some (plain2 d (.op a) (.lit lit) maxS)
  | .minuCompact d a b => some (plain2 d (.op a) (.op b) minU)
  | .minu64 d a b => some (plain2 d (.op a) (.op b) minU)
  | .minu96 d a lit => some (plain2 d (.op a) (.lit lit) minU)
  | .maxuCompact d a b => some (plain2 d (.op a) (.op b) maxU)
  | .maxu64 d a b => some (plain2 d (.op a) (.op b) maxU)
  | .maxu96 d a lit => some (plain2 d (.op a) (.lit lit) maxU)
  | .andCompact d a b => some (plain2 d (.op a) (.op b) fun x y => x &&& y)
  | .and64 d a b => some (plain2 d (.op a) (.op b) fun x y => x &&& y)
  | .and96 d a lit => some (plain2 d (.op a) (.lit lit) fun x y => x &&& y)
  | .orCompact d a b => some (plain2 d (.op a) (.op b) fun x y => x ||| y)
  | .or64 d a b => some (plain2 d (.op a) (.op b) fun x y => x ||| y)
  | .or96 d a lit => some (plain2 d (.op a) (.lit lit) fun x y => x ||| y)
  | .xorCompact d a b => some (plain2 d (.op a) (.op b) fun x y => x ^^^ y)
  | .xor64 d a b => some (plain2 d (.op a) (.op b) fun x y => x ^^^ y)
  | .xor96 d a lit => some (plain2 d (.op a) (.lit lit) fun x y => x ^^^ y)
  | .andnCompact d a b => some (plain2 d (.op a) (.op b) fun x y => x &&& ~~~y)
  | .andn64 d a b => some (plain2 d (.op a) (.op b) fun x y => x &&& ~~~y)
  | .andn96 d a lit => some (plain2 d (.op a) (.lit lit) fun x y => x &&& ~~~y)
  | .shlCompact d a b => some (shl d (.op a) (.op b))
  | .shl64 d a b => some (shl d (.op a) (.op b))
  | .shl96 d a lit => some (shl d (.op a) (.lit lit))
  | .shrCompact d a b => some (plain2 d (.op a) (.op b) shr)
  | .shr64 d a b => some (plain2 d (.op a) (.op b) shr)
  | .shr96 d a lit => some (plain2 d (.op a) (.lit lit) shr)
  | .sarCompact d a b => some (plain2 d (.op a) (.op b) sar)
  | .sar64 d a b => some (plain2 d (.op a) (.op b) sar)
  | .sar96 d a lit => some (plain2 d (.op a) (.lit lit) sar)
  | .rolCompact d a b => some (plain2 d (.op a) (.op b) rol)
  | .rol64 d a b => some (plain2 d (.op a) (.op b) rol)
  | .rol96 d a lit => some (plain2 d (.op a) (.lit lit) rol)
  | .clzCompact d a => some (plain1 d (.op a) clz)
  | .clz64 d a => some (plain1 d (.op a) clz)
  | .ctzCompact d a => some (plain1 d (.op a) ctz)
  | .ctz64 d a => some (plain1 d (.op a) ctz)
  | .popcCompact d a => some (plain1 d (.op a) popc)
  | .popc64 d a => some (plain1 d (.op a) popc)
  | .brevCompact d a => some (plain1 d (.op a) brev)
  | .brev64 d a => some (plain1 d (.op a) brev)
  | .bfx64 d a b e => some (plain d (.op a) (.op b) (.op e) bfx)
  | .bfx96 d a e lit => some (plain d (.op a) (.lit lit) (.op e) bfx)
  | .bfi64 d a b e =>
    some ⟨d, true, .op a, .op b, .op e, typeBy [.op a, .op b, .op e, .op (.reg d)] false, fun x _ _ => x, bfi⟩
  | .bfi96 d a e lit =>
    some ⟨d, true, .op a, .lit lit, .op e, typeBy [.op a, .lit lit, .op e, .op (.reg d)] false, fun x _ _ => x, bfi⟩
  | .addc64 d a b e => some (plain d (.op a) (.op b) (.op e) addc)
  | .addc96 d a e lit => some (plain d (.op a) (.lit lit) (.op e) addc)
  | .subc64 d a b e => some (plain d (.op a) (.op b) (.op e) subc)
  | .subc96 d a e lit => some (plain d (.op a) (.lit lit) (.op e) subc)
  | .sextCompact d a b => some (plain2 d (.op a) (.op b) sext)
  | .sext64 d a b => some (plain2 d (.op a) (.op b) sext)
  | .sext96 d a lit => some (plain2 d (.op a) (.lit lit) sext)
  | .movCompact d a => some (mov d (.op a))
  | .mov64 d a => some (mov d (.op a))
  | .sel64 d a b e => some (plain d (.op a) (.op b) (.op e) sel)
  | .sel96 d a e lit => some (plain d (.op a) (.lit lit) (.op e) sel)
  | .cmp64 cond ty d a b => some (plain2 d (.op a) (.op b) (cmp cond ty))
  | .cmp96 cond ty d a lit => some (plain2 d (.op a) (.lit lit) (cmp cond ty))
  | .mskbCompact d a b => some (plain2 d (.op a) (.op b) fun p w => ones p.toNat w.toNat)
  | .mskb64 d a b => some (plain2 d (.op a) (.op b) fun p w => ones p.toNat w.toNat)
  | .mskb96 d a lit => some (plain2 d (.op a) (.lit lit) fun p w => ones p.toNat w.toNat)
  | _ => none

/-- The lowest lane of a converged set. -/
def lowLane (m : BitVec 64) : Nat := ((List.range 64).find? fun i => m.getLsbD i).getD 0

/-- A value in every lane of a converged set, written to a v register. -/
def perLane (ar : Arch) (m : BitVec 64) (i : Fin 64) (f : Nat → Word) : Arch :=
  { ar with lanes := ar.lanes.mapIdx fun n l => if n < 64 ∧ m.getLsbD n then { l with v := l.v.set i (f n) } else l }

/-- What a row does: the uniform result once, the affine result on BASE and STRIDE (a0 keeps its value), or the lane values of
the converged set. -/
def Row.form (r : Row) (iss : Issue) (c : Ctx) : RegForm where
  names := ⟨r.a.regs ++ r.b.regs ++ r.e.regs ++ (if r.readsD then [r.d] else []), [r.d], []⟩
  typed := regType r.d == r.ty
  whole := r.ty != .varying
  ctx := c
  out := fun ar =>
    let value (lane : Nat) : Word := r.f (ar.reg lane r.d) (ar.srcWord lane r.a) (ar.srcWord lane r.b) (ar.srcWord lane r.e)
    RegForm.next iss <|
      match r.d with
      | .s i => { ar with s := ar.s.set i (value (lowLane iss.exec)) }
      | .a i => if i = 0 then ar else { ar with a := ar.a.set i (r.aff (ar.srcAff r.a) (ar.srcAff r.b) (ar.srcAff r.e)) }
      | .v i => perLane ar iss.exec i value
  ready := fun _ => True

/-- CMPM (R173, R174): the sources and the test of a lane. -/
def maskRow : Instr → Option (Reg × Src × Src × (Word → Word → Bool))
  | .cmpm64 cond ty d a b => some (d, .op a, .op b, holds cond ty)
  | .cmpm96 cond ty d a lit => some (d, .op a, .lit lit, holds cond ty)
  | _ => none

end Sys2Proof.Machine.Rules
end

