-- ==== Sys2Proof/Rules/Control.lean ====
section
/-!
DEFINITION. What the rules of family 0x02 and of MEET say (R142, R177–R179): the vocabulary of the statements about control
instructions.
-/
namespace Sys2Proof.Machine.Rules

/-- wrap64(PC + 4 × sext(disp)) (R178). -/
def target (iss : Issue) {n : Nat} (disp : BitVec n) : DWord := BitVec.ofInt 64 (iss.pc.toNat + 4 * disp.toInt)

/-- PC + len (R178). -/
def after (iss : Issue) : DWord := BitVec.ofNat 64 (iss.pc.toNat + iss.len)

/-- A lane that may issue: it is live and not held, and in a gang's handler one of its trap set (R108, R123, R126, R375). -/
def mayIssue (c : Ctx) (i : Nat) : Prop :=
  i < 64 ∧ c.liveSet.getLsbD i = true ∧ (c.arch.lane i).live = true ∧ (c.arch.lane i).held = false

/-- A lane at the lowest PC of those that may issue (R123). -/
def lowest (c : Ctx) (i : Nat) : Prop := mayIssue c i ∧ ∀ j, mayIssue c j → (c.arch.lane i).pc.toNat ≤ (c.arch.lane j).pc.toNat

/-- A lane that stands at its meeting address (R126). -/
def atMeet (l : Lane) : Prop := l.meet ≠ 0 ∧ l.pc = l.meet

/-- What holding and releasing make of a lane (R126): a lane that is held anew stands at its meeting address; one that is released, or was
held and is not any more, has MEET cleared; nothing else of it changes. -/
def heldOrReleased (x y : Lane) : Prop :=
  y = { x with held := y.held, meet := y.meet } ∧ (y.held = true → x.held = true ∨ atMeet x) ∧
  (y.meet = x.meet ∨ (y.meet = 0 ∧ y.held = false ∧ (x.held = true ∨ atMeet x))) ∧ (x.held = true → y.held = false → y.meet = 0)

/-- Each active lane at a PC of its own. -/
def pcs (ar : Arch) (m : BitVec 64) (f : Nat → DWord) : Arch :=
  { ar with lanes := ar.lanes.mapIdx fun n l => if n < 64 ∧ m.getLsbD n then { l with pc := f n } else l }

/-- The link of a call: an s pair once, a v pair in each active lane (R177, R178). -/
def link (ar : Arch) (m : BitVec 64) (p : Pair) (x : DWord) : Arch :=
  match p with
  | .s k => (ar.setS ⟨2 * k.val, by omega⟩ (x.extractLsb' 0 32)).setS ⟨2 * k.val + 1, by omega⟩ (x.extractLsb' 32 32)
  | .v k =>
    perLane (perLane ar m ⟨2 * k.val, by omega⟩ fun _ => x.extractLsb' 0 32) m ⟨2 * k.val + 1, by omega⟩ fun _ => x.extractLsb' 32 32

/-- The value of a pair in a lane (R4). -/
def pairAt (ar : Arch) (lane : Nat) : Pair → DWord
  | .s k => ar.s[2 * k.val + 1]'(by omega) ++ ar.s[2 * k.val]'(by omega)
  | .v k => ar.vreg lane ⟨2 * k.val + 1, by omega⟩ ++ ar.vreg lane ⟨2 * k.val, by omega⟩

/-- A control instruction's form: what it names, whether it writes an s register, how Debug records it (R416), and the PCs. -/
def ctl (c : Ctx) (kind : LastBranch) (nm : Names) (whole : Bool) (out : Arch → Arch) : RegForm :=
  .always nm true whole { c with last := kind } out

/-- BR. -/
def br {n : Nat} (disp : BitVec n) (iss : Issue) (c : Ctx) : RegForm :=
  ctl c .branch ⟨[], [], []⟩ false fun ar => pcs ar iss.exec fun _ => target iss disp

/-- BRZ and BRNZ. -/
def brIf {n : Nat} (zero : Bool) (cond : Reg) (disp : BitVec n) (iss : Issue) (c : Ctx) : RegForm :=
  ctl c .branch ⟨[cond], [], []⟩ false fun ar =>
    pcs ar iss.exec fun i => if (ar.reg i cond == 0) == zero then target iss disp else after iss

/-- The mask that BRM reads (R96, R174): one s register, or in a 64-lane group an even pair. -/
def maskAt (ar : Arch) (i : Fin 64) : BitVec 64 :=
  if ar.lanes.length = 64 then (if h : i.val + 1 < 64 then ar.s[i.val + 1] else 0) ++ ar.s[i] else ar.s[i].setWidth 64

/-- Whether BRM is taken in a lane, for a mask m. -/
def taken (t : MaskTest) (exec m : BitVec 64) (lane : Nat) : Bool :=
  match t with
  | .any => decide (m &&& exec ≠ 0)
  | .all => decide (m &&& exec = exec)
  | .none => decide (m &&& exec = 0)
  | .lane => m.getLsbD lane

/-- BRM. -/
def brm {n : Nat} (t : MaskTest) (a : Fin 64) (disp : BitVec n) (iss : Issue) (c : Ctx) : RegForm :=
  ctl c .branch (if c.arch.lanes.length = 64 then ⟨[], [], [(.s a, 2)]⟩ else ⟨[.s a], [], []⟩) false fun ar =>
    pcs ar iss.exec fun i => if taken t iss.exec (maskAt ar a) i then target iss disp else after iss

/-- CALL. -/
def call {n : Nat} (p : Pair) (disp : BitVec n) (iss : Issue) (c : Ctx) : RegForm :=
  ctl c .call ⟨[], [], [(regOfPair p, 2)]⟩ (pairIsS p) fun ar =>
    pcs (link ar iss.exec p (after iss)) iss.exec fun _ => target iss disp

/-- RET and JMPI. -/
def jump (kind : LastBranch) (t : Pair) (iss : Issue) (c : Ctx) : RegForm :=
  ctl c kind ⟨[], [], [(regOfPair t, 2)]⟩ false fun ar => pcs ar iss.exec fun i => pairAt ar i t

/-- CALLI: T is read before the link is written. -/
def calli (p t : Pair) (iss : Issue) (c : Ctx) : RegForm :=
  ctl c .call ⟨[], [], [(regOfPair p, 2), (regOfPair t, 2)]⟩ (pairIsS p) fun ar =>
    pcs (link ar iss.exec p (after iss)) iss.exec fun i => pairAt ar i t

/-- NOP. -/
def nop (iss : Issue) (c : Ctx) : RegForm :=
  .always ⟨[], [], []⟩ true false c fun ar => pcs ar iss.exec fun _ => after iss

/-- MEET (R142): the reserved bits [63:57] and [1:0] of the register read 0 (R125). -/
def meet {n : Nat} (disp : BitVec n) (iss : Issue) (c : Ctx) : RegForm :=
  .always ⟨[], [], []⟩ true false c fun ar =>
    pcs { ar with lanes := ar.lanes.mapIdx fun n l =>
            if n < 64 ∧ iss.exec.getLsbD n then { l with meet := BitVec.ofNat 64 ((target iss disp).toNat % 2 ^ 57 / 4 * 4) } else l }
      iss.exec fun _ => after iss

/-- What each control instruction does. -/
def controls : Instr → Option (Issue → Ctx → RegForm)
  | .nopCompact => some nop
  | .nop64 => some nop
  | .brCompact disp => some (br disp)
  | .br64 disp => some (br disp)
  | .br96 disp => some (br disp)
  | .brzCompact cond disp => some (brIf true cond disp)
  | .brz64 cond disp => some (brIf true cond disp)
  | .brz96 cond disp => some (brIf true cond disp)
  | .brnzCompact cond disp => some (brIf false cond disp)
  | .brnz64 cond disp => some (brIf false cond disp)
  | .brnz96 cond disp => some (brIf false cond disp)
  | .brm64 t a disp => some (brm t a disp)
  | .brm96 t a disp => some (brm t a disp)
  | .callCompact disp => some (call (.v 4) disp)
  | .call64 p disp => some (call p disp)
  | .call96 p disp => some (call p disp)
  | .calli p t => some (calli p t)
  | .retCompact => some (jump .ret (.v 4))
  | .ret64 t => some (jump .ret t)
  | .jmpi t => some (jump .branch t)
  | .meet64 disp => some (meet disp)
  | .meet96 disp => some (meet disp)
  | _ => none

end Sys2Proof.Machine.Rules
end

