-- ==== Sys2Proof/Rules/Float.lean ====
section
/-!
DEFINITION. What the rules of family 0x03 say of registers and flags (R129, R155, R190, R193–R209): the vocabulary of the
statements about floating-point instructions. The value of an instruction in one lane is the function of Machine/FloatOps
that its rule names; Rules/Rounding.lean says what that function comes to.
-/
namespace Sys2Proof.Machine.Rules

/-- A floating-point instruction: its destination and whether it is also read, its sources, those read as FP32 (R190), and
the result and the flags of a lane, from the registers, D's old value and the sources. -/
structure FRow where
  d      : Reg
  readsD : Bool
  a      : Src
  b      : Src
  e      : Src
  fp     : List Src
  f      : Arch → Word → Word → Word → Word → Word × Word

/-- A row of two FP32 sources. -/
def two (d : Reg) (a b : Src) (f : Rm → Word → Word → Word × Word) : FRow :=
  ⟨d, false, a, b, .no, [a, b], fun ar _ x y _ => f (Rm.of (ar.fpctl.extractLsb' 0 2)) x y⟩

/-- A row of one FP32 source. -/
def oneF (d : Reg) (a : Src) (f : Rm → Word → Word × Word) : FRow :=
  ⟨d, false, a, .no, .no, [a], fun ar _ x _ _ => f (Rm.of (ar.fpctl.extractLsb' 0 2)) x⟩

/-- A row of packed halves or of a pattern, which reads no source as FP32. -/
def packed (d : Reg) (a b e : Src) (f : Rm → Word → Word → Word → Word × Word) : FRow :=
  ⟨d, false, a, b, e, [], fun ar _ x y z => f (Rm.of (ar.fpctl.extractLsb' 0 2)) x y z⟩

/-- The compare of FCMP as a register (R197). -/
def fcmp (cond : FCond) (x y : Word) : Word × Word := (if (fcondHolds cond x y).1 then 1 else 0, (fcondHolds cond x y).2)

/-- The rounding mode that FRND and F2I take (R201). -/
def selRm : RoundSel → Rm → Rm
  | .dyn, m => m
  | .rne, _ => .rne
  | .rtz, _ => .rtz
  | .rup, _ => .rup
  | .rdn, _ => .rdn

/-- The row of each floating-point instruction but FCMPM. -/
def frow : Instr → Option FRow
  | .faddCompact d a b => some (two d (.op a) (.op b) faddWord)
  | .fadd64 d a b => some (two d (.op a) (.op b) faddWord)
  | .fadd96 d a lit => some (two d (.op a) (.lit lit) faddWord)
  | .fsubCompact d a b => some (two d (.op a) (.op b) fsubWord)
  | .fsub64 d a b => some (two d (.op a) (.op b) fsubWord)
  | .fsub96 d a lit => some (two d (.op a) (.lit lit) fsubWord)
  | .fmulCompact d a b => some (two d (.op a) (.op b) fmulWord)
  | .fmul64 d a b => some (two d (.op a) (.op b) fmulWord)
  | .fmul96 d a lit => some (two d (.op a) (.lit lit) fmulWord)
  | .ffma64 d a b e =>
    some ⟨d, false, .op a, .op b, .op e, [.op a, .op b, .op e],
      fun ar _ x y z => ffmaWord (Rm.of (ar.fpctl.extractLsb' 0 2)) x y z⟩
  | .ffma96 d a e lit =>
    some ⟨d, false, .op a, .lit lit, .op e, [.op a, .lit lit, .op e],
      fun ar _ x y z => ffmaWord (Rm.of (ar.fpctl.extractLsb' 0 2)) x y z⟩
  | .fminCompact d a b => some (two d (.op a) (.op b) fun _ => minMaxWord false)
  | .fmin64 d a b => some (two d (.op a) (.op b) fun _ => minMaxWord false)
  | .fmin96 d a lit => some (two d (.op a) (.lit lit) fun _ => minMaxWord false)
  | .fmaxCompact d a b => some (two d (.op a) (.op b) fun _ => minMaxWord true)
  | .fmax64 d a b => some (two d (.op a) (.op b) fun _ => minMaxWord true)
  | .fmax96 d a lit => some (two d (.op a) (.lit lit) fun _ => minMaxWord true)
  | .fcmp64 cond d a b => some (two d (.op a) (.op b) fun _ => fcmp cond)
  | .fcmp96 cond d a lit => some (two d (.op a) (.lit lit) fun _ => fcmp cond)
  | .fclass d a => some (oneF d (.op a) fun _ x => (fclassWord x, 0))
  | .frcp d a => some (oneF d (.op a) fun _ => frcpWord)
  | .frsq d a => some (oneF d (.op a) fun _ => frsqWord)
  | .fsqrt d a => some (oneF d (.op a) fun _ => fsqrtWord)
  | .fdiv64 d a b => some (two d (.op a) (.op b) fun _ => fdivWord)
  | .fdiv96 d a lit => some (two d (.op a) (.lit lit) fun _ => fdivWord)
  | .fexp2 d a => some (oneF d (.op a) fun _ => fexp2Word)
  | .flog2 d a => some (oneF d (.op a) fun _ => flog2Word)
  | .frnd rm d a => some (oneF d (.op a) fun m => frndWord (selRm rm m))
  | .f2i rm ty d a => some (oneF d (.op a) fun m => f2iWord (selRm rm m) ty)
  | .i2f ty d a => some (packed d (.op a) .no .no fun m x _ _ => i2fWord m ty x)
  | .fcvt m d a =>
    some ⟨d, false, .op a, .no, .no, if m.src = .f32 then [.op a] else [], fun ar _ x _ _ => fcvtWord ar.fpctl ar.nfmt m x⟩
  | .f4xp64 d a b e => some ⟨d, true, .op a, .op b, .op e, [.op a], fun ar old x y z => f4xpWord ar.nfmt old x y z⟩
  | .f4xp96 d a e lit => some ⟨d, true, .op a, .lit lit, .op e, [.op a], fun ar old x y z => f4xpWord ar.nfmt old x y z⟩
  | .f4xu64 d a b e => some (packed d (.op a) (.op b) (.op e) f4xuWord)
  | .f4xu96 d a e lit => some (packed d (.op a) (.lit lit) (.op e) f4xuWord)
  | .scle d a => some (oneF d (.op a) fun _ x => (scleWord x, 0))
  | .hadd264 ty d a b => some (packed d (.op a) (.op b) .no fun m x y _ => hadd2Word m ty x y)
  | .hadd296 ty d a lit => some (packed d (.op a) (.lit lit) .no fun m x y _ => hadd2Word m ty x y)
  | .hmul264 ty d a b => some (packed d (.op a) (.op b) .no fun m x y _ => hmul2Word m ty x y)
  | .hmul296 ty d a lit => some (packed d (.op a) (.lit lit) .no fun m x y _ => hmul2Word m ty x y)
  | .hfma264 ty d a b e => some (packed d (.op a) (.op b) (.op e) fun m => hfma2Word m ty)
  | .hfma296 ty d a e lit => some (packed d (.op a) (.lit lit) (.op e) fun m => hfma2Word m ty)
  | .fkey ty d a =>
    some ⟨d, false, .op a, .no, .no, if ty = .f32 then [.op a] else [], fun _ _ x _ _ => (fkeyWord ty x, 0)⟩
  | _ => none

/-- The flags of the lanes of a converged set together: an event in any lane sets its bit (R135). -/
def flagsOf (m : BitVec 64) (f : Nat → Word) : Word := (lanesOf m).foldl (fun x i => x ||| f i) 0

/-- Whether a lane holds an abandoned result in a source read as FP32 (R190). -/
def stopsAt (xs : List Src) (ar : Arch) (lane : Nat) : Bool := xs.any fun x => isAbandoned (ar.srcWord lane x)

/-- The result of a floating-point row: once for a uniform result, else in each lane, with the flags in XSTAT. -/
def FRow.put (r : FRow) (m : BitVec 64) (ar : Arch) : Arch :=
  let value (i : Nat) : Word × Word := r.f ar (ar.reg i r.d) (ar.srcWord i r.a) (ar.srcWord i r.b) (ar.srcWord i r.e)
  match r.d with
  | .s i => { ar with s := ar.s.set i (value (lowLane m)).1, xstat := ar.xstat ||| (value (lowLane m)).2 }
  | .a _ => ar
  | .v i => { perLane ar m i fun n => (value n).1 with xstat := ar.xstat ||| flagsOf m fun n => (value n).2 }

/-- The result type of a floating-point row (R129): all operands uniform, or varying. -/
def FRow.ty (r : FRow) : RType := typeBy ([r.a, r.b, r.e] ++ if r.readsD then [.op (.reg r.d)] else []) false

/-- No lane of the converged set, and no uniform source, holds an abandoned result where it is read as FP32 (R190). -/
def clear (xs : List Src) (m : BitVec 64) (ar : Arch) : Prop :=
  (∀ x ∈ xs, x.type = .uniform → isAbandoned (ar.srcWord 0 x) = false) ∧ ∀ n, n < 64 → m.getLsbD n = true → stopsAt xs ar n = false

/-- What a floating-point row does where no lane holds an abandoned result. -/
def FRow.form (r : FRow) (iss : Issue) (c : Ctx) : RegForm where
  names := ⟨r.a.regs ++ r.b.regs ++ r.e.regs ++ (if r.readsD then [r.d] else []), [r.d], []⟩
  typed := regType r.d == r.ty
  whole := r.ty != .varying
  ctx := c
  out := fun ar => RegForm.next iss (r.put iss.exec ar)
  ready := clear r.fp iss.exec

/-- FCMPM (R197): the sources and the condition. -/
def fmaskRow : Instr → Option (Reg × Src × Src × FCond)
  | .fcmpm64 cond d a b => some (d, .op a, .op b, cond)
  | .fcmpm96 cond d a lit => some (d, .op a, .lit lit, cond)
  | _ => none

/-- A mask of the lanes of a set in which a test holds; every other bit is 0 (R174, R197). -/
def maskOfLanes (m : BitVec 64) (p : Nat → Bool) : BitVec 64 :=
  BitVec.ofFnLE fun (i : Fin 64) => m.getLsbD i && p i

/-- Writing a mask register (R96, R174). -/
def putMask (ar : Arch) (d : Reg) (m : BitVec 64) : Arch :=
  match d with
  | .s i =>
    if ar.lanes.length = 64 then
      if h : i.val + 1 < 64 then (ar.setS i (m.extractLsb' 0 32)).setS ⟨i.val + 1, h⟩ (m.extractLsb' 32 32)
      else ar.setS i (m.extractLsb' 0 32)
    else ar.setS i (m.extractLsb' 0 32)
  | _ => ar

/-- What names a mask destination (R96): one s register, or in a 64-lane group a pair. -/
def maskDest (c : Ctx) (d : Reg) (src : List Reg) : Names :=
  if c.arch.lanes.length = 64 then ⟨src, [], [(d, 2)]⟩ else ⟨src, [d], []⟩

/-- CMPM (R174): bit i is 1 when lane i is active and the test holds in it. -/
def cmpm (r : Reg × Src × Src × (Word → Word → Bool)) (iss : Issue) (c : Ctx) : RegForm where
  names := maskDest c r.1 (r.2.1.regs ++ r.2.2.1.regs)
  typed := regType r.1 == .uniform
  whole := true
  ctx := c
  out := fun ar => RegForm.next iss <|
    putMask ar r.1 (maskOfLanes iss.exec fun i => r.2.2.2 (ar.srcWord i r.2.1) (ar.srcWord i r.2.2.1))
  ready := fun _ => True

/-- FCMPM (R197), where no lane holds an abandoned result: the mask, and the flags of every lane. -/
def fcmpm (r : Reg × Src × Src × FCond) (iss : Issue) (c : Ctx) : RegForm where
  names := maskDest c r.1 (r.2.1.regs ++ r.2.2.1.regs)
  typed := regType r.1 == .uniform
  whole := true
  ctx := c
  out := fun ar => RegForm.next iss <|
    let holds (i : Nat) := fcondHolds r.2.2.2 (ar.srcWord i r.2.1) (ar.srcWord i r.2.2.1)
    { putMask ar r.1 (maskOfLanes iss.exec fun i => (holds i).1) with
      xstat := ar.xstat ||| flagsOf iss.exec fun i => (holds i).2 }
  ready := clear [r.2.1, r.2.2.1] iss.exec

end Sys2Proof.Machine.Rules
end

