-- ==== Sys2Proof/Rules/Rounding.lean ====
section
/-!
DEFINITION. What the rules say of floating-point values (R143–R155, R191–R209), on exact numbers: how a pattern is read, how an exact
result is rounded to a format with its flags, and what each function of family 0x03 gives for every operand.
-/
namespace Sys2Proof.Machine.Rules

/-! ## Values of patterns (R143–R147) -/

/-- The exact value of a finite number. -/
def value : Num → ℚ
  | .fin neg m e => (if neg then -1 else 1) * m * 2 ^ e
  | _ => 0

/-- Whether a number is finite. -/
def finite : Num → Bool
  | .fin _ _ _ => true
  | _ => false

/-- The value of a finite FP32 pattern. -/
def val (x : Word) : ℚ := value (num32 x)

/-- A number on the extended line; a NaN has no place there and is 0. -/
noncomputable def onLine : Num → EReal
  | .inf true => ⊥
  | .inf false => ⊤
  | x => ((value x : ℝ) : EReal)

/-- The value of a pattern of a format. -/
def patternValue (f : Fmt) (z : Nat) : ℚ := value (f.dec z)

/-- How a pattern of a format is read (R143, R144, R146, R147): the sign is the top bit, the exponent field follows it, and the
mantissa fills the low bits. -/
def reads (f : Fmt) (x : Nat) : Prop :=
  let s := x / 2 ^ (f.eb + f.mb) % 2
  let e := x / 2 ^ f.mb % 2 ^ f.eb
  let m := x % 2 ^ f.mb
  let sg : ℚ := if s = 1 then -1 else 1
  if e = 2 ^ f.eb - 1 ∧ (f.ext = false ∨ m = 2 ^ f.mb - 1) then
    f.dec x = if f.ext = false ∧ m = 0 then .inf (s == 1) else .nan (f.snan && decide (m < 2 ^ (f.mb - 1)))
  else
    finite (f.dec x) = true ∧ (f.dec x).neg? = (s == 1) ∧
      value (f.dec x) = if e = 0 then sg * 2 ^ (1 - f.bias) * (m / 2 ^ f.mb) else sg * 2 ^ ((e : Int) - f.bias) * (1 + m / 2 ^ f.mb)

/-- A format's parts: the widths of its exponent and mantissa, its bias, whether its top exponent code holds finite values, whether it
has signalling NaNs, and its canonical NaN (R143, R145, R147). -/
def formats (top : Bool) : List Fmt :=
  [⟨8, 23, 127, false, true, 0x7FC00000⟩, ⟨8, 7, 127, false, true, 0x7FC0⟩, ⟨5, 10, 15, false, true, 0x7E00⟩,
   ⟨4, 3, 7, top, false, if top then 0x7F else 0x7C⟩, ⟨5, 2, 15, top, false, if top then 0x7F else 0x7E⟩]

/-! ## Rounding (R148, R155, R191) -/

/-- The sign bit of a format. -/
def signPattern (f : Fmt) (neg : Bool) : Nat := if neg then 2 ^ (f.eb + f.mb) else 0

/-- ±∞ in a format; the canonical NaN where the reading has no infinity (R148). -/
def infPattern (f : Fmt) (neg : Bool) : Nat := if f.ext then f.qnan else signPattern f neg + (2 ^ f.eb - 1) * 2 ^ f.mb

/-- The largest finite value of a format. -/
def largestPattern (f : Fmt) : Nat := if f.ext then 2 ^ (f.eb + f.mb) - 2 else (2 ^ f.eb - 1) * 2 ^ f.mb - 1

/-- What rounding an exact value e to a format under a mode makes of it, with its flags (R148, R155). An exact zero takes the sign
given. Beyond the largest finite value, judged as though the exponent were unbounded, OF and NX are set, and the result is ±∞ or, where
the mode rounds toward zero or saturation is asked for, ±largest finite. Otherwise it is the value that the mode chooses among the
finite ones, to nearest with ties to the even pattern, with NX where it is not e and UF where besides |e|, rounded as though the
exponent were unbounded, lies below the least normal value. -/
def roundsTo (f : Fmt) (rm : Rm) (sat : Bool) (e : ℝ) (zneg : Bool) (r : Nat × Word) : Prop :=
  let v (z : Nat) : ℝ := patternValue f z
  let top := v (largestPattern f)
  let gap := top - v (largestPattern f - 1)
  let away : Prop := (rm = .rup ∧ 0 < e) ∨ (rm = .rdn ∧ e < 0)
  let beyond : Prop := (rm = .rne ∧ (top + gap / 2 < |e| ∨ (top + gap / 2 = |e| ∧ largestPattern f % 2 = 1))) ∨
    (away ∧ top < |e|) ∨ (rm ≠ .rne ∧ ¬ away ∧ top + gap ≤ |e|)
  let least : ℝ := 2 ^ (1 - f.bias)
  let step : ℝ := 2 ^ (-f.bias - f.mb)
  let tiny : Prop := (rm = .rne ∧ |e| < least - step / 2) ∨ (away ∧ |e| ≤ least - step) ∨ (rm ≠ .rne ∧ ¬ away ∧ |e| < least)
  (e = 0 → r = (signPattern f zneg, 0)) ∧
  ∀ neg : Bool, e ≠ 0 → (neg = true ↔ e < 0) →
    (beyond → (sat = false ∧ (rm = .rne ∨ away) → r = (infPattern f neg, 0x005)) ∧
      (¬ (sat = false ∧ (rm = .rne ∨ away)) → r = (signPattern f neg + largestPattern f, 0x005))) ∧
    (¬ beyond → r.1 < 2 ^ (1 + f.eb + f.mb) ∧ finite (f.dec r.1) = true ∧ (f.dec r.1).neg? = neg ∧
      (r.2.getLsbD 0 = true ↔ v r.1 ≠ e) ∧ (r.2.getLsbD 1 = true ↔ v r.1 ≠ e ∧ tiny) ∧ r.2 &&& 0xFFFFFFFC = 0 ∧
      (away → |e| ≤ |v r.1|) ∧ (rm ≠ .rne → ¬ away → |v r.1| ≤ |e|) ∧
      ∀ z, finite (f.dec z) = true →
        (rm = .rne → |v r.1 - e| ≤ |v z - e| ∧ (|v r.1 - e| = |v z - e| → v z ≠ v r.1 → r.1 % 2 = 0)) ∧
        (away → |e| ≤ |v z| → |v r.1| ≤ |v z|) ∧
        (rm ≠ .rne → ¬ away → |v z| ≤ |e| → |v z| ≤ |v r.1|))

/-- A word and its flags as a pattern and its flags. -/
def pattern (r : Word × Word) : Nat × Word := (r.1.toNat, r.2)

/-- A NaN among the operands gives the canonical NaN, with NV where one is signalling (R145, R146, R191). -/
def nanOr (f : Fmt) (xs : List Num) (r : Nat × Word) (other : Prop) : Prop :=
  if xs.any Num.isNan then r = (f.qnan, if xs.any Num.isSnan then 0x010 else 0) else other

/-! ## Sums and products (R194, R208) -/

/-- The sum of two numbers, rounded to a format without saturation. -/
def sumRounds (f : Fmt) (rm : Rm) (x y : Num) (r : Nat × Word) : Prop :=
  nanOr f [x, y] r <|
    if x.isInf && y.isInf && x.neg? != y.neg? then r = (f.qnan, 0x010)
    else if x.isInf then r = (infPattern f x.neg?, 0)
    else if y.isInf then r = (infPattern f y.neg?, 0)
    else roundsTo f rm false ((value x + value y : ℚ) : ℝ) (if x.isZero && y.isZero && x.neg? == y.neg? then x.neg? else rm == .rdn) r

/-- The product of two numbers. -/
def productRounds (f : Fmt) (rm : Rm) (x y : Num) (r : Nat × Word) : Prop :=
  nanOr f [x, y] r <|
    if (x.isInf && y.isZero) || (x.isZero && y.isInf) then r = (f.qnan, 0x010)
    else if x.isInf || y.isInf then r = (infPattern f (x.neg? != y.neg?), 0)
    else roundsTo f rm false ((value x * value y : ℚ) : ℝ) (x.neg? != y.neg?) r

/-- The product of two numbers and the sum with a third, rounded once. -/
def fmaRounds (f : Fmt) (rm : Rm) (x y z : Num) (r : Nat × Word) : Prop :=
  let bad := (x.isInf && y.isZero) || (x.isZero && y.isInf)
  let neg := x.neg? != y.neg?
  if x.isNan || y.isNan || z.isNan then r = (f.qnan, if x.isSnan || y.isSnan || z.isSnan || bad then 0x010 else 0)
  else if bad then r = (f.qnan, 0x010)
  else if x.isInf || y.isInf then r = if z.isInf && z.neg? != neg then (f.qnan, 0x010) else (infPattern f neg, 0)
  else if z.isInf then r = (infPattern f z.neg?, 0)
  else roundsTo f rm false ((value x * value y + value z : ℚ) : ℝ)
    (if (x.isZero || y.isZero) && z.isZero && z.neg? == neg then z.neg? else rm == .rdn) r

/-- Both halves of a packed result (R208): the elements of its operands are read, computed and rounded apart, and their flags join. -/
def halves (f : Fmt) (one : (Word → Num) → Nat × Word → Prop) (r : Word × Word) : Prop :=
  ∃ lo hi, one (fun x => f.dec (x.toNat % 65536)) lo ∧ one (fun x => f.dec (x.toNat / 65536)) hi ∧
    r = (BitVec.ofNat 32 (lo.1 + 65536 * hi.1), lo.2 ||| hi.2)

/-! ## Special functions (R200) -/

/-- a / b. -/
def quotientRounds (x y : Num) (r : Nat × Word) : Prop :=
  let neg := x.neg? != y.neg?
  nanOr fp32 [x, y] r <|
    if (x.isZero && y.isZero) || (x.isInf && y.isInf) then r = (0x7FC00000, 0x010)
    else if x.isInf then r = (infPattern fp32 neg, 0)
    else if y.isInf then r = (signPattern fp32 neg, 0)
    else if y.isZero then r = (infPattern fp32 neg, 0x008)
    else roundsTo fp32 .rne false ((value x / value y : ℚ) : ℝ) neg r

/-- 1 / a. -/
def reciprocalRounds (x : Num) (r : Nat × Word) : Prop :=
  nanOr fp32 [x] r <|
    if x.isInf then r = (signPattern fp32 x.neg?, 0)
    else if x.isZero then r = (infPattern fp32 x.neg?, 0x008)
    else roundsTo fp32 .rne false ((1 / value x : ℚ) : ℝ) x.neg? r

/-- √a. -/
def rootRounds (x : Num) (r : Nat × Word) : Prop :=
  nanOr fp32 [x] r <|
    if x.isZero then r = (signPattern fp32 x.neg?, 0)
    else if x.neg? then r = (0x7FC00000, 0x010)
    else if x.isInf then r = (infPattern fp32 false, 0)
    else roundsTo fp32 .rne false (Real.sqrt (value x : ℝ)) false r

/-- 1 / √a. -/
def inverseRootRounds (x : Num) (r : Nat × Word) : Prop :=
  nanOr fp32 [x] r <|
    if x.isZero then r = (infPattern fp32 x.neg?, 0x008)
    else if x.neg? then r = (0x7FC00000, 0x010)
    else if x.isInf then r = (0, 0)
    else roundsTo fp32 .rne false (1 / Real.sqrt (value x : ℝ)) false r

/-- The rows of R200 for 2^a, and its exact powers. -/
def exp2Rows (x : Num) (r : Word × Word) : Prop :=
  nanOr fp32 [x] (pattern r) <|
    if x.isInf then r = (if x.neg? then 0 else 0x7F800000, 0)
    else (128 ≤ value x → r = (0x7F800000, 0x005)) ∧ (value x ≤ -150 → r = (0, 0x003)) ∧
      ∀ n : Int, value x = n → -149 ≤ n → n ≤ 127 → finite (num32 r.1) = true ∧ val r.1 = 2 ^ n ∧ r.2 = 0

/-- The rows of R200 for log₂ a, and its exact values. -/
def log2Rows (x : Num) (r : Word × Word) : Prop :=
  nanOr fp32 [x] (pattern r) <|
    if x.isZero then r = (0xFF800000, 0x008)
    else if x.neg? then r = (0x7FC00000, 0x010)
    else if x.isInf then r = (0x7F800000, 0)
    else (value x = 1 → r = (0, 0)) ∧ ∀ n : Int, value x = 2 ^ n → finite (num32 r.1) = true ∧ val r.1 = n ∧ r.2 = 0

/-! ## Comparing, classifying and keys (R195–R198, R209) -/

/-- A condition on two values (R196, R197). -/
def ordered (cond : FCond) (x y : EReal) : Prop :=
  match cond with
  | .eq => x = y
  | .ne => x ≠ y
  | .lt => x < y
  | .le => x ≤ y
  | .gt => y < x
  | .ge => y ≤ x
  | .un => False
  | .ord => True

/-- The outcome and the flags of a comparison with a NaN operand (R197). -/
def withNan (cond : FCond) (signalling : Bool) : Bool × Word :=
  match cond with
  | .eq => (false, if signalling then 0x010 else 0)
  | .ord => (false, if signalling then 0x010 else 0)
  | .ne => (true, if signalling then 0x010 else 0)
  | .un => (true, if signalling then 0x010 else 0)
  | _ => (false, 0x010)

/-- FMIN and FMAX of two patterns and their flags (R195). -/
def lesserGreater (x y : Word) (lo hi : Word × Word) : Prop :=
  let a := num32 x
  let b := num32 y
  let fl : Word := if a.isSnan || b.isSnan then 0x010 else 0
  lo.2 = fl ∧ hi.2 = fl ∧
  if a.isNan && b.isNan then lo.1 = 0x7FC00000 ∧ hi.1 = 0x7FC00000
  else if a.isNan then lo.1 = y ∧ hi.1 = y
  else if b.isNan then lo.1 = x ∧ hi.1 = x
  else (onLine a < onLine b → lo.1 = x ∧ hi.1 = y) ∧ (onLine b < onLine a → lo.1 = y ∧ hi.1 = x) ∧
    (x = y → lo.1 = x ∧ hi.1 = x) ∧ (onLine a = onLine b → x ≠ y → lo.1 = 0x80000000 ∧ hi.1 = 0)

/-- The class bit of a pattern (R198). -/
def classBit (x : Num) (v : Word) : Prop :=
  if x.isNan then v = if x.isSnan then 0x100 else 0x200
  else if x.isInf then v = if x.neg? then 0x001 else 0x080
  else if x.isZero then v = if x.neg? then 0x008 else 0x010
  else if |value x| < 2 ^ (-126 : Int) then v = if x.neg? then 0x004 else 0x020
  else v = if x.neg? then 0x002 else 0x040

/-- The key of a pattern of a format of w bits (R209). -/
def keyOf (f : Fmt) (w x : Nat) : Nat :=
  if (f.dec x).isNan then 0
  else if x = 2 ^ (w - 1) then 2 ^ (w - 1)
  else if x < 2 ^ (w - 1) then x ^^^ 2 ^ (w - 1)
  else 2 ^ w - 1 - x

/-! ## Conversions (R201–R203) -/

/-- The integer that a rounding makes of an exact value (R201, R202). -/
def toInteger (rm : Rm) (x : ℚ) : Int :=
  match rm with
  | .rup => ⌈x⌉
  | .rdn => ⌊x⌋
  | .rtz => if x < 0 then ⌈x⌉ else ⌊x⌋
  | .rne => if x - ⌊x⌋ < 1 / 2 then ⌊x⌋ else if 1 / 2 < x - ⌊x⌋ then ⌊x⌋ + 1 else if ⌊x⌋ % 2 = 0 then ⌊x⌋ else ⌊x⌋ + 1

/-- FRND (R202). -/
def integralRounds (rm : Rm) (x : Word) (r : Word × Word) : Prop :=
  nanOr fp32 [num32 x] (pattern r) <|
    if (num32 x).isInf then r = (x, 0)
    else finite (num32 r.1) = true ∧ val r.1 = toInteger rm (val x) ∧ (num32 r.1).neg? = (num32 x).neg? ∧ r.2 = 0

/-- F2I (R202). -/
def integerOf (rm : Rm) (ty : IntTy) (x : Num) : Word × Word :=
  let lo : Int := match ty with | .i32 => -2 ^ 31 | .u32 => 0
  let hi : Int := match ty with | .i32 => 2 ^ 31 - 1 | .u32 => 2 ^ 32 - 1
  let n := toInteger rm (value x)
  if x.isNan then (0, 0x010)
  else if x.isInf then (BitVec.ofInt 32 (if x.neg? then lo else hi), 0x010)
  else (BitVec.ofInt 32 (clamp n lo hi), if n < lo ∨ hi < n then 0x010 else if (n : ℚ) = value x then 0 else 0x001)

/-- The format of an FCVT field (R147, R203). -/
def formatOf (top : Bool) : FloatTy → Fmt
  | .f32 => fp32
  | .bf16 => bf16
  | .f16 => fp16
  | .e4m3 => e4m3 top
  | .e5m2 => e5m2 top

/-- The rounding of a result in a format: NFMT.NRM, bits [2:1], for the 8-bit formats, else FPCTL.RM, bits [1:0] (R152–R154). -/
def modeOf (fpctl nfmt : Word) : FloatTy → Rm
  | .e4m3 => Rm.of (nfmt.extractLsb' 1 2)
  | .e5m2 => Rm.of (nfmt.extractLsb' 1 2)
  | _ => Rm.of (fpctl.extractLsb' 0 2)

/-- FCVT (R203): the source is read under NFMT.TOP at its own width, and rounded to the destination. -/
def converts (fpctl nfmt : Word) (m : CvtMode) (a : Word) (r : Nat × Word) : Prop :=
  let src := formatOf (nfmt.getLsbD 0) m.src
  let dst := formatOf (nfmt.getLsbD 0) m.dst
  let x := src.dec (a.toNat % 2 ^ (1 + src.eb + src.mb))
  nanOr dst [x] r <|
    if x.isInf then r = (if dst.ext && m.sat then signPattern dst x.neg? + largestPattern dst else infPattern dst x.neg?, 0)
    else roundsTo dst (modeOf fpctl nfmt m.dst) m.sat (value x : ℝ) x.neg? r

/-! ## Blocks of narrow elements (R149–R151, R205–R207) -/

/-- An E2M1 code's value (R150). -/
def gridValue (code : Nat) : ℚ := (if 8 ≤ code then -1 else 1) * ([0, 1 / 2, 1, 3 / 2, 2, 3, 4, 6].getD (code % 8) 0)

/-- The value of a code of a block with extra value X, before its scale; none for a NaN (R150, R151). -/
def codeValue (x code : Nat) : Option ℚ :=
  if code = 8 then (if x % 128 = 127 then none else some (patternValue (e4m3 true) x)) else some (gridValue code)

/-- SCLE (R205): the smallest scale with which a magnitude fits. -/
def scaleRounds (x : Num) (r : Word) : Prop :=
  if x.isNan || x.isInf then r = 0xFF
  else r.toNat ≤ 254 ∧ (r.toNat < 254 → |value x| ≤ 6 * 2 ^ ((r.toNat : Int) - 127)) ∧
    ∀ e : Nat, e < r.toNat → 6 * 2 ^ ((e : Int) - 127) < |value x|

/-- F4XU of a code under a header (R207). -/
def unpacks (rm : Rm) (header code : Nat) (r : Nat × Word) : Prop :=
  let scale := header % 256
  match (if scale = 255 then none else codeValue (header / 256 % 256) code) with
  | none => r = (0x7FC00000, 0)
  | some v => roundsTo fp32 rm false ((v * 2 ^ ((scale : Int) - 127) : ℚ) : ℝ) (decide (code = 8 ∧ 128 ≤ header / 256 % 256)) r

/-- The order in which tied codes are taken (R206): a grid code whose bit 0 is clear, then 0b1000, then the others. -/
def tieOrder (code : Nat) : Nat := if code = 8 then 1 else if code % 2 = 0 then 0 else 2

/-- The code and the flags that F4XP gives a finite q under an extra value (R206). -/
def packsTo (nrm : Rm) (x : Nat) (q : ℚ) (r : Nat × Word) : Prop :=
  ∃ v, codeValue x r.1 = some v ∧ r.1 < 16 ∧ (r.1 = 8 → ∀ c, c < 16 → c ≠ 8 → gridValue c ≠ v) ∧
    (((∀ c w, c < 16 → codeValue x c = some w → w < q) ∨ (∀ c w, c < 16 → codeValue x c = some w → q < w)) →
      r.2 = 0x005 ∧ ∀ c w, c < 16 → codeValue x c = some w → |v - q| ≤ |w - q|) ∧
    (¬ ((∀ c w, c < 16 → codeValue x c = some w → w < q) ∨ (∀ c w, c < 16 → codeValue x c = some w → q < w)) →
      r.2 = (if v = q then 0 else 0x001) ∧
      ∀ c w, c < 16 → codeValue x c = some w → match nrm with
        | .rne => |v - q| ≤ |w - q| ∧ (|v - q| = |w - q| → w ≠ v → tieOrder r.1 < tieOrder c)
        | .rtz => |v| ≤ |q| ∧ 0 ≤ v * q ∧ (|w| ≤ |q| → 0 ≤ w * q → |w| ≤ |v|)
        | .rup => q ≤ v ∧ (q ≤ w → v ≤ w)
        | .rdn => v ≤ q ∧ (w ≤ q → w ≤ v))

/-- F4XP (R206): the nibble n of D takes the code that the header, the mode and a give it. -/
def packs (nrm : Rm) (d a : Word) (n header : Nat) (r : Word × Word) : Prop :=
  ∃ code, (∀ i, i < 32 → r.1.getLsbD i = if 4 * n ≤ i ∧ i < 4 * n + 4 then code.testBit (i - 4 * n) else d.getLsbD i) ∧
    if header % 256 = 255 then code = 0 ∧ r.2 = 0
    else if (num32 a).isNan || (num32 a).isInf then code = 0 ∧ r.2 = 0x010
    else packsTo nrm (header / 256 % 256) (val a * 2 ^ (127 - (header % 256 : Nat) : Int)) (code, r.2)

end Sys2Proof.Machine.Rules
end

