-- ==== Sys2Proof/Rules/Lanes.lean ====
section
/-!
DEFINITION. What the rules of type moves, special registers and cross-lane operations say (R137–R141, R344, R358–R363):
the vocabulary of the statements about families 0x04 and 0x14 and about VTEST and VKEY.
-/
namespace Sys2Proof.Machine.Rules

/-- PROMA (R137). -/
def proma (d : Reg) (a b : Src) (iss : Issue) (c : Ctx) : RegForm :=
  .always ⟨a.regs ++ b.regs, [d], []⟩ (regType d == .affine) true c fun ar => RegForm.next iss <|
    match d with
    | .a i => if i = 0 then ar else { ar with a := ar.a.set i ⟨ar.srcWord 0 a, ar.srcWord 0 b⟩ }
    | _ => ar

/-- PROMV (R138). -/
def promv (d : Reg) (a : SaOp) (iss : Issue) (c : Ctx) : RegForm :=
  .always ⟨opRegs (opOfSa a), [d], []⟩ (regType d == .varying) false c fun ar => RegForm.next iss <|
    match d with
    | .v i => perLane ar iss.exec i fun n => ar.opWord n (opOfSa a)
    | _ => ar

/-- DEMF and DEMC (R139): the value of the lowest active lane; DEMC sets XSTAT.NUNI when some active lane differs. -/
def dem (check : Bool) (d : Reg) (a : Fin 64) (iss : Issue) (c : Ctx) : RegForm :=
  .always ⟨[.v a], [d], []⟩ (regType d == .uniform) true c fun ar => RegForm.next iss <|
    let x := ar.vreg (lowLane iss.exec) a
    let differs : Bool := (List.range 64).any fun n => iss.exec.getLsbD n && ar.vreg n a != x
    match d with
    | .s i => { ar with s := ar.s.set i x, xstat := if check && differs then ar.xstat ||| 0x200 else ar.xstat }
    | _ => ar

/-- Whether a special register takes a pair (R134); EXEC does in a 64-lane group (R124). -/
def isWide (c : Ctx) (x : XReg) : Bool := match x with | .exec => c.arch.lanes.length == 64 | _ => x.wide

/-- Whether a special register has a value of its own in each lane (R134). -/
def isVarying (x : XReg) : Bool := match x with | .meet | .tid | .gid => true | _ => false

/-- The register fields of a special-register move. -/
def xNames (c : Ctx) (x : XReg) (r : Reg) (dest : Bool) : Names :=
  match isWide c x, dest with
  | true, _ => ⟨[], [], [(r, 2)]⟩
  | false, true => ⟨[], [r], []⟩
  | false, false => ⟨[r], [], []⟩

/-- Writing the value of a special register to one register or a pair, in a lane. -/
def putX (ar : Arch) (lane : Nat) (wide : Bool) (r : Reg) (x : DWord) : Arch :=
  let lo := ar.putReg lane r 0 (x.extractLsb' 0 32)
  if wide then lo.putReg lane r 1 (x.extractLsb' 32 32) else lo

/-- The partition word of a context's workgroup or gang (R67–R69): the packet's RODPW for a thread, BEAMPW for a gang. -/
def partition (s : State) (c : Ctx) : Word := if c.kind = .rod then pktRodpw (s.pktOf c.launch) else pktBeampw (s.pktOf c.launch)

/-- What each special register holds in a lane of a context (R134): what the rule of its row in the table names. -/
def xValue (s : State) (iss : Issue) (c : Ctx) (x : XReg) (lane : Nat) : DWord :=
  let region := s.region? c.key.core c.launch c.group
  match x with
  | .exec => iss.exec
  | .meet => (c.arch.lane lane).meet
  | .tid => (c.arch.lane lane).tid
  | .core => (if c.away then boardReckoner (boardNo c.key.core) else c.key.core).setWidth 64
  | .gid => (c.arch.lane lane).gid
  | .tbase =>
    if c.away then c.arch.tbase
    else match s.window? c.launch c.key.core with
      | some w => w.tbase
      | none => 0
  | .xb => BitVec.ofNat 64 (4096 * ((partition s c).toNat % 256))
  | .ovh => c.arch.ovh
  | .uhnd => c.arch.uhnd
  | .tags => BitVec.ofNat 64 ((List.finRange 64).map fun t : Fin 64 => if c.arch.tags[t].st = .set then 2 ^ t.val else 0).sum
  | .nfmt => c.arch.nfmt.setWidth 64
  | .fpctl => c.arch.fpctl.setWidth 64
  | .xstat => c.arch.xstat.setWidth 64
  | .cvg n => match region with
    | some r => r.cvg[n].signed.setWidth 64
    | none => 0
  | .ths n => c.arch.ths[n]
  | .mprog => c.arch.mprog.setWidth 64
  | .epc => c.arch.epc
  | .ecode => c.arch.ecode.setWidth 64
  | .eaddr => c.arch.eaddr
  | .elane => c.arch.elane.setWidth 64
  | .pw => (partition s c).setWidth 64
  | .tick => BitVec.ofNat 64 (s.tick % 2 ^ 64)
  | .hcap => s.ports[diePort (coreDie c.key.core)].hcap.setWidth 64
  | .perm => match region with
    | some r => r.perm
    | none => 0

/-- MOVXR (R140): the register's value in each active lane, or once. -/
def movxr (x : XReg) (d : Reg) (s : State) (iss : Issue) (c : Ctx) : RegForm :=
  .always (xNames c x d true) (regType d == (if isVarying x then .varying else .uniform)) (!isVarying x) c fun ar => RegForm.next iss <|
    if isVarying x then (lanesOf iss.exec).foldl (fun ar i => putX ar i (isWide c x) d (xValue s iss c x i)) ar
    else putX ar 0 (isWide c x) d (xValue s iss c x 0)

/-- The value that MOVXW writes, in a lane. -/
def getX (ar : Arch) (lane : Nat) (wide : Bool) (r : Reg) : DWord :=
  if wide then ar.regAt lane r 1 ++ ar.regAt lane r 0 else (ar.regAt lane r 0).setWidth 64

/-- MOVXW of a register other than TBASE and PERM (R141): the bits of the register that exist are written, and XSTAT is
ANDed with the value (R135). -/
def movxw (x : XReg) (a : SvReg) (iss : Issue) (c : Ctx) : RegForm :=
  let r := regOfSv a
  .always (xNames c x r false) (regType r == (if isVarying x then .varying else .uniform)) (!isVarying x) c fun ar => RegForm.next iss <|
    let v (i : Nat) : DWord := getX ar i (isWide c x) r
    let w : Word := (v 0).setWidth 32
    let each (f : Lane → Nat → Lane) : Arch :=
      { ar with lanes := ar.lanes.mapIdx fun n l => if n < 64 ∧ iss.exec.getLsbD n then f l n else l }
    match x with
    | .meet => each fun l n => { l with meet := v n &&& 0x01FFFFFFFFFFFFFC }
    | .gid => each fun l n => { l with gid := v n }
    | .ovh => { ar with ovh := v 0 }
    | .uhnd => { ar with uhnd := v 0 &&& 0x01FFFFFFFFFFFFFC }
    | .nfmt => { ar with nfmt := w &&& 7 }
    | .fpctl => { ar with fpctl := w &&& 3 }
    | .xstat => { ar with xstat := ar.xstat &&& w }
    | .mprog => { ar with mprog := w &&& 0xFFFFC7FF }
    | .epc => { ar with epc := v 0 &&& 0x01FFFFFFFFFFFFFF }
    | _ => ar

/-- VTEST of a pattern (R344): 0 for a value, else the verdict in [1:0] and the block count in [31:16]. -/
def vtest (p : Word) : Word :=
  if p.extractLsb' 20 11 = 0x7FB then BitVec.ofNat 32 (p.toNat % 2 ^ 16 * 2 ^ 16 + if p.getLsbD 19 then 2 else 1) else 0

/-- VKEY of a pattern (R344). -/
def vkey (p : Word) : Word :=
  if p.extractLsb' 20 11 = 0x7FB then (if p.getLsbD 19 then 0xFFFFFFFF else 1) else fkeyWord .f32 p

/-- VTEST and VKEY, lane by lane or once. -/
def verdict (f : Word → Word) (d : Reg) (a : SvReg) : Issue → Ctx → RegForm := (plain1 d (.op (.reg (regOfSv a))) f).form

/-- JOBST (R271). -/
def jobst (d : Reg) (tag : Fin 64) (iss : Issue) (c : Ctx) : RegForm :=
  .always ⟨[], [d], []⟩ (regType d == .uniform) true c fun ar => RegForm.next iss <|
    match d with
    | .s i => { ar with s := ar.s.set i ar.tags[tag].status }
    | _ => ar

/-- The lane that SHFL reads for a lane, if it is one of the gang's (R362). -/
def shflFrom (var : ShflVar) (n lane : Nat) (b : Word) : Option Nat :=
  match var with
  | .idx => some (b.toNat % n)
  | .up => if b.toNat ≤ lane then some (lane - b.toNat) else none
  | .down => if lane + b.toNat < n then some (lane + b.toNat) else none
  | .xor => if Nat.xor lane (b.toNat % n) < n then some (Nat.xor lane (b.toNat % n)) else none

/-- SHFL (R362): a lane that names no active lane keeps A's own value. -/
def shfl (var : ShflVar) (d : Reg) (a : Reg) (b : Operand) (iss : Issue) (c : Ctx) : RegForm :=
  .always ⟨a :: opRegs b, [d], []⟩ (regType d == .varying) false c fun ar => RegForm.next iss <|
    match d with
    | .v i =>
      let n := if ar.lanes.length = 64 then 64 else 32
      perLane ar iss.exec i fun lane =>
        match shflFrom var n lane (ar.opWord lane b) with
        | some j => if iss.exec.getLsbD j then ar.reg j a else ar.reg lane a
        | none => ar.reg lane a
    | _ => ar

/-- The lanes that take part in a cross-lane operation (R353). -/
def part (ar : Arch) (exec : BitVec 64) : Option (Fin 64) → BitVec 64
  | some i => exec &&& maskAt ar i
  | none => exec

/-- The names of a mask field (R96). -/
def maskNames (c : Ctx) : Option (Fin 64) → List Reg × List (Reg × Nat)
  | some i => if c.arch.lanes.length = 64 then ([], [(.s i, 2)]) else ([.s i], [])
  | none => ([], [])

/-- BSORT and BMERGE (R363): the pairs of the lanes that take part, in lane order and file by file, ordered by their low
words and stable; the first go back to those lanes in order. -/
def sorted (desc : Bool) (mask : Option (Fin 64)) (d : Pair) (src : List VPair) (iss : Issue) (c : Ctx) : RegForm :=
  .always ⟨(maskNames c mask).1, [], (regOfPair d, 2) :: src.map (fun a => (regOfPair (.v a.k), 2)) ++ (maskNames c mask).2⟩
    (!pairIsS d) false c fun ar => RegForm.next iss <|
    let lanes := lanesOf (part ar iss.exec mask)
    let xs := src.flatMap fun a => lanes.map fun i => pairAt ar i (.v a.k)
    let low (x : DWord) : Nat := x.toNat % 2 ^ 32
    let ys := xs.mergeSort fun x y => if desc then decide (low y ≤ low x) else decide (low x ≤ low y)
    (lanes.zip ys).foldl (fun ar v => ar.setPair v.1 d v.2) ar

/-- The value of an integer reduction of the values of lanes, one after another (R358): the sum wraps, so its order does not
count. -/
def fold (op : RedOp) (xs : List Word) : Word :=
  match op with
  | .add => wrap (xs.map fun x => (x.toNat : Int)).sum
  | .min | .mini => wrap ((xs.map BitVec.toInt).foldl min (2 ^ 31 - 1))
  | .max | .maxi => wrap ((xs.map BitVec.toInt).foldl max (-2 ^ 31))
  | .and => xs.foldl (· &&& ·) 0xFFFFFFFF
  | .or => xs.foldl (· ||| ·) 0
  | .xor => xs.foldl (· ^^^ ·) 0

/-- The values of A in the lanes that take part, by lane. -/
def partVals (ar : Arch) (m : BitVec 64) (a : Reg) : List (Nat × Word) := (lanesOf m).map fun i => (i, ar.reg i a)

/-- No value that takes part in an FP32 operation is an abandoned result (R360). -/
def noneAbandoned (ty : RedTy) (exec : BitVec 64) (mask : Option (Fin 64)) (a : Reg) (ar : Arch) : Prop :=
  ty = .f32 → ∀ x ∈ partVals ar (part ar exec mask) a, isAbandoned x.2 = false

/-- The fields of REDUCE and SCAN. -/
def crossNames (c : Ctx) (mask : Option (Fin 64)) (a : Reg) (dst : List Reg) (tup : List (Reg × Nat)) : Names :=
  ⟨a :: (maskNames c mask).1, dst, tup ++ (maskNames c mask).2⟩

/-- REDUCE of integers (R358, R359): the value, and for MINI and MAXI the lowest lane that holds it in D + 1; with no lane the
empty-case value, index 0xFFFF_FFFF and XSTAT.RED_EMPTY. FP32 reduces by the tree of Machine/Sync. -/
def reduce (m : ReduceMode) (mask : Option (Fin 64)) (d a : Reg) (iss : Issue) (c : Ctx) : RegForm where
  names := if m.op == .mini || m.op == .maxi then crossNames c mask a [] [(d, 2)] else crossNames c mask a [d] []
  typed := regType d == .uniform
  whole := true
  ctx := c
  out := fun ar => RegForm.next iss <|
    let xs := partVals ar (part ar iss.exec mask) a
    match m.ty with
    | .f32 => reduceArch m d xs ar
    | .i32 =>
      let x := fold m.op (xs.map (·.2))
      let ar' := ar.putReg 0 d 0 x
      let ar' := if m.op == .mini || m.op == .maxi then
          ar'.putReg 0 d 1 (((xs.find? fun v => v.2 == x).map fun v => BitVec.ofNat 32 v.1).getD 0xFFFFFFFF)
        else ar'
      { ar' with xstat := if xs.isEmpty then ar.xstat ||| 0x100 else ar.xstat }
  ready := noneAbandoned m.ty iss.exec mask a

/-- SCAN of integers (R361): lane q gets the reduction of the lanes before it and, with .INC, of its own value. FP32 goes by
the running combine of Machine/Sync. -/
def scan (m : ScanMode) (mask : Option (Fin 64)) (d a : Reg) (iss : Issue) (c : Ctx) : RegForm where
  names := crossNames c mask a [d] []
  typed := regType d == .varying
  whole := false
  ctx := c
  out := fun ar => RegForm.next iss <|
    let xs := partVals ar (part ar iss.exec mask) a
    match m.ty with
    | .f32 =>
      let r := scanRun m.op .f32 m.exc none xs
      (r.1.foldl (fun ar v => ar.putReg v.1 d 0 v.2) ar).orXstat (r.2 ||| snanFlags .f32 (xs.map (·.2)))
    | .i32 =>
      match d with
      | .v i => perLane ar (part ar iss.exec mask) i fun n =>
          fold m.op ((xs.filter fun v => if m.exc then decide (v.1 < n) else decide (v.1 ≤ n)).map (·.2))
      | _ => ar
  ready := noneAbandoned m.ty iss.exec mask a

/-- What each instruction that moves values among register files and lanes does. -/
def laneForms : Instr → Option (Issue → Ctx → RegForm)
  | .proma64 d a b => some (proma d (.op (opOfU a)) (.op (opOfU b)))
  | .proma96 d a lit => some (proma d (.op (opOfU a)) (.lit lit))
  | .promv d a => some (promv d a)
  | .demf d a => some (dem false d a)
  | .demc d a => some (dem true d a)
  | .vtest d a => some (verdict vtest d a)
  | .vkey d a => some (verdict vkey d a)
  | .jobst d tag => some (jobst d tag)
  | .shfl var d a b => some (shfl var d a b)
  | .reduce m mask d a => some (reduce m mask d a)
  | .scan m mask d a => some (scan m mask d a)
  | .bsort desc mask d a => some (sorted desc mask d [a])
  | .bmerge desc mask d a b => some (sorted desc mask d [a, b])
  | _ => none

end Sys2Proof.Machine.Rules
end

