-- ==== Sys2Proof/Rules/Memory.lean ====
section
/-!
DEFINITION. What the rules of loads, stores and atomics say (R229–R243): the vocabulary of the statements about families 0x08
and 0x09.
-/
namespace Sys2Proof.Machine.Rules

/-- A load: whether it promotes (R288), its order, scope and size, its destination and its address operands. -/
structure LoadForm where
  prm   : Bool
  ord   : MemOrder
  scope : Scope
  size  : Size
  d     : Reg
  addr  : AddrForm

/-- LD and LDL in both forms (R236, R237). -/
def loads : Instr → Option LoadForm
  | .ld64 m d a b disp => some ⟨m.prm, m.ord, m.scope, m.size, d, ⟨some a, .op b, disp.signExtend 64⟩⟩
  | .ld96 m d a off disp => some ⟨m.prm, m.ord, m.scope, m.size, d, ⟨some a, offSrc off, disp.signExtend 64⟩⟩
  | .ldl64 m d b disp => some ⟨false, m.ord, m.scope, m.size, d, ⟨none, .op b, disp.signExtend 64⟩⟩
  | .ldl96 m d off disp => some ⟨false, m.ord, m.scope, m.size, d, ⟨none, offSrc off, disp.signExtend 64⟩⟩
  | _ => none

/-- Whether a load is uniform: it is then performed once for the gang, into the s file (R233). -/
def LoadForm.once (f : LoadForm) : Bool := f.addr.types.all (· == .uniform)
/-- The register fields of a load. -/
def LoadForm.names (f : LoadForm) : Names := f.addr.names.also (dataDst f.d f.size)
/-- The file of its destination fits (R233). -/
def LoadForm.typed (f : LoadForm) : Bool := regType f.d == (if f.once then .uniform else .varying)

/-- A store: its order, scope and size, the register that it stores and its address operands. -/
structure StoreForm where
  ord   : MemOrder
  scope : Scope
  size  : Size
  d     : Reg
  addr  : AddrForm

/-- ST and STL in both forms (R236, R237). -/
def stores : Instr → Option StoreForm
  | .st64 m d a b disp => some ⟨m.ord, m.scope, m.size, d, ⟨some a, .op b, disp.signExtend 64⟩⟩
  | .st96 m d a off disp => some ⟨m.ord, m.scope, m.size, d, ⟨some a, offSrc off, disp.signExtend 64⟩⟩
  | .stl64 m d b disp => some ⟨m.ord, m.scope, m.size, d, ⟨none, .op b, disp.signExtend 64⟩⟩
  | .stl96 m d off disp => some ⟨m.ord, m.scope, m.size, d, ⟨none, offSrc off, disp.signExtend 64⟩⟩
  | _ => none

/-- Whether a store is uniform (R233). -/
def StoreForm.once (f : StoreForm) : Bool := f.addr.types.all (· == .uniform) && regType f.d == .uniform
/-- The register fields of a store. -/
def StoreForm.names (f : StoreForm) : Names := f.addr.names.also (dataSrc (.reg f.d) f.size)

/-- PFCH in both forms (R238). -/
def prefetches : Instr → Option AddrForm
  | .pfch64 _ a b disp => some ⟨some a, .op b, disp.signExtend 64⟩
  | .pfch96 _ a off disp => some ⟨some a, offSrc off, disp.signExtend 64⟩
  | _ => none

/-- PFCH: it needs the whole live set when it is uniform, and goes on to the next instruction (R233, R238). -/
def prefetch (f : AddrForm) (iss : Issue) (c : Ctx) : RegForm :=
  .always f.names true (f.types.all (· == .uniform)) c (RegForm.next iss)

/-- An atomic: its operation, order, scope and size, its destination, its address operands, c, and ACAS's q. -/
structure AtomicForm where
  op    : AtomicOp
  ord   : MemOrder
  scope : Scope
  size  : Size
  d     : Reg
  addr  : AddrForm
  c     : Operand
  q     : Option Operand

/-- The atomics of family 0x09 in both forms (R239, R240). -/
def atomics : Instr → Option AtomicForm
  | .aadd64 m d a b c => some ⟨.add, m.ord, m.scope, m.size, d, ⟨some a, .op b, 0⟩, c, none⟩
  | .aadd96 m d a off c disp => some ⟨.add, m.ord, m.scope, m.size, d, ⟨some a, offSrc off, disp.signExtend 64⟩, c, none⟩
  | .amin64 m d a b c => some ⟨.min, m.ord, m.scope, m.size, d, ⟨some a, .op b, 0⟩, c, none⟩
  | .amin96 m d a off c disp => some ⟨.min, m.ord, m.scope, m.size, d, ⟨some a, offSrc off, disp.signExtend 64⟩, c, none⟩
  | .amax64 m d a b c => some ⟨.max, m.ord, m.scope, m.size, d, ⟨some a, .op b, 0⟩, c, none⟩
  | .amax96 m d a off c disp => some ⟨.max, m.ord, m.scope, m.size, d, ⟨some a, offSrc off, disp.signExtend 64⟩, c, none⟩
  | .aand64 m d a b c => some ⟨.and, m.ord, m.scope, m.size, d, ⟨some a, .op b, 0⟩, c, none⟩
  | .aand96 m d a off c disp => some ⟨.and, m.ord, m.scope, m.size, d, ⟨some a, offSrc off, disp.signExtend 64⟩, c, none⟩
  | .aor64 m d a b c => some ⟨.or, m.ord, m.scope, m.size, d, ⟨some a, .op b, 0⟩, c, none⟩
  | .aor96 m d a off c disp => some ⟨.or, m.ord, m.scope, m.size, d, ⟨some a, offSrc off, disp.signExtend 64⟩, c, none⟩
  | .axor64 m d a b c => some ⟨.xor, m.ord, m.scope, m.size, d, ⟨some a, .op b, 0⟩, c, none⟩
  | .axor96 m d a off c disp => some ⟨.xor, m.ord, m.scope, m.size, d, ⟨some a, offSrc off, disp.signExtend 64⟩, c, none⟩
  | .axch64 m d a b c => some ⟨.xch, m.ord, m.scope, m.size, d, ⟨some a, .op b, 0⟩, c, none⟩
  | .axch96 m d a off c disp => some ⟨.xch, m.ord, m.scope, m.size, d, ⟨some a, offSrc off, disp.signExtend 64⟩, c, none⟩
  | .afadd64 m d a b c => some ⟨.fadd, m.ord, m.scope, .b32, d, ⟨some a, .op b, 0⟩, c, none⟩
  | .afadd96 m d a off c disp => some ⟨.fadd, m.ord, m.scope, .b32, d, ⟨some a, offSrc off, disp.signExtend 64⟩, c, none⟩
  | .acas64 m d a b c q => some ⟨.cas, m.ord, m.scope, m.size, d, ⟨some a, .op b, 0⟩, c, some q⟩
  | .acas96 m d a off c q disp => some ⟨.cas, m.ord, m.scope, m.size, d, ⟨some a, offSrc off, disp.signExtend 64⟩, c, some q⟩
  | _ => none

/-- Whether an atomic is uniform (R233). -/
def AtomicForm.once (f : AtomicForm) : Bool :=
  f.addr.types.all (· == .uniform) && opType f.c == .uniform && (f.q.map fun o => opType o == .uniform).getD true
/-- The register fields of an atomic. -/
def AtomicForm.names (f : AtomicForm) : Names :=
  ((f.addr.names.also (dataSrc f.c f.size)).also ((f.q.map fun o => dataSrc o f.size).getD ⟨[], [], []⟩)).also (dataDst f.d f.size)
/-- The file of its destination fits (R233). -/
def AtomicForm.typed (f : AtomicForm) : Bool := regType f.d == (if f.once then .uniform else .varying)

/-- The lanes that take part in an access: the lowest of the converged set for a uniform one, else all of it (R233). -/
def taking (once : Bool) (exec : BitVec 64) : List Nat := if once then [lowLane exec] else lanesOf exec

/-- The accesses of an instruction whose lanes all pass their checks at the addresses and places given, each with its c and
q. -/
def accesses (ls : List Nat) (va : Nat → DWord) (pl : Nat → Place) (x y : Nat → BitVec 128) : List Access :=
  ls.map fun n => ⟨n, va n, pl n, x n, y n, none⟩

/-- m′ of R240 from m, c and q at a width of n bytes; none where nothing is written. -/
def newValue (op : AtomicOp) (n : Nat) (m c q : BitVec 128) : Option (BitVec 128) :=
  let signed (x : BitVec 128) : Int := Int.bmod x.toNat (2 ^ (8 * n))
  match op with
  | .add => some (BitVec.ofNat 128 ((m.toNat + c.toNat) % 2 ^ (8 * n)))
  | .fadd => some ((afaddWord (m.setWidth 32) (c.setWidth 32)).setWidth 128)
  | .min => some (BitVec.ofInt 128 (min (signed m) (signed c)) &&& BitVec.ofNat 128 (2 ^ (8 * n) - 1))
  | .max => some (BitVec.ofInt 128 (max (signed m) (signed c)) &&& BitVec.ofNat 128 (2 ^ (8 * n) - 1))
  | .and => some (m &&& c)
  | .or => some (m ||| c)
  | .xor => some (m ^^^ c)
  | .xch => some c
  | .cas => if m = c then some q else none

/-- The memory after atomics in a single total order, and the value that each lane's own step read (R240, R241). -/
def inOrder (s : State) (c : Ctx) (op : AtomicOp) (n : Nat) : List Access → State × List (Nat × BitVec 128)
  | [] => (s, [])
  | x :: xs =>
    let a := s.atomicAt c op n x
    let r := inOrder a.1 c op n xs
    (r.1, (x.lane, a.2) :: r.2)

/-- The value of a data operand in a lane at a size (R229): a tuple's lowest register holds its least significant word. -/
def dataOf (ar : Arch) (lane : Nat) (o : Operand) (sz : Size) : BitVec 128 :=
  match o with
  | .imm n => (n.signExtend 128) &&& BitVec.ofNat 128 (2 ^ (8 * bytesOf sz) - 1)
  | .reg r =>
    match sz with
    | .b8 => (ar.reg lane r &&& 0xFF).setWidth 128
    | .b16 => (ar.reg lane r &&& 0xFFFF).setWidth 128
    | .b32 => (ar.reg lane r).setWidth 128
    | .b64 => (ar.regAt lane r 1 ++ ar.regAt lane r 0).setWidth 128
    | .b128 => ar.regAt lane r 3 ++ ar.regAt lane r 2 ++ ar.regAt lane r 1 ++ ar.regAt lane r 0

/-- No write stream of a context holds a push that is not performed. -/
def drained (c : Ctx) : Prop := c.arch.pushes = []

/-- Nothing else of the machine takes a hand when a reply lands for a launch: storage holds no error and no self-test runs (R226,
R401), no invalidation waits (R224), and every region of the launch holds a context or gang, or is the leaf region of a frame
with one of its threads (R74, R393). -/
structure Undisturbed (s : State) (n : Word) : Prop where
  flaws : s.flaws = []
  tests : s.tests = []
  invals : s.invals = []
  held : ∀ r ∈ s.regions, r.launch = n → s.residents r ≠ [] ∨
    (r.w = 0xFFFFF ∧ ∃ c ∈ s.ctxs, c.launch = n ∧ c.kind = .rod ∧ frameNo c.key.core = frameNo r.core)

/-- Every bank of a context's frame cache has room for n more lines, so that none leaves it (R12, R217). -/
def cacheRoom (s : State) (c : Ctx) (n : Nat) : Prop :=
  ∀ f b, c.frame? = some f → (s.bankLines f b).length + (s.bankHosts f b).length + n ≤ Config.bankLines

/-- The one home of a byte: this package's own domain address names its device memory (R215). -/
def home (s : State) : Place → Place
  | .dom p d => if p = s.pkg then .dev d else .dom p d
  | q => q

/-- A place's bytes exist: a scratch byte lies in a region. -/
def exists? (s : State) : Place → Bool
  | .scratch core l w _ => (s.region? core l w).isSome
  | _ => true

end Sys2Proof.Machine.Rules
end

