-- ==== Sys2Proof/Rules/Registers.lean ====
section
/-!
DEFINITION. Every instruction that only reads and writes registers, with what its rules say of it.
-/
namespace Sys2Proof.Machine.Rules

/-- A form that does not depend on the rest of the machine. -/
def local? (f : Option (Issue → Ctx → RegForm)) : Option (State → Issue → Ctx → RegForm) := f.map fun g _ => g

/-- MOVXR, MOVXW of a register of the context (TBASE and PERM reach further), and PFCH. -/
def special : Instr → Option (State → Issue → Ctx → RegForm)
  | .movxr x d => some (movxr x d)
  | .movxw x a => if x = .tbase ∨ x = .perm then none else some fun _ => movxw x a
  | i => local? ((prefetches i).map prefetch)

/-- What an instruction of the register families does. -/
def registerForm (i : Instr) : Option (State → Issue → Ctx → RegForm) :=
  (local? ((row i).map Row.form)).or <|
  (local? ((maskRow i).map cmpm)).or <|
  (local? (controls i)).or <|
  (local? ((frow i).map FRow.form)).or <|
  (local? ((fmaskRow i).map fcmpm)).or <|
  (local? (laneForms i)).or (special i)

/-- Whether an instruction writes a special register. -/
def writesSpecial : Instr → Bool
  | .movxw _ _ => true
  | _ => false

/-- What no register instruction but MOVXW changes of a context: the registers of traps, formats and texts, the tags, the
thresholds, the iteration slots, and each lane's TID, GID and flags. -/
def keepsSpecials (x y : Arch) : Prop :=
  y.vc = x.vc ∧ y.tbase = x.tbase ∧ y.ovh = x.ovh ∧ y.uhnd = x.uhnd ∧ y.epc = x.epc ∧ y.eaddr = x.eaddr ∧
  y.ecode = x.ecode ∧ y.elane = x.elane ∧ y.nfmt = x.nfmt ∧ y.fpctl = x.fpctl ∧ y.mprog = x.mprog ∧ y.uh = x.uh ∧
  y.overlay = x.overlay ∧ y.trapSet = x.trapSet ∧ y.sysSet = x.sysSet ∧ y.heldSet = x.heldSet ∧ y.tags = x.tags ∧
  y.ths = x.ths ∧ y.iter = x.iter ∧ y.link = x.link ∧ y.pend = x.pend ∧ y.en = x.en ∧ y.mark = x.mark ∧
  y.touched = x.touched ∧ y.vdot = x.vdot ∧ y.pushes = x.pushes ∧ y.xstat &&& x.xstat = x.xstat ∧ y.lanes.length = x.lanes.length ∧
  ∀ n, (y.lane n).tid = (x.lane n).tid ∧ (y.lane n).gid = (x.lane n).gid ∧ (y.lane n).live = (x.lane n).live ∧
    (y.lane n).held = (x.lane n).held ∧ (y.lane n).caller = (x.lane n).caller

/-- Everything in the machine but one context and the lines of the frame caches. -/
def sameBut (k : CtxKey) (s t : State) : Prop :=
  t = { s with ctxs := t.ctxs, cache := t.cache, hostLines := t.hostLines } ∧ ∀ j, j ≠ k → t.ctx? j = s.ctx? j

end Sys2Proof.Machine.Rules
end

