-- ==== Sys2Proof/Rules/Engines.lean ====
section
/-!
DEFINITION. What the rules of the iteration fetcher, streams, ordering, jobs, tags, MWAIT and barriers say (R180–R187,
R244–R250, R264–R271, R293, R294, R354–R356): the vocabulary of the statements about them.
-/
namespace Sys2Proof.Machine.Rules

/-- The lanes of the converged set are at the next instruction, and the affine registers are as before. -/
def wentOn (c y : Ctx) (iss : Issue) : Prop :=
  y.arch.a = c.arch.a ∧ y.arch.lanes = (pcs c.arch iss.exec fun _ => after iss).lanes

/-- An instruction of one uniform result is done: D holds it, every other s register is as before, and the lanes go on. -/
def gives (c y : Ctx) (iss : Issue) (d : Reg) (x : Word) : Prop :=
  (∃ i, d = .s i ∧ y.arch.s = c.arch.s.set i x) ∧ wentOn c y iss

/-- The fields of an instruction with a uniform destination and a pair of s registers. -/
def pairNames (d : Reg) (a : SPair) : Names := ⟨[], [d], [(.s ⟨2 * a.k.val, by omega⟩, 2)]⟩

/-- The value of an s pair. -/
def spairAt (c : Ctx) (a : SPair) : DWord := pairAt c.arch 0 (.s a.k)

/-! ## Iteration (R180–R187) -/

/-- The index of a level at iteration i: the innermost level runs fastest (R183). -/
def nestIndex (d : BitVec 448) (i lev : Nat) : Word :=
  let inner : Nat := ((List.range (nestLevels d)).filter fun l => lev < l).foldl (fun x l => x * nestTrip d l) 1
  wrap ((nestLo d lev).toNat + (nestStep d lev).toNat * (i / inner % nestTrip d lev))

/-- The chunk that a claim takes at a counter value (R183). -/
def chunk (d : BitVec 448) (c : Nat) : Nat :=
  let r := if c < nestLen d then nestLen d - c else 0
  min r (max (nestMinch d) ((r + (2 * nestP d - 1)) / (2 * nestP d)))

/-- The indices of an iteration are in the registers that the descriptor names. -/
def indexed (d : BitVec 448) (i : Nat) (ar : Arch) : Prop :=
  ∀ lev, lev < nestLevels d → ar.vreg 0 (nestDst d lev) = nestIndex d i lev

/-- ITER.NEXT and ITER.STEP with a slot (R187): the state that the slot must have, the iteration that is next, the body, and
where the thread goes when the nest is exhausted. -/
structure IterForm where
  slot  : Fin 2
  ready : Bool
  l     : Nat
  body  : DWord
  out   : DWord

/-- ITER.NEXT and ITER.STEP. -/
def iters (i : Instr) (iss : Issue) (c : Ctx) : Option IterForm :=
  match i with
  | .iterNext64 slot disp => some ⟨slot, c.arch.iter[slot].st != .idle, c.arch.iter[slot].l.toNat, after iss, target iss disp⟩
  | .iterNext96 slot disp => some ⟨slot, c.arch.iter[slot].st != .idle, c.arch.iter[slot].l.toNat, after iss, target iss disp⟩
  | .iterStep slot =>
    some ⟨slot, c.arch.iter[slot].st == .active, c.arch.iter[slot].l.toNat + 1, c.arch.iter[slot].body, after iss⟩
  | _ => none

/-! ## Jobs and tags (R264–R271) -/

/-- Whether a tag is in a mask and in a state. -/
def tagIn (c : Ctx) (m : DWord) (st : TagState) (t : Fin 64) : Prop := m.getLsbD t.val = true ∧ c.arch.tags[t].st = st

/-- The result that names the lowest tag of a mask that is SET, or 64 (R268). -/
def lowestSet (c : Ctx) (m : DWord) (x : Word) : Prop :=
  (∀ t, tagIn c m .set t → (∀ u, u < t → ¬ tagIn c m .set u) → x = BitVec.ofNat 32 t.val) ∧
  ((∀ t, ¬ tagIn c m .set t) → x = 64)

/-- A job submission (R267, R366): the kinds of card it accepts, the scope of its release, and its operands. -/
structure SubmitForm where
  coll  : BitVec 2048 → Bool
  kinds : List Nat
  scope : Scope
  d     : Reg
  a     : SPair
  tag   : Fin 64

/-- COPY, GATH, SCAT and COLL. -/
def submits : Instr → Option SubmitForm
  | .copy d a tag => some ⟨fun _ => false, [1, 2, 3, 4, 5], .dev, d, a, tag⟩
  | .gath d a tag => some ⟨fun _ => false, [6], .dev, d, a, tag⟩
  | .scat d a tag => some ⟨fun _ => false, [7], .dev, d, a, tag⟩
  | .coll d a tag => some ⟨collValid, [8], .dom, d, a, tag⟩
  | _ => none

end Sys2Proof.Machine.Rules
end

