-- ==== Sys2Proof/Rules/System.lean ====
section
/-!
DEFINITION. What the rules of gangs, the matrix engine, verdicts, traps and launches say (R295–R352, R371–R387, R64–R89): the
vocabulary of the statements about families 0x10, 0x11, 0x12, 0x38 and 0x3A.
-/
namespace Sys2Proof.Machine.Rules

/-! ## Gang calls, growth (R302–R313) -/

/-- A gang call: the operand that gives its key, the registers that it names, and the target from the PC and the registers. -/
structure CallForm where
  key    : Operand
  names  : Names
  target : Issue → Arch → DWord

/-- GCALL in its three forms (R302, R307). -/
def gangCalls : Instr → Option CallForm
  | .gcall64 a disp => some ⟨a, ⟨opRegs a, [], []⟩, fun iss _ => target iss disp⟩
  | .gcall96 a disp => some ⟨a, ⟨opRegs a, [], []⟩, fun iss _ => target iss disp⟩
  | .gcallI b a => some ⟨a, ⟨opRegs a, [], [pairName b]⟩, fun _ ar => pairAt ar 0 b⟩
  | _ => none

/-- No two contexts share a slot or an identity. -/
def distinct (s : State) : Prop := s.ctxs.Pairwise fun x y => x.key ≠ y.key ∧ x.uid ≠ y.uid

/-- GROW in both forms (R310). -/
def grows : Instr → Option (Reg × Src)
  | .grow64 d b => some (d, .op (opOfU b))
  | .grow96 d lit => some (d, .lit lit)
  | _ => none

/-- SHRINK in both forms (R312). -/
def shrinks : Instr → Option Src
  | .shrink64 b => some (.op (opOfU b))
  | .shrink96 lit => some (.lit lit)
  | _ => none

/-- The registers of a gang that grew from a count to another: those that it gained read 0 in every lane (R310). -/
def grown (x y : Arch) (n : Nat) : Prop :=
  y.vc = n ∧ ∀ lane (r : Fin 64), y.vreg lane r = if x.vc ≤ r.val ∧ r.val < n then 0 else x.vreg lane r

/-! ## The matrix engine (R314–R335) -/

/-- OBRES in both forms (R319). -/
def reserves : Instr → Option (Reg × Fin 16 × Src)
  | .obres64 d n b => some (d, n, .op (.reg (.s b)))
  | .obres96 d n lit => some (d, n, .lit lit)
  | _ => none

/-- Whether a range of n units at an offset is free in a buffer that holds ranges (R314). -/
def rangeFree (used : List (Nat × Nat)) (n b : Nat) : Prop :=
  b + n ≤ Config.obufBytes / 64 ∧ ∀ u ∈ used, u.1 + u.2 ≤ b ∨ b + n ≤ u.1

/-- ACCLD and ACCST in both forms (R324): whether it stores, the tile, the address and the row stride. -/
def tileMoves : Instr → Option (Bool × BitVec 8 × SPair × Src)
  | .accld64 t a b => some (false, t, a, .op (opOfU b))
  | .accld96 t a lit => some (false, t, a, .lit lit)
  | .accst64 t a b => some (true, t, a, .op (opOfU b))
  | .accst96 t a lit => some (true, t, a, .lit lit)
  | _ => none

/-- ACCRD in both forms (R324). -/
def tileReads : Instr → Option (Reg × BitVec 8 × Src)
  | .accrd64 d t b => some (d, t, .op (opOfU b))
  | .accrd96 d t lit => some (d, t, .lit lit)
  | _ => none

/-- The address of C(i, j) of ACCLD and ACCST, for x = 32 i + j (R324). -/
def elementAt (a : DWord) (stride : Word) (x : Nat) : DWord := BitVec.ofInt 64 (a.toNat + (x / 32 : Nat) * stride.toInt + 4 * (x % 32 : Nat))

/-- The lines of virtual memory that a list of addresses touches lie each at one place (R217). -/
def linesAgree (n : Nat) (va : Nat → DWord) (pl : Nat → Place) : Prop :=
  ∀ x y, x < n → y < n → (pl x = (pl x).lineBase.plus ((va x).toNat % 128)) ∧
    ((va x).toNat / 128 = (va y).toNat / 128 → (pl x).lineBase = (pl y).lineBase)

/-- MMA and MMAS in both forms (R325): whether it is MMAS, CV, the tile, the records and K. -/
def products : Instr → Option (Bool × Option (Fin 8) × BitVec 8 × ObsPair × Src)
  | .mma64 cv t ab b => some (false, cv, t, ab, .op (opOfU b))
  | .mma96 cv t ab lit => some (false, cv, t, ab, .lit lit)
  | .mmas64 cv t ab b => some (true, cv, t, ab, .op (opOfU b))
  | .mmas96 cv t ab lit => some (true, cv, t, ab, .lit lit)
  | _ => none

/-- The first term of an operation: KDONE of an MPROG whose other fields are the operation's, else 0 (R327, R332). -/
def startTerm (m : Word) (sparse : Bool) (t : BitVec 8) (ab : ObsPair) (k : Nat) : Nat :=
  let done := (m.extractLsb' 0 11).toNat
  if m.getLsbD 31 && m.extractLsb' 23 8 == t && m.extractLsb' 19 4 == BitVec.ofNat 4 ab.b.val && m.extractLsb' 15 4 == BitVec.ofNat 4 ab.a.val
    && m.getLsbD 14 == sparse && m.extractLsb' 11 3 == 0 && decide (done < k) && done % 64 == 0 then done else 0

/-- An operation may go to the engine at once: it has no convergence register, or every member of its open round has signed and
it is the first that the round performs (R331). -/
def roundOpen (r : Region) (index : Nat) : Option (Fin 8) → Prop
  | none => True
  | some n => ∃ m, r.cvg[n].mset = some m ∧ r.cvg[n].waiting = [] ∧ r.cvg[n].performed = none ∧ r.cvg[n].done = false ∧
      r.cvg[n].signed.getLsbD index = true ∧ r.cvg[n].issued.contains index = false ∧
      ∀ g, g < 32 → m.getLsbD g = true → r.cvg[n].signed.getLsbD g = true

/-- SIGN in both forms (R330). -/
def signs : Instr → Option (Reg × Fin 8 × Src)
  | .sign64 d n b => some (d, n, .op (.reg (.s b)))
  | .sign96 d n lit => some (d, n, .lit lit)
  | _ => none

/-- An instruction of family 0x11 passes its first checks (R130, R323) in a gang of its own allocation. -/
structure MatrixReady (s : State) (iss : Issue) (c : Ctx) (nm : Names) (typed whole : Bool) (r : Region) : Prop where
  gang   : c.kind ≠ .rod
  narrow : c.pair = none
  ready  : Ready s iss c nm typed whole [] []
  region : s.regionOf c = some r

/-- No instruction of family 0x11 waits on the beam, so that the next one comes behind none (R322, R323). -/
def noneWaits (s : State) (c : Ctx) : Prop := ∀ x ∈ s.ctxs, x.key.core = c.key.core → x.turn = none

/-- No operation of the context's allocation in its beam's engine names a record of a list, or the tile (R322, R323). -/
def noOps (s : State) (c : Ctx) (recs : List (Fin 16)) (tile : Option Nat) : Prop :=
  ∀ o ∈ (s.beam c.key.core).ops, o.launch = c.launch → o.w = c.group → o.a ∉ recs ∧ o.b ∉ recs ∧ tile ≠ some o.tile

/-- The region of a context after a step. -/
def regionAfter (t : State) (c : Ctx) : Option Region := t.region? c.key.core c.launch c.group

/-! ## Verdicts (R336–R352) -/

/-- The sum of nb blocks of weights w and vector elements x, block by block from +0 (R340, R346). -/
def verdictSum (ty : VerdictTy) (top : Bool) (w x : Nat → List Byte) : Nat → Word
  | 0 => 0
  | n + 1 =>
    (List.range (64 / verdictGroup ty)).foldl (fun c g =>
      addGroup c ((List.range (verdictGroup ty)).map fun t =>
        (verdictTerm ty top (w n) (g * verdictGroup ty + t), verdictTerm .bf16 top (x n) (g * verdictGroup ty + t))))
      (verdictSum ty top w x n)

/-- The values that a block rounds into an accumulator that holds c, in their order (R160). -/
def blockRounded (ty : VerdictTy) (top : Bool) (w x : List Byte) (c : Word) : List Word :=
  ((List.range (64 / verdictGroup ty)).foldl (fun (p : Word × List Word) g =>
    let r := addGroupLog p.1 ((List.range (verdictGroup ty)).map fun t =>
      (verdictTerm ty top w (g * verdictGroup ty + t), verdictTerm .bf16 top x (g * verdictGroup ty + t)))
    (r.1, p.2 ++ r.2)) (c, [])).2

/-- M after the magnitudes of a list of rounded values, added one by one with upward rounding (R340). -/
def magnitude (m : Word) : List Word → Word → Prop
  | [], z => z = m
  | r :: rs, z => ∃ n : Word × Word, sumRounds fp32 .rup (num32 m) (num32 (r &&& 0x7FFFFFFF)) (pattern n) ∧ magnitude n.1 rs z

/-- θ of a check (R341): none under GT and LT before a sample (R350). -/
def theta (m : VdotMode) (tau : Option Word) : Option Num :=
  match m.pred with
  | .sign => some (num32 0)
  | .gt => tau.map num32
  | .lt => tau.map fun t => num32 (t ^^^ 0x80000000)

/-- x lies above y; a NaN lies nowhere. -/
def above (x y : Num) : Prop := x.isNan = false ∧ y.isNan = false ∧ onLine y < onLine x

/-- x lies at y or below it. -/
def atMost (x y : Num) : Prop := x.isNan = false ∧ y.isNan = false ∧ onLine x ≤ onLine y

/-- What the check after block c - 1 decides of S and M, with the tail bound T, the vector bound X∞ and θ (R341, R342): nothing where a
value is not one that the check takes; otherwise false where hi or, under LT, lo makes it certain, true, in the .AB2 mode alone, where
it is certain the other way, and nothing in between. -/
def checkDecides (m : VdotMode) (c : Nat) (xinf t : Word) (th : Option Num) (sum mag : Word) (d : Option Bool) : Prop :=
  let x := num32 xinf
  let y := num32 t
  let s := num32 sum
  let g := num32 mag
  match th with
  | none => d = none
  | some z =>
    let takes : Prop := finite s = true ∧ finite g = true ∧ x.isNan = false ∧ y.isNan = false ∧ z.isNan = false ∧ ¬ onLine x < 0 ∧ ¬ onLine y < 0
    (¬ takes → d = none) ∧
    (takes → ∃ r e h hi l lo : Word × Word,
      productRounds fp32 .rup x y (pattern r) ∧
      productRounds fp32 .rup (.fin false (2 * c * 64 / verdictGroup m.ty) (-23)) (if value g < 2 ^ (-126 : Int) then .fin false 1 (-126) else g) (pattern e) ∧
      sumRounds fp32 .rup s (num32 r.1) (pattern h) ∧ sumRounds fp32 .rup (num32 h.1) (num32 e.1) (pattern hi) ∧
      sumRounds fp32 .rdn s (num32 (r.1 ^^^ 0x80000000)) (pattern l) ∧ sumRounds fp32 .rdn (num32 l.1) (num32 (e.1 ^^^ 0x80000000)) (pattern lo) ∧
      let no : Prop := if m.pred = .lt then atMost z (num32 lo.1) else atMost (num32 hi.1) z
      let yes : Prop := if m.pred = .lt then above z (num32 hi.1) else above (num32 lo.1) z
      (no → d = some false) ∧ (¬ no → yes → m.ab2 = true → d = some true) ∧ (¬ no → ¬ (yes ∧ m.ab2 = true) → d = none))

/-- One lane of a VDOT through one of its issues (R340–R343, R346, R350–R352): a lane that has finished stays as it is; one whose blocks
are all summed finishes with its sum; and any other sums its next block. From MINB blocks on, and before the last, the cell is sampled
and the check made with the header h of the next block: what it decides ends the lane with the abandoned result of that verdict and
block count, and a lane that nothing ends goes on, or with its last block has its sum. -/
def vdotIssue (m : VdotMode) (top : Bool) (nb minb : Nat) (xinf : Word) (cell : Resolved) (tau : Place → Word) (w x h : Nat → List Byte) (p q : VdotLane) : Prop :=
  let due : Prop := minb ≤ p.c + 1 ∧ p.c + 1 < nb
  q.lane = p.lane ∧
  (∀ v, p.done = some v → q.done = some v) ∧
  (p.done = none → nb ≤ p.c → q.done = some p.sum) ∧
  (p.done = none → p.c < nb → p.sum = verdictSum m.ty top w x p.c →
    q.c = p.c + 1 ∧ q.sum = verdictSum m.ty top w x (p.c + 1) ∧ magnitude p.mag (blockRounded m.ty top (w p.c) (x p.c) p.sum) q.mag ∧
    (¬ due → q.tau = p.tau ∧ q.done = if p.c + 1 = nb then some q.sum else none) ∧
    (due →
      (m.pred = .sign → q.tau = p.tau) ∧
      (m.pred ≠ .sign → (∀ a, cell ≠ .ok a) → q.tau = p.tau) ∧
      (m.pred ≠ .sign → ∀ a, cell = .ok a → (p.tau = none → q.tau = some (tau a)) ∧
        ∀ t, p.tau = some t → ∃ lo hi, lesserGreater t (tau a) lo hi ∧ q.tau = some hi.1) ∧
      ∃ d, checkDecides m (p.c + 1) xinf (BitVec.ofNat 32 (leNat (h (p.c + 1)))) (theta m q.tau) q.sum q.mag d ∧
        q.done = d.map fun yes => 0x7FB00000 ||| (if yes then 0x80000 else 0) ||| BitVec.ofNat 32 (p.c + 1)))

/-- THS.RAISE in both forms (R349). -/
def raises : Instr → Option (Pair × Fin 8 × Src)
  | .thsRaise64 d n b => some (d, n, srcOfSv b)
  | .thsRaise96 d n lit => some (d, n, .lit lit)
  | _ => none

/-- The cell after a raise to y: where y is above the threshold τ the sequence number goes up by one and τ becomes y (R349). -/
def raisedCell (old : DWord) (y : Word) : DWord :=
  if (num32 y).isNan then old
  else if (num32 (old.setWidth 32)).isNan || (num32 (old.setWidth 32)).before (num32 y) then
    BitVec.ofNat 64 ((old.toNat / 2 ^ 32 + 1) % 2 ^ 32 * 2 ^ 32 + y.toNat)
  else old

/-! ## Traps (R382–R387) -/

/-- SVC in both forms (R386). -/
def services : Instr → Option (Quad × SPair × Src × BitVec 8)
  | .svc64 d a b n => some (d, a, .op (opOfU b), n)
  | .svc96 d a n lit => some (d, a, .lit lit, n)
  | _ => none

/-- A context holds a trap slot for its request of a service n with arguments a and b (R378, R386). -/
def serving (c : Ctx) (d : Quad) (a : DWord) (b : Word) (n : BitVec 8) (next : DWord) : Prop := c.st = .parked (.svc d a b n next true)

/-- A service has ended with a status and a value (R386): the quad holds them, every other register is as before, and the thread
goes on behind its SVC. -/
def replied (c y : Ctx) (d : Quad) (next value : DWord) (status : Word) : Prop :=
  y.st = .live ∧ y.arch.lanes = (c.arch.goto c.liveSet next).lanes ∧ y.arch.a = c.arch.a ∧
  ∀ k : Fin 16, d = .s k → ∀ i : Fin 64, y.arch.s[i] =
    if i.val = 4 * k.val then value.extractLsb' 0 32 else if i.val = 4 * k.val + 1 then value.extractLsb' 32 32
    else if i.val = 4 * k.val + 2 then status else if i.val = 4 * k.val + 3 then 0 else c.arch.s[i]

/-! ## Power (R435) -/

/-- The values between which a quantity trips nothing (R435): °C, A, mV, W/cm². -/
def tripLimits : ClampKind → Nat × Nat
  | .junction => (0, 110)
  | .current => (0, 64)
  | .voltage => (600, 950)
  | .heat => (0, 230)

/-- The values between which a quantity is not clamped (R435). -/
def clampLimits : ClampKind → Nat × Nat
  | .junction => (0, 95)
  | .current => (0, 58)
  | .voltage => (650, 900)
  | .heat => (0, 200)

end Sys2Proof.Machine.Rules
end

