-- ==== Sys2Proof/Certificates/Slice0/Obligations.lean ====
section
/-!
DEFINITION. The statements about the C960: what its instructions and events do, as the rules of the spec say it.
-/
open Sys2Proof Sys2Proof.Machine Sys2Proof.Machine.Rules

/-! ## Encodings and the step -/

/-- R90–R102: every well-formed instruction is read back from its own words, whatever stands after them, with its length in
words. -/
def Obligations.EncodedInstructionsDecode : Prop :=
  ∀ (i : Instr) (rest : List Word), i.hasWords = true → i.wellFormed = true →
    decodeWords (encode i ++ rest) = .ok (i, (encode i).length)

/-- R90–R103: words that decode are exactly those of one well-formed instruction: no field of them is dropped, and bits [1:0] of
word0 alone give its length. -/
def Obligations.DecodedWordsEncode : Prop :=
  ∀ (w : Word) (rest : List Word) (i : Instr) (n : Nat), decodeWords (w :: rest) = .ok (i, n) →
    i.wellFormed = true ∧ i.hasWords = true ∧ encode i = (w :: rest).take n ∧ n ≤ (w :: rest).length ∧
    n = if w.getLsbD 1 then (if w.getLsbD 0 then 3 else 2) else 1

/-- R91–R93, R98, R101, R102: words written out from the encoding tables decode to the instructions that they stand for: a
compact ADD, a 64-bit SUB with both modifiers, a 96-bit FADD with its literal, a load with its displacement, and MIGRATE.HM. -/
def Obligations.WordsDecode : Prop :=
  decodeTableWord 32 0x07868581 = some (.addCompact (.v 5) (.reg (.v 6)) (.reg (.s 7))) ∧
  decodeTableWord 64 0x00410200FF040306 = some (.sub64 ⟨.u32, true⟩ (.s 3) (.reg (.s 4)) (.imm 0x3F)) ∧
  decodeTableWord 96 0x3F80000000020100FF82810F = some (.fadd96 (.v 1) (.reg (.v 2)) 0x3F800000) ∧
  decodeTableWord 64 0x122B013441048222 = some (.ld64 ⟨false, .acq, .dev, .b64⟩ (.v 2) (.s 2) (.reg (.a 1)) 0x1234) ∧
  decodeTableWord 64 0x00010700000004EA = some (.migrateHm (.s 4))

/-- A step runs the decoded instruction: where the next item of the agenda is the fetch of a context, the lanes about to issue
there see words at their PC, no comparator stops them, and the words decode to an instruction, then the step is that
instruction's meaning in the state in which the context has issued: its held lanes set, its PC at the words, and the issue in
hand naming the context, the converged set, the PC and the length. A fetch past the text window leaves in the frame's cache the lines
that it read. -/
def Obligations.StepRunsDecoded : Prop :=
  ∀ (s u v : State) (k : CtxKey) (rest : List Instr) (c : Ctx) (set : BitVec 64) (pc : DWord) (ws : List Word) (i : Instr) (n : Nat),
    s.agenda = .instructionFetch k :: rest →
    State.candidate { s with agenda := rest, issue := none, fetched := none } k = some (c, set, .words pc ws) →
    u = (State.setCtx { s with agenda := rest, issue := none, fetched := none } c).noteIssue k →
    u.stopAt c set pc = none → v = (if c.away || c.arch.overlay then u.fetchText c pc (4 * ws.length) else u) →
    decodeWords ws = .ok (i, n) →
    step s = exec i { v.modCtx k (fun c => { c with
        arch := c.arch.goto set pc,
        passed := if (c.passed.map (·.2)) == some pc then none else c.passed }) with
      issue := some ⟨k, set, pc, 4 * ws.length⟩, fetched := none }

/-- R104, R106, R123, R126: what a context is about to issue. The lanes that issue are exactly those at the lowest PC of the lanes
that may issue, and there is at least one. In a thread whose lane stands at its meeting address MEET is cleared and the lane issues.
In a gang no lane that issues stands at its meeting address: such lanes are held instead, and nothing else of a lane changes; where
no lowest lane stands at its meeting address nothing changes at all. Held lanes are released, with MEET cleared, only where every
live lane is held, and then exactly those at the lowest address. The words that a thread or gang on its own core sees at an aligned
PC of its text window are those that the window's bytes hold there, lowest address first, as many as word0 says; in a window whose fill met
an uncorrectable error the fetch faults MEMUE (R227). -/
def Obligations.LiveLanesFetch : Prop :=
  (∀ (s : State) (k : CtxKey) (b c : Ctx) (set : BitVec 64) (l : Look), s.ctx? k = some b → s.candidate k = some (c, set, l) →
      set ≠ 0 ∧ (∀ n, set.getLsbD n = true ↔ lowest c n) ∧
      (b.kind = .rod → (b.arch.lane 0).meet ≠ 0 → (b.arch.lane 0).pc = (b.arch.lane 0).meet → lowest b 0 →
        c = { b with arch := b.arch.modLane 0 fun l => { l with meet := 0 } }) ∧
      ((∀ n, lowest b n → ¬ atMeet (b.arch.lane n)) → c = b) ∧
      (b.kind ≠ .rod → c = { b with arch := { b.arch with lanes := c.arch.lanes } } ∧ c.arch.lanes.length = b.arch.lanes.length ∧
        (∀ n, set.getLsbD n = true → ¬ atMeet (c.arch.lane n)) ∧ ∀ n, heldOrReleased (b.arch.lane n) (c.arch.lane n))) ∧
  (∀ (ar : Arch), ar.lanes.length ≤ 64 →
      ((∃ n, (ar.lane n).live = true ∧ (ar.lane n).held = false) → ar.releaseHeld = ar) ∧
      ((∀ n, (ar.lane n).live = true → (ar.lane n).held = true) → ∀ n, (ar.lane n).live = true →
        ((∀ m, (ar.lane m).live = true → (ar.lane n).pc.toNat ≤ (ar.lane m).pc.toNat) →
          ar.releaseHeld.lane n = { ar.lane n with meet := 0, held := false }) ∧
        ∀ m, (ar.lane m).live = true → (ar.lane m).pc.toNat < (ar.lane n).pc.toNat → ar.releaseHeld.lane n = ar.lane n)) ∧
  ∀ (s : State) (c : Ctx) (w : Window) (pc : DWord) (n : Nat),
    c.away = false → c.arch.overlay = false → s.window? c.launch c.key.core = some w →
    pc.toNat % 4 = 0 → 0x10000 ≤ pc.toNat → w.tbase.toNat ≤ pc.toNat →
    n = lengthOf (BitVec.ofNat 32 (w.bytes.read (pc.toNat - w.tbase.toNat) 4)) →
    pc.toNat + 4 * n ≤ w.tbase.toNat + w.xb →
    s.look c pc = if w.bad then .fault .memue pc
      else .words pc ((List.range n).map fun i => BitVec.ofNat 32 (w.bytes.read (pc.toNat - w.tbase.toNat + 4 * i) 4))

/-- No instruction and no event is refused, and none faults but an encoded one; where a context issues, every instruction answers a
next state. -/
def Obligations.NothingIsRefused : Prop :=
  (∀ (i : Instr) (s : State) (r : Refusal), exec i s ≠ .refused r) ∧
  (∀ (i : Instr) (s : State) (f : Fault), exec i s = .fault f → i.hasWords = true) ∧
  (∀ (i : Instr) (s : State) (iss : Issue) (c : Ctx), s.issue = some iss → s.ctx? iss.key = some c → ∃ t, exec i s = .next t)

/-! ## Invariants and reset -/

/-- R3, R217: every step keeps the canonical form of every memory. -/
def Obligations.StepsKeepMemoryForm : Prop :=
  ∀ s t : State, memoriesWf s → step s = .next t → memoriesWf t

/-- R42: the reserved bits of HCAP read 0, and HCAP.SPEED is 0 exactly while the link is down; R39: the two ports never run in
different modes. -/
def portsWf (s : State) : Prop :=
  (∀ p : Fin 2, s.ports[p].hcap &&& 0xFFF0FC00 = 0 ∧ (s.ports[p].hcap.extractLsb' 16 4 = 0 ↔ s.ports[p].mode = .down)) ∧
  (s.ports[0].mode ≠ .down → s.ports[1].mode ≠ .down → s.ports[0].mode = s.ports[1].mode)

/-- Every step keeps the host ports lawful. -/
def Obligations.StepsKeepPorts : Prop :=
  ∀ s t : State, portsWf s → step s = .next t → portsWf t

/-- A context has the lanes of its kind (R123, R124): a thread one, a gang 32 or, with its pair's slot, 64; its checkpoints have
as many. -/
def lanesOk (c : Ctx) : Prop :=
  c.arch.shaped ∧ (c.kind = .rod → c.arch.lanes.length = 1) ∧ ∀ ar ∈ c.ckpt, ar.lanes.length = c.arch.lanes.length

/-- Every context, resident or saved, has the lanes of its kind; no rendezvous entry has more than 32 callers, and one that is
OPEN has fewer (R295, R297). -/
def contextsShaped (s : State) : Prop :=
  (∀ c ∈ s.ctxs, lanesOk c) ∧ (∀ l ∈ s.launches, ∀ c ∈ l.saved, lanesOk c) ∧
  ∀ e ∈ s.rdv, e.callers.length ≤ 32 ∧ (e.st = .opened → e.callers.length < 32)

/-- Every step keeps the lanes of every context. -/
def Obligations.StepsKeepLanes : Prop :=
  ∀ s t : State, contextsShaped s → step s = .next t → contextsShaped t

/-- R39, R42, R48: at reset the memories are in their canonical form and no context is there; both links are down, HCAP has its reset
value, and every launch queue is disabled with its registers 0. -/
def Obligations.ResetState : Prop :=
  memoriesWf State.reset ∧ contextsShaped State.reset ∧ portsWf State.reset ∧
  ∀ p : Fin 2, State.reset.ports[p].mode = .down ∧ State.reset.ports[p].hcap = 0x000003F8 ∧
    ∀ q : Fin 16, State.reset.ports[p].queues[q] = ⟨0, 0, false, 0, 0, 0⟩

/-! ## Registers -/

/-- R129, R132, R172–R175: each register-to-register instruction of family 0x01 answers the next state in which its
destination holds the result that the rules give, once for a uniform or an affine result and in each active lane for a varying
one, and the active lanes are at the next instruction; nothing else changes but what the streams that it names pop and take. -/
def Obligations.IntegerResults : Prop := ∀ i r, row i = some r → RunsAs i fun _ => r.form

/-- R142, R177–R179: the branches, calls, returns and jumps, NOP and MEET: the PC, link and meeting address of each active lane. -/
def Obligations.ControlResults : Prop := ∀ i f, controls i = some f → RunsAs i fun _ => f

/-- R129, R135, R189, R190: the floating-point instructions complete where no lane reads an abandoned result: the destination takes,
once for a uniform result or in each active lane for a varying one, the value of the function that the instruction's rule names,
with its operands in their order and the rounding mode of its register, and XSTAT takes the function's flags of every lane. What
those functions come to is FloatFunctions' to say; between their exact values FEXP2 and FLOG2 are the model's computation (log 13). -/
def Obligations.FloatResults : Prop := ∀ i r, frow i = some r → RunsAs i fun _ => r.form

/-- R137–R139, R173, R174, R196, R197, R271, R344, R358–R363: CMPM and FCMPM, which write a mask whose bit i is 1 exactly when lane i is
active and the condition holds in it; type moves, JOBST, VTEST and VKEY, and the cross-lane operations. -/
def Obligations.LaneResults : Prop :=
  (∀ i r, maskRow i = some r → RunsAs i fun _ => cmpm r) ∧ (∀ i r, fmaskRow i = some r → RunsAs i fun _ => fcmpm r) ∧
  ∀ i f, laneForms i = some f → RunsAs i fun _ => f

/-- R110, R112, R134, R140, R141, R213, R238: MOVXR gives the value of each special register, and MOVXW writes those of a context; PFCH
leaves every register as it is. MOVXW of PERM gives the issuer's region the 44 bits that exist and changes no other region. MOVXW of
TBASE faults ALIGN for a value that is no multiple of 4,096 and PERM for one outside the object's text, with EADDR the value;
otherwise it moves the text window of the issuer, on a reckoner only the value kept in its context, and parks the issuer for the fill
that it requests; no other window changes. Both fault ILL for an odd pair or one past the file's count, TYPE for a v pair, and UPART
where a part of the live set issues. -/
def Obligations.SpecialRegisters : Prop :=
  (∀ i f, special i = some f → RunsAs i f) ∧
  (∀ s iss c x a nm, Issuing s iss c → x = .perm ∨ x = .tbase → nm = (⟨[], [], [(regOfSv a, 2)]⟩ : Names) →
    (s.namesOk c nm = false → exec (.movxw x a) s = .next (s.deliver iss.key (Trap.one .ill iss.pc iss.pc))) ∧
    (s.namesOk c nm = true → regType (regOfSv a) ≠ .uniform →
      exec (.movxw x a) s = .next (s.deliver iss.key (Trap.one .type iss.pc iss.pc))) ∧
    (s.namesOk c nm = true → regType (regOfSv a) = .uniform → iss.exec ≠ c.liveSet →
      exec (.movxw x a) s = .next (s.deliver iss.key (Trap.one .upart iss.pc iss.pc)))) ∧
  ∀ (s : State) (iss : Issue) (c : Ctx) (k : Fin 32) (v : DWord) (a : SvReg) (o : CodeObject),
    a = .s ⟨2 * k.val, by omega⟩ → Ready s iss c ⟨[], [], [(regOfSv a, 2)]⟩ true true [] [] → v = pairAt c.arch 0 (.s k) →
    o = s.objectOf c.launch →
    (∃ t y, exec (.movxw .perm a) s = .next t ∧ t = { s with ctxs := t.ctxs, regions := t.regions } ∧
      (∀ j, j ≠ iss.key → t.ctx? j = s.ctx? j) ∧ t.ctx? iss.key = some y ∧ y.st = c.st ∧
      y.arch = pcs c.arch iss.exec (fun _ => Rules.after iss) ∧
      ∀ core l w, t.region? core l w = (s.region? core l w).map fun r =>
        if core = c.key.core ∧ l = c.launch ∧ w = c.group then { r with perm := BitVec.ofNat 64 (v.toNat % 2 ^ 44) } else r) ∧
    (v.toNat % 4096 ≠ 0 → exec (.movxw .tbase a) s = .next (s.deliver iss.key (Trap.one .align v iss.pc))) ∧
    (v.toNat % 4096 = 0 → ¬ (o.text ≤ v.toNat ∧ v.toNat < o.text + o.textSize) →
      exec (.movxw .tbase a) s = .next (s.deliver iss.key (Trap.one .perm v iss.pc))) ∧
    (v.toNat % 4096 = 0 → o.text ≤ v.toNat → v.toNat < o.text + o.textSize →
      ∃ t y, exec (.movxw .tbase a) s = .next t ∧ t = { s with ctxs := t.ctxs, windows := t.windows, fills := t.fills } ∧
        (∀ j, j ≠ iss.key → t.ctx? j = s.ctx? j) ∧ t.ctx? iss.key = some y ∧
        y.arch = { pcs c.arch iss.exec (fun _ => Rules.after iss) with tbase := v } ∧
        (c.away = true → y.st = c.st ∧ t.windows = s.windows ∧ t.fills = s.fills) ∧
        (c.away = false → ∀ w, s.window? c.launch c.key.core = some w → y.st = .parked .fill ∧
          (∃ f ∈ t.fills, f.joined.contains (c.launch, c.key.core) = true ∧ f.frame = frameNo c.key.core ∧ f.object = o.addr ∧ f.tbase = v ∧
            f.xb = w.xb) ∧
          ∀ l core, t.window? l core = (s.window? l core).map fun w =>
            if l = c.launch ∧ core = c.key.core then { w with tbase := v } else w))

/-- R143–R148, R155, R194, R208: every pattern of the formats is read as the layouts say. FADD, FSUB, FMUL and FFMA round the exact sum,
difference, product, and product and sum once, under every mode, with their flags, and give the results of R194 for zeros, infinities
and NaNs; HADD2, HMUL2 and HFMA2 do so in each half, to BF16 or FP16. -/
def sumsRound : Prop :=
  (∀ top : Bool, [fp32, bf16, fp16, e4m3 top, e5m2 top] = formats top ∧ ∀ f ∈ formats top, ∀ x, x < 2 ^ (1 + f.eb + f.mb) → reads f x) ∧
  (∀ (rm : Rm) (x y z : Word),
    sumRounds fp32 rm (num32 x) (num32 y) (pattern (faddWord rm x y)) ∧
    sumRounds fp32 rm (num32 x) (num32 y).negate (pattern (fsubWord rm x y)) ∧
    productRounds fp32 rm (num32 x) (num32 y) (pattern (fmulWord rm x y)) ∧
    fmaRounds fp32 rm (num32 x) (num32 y) (num32 z) (pattern (ffmaWord rm x y z))) ∧
  ∀ (rm : Rm) (ty : HalfTy) (f : Fmt) (x y z : Word), f = (match ty with | .bf16 => bf16 | .f16 => fp16) →
    halves f (fun h => sumRounds f rm (h x) (h y)) (hadd2Word rm ty x y) ∧
    halves f (fun h => productRounds f rm (h x) (h y)) (hmul2Word rm ty x y) ∧
    halves f (fun h => fmaRounds f rm (h x) (h y) (h z)) (hfma2Word rm ty x y z)

/-- R166, R200: FDIV, FRCP, FSQRT and FRSQ give the FP32 value nearest to the exact one, ties to even, with the flags of R155 and the rows of
R200; FEXP2 and FLOG2 give the rows of R200 and their exact values. -/
def specialsRound : Prop :=
  ∀ x y : Word,
    quotientRounds (num32 x) (num32 y) (pattern (fdivWord x y)) ∧ reciprocalRounds (num32 x) (pattern (frcpWord x)) ∧
    rootRounds (num32 x) (pattern (fsqrtWord x)) ∧ inverseRootRounds (num32 x) (pattern (frsqWord x)) ∧
    exp2Rows (num32 x) (fexp2Word x) ∧ log2Rows (num32 x) (flog2Word x)

/-- R195–R198, R209: FCMP is the order of the values, −0 equal to +0, and with a NaN the row of R197; FMIN and FMAX give an operand
unchanged, −0 below +0, and a NaN loses; FCLASS gives the bit of the class; FKEY gives the key of R209, which orders numbers as their
values are ordered and a NaN below them. -/
def comparisonsOrder : Prop :=
  (∀ (cond : FCond) (x y : Word),
    if (num32 x).isNan || (num32 y).isNan then fcondHolds cond x y = withNan cond ((num32 x).isSnan || (num32 y).isSnan)
    else ((fcondHolds cond x y).1 = true ↔ ordered cond (onLine (num32 x)) (onLine (num32 y))) ∧ (fcondHolds cond x y).2 = 0) ∧
  (∀ x y : Word, lesserGreater x y (minMaxWord false x y) (minMaxWord true x y)) ∧
  (∀ x : Word, classBit (num32 x) (fclassWord x)) ∧
  (∀ x : Word, fkeyWord .i32 x = x ^^^ 0x80000000 ∧ fkeyWord .f32 x = BitVec.ofNat 32 (keyOf fp32 32 x.toNat) ∧
    fkeyWord .bf16 x = BitVec.ofNat 32 (keyOf bf16 16 (x.toNat % 65536)) ∧ fkeyWord .f16 x = BitVec.ofNat 32 (keyOf fp16 16 (x.toNat % 65536))) ∧
  ∀ x y : Word, (num32 y).isNan = false →
    if (num32 x).isNan then (fkeyWord .f32 x).toNat < (fkeyWord .f32 y).toNat
    else ((fkeyWord .f32 x).toNat ≤ (fkeyWord .f32 y).toNat ↔ onLine (num32 x) ≤ onLine (num32 y))

/-- R148, R201–R203: FRND gives the integral value that its rounding chooses, with the sign of a; F2I the integer, or the nearest bound
with NV, and NX where it differs; I2F rounds an integer; FCVT rounds the value of one format to another, with the infinities, NaNs and
saturation of R148 and R203. That the E5M2 codes above 65,504 overflow FP16 is the model's choice (log 67). -/
def conversionsRound : Prop :=
  (∀ (rm : Rm) (x : Word), integralRounds rm x (frndWord rm x) ∧ (∀ ty, f2iWord rm ty x = integerOf rm ty (num32 x)) ∧
    roundsTo fp32 rm false (x.toInt : ℝ) false (pattern (i2fWord rm .i32 x)) ∧
    roundsTo fp32 rm false (x.toNat : ℝ) false (pattern (i2fWord rm .u32 x))) ∧
  ∀ (fpctl nfmt a : Word) (m : CvtMode), converts fpctl nfmt m a (pattern (fcvtWord fpctl nfmt m a))

/-- R149–R151, R205–R207: SCLE gives the smallest scale with which a magnitude fits; F4XP writes into its nibble the code that NFMT.NRM
chooses, saturating with OF; F4XU gives the value of a code under its header, rounded. -/
def blocksPack : Prop :=
  ∀ (x d c b nfmt : Word) (rm : Rm),
    scaleRounds (num32 x) (scleWord x) ∧
    packs (Rm.of (nfmt.extractLsb' 1 2)) d x (b.toNat % 8) c.toNat (f4xpWord nfmt d x b c) ∧
    unpacks rm c.toNat (x.toNat / 16 ^ (b.toNat % 8) % 16) (pattern (f4xuWord rm x b c))

/-- What the functions of the floating-point instructions come to, for every operand (R143–R155, R166, R194–R209). -/
def Obligations.FloatFunctions : Prop := sumsRound ∧ specialsRound ∧ comparisonsOrder ∧ conversionsRound ∧ blocksPack

/-- The frame of the register instructions: where no stream takes a push, the registers that an instruction does not name as its
destination, all flags and special registers (MOVXW apart), every other context, every region with its accumulators, every byte of
memory and the rest of the machine are unchanged. A pop is a load: it may bring a line into the frame's cache (R219), and the frame
here is that of one with room, and of storage that holds no error which a pop would correct and count (R226). -/
def Obligations.RegisterFrame : Prop :=
  ∀ i form s iss c pops t, registerForm i = some form → Issuing s iss c → (form s iss c).Meets s iss pops [] →
    (pops ≠ [] → cacheRoom s c 8 ∧ ∀ f ∈ s.flaws, f.bad ≠ 1) → exec i s = .next t →
    sameBut iss.key s t ∧ (pops = [] → t.cache = s.cache ∧ t.hostLines = s.hostLines) ∧ ∃ x, t.ctx? iss.key = some x ∧ x.st = c.st ∧
      (∀ lane r, r ∉ (form s iss c).names.dst → (∀ p ∈ (form s iss c).names.tup, r ∉ tupleRegs p.1 p.2) →
        (∀ p ∈ pops, r ≠ .v (strmReg p.reg)) → x.arch.reg lane r = c.arch.reg lane r) ∧
      (writesSpecial i = false → keepsSpecials c.arch x.arch)

/-- R103, R130, R131: words that no instruction has fault ILL at their PC, where a unit issues them. An instruction of the register
families that names a register past its file's count, or a read stream as a destination, faults ILL at its PC; one whose
destination's file does not fit its result type faults TYPE; one that needs the whole live set and has a part of it faults UPART:
in this order, with nothing else done. -/
def Obligations.OperandChecks : Prop :=
  (∀ (s : State) (iss : Issue) (ws : List Word) (e : Reject), s.issue = some iss → decodeWords ws = .error e →
      s.runWords ws = .next (s.deliver iss.key (Trap.one .ill iss.pc iss.pc))) ∧
  ∀ i form s iss c, registerForm i = some form → Issuing s iss c →
    (s.namesOk c (form s iss c).names = false →
      exec i s = .next (s.deliver iss.key (Trap.one .ill iss.pc iss.pc))) ∧
    (s.namesOk c (form s iss c).names = true → (form s iss c).typed = false →
      exec i s = .next (s.deliver iss.key (Trap.one .type iss.pc iss.pc))) ∧
    (s.namesOk c (form s iss c).names = true → (form s iss c).typed = true → (form s iss c).whole = true →
      iss.exec ≠ c.liveSet → exec i s = .next (s.deliver iss.key (Trap.one .upart iss.pc iss.pc)))

/-! ## Memory -/

/-- The lanes of an access at a scope pass their checks at the addresses and places given. -/
def passes (s : State) (c : Ctx) (ar : Arch) (f : AddrForm) (n : Nat) (k : AccessKind) (sc : Scope) (ls : List Nat) (va : Nat → DWord)
    (pl : Nat → Place) : Prop :=
  ∀ i ∈ ls, s.tryLane c ar f i n k sc = (va i, .ok (pl i))

/-- R133, R212, R215, R216, R225, R230, R231, R237: the address of a lane, and its checks: AOVF first, then those of R225, or for
LDL and STL, whose address is an offset into the workgroup's scratch, those of R237. Its offset is the sign-extended 32-bit value
that the register has there; only an affine offset whose exact value does not fit 32 bits overflows. The checks come in their order:
NULL below 0x1_0000, then ALIGN, then NOTMAPPED past the apertures, then PERM in the MMIO aperture. An address that passes gives a
place and no page to wait for. The domain aperture gives NOTMAPPED for a package outside the domain or an offset past its memory;
for the package's own number device memory, PERM for a write to text; for another package PERM where nothing is opened there, then
FLINK where no healthy route reaches it, else the package's memory. FLINK is not raised by an access that the frame's own line
serves, a .FRM load or store. The local aperture gives NOTMAPPED for a core that is not there,
for a workgroup without a region of the launch on it, and past the region's scratch, PERM for the number 0xF_FFFE, else the region's
scratch. That FLINK follows PERM is the model's reading (log 34). -/
def Obligations.AddressesAreChecked : Prop :=
  Code.byte .notmapped = 0x10 ∧
  (∀ (s : State) (c : Ctx) (ar : Arch) (f : AddrForm) (a : Pair) (lane n : Nat) (k : AccessKind) (sc : Scope) (va : DWord), f.base = some a →
    va = pairAt ar lane a + (ar.offset f.off lane).1 + f.disp →
    ((ar.offset f.off lane).2 = true → s.tryLane c ar f lane n k sc = (va, .fault .aovf)) ∧
    ((ar.offset f.off lane).2 = false →
      (s.resolve (s.accessor c) va n n k ≠ .fault .flink → s.tryLane c ar f lane n k sc = (va, s.resolve (s.accessor c) va n n k)) ∧
      (s.resolve (s.accessor c) va n n k = .fault .flink →
        ((∀ fr, c.frame? = some fr → s.line? fr (s.pasidOf c.launch) va.toNat = none) → s.tryLane c ar f lane n k sc = (va, .fault .flink)) ∧
        ∀ fr l, c.frame? = some fr → s.line? fr (s.pasidOf c.launch) va.toNat = some l →
          (sc = .frm → k = .load ∨ k = .store → s.tryLane c ar f lane n k sc = (va, .ok (l.place.plus (va.toNat % 128)))) ∧
          (∀ bit, k = .atomic bit → s.tryLane c ar f lane n k sc = (va, .fault .flink)) ∧
          (sc ≠ .frm → k = .store → s.tryLane c ar f lane n k sc = (va, .fault .flink))))) ∧
  (∀ (s : State) (c : Ctx) (ar : Arch) (f : AddrForm) (lane n : Nat) (k : AccessKind) (sc : Scope) (o : DWord), f.base = none → 0 < n →
    o = (ar.offset f.off lane).1 + f.disp →
    ((ar.offset f.off lane).2 = true → s.tryLane c ar f lane n k sc = (o, .fault .aovf)) ∧
    ((ar.offset f.off lane).2 = false →
      s.tryLane c ar f lane n k sc = (BitVec.ofNat 64 (o.toNat % 2 ^ 32),
        if ¬ n ∣ o.toNat then .fault .align
        else if o.toInt < 0 ∨ (((s.pwOf c).extractLsb' 16 8).toNat : Int) * (if isBeam c.key.core then 8192 else 4096) < o.toInt + n then .fault .notmapped
        else .ok (.scratch c.key.core c.launch c.group o.toNat)))) ∧
  (∀ (ar : Arch) (x : Src) (lane : Nat), lane < 64 →
      ((ar.offset x lane).2 = false → (ar.offset x lane).1 = (ar.srcWord lane x).signExtend 64) ∧
      ((ar.offset x lane).2 = true ↔ ∃ i, x = .op (.reg (.a i)) ∧
        ((ar.areg i).base.toInt + (ar.areg i).stride.toInt * lane < -2 ^ 31 ∨
          2 ^ 31 ≤ (ar.areg i).base.toInt + (ar.areg i).stride.toInt * lane))) ∧
  ∀ (s : State) (a : Accessor) (va : DWord) (n : Nat) (k : AccessKind),
    (va.toNat < 0x10000 → s.resolve a va n n k = .fault .null) ∧
    (0x10000 ≤ va.toNat → ¬ n ∣ va.toNat → s.resolve a va n n k = .fault .align) ∧
    (0x10000 ≤ va.toNat → n ∣ va.toNat → 2 ^ 57 ≤ va.toNat → s.resolve a va n n k = .fault .notmapped) ∧
    (n ∣ va.toNat → 0x1C0000000000000 ≤ va.toNat → va.toNat < 2 ^ 57 → s.resolve a va n n k = .fault .perm) ∧
    (∀ p, s.resolve a va n n k = .ok p → 0x10000 ≤ va.toNat ∧ n ∣ va.toNat ∧ va.toNat < 0x1C0000000000000) ∧
    (∀ p d, va.toNat = 2 ^ 56 + p * 2 ^ 45 + d → p < 2 ^ 10 → d < 2 ^ 45 → n ∣ va.toNat →
      s.resolve a va n n k =
        if p ∉ s.domain ∨ Config.devBytes ≤ d then .fault .notmapped
        else if p = s.pkg then if k ≠ .load ∧ s.isText d = true then .fault .perm else .ok (.dev d)
        else if ¬ (∃ o ∈ s.opened, o.1 = p ∧ o.2.1 = a.pasid ∧ o.2.2.1 ≤ d ∧ d < o.2.2.1 + o.2.2.2) then .fault .perm
        else if p ∈ s.deadPeers then .fault .flink
        else .ok (.dom p d)) ∧
    (∀ core w o, va.toNat = 3 * 2 ^ 55 + core * 2 ^ 40 + w * 2 ^ 20 + o → core < 2 ^ 14 → w < 2 ^ 20 → o < 2 ^ 20 → n ∣ va.toNat →
      s.resolve a va n n k =
        if s.enabled (BitVec.ofNat 14 core) = false then .fault .notmapped
        else if w = 0xFFFFE then .fault .perm
        else match s.region? (BitVec.ofNat 14 core) a.launch w with
          | none => .fault .notmapped
          | some r => if scratchBytes (BitVec.ofNat 14 core) r.pw < o + n then .fault .notmapped
              else .ok (.scratch (BitVec.ofNat 14 core) a.launch w o))

/-- R120, R229–R237: a load whose lanes pass their checks parks its thread for the reply; when the reply lands without an
error, each lane that takes part has the value that memory holds then, zero-extended, in its destination, every lane of the
converged set is at the next instruction, and the thread goes on.
That a load is performed in the step of its reply is the model's reading (log 14). -/
def Obligations.LoadsRead : Prop :=
  ∀ i f s iss c pops ps va pl, loads i = some f → Ready s iss c f.names f.typed f.once pops ps →
    Undisturbed s c.launch → (s.inLockstep c = true → drained c) →
    passes s c (pops.foldl Arch.pop c.arch) f.addr (bytesOf f.size) .load f.scope (taking f.once iss.exec) va pl →
    ∃ t w u x, exec i s = .next t ∧ t.ctx? iss.key = some w ∧ (∃ r, w.st = .parked (.reply r)) ∧
      exec (.memoryReply iss.key [] []) t = .next u ∧ u.ctx? iss.key = some x ∧ x.st = .live ∧
      ∃ m : State,
        m = (taking f.once iss.exec).foldl (fun m n => m.loadFill w (va n) (pl n) f.scope)
          (if f.prm then (taking f.once iss.exec).foldl (fun m n => if domainAperture (va n) then m else m.promote (pl n)) t else t) ∧
        let ar := ((taking f.once iss.exec).foldl
          (fun ar n => ar.putData n f.d f.size (m.loadValue w (va n) (pl n) (bytesOf f.size) f.scope)) (pops.foldl Arch.pop c.arch)).goto
            iss.exec (Rules.after iss)
        x.arch.s = ar.s ∧ x.arch.a = ar.a ∧ x.arch.lanes = ar.lanes ∧ x.arch.xstat = (ps.foldl Arch.push ar).xstat

/-- The frame of a load (R235, R236): from its issue to its reply it changes no byte of memory, no region and no other context,
and of its own context only the destination, the PCs and the touched-bank mask, where it does not promote, no stream takes
or still holds a push, and no line leaves the frame's cache. -/
def Obligations.LoadFrame : Prop :=
  ∀ i f s iss c va pl t u, loads i = some f → f.prm = false → Ready s iss c f.names f.typed f.once [] [] → drained c →
    Undisturbed s c.launch → cacheRoom s c (taking f.once iss.exec).length →
    passes s c c.arch f.addr (bytesOf f.size) .load f.scope (taking f.once iss.exec) va pl →
    exec i s = .next t → exec (.memoryReply iss.key [] []) t = .next u →
    (∀ p, u.homeByte p = s.homeByte p) ∧ u.regions = s.regions ∧ u.launches = s.launches ∧ u.jobs = s.jobs ∧ u.ports = s.ports ∧
    (∀ j, j ≠ iss.key → u.ctx? j = s.ctx? j) ∧
    ∃ x, u.ctx? iss.key = some x ∧ keepsSpecials { c.arch with touched := x.arch.touched } x.arch ∧ x.arch.xstat = c.arch.xstat ∧
      ∀ lane r, r ∉ f.names.dst → (∀ p ∈ f.names.tup, p.1 = f.d → r ∉ tupleRegs p.1 p.2) → x.arch.reg lane r = c.arch.reg lane r

/-- R226, R227, R231, R232, R375: an uncorrectable error under a thread's load faults MEMUE at the load with EADDR the address, and
its destination keeps its value. A thread's load, store or atomic whose address fails a check is not performed: the fault of the
check is delivered with EPC at the instruction and EADDR the address. -/
def Obligations.AccessesFault : Prop :=
  (∀ i f s iss c pops ps va pl t, loads i = some f → c.kind = .rod → Ready s iss c f.names f.typed f.once pops ps →
      taking f.once iss.exec = [0] → s.tests = [] → (s.inLockstep c = true → drained c) →
      passes s c (pops.foldl Arch.pop c.arch) f.addr (bytesOf f.size) .load f.scope [0] va pl → exec i s = .next t →
      ∃ m : State, exec (.memoryReply iss.key [0] []) t =
          .next (((m.deliver iss.key (Trap.one .memue (va 0) iss.pc)).freeWritten c.launch).settleInvals) ∧
        (∃ x, m.ctx? iss.key = some x ∧ x.st = .live ∧ x.arch.s = c.arch.s ∧ x.arch.lanes = c.arch.lanes)) ∧
  ∀ s iss c pops ps va code, c.kind = .rod → iss.exec = 1 →
    (∀ i f, loads i = some f → Ready s iss c f.names f.typed f.once pops ps →
      s.tryLane c (pops.foldl Arch.pop c.arch) f.addr 0 (bytesOf f.size) .load f.scope = (va, .fault code) →
      exec i s = .next (s.deliver iss.key (Trap.one code va iss.pc))) ∧
    (∀ i f, stores i = some f → Ready s iss c f.names true f.once pops ps → c.strm? f.d = none →
      s.tryLane c (pops.foldl Arch.pop c.arch) f.addr 0 (bytesOf f.size) .store f.scope = (va, .fault code) →
      exec i s = .next (s.deliver iss.key (Trap.one code va iss.pc))) ∧
    (∀ i f, atomics i = some f → f.op ≠ .fadd → Ready s iss c f.names f.typed f.once pops ps →
      s.tryLane c (pops.foldl Arch.pop c.arch) f.addr 0 (bytesOf f.size) (.atomic (hostAtomicBit f.op f.size)) f.scope = (va, .fault code) →
      exec i s = .next (s.deliver iss.key (Trap.one code va iss.pc)))

/-- R120, R235, R236, R237, R274: a store whose lanes pass their checks, none through the local aperture, completes: every lane of the
converged set is at the next instruction, and no register but those that its streams pop changes, where a lock-step pair's gated store
buffer has room (R396). What a relaxed store of one lane
writes is what a load by the same thread at the same address and scope reads after it: the low bytes of the stored register,
lowest address first. -/
def Obligations.StoresComplete : Prop :=
  (∀ i f s iss c pops ps va pl, stores i = some f → Ready s iss c f.names true f.once pops ps → c.strm? f.d = none →
      passes s c (pops.foldl Arch.pop c.arch) f.addr (bytesOf f.size) .store f.scope (taking f.once iss.exec) va pl →
      (∀ n ∈ taking f.once iss.exec, Access.windowed ⟨n, va n, pl n, 0, 0, none⟩ = false) →
      s.gateFull c (taking f.once iss.exec).length = false →
      ∃ t x, exec i s = .next t ∧ t.ctx? iss.key = some x ∧ x.st = c.st ∧
        x.arch.s = c.arch.s ∧ x.arch.a = c.arch.a ∧
        x.arch.lanes = ((pops.foldl Arch.pop c.arch).goto iss.exec (Rules.after iss)).lanes) ∧
  ∀ i f s iss c va pl n t x, stores i = some f → f.ord = .rlx → Ready s iss c f.names true f.once [] [] → c.strm? f.d = none →
    drained c → s.inLockstep c = false → (∀ g ∈ s.gates, g.key ≠ iss.key) → taking f.once iss.exec = [n] →
    passes s c c.arch f.addr (bytesOf f.size) .store f.scope [n] va pl → Access.windowed ⟨n, va n, pl n, 0, 0, none⟩ = false →
    exists? s (pl n) = true → memoriesWf s → exec i s = .next t → t.ctx? iss.key = some x →
    t.loadValue x (va n) (pl n) (bytesOf f.size) f.scope = dataOf c.arch n (.reg f.d) f.size

/-- The frame of a relaxed store (R236, R274): every byte of memory but those that its lanes store to, every region but for its
scratch, every other context's registers and its own special registers are unchanged. A store wider than the frame first writes a
dirty line of its address home, and a line that it brings into a full bank of the cache sends another home; the frame here is that
of a line which is not dirty, in banks with room. -/
def Obligations.StoreFrame : Prop :=
  ∀ i f s iss c va pl t, stores i = some f → f.ord = .rlx → Ready s iss c f.names true f.once [] [] → c.strm? f.d = none →
    drained c → s.inLockstep c = false → cacheRoom s c (taking f.once iss.exec).length →
    passes s c c.arch f.addr (bytesOf f.size) .store f.scope (taking f.once iss.exec) va pl →
    (∀ n ∈ taking f.once iss.exec, Access.windowed ⟨n, va n, pl n, 0, 0, none⟩ = false) →
    (∀ n ∈ taking f.once iss.exec, ∀ fr l, c.frame? = some fr → s.line? fr (s.pasidOf c.launch) (va n).toNat = some l → l.dirty = 0) →
    exec i s = .next t →
    (∀ q, (∀ n ∈ taking f.once iss.exec, ∀ j, j < bytesOf f.size → home s q ≠ home s ((pl n).plus j)) →
      t.homeByte q = s.homeByte q) ∧
    (∀ core w l, (t.region? core l w).map (fun r => { r with scratch := [] }) =
      (s.region? core l w).map (fun r => { r with scratch := [] })) ∧
    (∀ j, j ≠ iss.key → (t.ctx? j).map Ctx.arch = (s.ctx? j).map Ctx.arch) ∧
    (∃ x, t.ctx? iss.key = some x ∧ keepsSpecials { c.arch with touched := x.arch.touched } x.arch ∧ x.arch.xstat = c.arch.xstat) ∧
    t.launches = s.launches ∧ t.jobs = s.jobs ∧ t.ports = s.ports

/-- R212, R214: a thread's store through the local aperture waits for the owning core: one that PERM or ownership lets in is
performed there, another faults WINPERM with EADDR its address and writes nothing. -/
def Obligations.WindowStores : Prop :=
  ∀ i f s iss c va pl t core l w off r, stores i = some f → f.ord = .rlx → c.kind = .rod → iss.exec = 1 →
    Ready s iss c f.names true f.once [] [] → c.strm? f.d = none → drained c → s.inLockstep c = false → Undisturbed s c.launch →
    passes s c c.arch f.addr (bytesOf f.size) .store f.scope [0] va pl → pl 0 = .scratch core l w off →
    Access.windowed ⟨0, va 0, pl 0, 0, 0, none⟩ = true → s.region? core l w = some r → memoriesWf s → exec i s = .next t →
    (State.windowAllowed (s.accessor c) r = true →
      ∃ u x, exec (.memoryReply iss.key [] []) t = .next u ∧ u.ctx? iss.key = some x ∧ x.st = .live ∧
        (x.arch.lane 0).pc = Rules.after iss ∧
        ∀ j, j < bytesOf f.size → u.homeByte (.scratch core l w (off + j)) = (dataOf c.arch 0 (.reg f.d) f.size).extractLsb' (8 * j) 8) ∧
    (State.windowAllowed (s.accessor c) r = false →
      ∃ m : State, exec (.memoryReply iss.key [] []) t =
          .next (((m.deliver iss.key (Trap.one .winperm (va 0) iss.pc)).freeWritten c.launch).settleInvals) ∧
        ∀ p, m.homeByte p = s.homeByte p)

/-- R43, R120, R239–R243: an atomic whose lanes pass their checks, none of them a PCIe AtomicOp or through the local aperture, is
performed when its reply lands: lane by lane in ascending order each reads the value that its own step finds and writes the new
one, each has the old value in its destination, and the thread goes on.
That an atomic is performed in the step of its reply is the model's reading (log 14). -/
def Obligations.AtomicsPerform : Prop :=
  ∀ i f s iss c pops ps va pl, atomics i = some f → Ready s iss c f.names f.typed f.once pops ps → Undisturbed s c.launch →
    (f.op = .fadd → ∀ n ∈ taking f.once iss.exec, isAbandoned ((pops.foldl Arch.pop c.arch).opWord n f.c) = false) →
    passes s c (pops.foldl Arch.pop c.arch) f.addr (bytesOf f.size) (.atomic (hostAtomicBit f.op f.size)) f.scope (taking f.once iss.exec) va pl →
    (∀ n ∈ taking f.once iss.exec, Access.windowed ⟨n, va n, pl n, 0, 0, none⟩ = false ∧
      ((∃ a, pl n = .host a) → s.ports[diePort (coreDie c.key.core)].mode = .cxl)) →
    ∃ t w u x, exec i s = .next t ∧ t.ctx? iss.key = some w ∧
      exec (.memoryReply iss.key [] []) t = .next u ∧ u.ctx? iss.key = some x ∧ x.st = .live ∧
      let ar0 := pops.foldl Arch.pop c.arch
      let done := inOrder (t.relBefore iss.key f.ord (domainScope ((taking f.once iss.exec).map va) f.scope)) w f.op (bytesOf f.size)
        (accesses (taking f.once iss.exec) va pl (fun n => dataOf ar0 n f.c f.size)
          (fun n => (f.q.map fun o => dataOf ar0 n o f.size).getD 0))
      let ar := (done.2.foldl (fun ar v => ar.putData v.1 f.d f.size v.2) ar0).goto iss.exec (Rules.after iss)
      x.arch.s = ar.s ∧ x.arch.lanes = ar.lanes ∧
      (pops = [] → ps = [] → s.inLockstep c = false → ∀ p, u.homeByte p = done.1.homeByte p)

/-- R240, R243, R274: one atomic at its serialization point: the old value is what the home holds once a dirty line of the frame has
gone there, and the bytes of its location hold the new value, or the old one where nothing is written; every other byte of
memory keeps the value that it has after the line went home. The new value at the access width is the wrapping sum, the signed
minimum or maximum, the bitwise result, the exchanged value, or the compare-and-swap's. -/
def Obligations.AtomicSteps : Prop :=
  (∀ (op : AtomicOp) (n : Nat) (m c q : BitVec 128), n ∈ [4, 8, 16] → m.toNat < 2 ^ (8 * n) → c.toNat < 2 ^ (8 * n) →
      atomicResult afaddWord op n m c q = newValue op n m c q) ∧
  ∀ (s : State) (c : Ctx) (op : AtomicOp) (n : Nat) (x : Access) (m : BitVec 128), n ∈ [4, 8, 16] → exists? s x.place = true → s.unreachable x.place = false →
    memoriesWf s → m = BitVec.ofNat 128 (leNat ((s.syncHome c x.va x.place).homeBytes x.place n)) →
    (s.atomicAt c op n x).2 = m ∧
    (∀ j, j < n → (s.atomicAt c op n x).1.homeByte (x.place.plus j) =
      ((atomicResult afaddWord op n m x.x x.y).getD m).extractLsb' (8 * j) 8) ∧
    ∀ q, (∀ j, j < n → home s q ≠ home s (x.place.plus j)) →
      (s.atomicAt c op n x).1.homeByte q = (s.syncHome c x.va x.place).homeByte q

/-! ## Streams, ordering, iteration -/

/-- R244–R250: STRM.OPEN of a valid descriptor puts the register into stream mode at element 0 and gives 0; of another it closes
the register and gives 1; STRM.CLOSE closes it: a register that was open holds the last element. Every push of the thread's
write streams is performed first, and the other streams and registers stay as they are.
The plain value of an open stream register is the model's reading (log 27). -/
def Obligations.StreamsOpenAndClose : Prop :=
  ∀ s iss c d a st, Issuing s iss c → c.kind = .rod → iss.exec = 1 → 56 + st.val < c.arch.vc →
    (∀ x, Ready s iss c (pairNames d a) (regType d == .uniform) true [] [] → s.readDesc c (spairAt c a) 8 8 = .ok x →
      ∃ t y, exec (.strmOpen d a st) s = .next t ∧ t.ctx? iss.key = some y ∧ y.st = c.st ∧
        (∃ i, d = .s i ∧ y.arch.s = c.arch.s.set i (if strmValid (BitVec.ofNat 512 x) then 0 else 1)) ∧
        y.arch.streams[st] = (if strmValid (BitVec.ofNat 512 x) then some ⟨BitVec.ofNat 512 x, 0, 0⟩ else none) ∧
        (∀ j, j ≠ st → y.arch.streams[j] = c.arch.streams[j]) ∧ y.arch.pushes = [] ∧
        (y.arch.lane 0).pc = Rules.after iss ∧ (∀ r, r ≠ strmReg st → y.arch.vreg 0 r = c.arch.vreg 0 r) ∧
        y.arch.vreg 0 (strmReg st) = ((c.arch.streams[st]).map Stream.last).getD (c.arch.vreg 0 (strmReg st))) ∧
    ∃ t y, exec (.strmClose st) s = .next t ∧ t.ctx? iss.key = some y ∧ y.st = c.st ∧ y.arch.s = c.arch.s ∧
      y.arch.streams[st] = none ∧ (∀ j, j ≠ st → y.arch.streams[j] = c.arch.streams[j]) ∧ y.arch.pushes = [] ∧
      (y.arch.lane 0).pc = Rules.after iss ∧ (∀ r, r ≠ strmReg st → y.arch.vreg 0 r = c.arch.vreg 0 r) ∧
      y.arch.vreg 0 (strmReg st) = ((c.arch.streams[st]).map Stream.last).getD (c.arch.vreg 0 (strmReg st))

/-- R285–R287, R293, R294: FENCE releases and acquires at its scope: at .DEV or wider it clears the touched bits that the scope
probes, leaves in the frame's cache only lines that hold a byte not yet home, none of them in a bank group that the
issuer had touched, and sets the touched bits of those lines' bank groups, at .DEV or wider too by the model's reading (log 68). It changes no register, and the lanes go on. CFL leaves no dirty byte in the frame's line at each of its
addresses, and with .INV no line; its lanes go on and no other register changes. -/
def Obligations.FenceAndFlush : Prop :=
  (∀ s iss c sc, Issuing s iss c →
      ∃ t y, exec (.fence sc) s = .next t ∧ t.ctx? iss.key = some y ∧ y.st = c.st ∧ y.arch.s = c.arch.s ∧ wentOn c y iss ∧
        (sc ≠ .frm → s.inLockstep c = false → drained c → ∀ f, c.frame? = some f →
          (∀ i, i < 64 → (y.arch.touched.getLsbD i = true ↔
            (c.arch.touched.getLsbD i = true ∧ (probeBits sc).getLsbD i = false) ∨ ∃ l ∈ t.cache, l.frame = f ∧ l.place.group = i)) ∧
          ∀ l ∈ t.cache, l.frame = f → l.dirty ≠ 0 ∧ c.arch.touched.getLsbD l.place.group = false)) ∧
  ∀ s iss c inv a b pops, Ready s iss c (AddrForm.names ⟨some a, .op b, 0⟩) true
      ((AddrForm.types ⟨some a, .op b, 0⟩).all (· == .uniform)) pops [] →
    (∀ n ∈ taking ((AddrForm.types ⟨some a, .op b, 0⟩).all (· == .uniform)) iss.exec,
      cflFault ((pops.foldl Arch.pop c.arch).address ⟨some a, .op b, 0⟩ n) ((pops.foldl Arch.pop c.arch).offset (.op b) n).2 = none) →
    ∃ t y, exec (.cfl inv a b) s = .next t ∧ t.ctx? iss.key = some y ∧ y.st = c.st ∧ y.arch.s = c.arch.s ∧
      y.arch.lanes = ((pops.foldl Arch.pop c.arch).goto iss.exec (Rules.after iss)).lanes ∧
      ∀ n ∈ taking ((AddrForm.types ⟨some a, .op b, 0⟩).all (· == .uniform)) iss.exec, ∀ f, c.frame? = some f →
        match t.line? f (s.pasidOf c.launch) ((pops.foldl Arch.pop c.arch).address ⟨some a, .op b, 0⟩ n).toNat with
        | some l => inv = false ∧ l.dirty = 0
        | none => True

/-- R180–R183, R186, R187: ITER.INIT loads a slot with a valid descriptor and gives 0, and with another gives 1 and changes no
slot. ITER.NEXT and ITER.STEP run the next iteration of a chunk that has one: the slot is ACTIVE at it, its indices are in their
registers, and the thread is at the body. Where the chunk is used up they wait for a claim, and its reply takes the next chunk from
the counter: the counter advances by the chunk, and the thread enters the body at its first iteration or, with no iteration left,
leaves the nest. That the claim reads and advances the counter in the step of its reply is the model's reading (log 14), and that
ITER.INIT reads its descriptor at .DEV its choice (log 59). -/
def Obligations.IterationRuns : Prop :=
  (∀ s iss c slot d a x, c.kind = .rod → Ready s iss c (pairNames d a) (regType d == .uniform) true [] [] →
      s.readDesc c (spairAt c a) 8 7 = .ok x →
      ∃ t y, exec (.iterInit slot d a) s = .next t ∧ t.ctx? iss.key = some y ∧ y.st = c.st ∧
        gives c y iss d (if nestValid (BitVec.ofNat 448 x) (s.objectOf c.launch).vcnt then 0 else 1) ∧
        (∀ j, j ≠ slot → y.arch.iter[j] = c.arch.iter[j]) ∧
        y.arch.iter[slot] = (if nestValid (BitVec.ofNat 448 x) (s.objectOf c.launch).vcnt then ⟨.loaded, BitVec.ofNat 448 x, 0, 0, 0⟩
          else c.arch.iter[slot])) ∧
  ∀ i s iss c f va, iters i iss c = some f → c.kind = .rod → iss.exec = 1 → f.ready = true → c.arch.vc ≤ 64 →
    nestValid c.arch.iter[f.slot].desc c.arch.vc = true →
    Ready s iss c ⟨[], nestRegs c.arch.iter[f.slot].desc, []⟩ true false [] [] → va = nestCnt c.arch.iter[f.slot].desc → Undisturbed s c.launch →
    (f.l < c.arch.iter[f.slot].e.toNat →
      ∃ t y, exec i s = .next t ∧ t.ctx? iss.key = some y ∧ y.st = c.st ∧ y.arch.s = c.arch.s ∧ (y.arch.lane 0).pc = f.body ∧
        y.arch.iter[f.slot] = ⟨.active, c.arch.iter[f.slot].desc, f.body, BitVec.ofNat 64 f.l, c.arch.iter[f.slot].e⟩ ∧
        indexed c.arch.iter[f.slot].desc f.l y.arch) ∧
    (c.arch.iter[f.slot].e.toNat ≤ f.l → memoriesWf s → drained c → s.inLockstep c = false → ∀ p, s.resolve (s.accessor c) va 8 8 (.atomic none) = .ok p →
      exists? s p = true → Access.windowed ⟨0, va, p, 0, 0, none⟩ = false →
      ∃ t w u y n, exec i s = .next t ∧ t.ctx? iss.key = some w ∧ n = leNat ((t.syncHome w va p).homeBytes p 8) ∧
        exec (.memoryReply iss.key [] []) t = .next u ∧ u.ctx? iss.key = some y ∧ y.st = .live ∧ y.arch.s = c.arch.s ∧
        leNat (u.homeBytes p 8) = (n + chunk c.arch.iter[f.slot].desc n) % 2 ^ 64 ∧
        y.arch.iter[f.slot] = ⟨.active, c.arch.iter[f.slot].desc, f.body, BitVec.ofNat 64 n,
          BitVec.ofNat 64 (n + chunk c.arch.iter[f.slot].desc n)⟩ ∧
        (y.arch.lane 0).pc = (if 0 < chunk c.arch.iter[f.slot].desc n then f.body else f.out) ∧
        (0 < chunk c.arch.iter[f.slot].desc n → indexed c.arch.iter[f.slot].desc n y.arch))

/-! ## Jobs, tags, MWAIT, barriers -/

/-- R251, R264–R267, R366: COPY, GATH, SCAT and COLL give 2 where the tag is not FREE, 3 for a card that breaks a rule, 1 where the
scheduler is full, and otherwise 0: the job enters the scheduler with the card, and its tag is PENDING with STATE 1. A
submission that does not give 0 leaves the scheduler and the tags as they are.
That a card is read in the submitting step is the model's reading (log 14). -/
def Obligations.JobsEnter : Prop :=
  ∀ i f s iss c u x v card, submits i = some f → Ready s iss c (pairNames f.d f.a) (regType f.d == .uniform) true [] [] →
    s.readDesc c (spairAt c f.a) 64 0 = .ok u → (s.release iss.key f.scope).readPieces c (spairAt c f.a) (spairAt c f.a) 32 = .ok x →
    card = BitVec.ofNat 2048 x →
    v = (if c.arch.tags[f.tag].st ≠ .free then (2 : Word) else if cardValid f.coll f.kinds card = false then 3
      else if 64 ≤ (s.jobsOf c.scheduler).length then 1 else 0) →
    ∃ t y, exec i s = .next t ∧ t.ctx? iss.key = some y ∧ y.st = c.st ∧ gives c y iss f.d v ∧
      (v ≠ 0 → t.jobs = s.jobs ∧ y.arch.tags = c.arch.tags) ∧
      (v = 0 → y.arch.tags = c.arch.tags.set f.tag ⟨.pending, 0x00100000⟩ ∧
        ∃ j, t.jobs = s.jobs ++ [j] ∧ j.card = card ∧ j.tag = f.tag ∧ j.uid = c.uid ∧ j.frame = c.scheduler ∧ j.st = .queued ∧
          j.code = none)

/-- R264, R268, R269: WAITANY and FFR give the lowest SET tag of the mask or 64, WAITALL the number of SET tags; WAITANY parks while
the mask has a PENDING tag and no SET one, WAITALL while it has a PENDING tag, and FFR never; TAGCLR frees the SET tags of the
mask and keeps their status words. -/
def Obligations.TagsWait : Prop :=
  ∀ s iss c d a m, m = spairAt c a →
    (Ready s iss c (pairNames d a) (regType d == .uniform) true [] [] →
      (((∃ t, tagIn c m .set t) ∨ ∀ t, ¬ tagIn c m .pending t) →
        ∃ t y x, exec (.waitany d a) s = .next t ∧ t.ctx? iss.key = some y ∧ y.st = c.st ∧ gives c y iss d x ∧ lowestSet c m x) ∧
      ((∀ t, ¬ tagIn c m .set t) → (∃ t, tagIn c m .pending t) →
        ∃ t y, exec (.waitany d a) s = .next t ∧ t.ctx? iss.key = some y ∧ y.st = .parked .tags ∧ y.arch.s = c.arch.s ∧ y.arch.lanes = c.arch.lanes) ∧
      ((∀ t, ¬ tagIn c m .pending t) →
        ∃ t y x, exec (.waitall d a) s = .next t ∧ t.ctx? iss.key = some y ∧ y.st = c.st ∧ gives c y iss d x ∧
          x.toNat = Set.ncard { t | tagIn c m .set t }) ∧
      ((∃ t, tagIn c m .pending t) →
        ∃ t y, exec (.waitall d a) s = .next t ∧ t.ctx? iss.key = some y ∧ y.st = .parked .tags) ∧
      ∃ t y x, exec (.ffr d a) s = .next t ∧ t.ctx? iss.key = some y ∧ y.st = c.st ∧ gives c y iss d x ∧ lowestSet c m x) ∧
    (Ready s iss c ⟨[], [], [(.s ⟨2 * a.k.val, by omega⟩, 2)]⟩ true true [] [] →
      ∃ t y, exec (.tagclr a) s = .next t ∧ t.ctx? iss.key = some y ∧ y.st = c.st ∧ y.arch.s = c.arch.s ∧ wentOn c y iss ∧
        ∀ t : Fin 64, (tagIn c m .set t → y.arch.tags[t] = ⟨.free, c.arch.tags[t].status⟩) ∧
          (¬ tagIn c m .set t → y.arch.tags[t] = c.arch.tags[t]))

/-- R270: MWAIT of a value that is at least x, unsigned, is done at once with that value; otherwise it parks. A write to the
line, the end of its limit, or a poll of host memory in PCIe-only mode reads again in the same execution, and a value of at least
x, or any value once the limit has passed, ends it. -/
def Obligations.MwaitWaits : Prop :=
  (∀ s iss c sc limit (k : Fin 32) a b p v, Ready s iss c ⟨[], [], [(.s ⟨2 * k.val, by omega⟩, 2), (.s ⟨2 * a.k.val, by omega⟩, 2), (.s ⟨2 * b.k.val, by omega⟩, 2)]⟩ true true [] [] →
    drained c → s.inLockstep c = false → s.resolveRead (s.accessor c) (spairAt c a) 8 8 .load = .ok p →
    v = (s.loadValue c (spairAt c a) p 8 sc).setWidth 64 →
    ∃ t y, exec (.mwait sc limit (.s k) a b) s = .next t ∧ t.ctx? iss.key = some y ∧
      ((spairAt c b).toNat ≤ v.toNat → y.st = .live ∧ pairAt y.arch 0 (.s k) = v ∧ wentOn c y iss) ∧
      (v.toNat < (spairAt c b).toNat → y.arch.s = c.arch.s ∧ y.arch.lanes = c.arch.lanes ∧ ∃ since,
        y.st = .parked (.mwait (spairAt c a) (some p) (.s k) (spairAt c b) sc
          (if limit.val = 0 then none else some (s.tick + 2 ^ limit.val)) since (Rules.after iss)))) ∧
  ∀ s key c va p q k x sc deadline polled next v, s.ctx? key = some c →
    c.st = .parked (.mwait va p (.s k) x sc deadline polled next) → s.resolveRead (s.accessor c) va 8 8 .load = .ok q →
    s.struck key = false → s.bankTested c.launch (some c.core) = false →
    v = (s.loadValue c va q 8 sc).setWidth 64 →
    (c.woken = true → x.toNat ≤ v.toNat →
      ∃ t y, exec (.mwaitWake key) s = .next t ∧ t.ctx? key = some y ∧ y.st = .live ∧ pairAt y.arch 0 (.s k) = v ∧
        y.arch.lanes = (c.arch.goto c.liveSet next).lanes) ∧
    (c.woken = true → v.toNat < x.toNat → deadline = none →
      ∃ t y, exec (.mwaitWake key) s = .next t ∧ t.ctx? key = some y ∧ (∃ r, y.st = .parked r) ∧ y.woken = false) ∧
    (∀ n, deadline = some n → n ≤ s.tick →
      ∃ t y, exec (.mwaitLimitExpiry key) s = .next t ∧ t.ctx? key = some y ∧ y.st = .live ∧ pairAt y.arch 0 (.s k) = v) ∧
    (∀ h, q = .host h → s.ports[diePort (coreDie c.key.core)].mode = .pcie → polled + 2048 ≤ s.tick → x.toNat ≤ v.toNat → p = some q →
      ∃ t y, exec (.mwaitPoll key) s = .next t ∧ t.ctx? key = some y ∧ y.st = .live ∧ pairAt y.arch 0 (.s k) = v)

/-- R78, R79, R354–R356: a BAR arrives with its active lanes. Where they are no members of the cell it gives 1. Where they complete the
phase, the phase ends and it gives 0: ARRIVED is 0, PHASE goes up by one, and MEMBERS takes in the joins and loses the leaves. Where
members are missing it waits with its mark set. A waiting thread that issues its BAR again after the phase has ended gives 0.
That MEMBERS + JOINS - LEAVES stops at 0 is the model's choice (log 57). -/
def Obligations.BarrierArrives : Prop :=
  ∀ s iss c sc d a p m g, Ready s iss c (pairNames d a) (regType d == .uniform) true [] [] →
    s.resolveCell c (spairAt c a) = .ok p → exists? s p = true → (s.launch? c.launch).bind Launch.logRing = none →
    drained c → s.inLockstep c = false → memoriesWf s →
    (∀ phase, c.arch.mark = some (iss.pc, phase) → (s.cellAt p).phase ≠ phase →
      ∃ t y, exec (.bar64 sc d a) s = .next t ∧ t.ctx? iss.key = some y ∧ y.st = c.st ∧ gives c y iss d 0 ∧ y.arch.mark = none) ∧
    ((c.arch.mark.map (·.1)) ≠ some iss.pc → m = (s.release iss.key sc).syncHome c (spairAt c a) p → g = m.cellAt p →
      ∃ t y, exec (.bar64 sc d a) s = .next t ∧ t.ctx? iss.key = some y ∧
        (g.members < g.arrived + (lanesOf iss.exec).length → y.st = c.st ∧ gives c y iss d 1) ∧
        (g.members = g.arrived + (lanesOf iss.exec).length → y.st = c.st ∧ gives c y iss d 0 ∧
          t.cellAt p = ⟨(g.members + g.joins - g.leaves) % 2 ^ 32, 0, g.phase + 1, 0, 0⟩) ∧
        (g.arrived + (lanesOf iss.exec).length < g.members →
          y.st = .parked (.barrier p g.phase) ∧ y.arch.mark = some (iss.pc, g.phase) ∧ y.arch.s = c.arch.s ∧
          y.arch.lanes = c.arch.lanes ∧ t.cellAt p = { g with arrived := g.arrived + (lanesOf iss.exec).length }))

/-! ## Gangs -/

/-- R296–R302, R307: a GCALL whose target is a leaf of its object runs the leaf itself where the launch has no leaf regions, the
thread is on a reckoner, or the frame's table has no entry for it, unless the leaf is marked BEAMONLY: it goes to the leaf with
its key in s1 and 1 in s2, and its link is set. Otherwise it joins the open entry of its launch, leaf and key, which seals with
its 32nd caller, or opens an entry that is free, and waits. -/
def gangCallsRun : Prop :=
  ∀ i f s iss c pops leaf timeout beamonly key, gangCalls i = some f → c.kind = .rod → Ready s iss c f.names true false pops [] →
    8 ≤ (s.objectOf c.launch).vcnt → 3 ≤ (s.objectOf c.launch).scnt → c.arch.link = none →
    leaf = s.forwardAll (coreDie c.key.core) c.launch Config.forwardMax (f.target iss (pops.foldl Arch.pop c.arch)) →
    (s.objectOf c.launch).leafAt leaf = some (timeout, beamonly) → key = (pops.foldl Arch.pop c.arch).opWord 0 f.key →
    let atHome := c.away = true ∨ pwReg (pktBeampw (s.pktOf c.launch)) = 0
    let room := (∃ n, n < 64 ∧ ∀ e ∈ s.rdv, e.frame = frameNo c.key.core → e.num ≠ n) ∨
      ∃ e ∈ s.rdv, e.frame = frameNo c.key.core ∧ e.st = .opened ∧ e.launch = c.launch ∧ e.leaf = leaf ∧ e.key = key
    (beamonly = false → atHome ∨ ¬ room →
      ∃ t y, exec i s = .next t ∧ t.ctx? iss.key = some y ∧ y.st = c.st ∧ y.arch.link = some (Rules.after iss) ∧
        y.arch.s = (c.arch.s.set 1 key).set 2 1 ∧ y.arch.a = c.arch.a ∧
        y.arch.lanes = (pcs (pops.foldl Arch.pop c.arch) iss.exec fun _ => leaf).lanes) ∧
    (¬ atHome → room →
      ∃ t y, exec i s = .next t ∧ t.ctx? iss.key = some y ∧ y.st = .parked (.gcall iss.pc (Rules.after iss) pops) ∧
        y.arch.s = c.arch.s ∧ y.arch.lanes = c.arch.lanes ∧
        ∃ e ∈ t.rdv, e.frame = frameNo c.key.core ∧ e.launch = c.launch ∧ e.leaf = leaf ∧ e.key = key ∧
          e.callers.getLast? = some c.uid ∧ (e.callers.length = 32 → e.st = .sealed) ∧ (e.callers.length < 32 → e.st = .opened))

/-- R301, R302, R308: GRET in a thread that runs its leaf itself goes back to the link. In a gang that an entry formed it ends the
active lanes, and each of their callers, which waits in its GCALL, has v0–v3 of its lane and the gang's sticky flags, and goes on
behind its GCALL. -/
def gangReturnsRun : Prop :=
  ∀ s iss c, Issuing s iss c →
    (∀ pc, c.kind = .rod → c.arch.link = some pc →
      ∃ t y, exec .gret s = .next t ∧ t.ctx? iss.key = some y ∧ y.st = c.st ∧ y.arch = { pcs c.arch iss.exec (fun _ => pc) with link := none }) ∧
    ∀ f e (who : Nat → Ctx), c.kind = .called f e → distinct s → (∀ r n, s.regionOf c = some r → (r.cvg[(n : Fin 8)]).waiting = []) →
      (∀ n, iss.exec.getLsbD n = true → who n ∈ s.ctxs ∧ (who n).kind = .rod ∧ (who n).arch.lanes.length = 1 ∧
        (c.arch.lane n).caller = some (who n).uid ∧ ∃ call next pops, (who n).st = .parked (.gcall call next pops)) →
      (∀ m n, iss.exec.getLsbD m = true → iss.exec.getLsbD n = true → (who m).uid = (who n).uid → m = n) →
      ∃ t z, exec .gret s = .next t ∧ t.ctx? iss.key = some z ∧ (∀ n, iss.exec.getLsbD n = true → (z.arch.lane n).live = false) ∧
        ∀ n call next pops, iss.exec.getLsbD n = true → (who n).st = .parked (.gcall call next pops) →
          ∃ y, t.ctx? (who n).key = some y ∧ y.st = .live ∧ (y.arch.lane 0).pc = next ∧
            (∀ j : Fin 4, y.arch.vreg 0 ⟨j.val, by omega⟩ = c.arch.vreg n ⟨j.val, by omega⟩) ∧
            y.arch.xstat &&& 0x1F = ((who n).arch.xstat ||| c.arch.xstat) &&& 0x1F

/-- Gang calls and the returns from them (R296–R302, R307, R308). -/
def Obligations.GangCallsReturn : Prop := gangCallsRun ∧ gangReturnsRun

/-- R309–R313: GROW gives 0 at once where the gang has the count already or its region has the bytes free and no GROW of the region
waits; it then has the new registers, which read 0. It gives 1, with XSTAT.GDENY set, where the count or the bytes could never
be had. SHRINK lowers the count, at most to the object's, and the bytes that it releases drain. -/
def Obligations.GangsGrowAndShrink : Prop :=
  ∀ i s iss c r, c.kind ≠ .rod → s.regionOf c = some r →
    (∀ d b n, grows i = some (d, b) → Ready s iss c ⟨b.regs, [d], []⟩ (regType d == .uniform) true [] [] → n = (c.arch.srcWord 0 b).toNat →
      (n ≤ c.arch.vc →
        ∃ t y, exec i s = .next t ∧ t.ctx? iss.key = some y ∧ y.st = c.st ∧ gives c y iss d 0 ∧ y.arch.vc = c.arch.vc) ∧
      (c.arch.vc < n → 64 < n ∨ regBytes r.core r.pw < gangBlock (s.objectOf c.launch) n →
        ∃ t y, exec i s = .next t ∧ t.ctx? iss.key = some y ∧ y.st = c.st ∧ gives c y iss d 1 ∧ y.arch.vc = c.arch.vc ∧
          y.arch.xstat = c.arch.xstat ||| 0x800) ∧
      (c.arch.vc < n → n ≤ 64 → gangBlock (s.objectOf c.launch) n ≤ regBytes r.core r.pw →
        s.blockFor c n - s.blockOf c ≤ s.regionFree r → (∀ x ∈ s.residents r, x.growing = none) →
        ∃ t y, exec i s = .next t ∧ t.ctx? iss.key = some y ∧ y.st = c.st ∧ grown c.arch y.arch n ∧
          (∃ k, d = .s k ∧ y.arch.s = c.arch.s.set k 0) ∧
          ∀ lane, iss.exec.getLsbD lane = true → (y.arch.lane lane).pc = Rules.after iss)) ∧
    (∀ b n, shrinks i = some b → Ready s iss c ⟨b.regs, [], []⟩ true true [] [] →
      n = max (c.arch.srcWord 0 b).toNat (s.objectOf c.launch).vcnt →
      ∃ t y, exec i s = .next t ∧ t.ctx? iss.key = some y ∧ y.st = c.st ∧ y.arch.s = c.arch.s ∧ wentOn c y iss ∧
        y.arch.vc = min c.arch.vc n ∧
        (n < c.arch.vc → regionAfter t c = some { r with draining := r.draining + (s.blockOf c - s.blockFor c n) }))

/-! ## The matrix engine -/

/-- R315, R319, R320: with no instruction waiting on the beam, OBRES gives 2 for a record that is in use, 3 for an attribute word
that breaks a rule, 1 where no range of the buffer is free, and otherwise 0: the record is valid at the lowest offset at which its
range is free. OBREL of a record that no operation names makes it invalid, and its range free. -/
def Obligations.BufferRecords : Prop :=
  ∀ i s iss c r, noneWaits s c →
    (∀ d n b, reserves i = some (d, n, b) → MatrixReady s iss c ⟨b.regs, [d], []⟩ (regType d == .uniform) true r →
      ∃ t y x, exec i s = .next t ∧ t.ctx? iss.key = some y ∧ y.st = c.st ∧ gives c y iss d x ∧
        (r.obs[n].v = true → x = 2) ∧
        (r.obs[n].v = false → attrRecord (c.arch.srcWord 0 b) = none → x = 3) ∧
        ∀ o, r.obs[n].v = false → attrRecord (c.arch.srcWord 0 b) = some o →
          ((∀ base, ¬ rangeFree (s.obufRanges c.key.core) o.size base) → x = 1) ∧
          ∀ base, rangeFree (s.obufRanges c.key.core) o.size base → (∀ b', rangeFree (s.obufRanges c.key.core) o.size b' → base ≤ b') →
            x = 0 ∧ ∃ q, regionAfter t c = some q ∧ q.obs = r.obs.set n { o with base := base } ∧ q.scratch = r.scratch ∧ q.acc = r.acc ∧
              ∀ a, ¬ (64 * base ≤ a ∧ a < 64 * (base + o.size)) → q.obuf.get a = r.obuf.get a) ∧
    (∀ n, i = .obrel n → MatrixReady s iss c ⟨[], [], []⟩ true true r → noOps s c [n] none →
      (∀ j o, o ∈ (r.cvg[(j : Fin 8)]).waiting → o.a ≠ n ∧ o.b ≠ n) →
      ∃ t y q, exec i s = .next t ∧ t.ctx? iss.key = some y ∧ y.st = c.st ∧ y.arch.s = c.arch.s ∧ wentOn c y iss ∧
        regionAfter t c = some q ∧ q.obs = r.obs.set n ObsRecord.none ∧ q.scratch = r.scratch ∧ q.acc = r.acc)

/-- R321: with no instruction waiting on the beam and no operation on the record in its engine, OBLD.S and OBLD.V give 1 for a
record that is not valid, OBLD.S 3 for a descriptor that breaks the table and OBLD.V 3 for a compressed record; otherwise, where
every address of every line is there to be read, they give 0 and the lines are in the record's range: those that memory held, and in
a lane that is not live the line of zeros. -/
def Obligations.BufferLoads : Prop :=
  ∀ s iss c r d n, noneWaits s c → noOps s c [n] none →
    (∀ a, MatrixReady s iss c (pairNames d a) (regType d == .uniform) true r →
      (r.obs[n].v = false → ∃ t y, exec (.obldS d n a) s = .next t ∧ t.ctx? iss.key = some y ∧ y.st = c.st ∧ gives c y iss d 1) ∧
      (∀ x, r.obs[n].v = true → s.readDesc c (spairAt c a) 8 4 = .ok x →
        (obldDesc (BitVec.ofNat 256 x) r.obs[n].dens = none →
          ∃ t y, exec (.obldS d n a) s = .next t ∧ t.ctx? iss.key = some y ∧ y.st = c.st ∧ gives c y iss d 3) ∧
        ∀ va vs ba bs ps f, obldDesc (BitVec.ofNat 256 x) r.obs[n].dens = some (va, vs, ba, bs) →
          (s.noteDesc c (spairAt c a) 4).fetchLines c r.obs[n] va vs ba bs 0 32 = (.ok [] ps, f) →
          ∃ t y, exec (.obldS d n a) s = .next t ∧ t.ctx? iss.key = some y ∧ y.st = c.st ∧ gives c y iss d 0 ∧
            ∃ q, regionAfter t c = some q ∧ q.obs = r.obs ∧ q.obuf = f r.obuf ∧ q.acc = r.acc)) ∧
    ∀ a : VPair, MatrixReady s iss c ⟨[], [d], [(.v ⟨2 * a.k.val, by omega⟩, 2)]⟩ (regType d == .uniform) true r →
      (r.obs[n].v = false → ∃ t y, exec (.obldV d n a) s = .next t ∧ t.ctx? iss.key = some y ∧ y.st = c.st ∧ gives c y iss d 1) ∧
      (r.obs[n].v = true → r.obs[n].dens ≠ 0 →
        ∃ t y, exec (.obldV d n a) s = .next t ∧ t.ctx? iss.key = some y ∧ y.st = c.st ∧ gives c y iss d 3) ∧
      ∀ (bytes : Nat → List Byte) (from_ : Nat → List (DWord × Place)), r.obs[n].v = true → r.obs[n].dens = 0 →
        (∀ l, l < 32 → (c.arch.lane l).live = true → s.fetchLine c r.obs[n] (pairAt c.arch l (.v a.k)) = .ok (bytes l) (from_ l)) →
        (∀ l, l < 32 → (c.arch.lane l).live = false → bytes l = r.obs[n].zeroLine) →
        ∃ t y, exec (.obldV d n a) s = .next t ∧ t.ctx? iss.key = some y ∧ y.st = c.st ∧ gives c y iss d 0 ∧
          ∃ q, regionAfter t c = some q ∧ q.obs = r.obs ∧ q.acc = r.acc ∧
            q.obuf = (List.range 32).foldl (fun m l => r.obs[n].putLine l (bytes l) m) r.obuf

/-- R323, R324: on a tile that the allocation has, with no operation in the engine or in a round that names it and no instruction
waiting on the beam, ACCZ clears the tile, ACCRD gives each active lane its row's element of a column, ACCLD reads the tile from memory row by row,
and ACCST writes it there; no other tile changes. -/
def Obligations.Accumulators : Prop :=
  ∀ i s iss c r t,
    t.toNat < r.tiles → noneWaits s c → noOps s c [] (some t.toNat) → memoriesWf s →
    (∀ j o, o ∈ (r.cvg[(j : Fin 8)]).waiting → o.tile ≠ t.toNat) →
    (i = .accz t → MatrixReady s iss c ⟨[], [], []⟩ true true r →
      ∃ u y q, exec i s = .next u ∧ u.ctx? iss.key = some y ∧ y.st = c.st ∧ y.arch.s = c.arch.s ∧ wentOn c y iss ∧ regionAfter u c = some q ∧
        ∀ t' x z, x < 32 → z < 32 → q.tileAt t' x z = if t' = t.toNat then 0 else r.tileAt t' x z) ∧
    (∀ d b, tileReads i = some (d, t, b) → MatrixReady s iss c ⟨b.regs, [d], []⟩ (regType d == .varying) false r →
      ∃ u y k, exec i s = .next u ∧ u.ctx? iss.key = some y ∧ y.st = c.st ∧ y.arch.s = c.arch.s ∧ y.arch.a = c.arch.a ∧ d = .v k ∧
        ∀ n, y.arch.lane n = if n < 64 ∧ iss.exec.getLsbD n then { c.arch.lane n with
            pc := Rules.after iss, v := (c.arch.lane n).v.set k (r.tileAt t.toNat n ((c.arch.srcWord 0 b).toNat % 32)) } else c.arch.lane n) ∧
    (∀ a b (va : Nat → DWord) (pl : Nat → Place), tileMoves i = some (false, t, a, b) →
      MatrixReady s iss c ⟨b.regs, [], [(.s ⟨2 * a.k.val, by omega⟩, 2)]⟩ true true r →
      (spairAt c a).toNat % 4 = 0 → (c.arch.srcWord 0 b).toNat % 4 = 0 → va = elementAt (spairAt c a) (c.arch.srcWord 0 b) →
      (∀ x, x < 1024 → s.resolveRead (s.accessor c) (va x) 4 4 .load = .ok (pl x)) → linesAgree 1024 va pl → cacheRoom s c 64 →
      ∃ u y q, exec i s = .next u ∧ u.ctx? iss.key = some y ∧ y.st = c.st ∧ y.arch.s = c.arch.s ∧ wentOn c y iss ∧ regionAfter u c = some q ∧
        (∀ x, x < 1024 → q.tileAt t.toNat (x / 32) (x % 32) = (s.loadValue c (va x) (pl x) 4 .frm).setWidth 32) ∧
        ∀ t' x z, t' ≠ t.toNat → x < 32 → z < 32 → q.tileAt t' x z = r.tileAt t' x z) ∧
    (∀ a b (va : Nat → DWord) (pl : Nat → Place), tileMoves i = some (true, t, a, b) →
      MatrixReady s iss c ⟨b.regs, [], [(.s ⟨2 * a.k.val, by omega⟩, 2)]⟩ true true r →
      (spairAt c a).toNat % 4 = 0 → (c.arch.srcWord 0 b).toNat % 4 = 0 → va = elementAt (spairAt c a) (c.arch.srcWord 0 b) →
      (∀ x, x < 1024 → s.resolveWrite (s.accessor c) (va x) 4 4 .store = .ok (pl x)) → linesAgree 1024 va pl → cacheRoom s c 64 → (∀ g ∈ s.gates, g.key ≠ iss.key) →
      (∀ x z j k, x < 1024 → z < 1024 → x ≠ z → j < 4 → k < 4 → home s ((pl x).plus j) ≠ home s ((pl z).plus k)) →
      ∃ u y, exec i s = .next u ∧ u.ctx? iss.key = some y ∧ y.st = c.st ∧ y.arch.s = c.arch.s ∧ wentOn c y iss ∧
        (∀ q, regionAfter u c = some q → q.acc = r.acc ∧ q.obuf = r.obuf) ∧
        ∀ x, x < 1024 → (u.loadValue y (va x) (pl x) 4 .frm).setWidth 32 = r.tileAt t.toNat (x / 32) (x % 32))

/-- R160, R325–R328, R331, R332: MMA and MMAS on records that fit, with no column fenced or in a self-test, the engine idle and no
instruction waiting on the beam, park their gang; once the engine's cycles have passed the operation completes: each element of the tile has the
products of the operation's terms summed into it, from the term that MPROG names on, MPROG is 0 and the gang goes on. No other tile
changes. With a convergence register the round must be open for it. -/
def Obligations.MatrixProducts : Prop :=
  ∀ i sparse cv t ab b s iss c r k, products i = some (sparse, cv, t, ab, b) → MatrixReady s iss c ⟨b.regs, [], []⟩ true true r →
    k = (c.arch.srcWord 0 b).toNat → mmaOk r sparse t.toNat r.obs[ab.a] r.obs[ab.b] k = true →
    (s.beam c.key.core).fenced = false → s.columnHeld c.key.core = false → (s.beam c.key.core).ops = [] → noneWaits s c → roundOpen r c.index cv → r.acc.wf = true →
    ∃ u w n, exec i s = .next u ∧ u.ctx? iss.key = some w ∧ w.st = .parked (.matrix n) ∧ w.arch = c.arch ∧
      ∀ now, s.engineClock + 1024 + s.power.withheld ≤ now →
        ∃ v y q, exec (.matrixOperationComplete c.key.core .good) { u with tick := now } = .next v ∧ v.ctx? iss.key = some y ∧
          y.st = .live ∧ y.arch.s = c.arch.s ∧ wentOn c y iss ∧ y.arch.mprog = 0 ∧ regionAfter v c = some q ∧
          (∀ x z, x < 32 → z < 32 → q.tileAt t.toNat x z =
            r.product r.obs[ab.a] r.obs[ab.b] (nfmtTop c.arch.nfmt) x z (r.tileAt t.toNat x z) (startTerm c.arch.mprog sparse t ab k) k) ∧
          (∀ t' x z, t' ≠ t.toNat → x < 32 → z < 32 → q.tileAt t' x z = r.tileAt t' x z) ∧
          (v.beam c.key.core).ops = []

/-- R330: the fields of SIGN that it does not use are 0. It gives 3 where the set does not name its gang, 1 where an open round has
another set, 2 where the gang has signed, and otherwise 0: the set is the round's, and the gang has signed. -/
def Obligations.GangsSign : Prop :=
  (∀ w0 w1 d n b k, decodeWords [w0, w1] = .ok (.sign64 d n b, k) →
    w0.extractLsb' 16 8 = 0 ∧ w1.extractLsb' 0 8 = 0 ∧ w1.extractLsb' 16 8 = 0 ∧ w1.extractLsb' 27 5 = 0) ∧
  (∀ w0 w1 w2 d n lit k, decodeWords [w0, w1, w2] = .ok (.sign96 d n lit, k) →
    w0.extractLsb' 16 8 = 0 ∧ w1.extractLsb' 0 8 = 0 ∧ w1.extractLsb' 16 8 = 0 ∧ w1.extractLsb' 27 5 = 0) ∧
  ∀ i d n b s iss c r m x, signs i = some (d, n, b) → MatrixReady s iss c ⟨b.regs, [d], []⟩ (regType d == .uniform) true r →
    m = c.arch.srcWord 0 b →
    x = (if m.getLsbD c.index = false then (3 : Word) else if r.cvg[n].mset ≠ none ∧ r.cvg[n].mset ≠ some m then 1
      else if r.cvg[n].signed.getLsbD c.index = true then 2 else 0) →
    (x = 0 → (∀ o ∈ r.cvg[n].waiting, o.key ≠ iss.key) ∧ r.cvg[n].issued.contains c.index = false) →
    ∃ t y, exec i s = .next t ∧ t.ctx? iss.key = some y ∧ y.st = c.st ∧ gives c y iss d x ∧
      (x ≠ 0 → t.regions = s.regions) ∧
      (x = 0 → ∃ q, regionAfter t c = some q ∧ q.cvg[n].mset = some m ∧ q.cvg[n].signed = r.cvg[n].signed ||| (1#32 <<< c.index))

/-! ## Verdicts -/

/-- R336–R346, R352: VHDR gives each lane the header of its block, where the block is there to be read. VDOT, where the headers,
block and part of the vector that each lane's next turn reads are there to be read, sums the lane's next block, block by block from
+0 in the order of the k-groups, and adds up the magnitudes of what it rounds. From MINB blocks on, and before the last, it samples
the cell and makes the check of R341: a lane abandons there exactly where the bounds that its sum, X∞, the next header and its
magnitudes give make the verdict certain, false in either mode and true in .AB2 alone. While a lane has blocks left the gang stays at
the instruction and the progress record holds every lane, and once every lane has finished the destination takes their results, each
the sum of its blocks or its abandoned result. That one issue sums one block of each lane is the model's reading (log 61). -/
def Obligations.VerdictsAccumulate : Prop :=
  (∀ s iss c ty d a ps (bytes : Nat → List Byte) (from_ : Nat → List (DWord × Place)),
    Ready s iss c ⟨[], [d], [pairName a]⟩ (regType d == pairType a) (pairIsS a) [] ps →
    (∀ n ∈ taking (pairIsS a) iss.exec,
      s.fetchBlock c (verdictBlock ty).2 (verdictBlock ty).1 (pairAt c.arch n a) = .ok (bytes n) (from_ n)) →
    ∃ t y ar, exec (.vhdr ty d a) s = .next t ∧ t.ctx? iss.key = some y ∧ y.st = c.st ∧
      ar = ((taking (pairIsS a) iss.exec).foldl (fun (ar : Arch) n => ar.putReg n d 0 (vhdrWord ty (nfmtTop c.arch.nfmt) (bytes n))) c.arch).goto
        iss.exec (Rules.after iss) ∧ y.arch.s = ar.s ∧ y.arch.lanes = ar.lanes) ∧
  (∀ s iss c m slot d a (k : Fin 32) (cc : SPair) ps nb minb (w x h : Nat → Nat → List Byte) ctl cell,
    Ready s iss c ⟨[], [d], [pairName a, (.s ⟨2 * k.val, by omega⟩, 2), pairName (pairOfS cc)]⟩ (regType d == pairType a) (pairIsS a) [] ps →
    c.pair = none → (m.pred ≠ .sign → c.arch.ths[slot].getLsbD 63 = true) →
    ctl = (spairAt c cc).toNat / 2 ^ 32 → isAbandoned ((spairAt c cc).setWidth 32) = false → nb = ctl % 2 ^ 16 →
    minb = max 1 (ctl / 2 ^ 16 % 2 ^ 8) → cell = c.arch.ths[slot] &&& 0x01FFFFFFFFFFFFF8 →
    (∀ n ∈ taking (pairIsS a) iss.exec, (c.arch.vdotStart iss.pc n).fault = none) →
    (∀ n ∈ taking (pairIsS a) iss.exec, ∀ j, (c.arch.vdotStart iss.pc n).done = none → (c.arch.vdotStart iss.pc n).c = j → j < nb →
      (∃ bs ps, s.fetchBlock c 4 4 (pairAt c.arch n a + BitVec.ofNat 64 (4 * j)) = .ok bs ps) ∧
      (j + 1 < nb → ∃ ps, s.fetchBlock c 4 4 (pairAt c.arch n a + BitVec.ofNat 64 (4 * (j + 1))) = .ok (h n (j + 1)) ps) ∧
      (∃ ps, s.fetchBlock c (verdictBlock m.ty).2 (verdictBlock m.ty).1
        (pairAt c.arch n a + BitVec.ofNat 64 (roundUp (4 * nb) 64 + j * (verdictBlock m.ty).1)) = .ok (w n j) ps) ∧
      ∃ ps, s.fetchBlock c 2 128 (pairAt c.arch 0 (.s k) + BitVec.ofNat 64 (128 * j)) = .ok (x n j) ps) →
    ∃ t y, ∃ q : Nat → VdotLane, exec (.vdot m slot d a ⟨k⟩ cc) s = .next t ∧ t.ctx? iss.key = some y ∧ y.st = c.st ∧
      (∀ n ∈ taking (pairIsS a) iss.exec, vdotIssue m (nfmtTop c.arch.nfmt) nb minb ((spairAt c cc).setWidth 32)
        (s.resolveLoad c cell 8 8 .dev)
        (fun p => (s.loadValue c cell p 4 .dev).setWidth 32) (w n) (x n) (h n) (c.arch.vdotStart iss.pc n) (q n)) ∧
      ((∃ n ∈ taking (pairIsS a) iss.exec, (q n).done = none) →
        y.arch = { c.arch with vdot := some ⟨iss.pc, (taking (pairIsS a) iss.exec).map q⟩ }) ∧
      ((∀ n ∈ taking (pairIsS a) iss.exec, (q n).done ≠ none) →
        ∃ ar, ar = ((taking (pairIsS a) iss.exec).foldl (fun (ar : Arch) n => ar.putReg n d 0 ((q n).done.getD 0)) c.arch).goto iss.exec (Rules.after iss) ∧
          y.arch.s = ar.s ∧ y.arch.lanes = ar.lanes ∧ y.arch.vdot = none))

/-- R348, R349: THS.BIND binds a slot to the cell at an address, and at address 0 to none; THS.READ gives the cell of a bound slot;
THS.RAISE of a value above the threshold makes it the threshold and counts it, in one step, and gives the old cell. Of a slot that
is not bound both fault ILL. -/
def Obligations.ThresholdCells : Prop :=
  ∀ s iss c,
    (∀ n a p, Ready s iss c ⟨[], [], [(.s ⟨2 * a.k.val, by omega⟩, 2)]⟩ true true [] [] →
      spairAt c a = 0 ∨ s.resolveRead (s.accessor c) (spairAt c a) 8 8 .load = .ok p →
      ∃ t y, exec (.thsBind n a) s = .next t ∧ t.ctx? iss.key = some y ∧ y.st = c.st ∧ y.arch.s = c.arch.s ∧ wentOn c y iss ∧
        y.arch.ths = c.arch.ths.set n (if spairAt c a = 0 then 0 else BitVec.ofNat 64 (2 ^ 63 + (spairAt c a).toNat))) ∧
    (∀ d n, Ready s iss c ⟨[], [], [pairName d]⟩ (pairIsS d) true [] [] → c.arch.ths[n].getLsbD 63 = false →
      exec (.thsRead d n) s = .next (s.deliver iss.key (Trap.one .ill iss.pc iss.pc))) ∧
    (∀ (k : Fin 32) n va p, Ready s iss c ⟨[], [], [(.s ⟨2 * k.val, by omega⟩, 2)]⟩ true true [] [] → c.arch.ths[n].getLsbD 63 = true →
      va = c.arch.ths[n] &&& 0x01FFFFFFFFFFFFF8 → s.resolveRead (s.accessor c) va 8 8 .load = .ok p →
      ∃ t y, exec (.thsRead (.s k) n) s = .next t ∧ t.ctx? iss.key = some y ∧ y.st = c.st ∧ wentOn c y iss ∧
        pairAt y.arch 0 (.s k) = (s.loadValue c va p 8 .dev).setWidth 64) ∧
    ∀ i d n b pops, raises i = some (d, n, b) → Ready s iss c ⟨b.regs, [], [pairName d]⟩ (pairType d == b.type) (b.type == .uniform) pops [] →
      (c.arch.ths[n].getLsbD 63 = false → exec i s = .next (s.deliver iss.key (Trap.one .ill iss.pc iss.pc))) ∧
      ∀ l va p y old m, taking (b.type == .uniform) iss.exec = [l] → c.arch.ths[n].getLsbD 63 = true →
        va = c.arch.ths[n] &&& 0x01FFFFFFFFFFFFF8 → s.resolveThs c va = .ok p → exists? s p = true → memoriesWf s →
        s.inLockstep c = false → y = (pops.foldl Arch.pop c.arch).srcWord l b → isAbandoned y = false →
        m = (s.release iss.key .dev).syncHome c va p → old = BitVec.ofNat 64 (leNat (m.homeBytes p 8)) →
        ∃ t x, exec i s = .next t ∧ t.ctx? iss.key = some x ∧ x.st = c.st ∧ pairAt x.arch l d = old ∧
          BitVec.ofNat 64 (leNat (t.homeBytes p 8)) = raisedCell old y ∧
          ∀ lane, iss.exec.getLsbD lane = true → (x.arch.lane lane).pc = Rules.after iss

/-! ## Taking an exception and returning from one -/

/-- The trap registers after a delivery (R372, R375). -/
def trapRegs (y : Ctx) (code : Code) (addr : DWord) (elane : Word) (epc : DWord) : Prop :=
  y.arch.ecode = code.byte.setWidth 32 ∧ y.arch.eaddr = addr ∧ y.arch.elane = elane ∧ y.arch.epc = BitVec.ofNat 64 (epc.toNat % 2 ^ 57)

/-- R372–R378: a delivery writes the trap registers. With the disposition USER, a handler, and no handler running, the lanes of the
trap set go to UHND with the flag UH set. With SYSTEM, or USER without a handler or inside one, the context parks for a trap
slot of its board: with a slot free it is in Gyhouc's hands, a rod's thread away from its rod. With KILL the launch aborts with
the code and is to be stopped: no context of it issues any more, none has a pushed or gated store left to perform, and it has no
rendezvous entry.
That a SYSTEM delivery leaves the handler flags as they are is the model's reading (log 18). -/
def Obligations.ExceptionsAreTaken : Prop :=
  ∀ s k c code addr elane epc set d t, s.ctx? k = some c → s.inLockstep c = false → distinct s →
    (∀ n, set.getLsbD n = true → (c.arch.lane n).live = true) →
    d = pktDisp (s.pktOf c.launch) code → t = s.deliverTo k code addr elane epc set →
    (d = 0 → c.arch.uhnd ≠ 0 → c.arch.uh = false → c.arch.overlay = false →
      ∃ y, t.ctx? k = some y ∧ y.st = .live ∧ trapRegs y code addr elane epc ∧ y.arch.uh = true ∧ y.arch.trapSet = set ∧
        y.arch.s = c.arch.s ∧ y.arch.a = c.arch.a ∧
        ∀ n, y.arch.lane n = if set.getLsbD n then { c.arch.lane n with pc := c.arch.uhnd, held := false } else c.arch.lane n) ∧
    (d = 1 ∨ (d = 0 ∧ (c.arch.uhnd = 0 ∨ c.arch.uh = true ∨ c.arch.overlay = true)) →
      ∃ y, t.ctx? k = some y ∧ trapRegs y code addr elane epc ∧ y.arch.sysSet = set ∧ y.arch.uh = c.arch.uh ∧
        y.arch.s = c.arch.s ∧ y.arch.lanes = c.arch.lanes ∧
        ((s.reckoner (boardNo k.core)).slots.length < 64 → (s.reckoner (boardNo k.core)).queue = [] →
          y.st = .parked .system ∧ (c.kind = .rod → y.away = true)) ∧
        (64 ≤ (s.reckoner (boardNo k.core)).slots.length → y.st = .parked .trapSlot ∧ y.away = c.away)) ∧
    (d = 2 → ∀ l, s.launch? c.launch = some l → l.st = .running →
      (∃ m, t.launch? c.launch = some m ∧ m.st = .aborting code ∧ m.halt = some 3) ∧
      (∀ x ∈ t.ctxs, x.launch = c.launch → t.ready x = false ∧ x.arch.pushes = [] ∧ ∀ g ∈ t.gates, g.key ≠ x.key) ∧
      ∀ e ∈ t.rdv, e.launch ≠ c.launch)

/-- R382, R414: TRAP raises TRAPU, and BKPT in a launch without a debugger BKPT, with EADDR the number and EPC the next instruction:
in a thread, or in a launched gang for its converged set; in a gang that an entry formed it is a fault of the gang. That such a gang's
fault is delivered for the instruction itself, at its offset in the leaf, is the model's reading (log 38). -/
def trapsAreRaised : Prop :=
  (∀ n : BitVec 8, encode (.trap64 n) = [0x000000E2, (n.setWidth 32 <<< (24 : Nat)) ||| (0x00000100 : Word)]) ∧ Code.byte .trapu = 0x0A ∧
  ∀ i s iss c n code, Issuing s iss c →
    (i = .trap64 n ∧ code = .trapu ∨ i = .bkpt n ∧ code = .bkpt ∧ (∀ l, s.launch? c.launch = some l → l.debugger = false)) →
    (c.kind = .rod → exec i s = .next ((s.endTurn iss.key).deliverTo iss.key code (n.setWidth 64) 0 (Rules.after iss) 1)) ∧
    (c.kind = .gang →
      exec i s = .next ((s.endTurn iss.key).deliverTo iss.key code (n.setWidth 64) (BitVec.ofNat 32 (lowLane iss.exec)) (Rules.after iss) iss.exec)) ∧
    (∀ f e, c.kind = .called f e → exec i s = .next (s.deliver iss.key (Trap.one code (n.setWidth 64) iss.pc)))

/-- R356, R383: ERET in a handler sends the handler's lanes to EPC, in a gang those of the trap set, and clears both handler flags;
held lanes that the handler took are held again. It orders nothing: only its own context changes. Outside a handler, and in a gang that
an entry formed outside an overlay handler, it faults ILL; in a USER handler that a part of the trap set left it faults UPART. What
becomes of held lanes that a handler took is the model's reading (log 38). -/
def handlersReturn : Prop :=
  encode .eret = [0x000000E2, 0x00000200] ∧
  ∀ s iss c set, Issuing s iss c →
    (c.arch.uh = false → c.arch.overlay = false → exec .eret s = .next (s.deliver iss.key (Trap.one .ill iss.pc iss.pc))) ∧
    (∀ f e, c.kind = .called f e → c.arch.overlay = false → exec .eret s = .next (s.deliver iss.key (Trap.one .ill iss.pc iss.pc))) ∧
    (c.arch.uh = true → (∀ f e, c.kind = .called f e → c.arch.overlay = true) → c.kind ≠ .rod → iss.exec ≠ c.arch.trapSet →
      exec .eret s = .next (s.deliver iss.key (Trap.one .upart iss.pc iss.pc))) ∧
    (c.arch.uh = true ∨ c.arch.overlay = true → (∀ f e, c.kind = .called f e → c.arch.overlay = true) →
      (c.arch.uh = true → c.kind ≠ .rod → iss.exec = c.arch.trapSet) → set = (if c.kind = .rod then 1 else c.arch.trapSet) →
      ∃ t y, exec .eret s = .next t ∧ t = { s with ctxs := t.ctxs } ∧ t.ctx? iss.key = some y ∧ y.st = c.st ∧ y.arch.uh = false ∧ y.arch.overlay = false ∧
        y.arch.s = c.arch.s ∧ y.arch.a = c.arch.a ∧ y.arch.epc = c.arch.epc ∧
        (∀ n, (y.arch.lane n).v = (c.arch.lane n).v ∧ (y.arch.lane n).live = (c.arch.lane n).live ∧
          ((c.arch.lane n).live = true → (y.arch.lane n).pc = if set.getLsbD n then c.arch.epc else (c.arch.lane n).pc) ∧
          ((c.arch.lane n).live = true → (y.arch.lane n).held = ((c.arch.lane n).held || c.arch.heldSet.getLsbD n))) ∧
        ((c.arch.mark.map Prod.fst) ≠ some c.arch.epc → y.arch.mark = none))

/-- Raising a trap and returning from a handler (R356, R382, R383, R414). -/
def Obligations.TrapsAndReturns : Prop := trapsAreRaised ∧ handlersReturn

/-- The interrupt of source n has been taken by the lanes of a set that stood at their PC (R380). -/
def taken (c x y : Ctx) (n : Nat) (set : BitVec 64) : Prop :=
  y.st = .live ∧ y.arch.pend = c.arch.pend &&& ~~~(1#8 <<< n) ∧ y.arch.ecode = BitVec.ofNat 32 (2 ^ 30 + 256 * n) ∧ y.arch.eaddr = 0 ∧
  y.arch.elane = 0 ∧ y.arch.uh = true ∧ y.arch.trapSet = set ∧ y.arch.epc = epcBits (x.pcOf set) ∧
  ∀ l, set.getLsbD l = true → (y.arch.lane l).pc = c.arch.uhnd

/-- R379, R381, R384, R385, R392, R398, R410: a thread or gang parked in WAITANY, WAITALL, WAITFREE, MWAIT, BAR or GROW takes an
interrupt with EPC at that instruction, and one parked for a reply or a trap slot takes none. UIMASK gives the interrupt word and then clears and sets enable bits; PULSE restarts the
watchdog timer of its workgroup, or in a gang that an entry formed those of the callers; CKPT releases at device scope, and in
lock-step takes the checkpoint, which leaves no store gated. SVC parks its thread with its request, which has a trap slot where
one is free. -/
def Obligations.InterruptsPulsesAndServices : Prop :=
  (∀ s k c n x set, s.ctx? k = some c → c.arch.uh = false → c.arch.overlay = false → c.arch.uhnd ≠ 0 → c.isCalled = false →
    s.halted c.launch = false → (c.arch.en &&& c.arch.pend).getLsbD n = true → (∀ j, j < n → (c.arch.en &&& c.arch.pend).getLsbD j = false) →
    (c.st = .parked .tags ∨ (∃ core d old next, c.st = .parked (.waitfree core d old next)) ∨
      (∃ va p d y sc dl po nx, c.st = .parked (.mwait va p d y sc dl po nx)) ∨ (∃ p n, c.st = .parked (.barrier p n)) ∨
      ∃ n o d nx, c.st = .parked (.grow n o d nx)) →
    ({ c with st := .live, woken := false } : Ctx).select = (x, set) → set ≠ 0 →
    ∃ t y, exec (.userInterrupt k) s = .next t ∧ t.ctx? k = some y ∧ taken c x y n set) ∧
  (∀ s k c, s.ctx? k = some c → (∃ r, c.st = .parked (.reply r)) ∨ c.st = .parked .trapSlot ∨ (∃ d a b n nx, c.st = .parked (.svc d a b n nx false)) →
    exec (.userInterrupt k) s = .next s) ∧
  ∀ s iss c,
    (∀ d a b, c.isCalled = false → Ready s iss c ⟨opRegs (opOfU a) ++ opRegs (opOfU b), [d], []⟩ (regType d == .uniform) true [] [] →
      ∃ t y, exec (.uimask d a b) s = .next t ∧ t.ctx? iss.key = some y ∧ y.st = c.st ∧
        gives c y iss d (BitVec.ofNat 32 (c.arch.pend.toNat * 256 + c.arch.en.toNat)) ∧ y.arch.pend = c.arch.pend ∧
        y.arch.en = (c.arch.en &&& ~~~((c.arch.opWord 0 (opOfU a)).setWidth 8)) ||| (c.arch.opWord 0 (opOfU b)).setWidth 8) ∧
    (∀ l, Issuing s iss c → s.launch? c.launch = some l →
      ∃ t y m, exec .pulse s = .next t ∧ t.ctx? iss.key = some y ∧ y.st = c.st ∧ y.arch.s = c.arch.s ∧ wentOn c y iss ∧
        t.launch? c.launch = some m ∧
        m.timers = l.timers.map fun x => if (s.pulseGroups iss c).any fun w => x.group == some w then { x with since := s.tick, spent := 0 } else x) ∧
    (Issuing s iss c →
      ∃ t y, exec .ckpt64 s = .next t ∧ t.ctx? iss.key = some y ∧ y.st = c.st ∧ y.arch.s = c.arch.s ∧ wentOn c y iss ∧ drained y ∧
        (s.inLockstep c = true → (∀ g ∈ t.gates, g.key ≠ iss.key) ∧
          ∃ ar, y.ckpt.head? = some ar ∧ ar.s = c.arch.s ∧ ar.lanes = c.arch.lanes)) ∧
    (∀ i k a b n, services i = some (.s k, a, b, n) →
      Ready s iss c ⟨b.regs, [], [(.s ⟨4 * k.val, by omega⟩, 4), (.s ⟨2 * a.k.val, by omega⟩, 2)]⟩ true true [] [] →
      ∃ t y, exec i s = .next t ∧ t.ctx? iss.key = some y ∧ y.arch.s = c.arch.s ∧ y.arch.lanes = c.arch.lanes ∧
        y.st = .parked (.svc (.s k) (spairAt c a) (c.arch.srcWord 0 b) n (Rules.after iss)
          (decide ((s.reckoner (boardNo c.key.core)).slots.length < 64) && (s.reckoner (boardNo c.key.core)).queue.isEmpty)))

/-- R380: before it issues, a thread or launched gang with an interrupt pending and enabled, no handler running and a handler to go to
takes it, and fetches nothing: the lowest source leaves PEND, ECODE names it, EADDR and ELANE are 0, EPC is the PC that was about to
issue, UH is set, and the lanes that were about to issue are the trap set and go to UHND. Otherwise none is taken. -/
def Obligations.InterruptsAreTaken : Prop :=
  ∀ s k c, s.ctx? k = some c → c.st = .live → s.ready c = true → c.isCalled = false →
    (∀ n x set, (c.arch.en &&& c.arch.pend).getLsbD n = true → (∀ j, j < n → (c.arch.en &&& c.arch.pend).getLsbD j = false) →
      c.arch.uh = false → c.arch.overlay = false → c.arch.uhnd ≠ 0 → c.select = (x, set) → set ≠ 0 →
      exec (.instructionFetch k) s = .next s ∧
      ∃ t y, exec (.userInterrupt k) s = .next t ∧ t.ctx? k = some y ∧ taken c x y n set ∧
        ∀ l, set.getLsbD l = false → y.arch.lane l = x.arch.lane l) ∧
    (c.arch.en &&& c.arch.pend = 0 ∨ c.arch.uh = true ∨ c.arch.overlay = true ∨ c.arch.uhnd = 0 → exec (.userInterrupt k) s = .next s)

/-! ## Launching, spawning, moving -/

/-- R57, R59, R64: LAUNCH gives BUSY, 1, where the store has no eligible entry; otherwise it gives the launch number, the packet
enters the store behind the others with the launcher's PASID in it, and the next number follows, 0 left out.
That the counter starts at 1 is the model's choice (log 6); the statement holds for every value of it. -/
def Obligations.LaunchesEnter : Prop :=
  ∀ s iss c (k : Fin 32) a u x, Ready s iss c ⟨[], [], [(.s ⟨2 * k.val, by omega⟩, 2), (.s ⟨2 * a.k.val, by omega⟩, 2)]⟩ true true [] [] →
    s.readDesc c (spairAt c a) 64 0 = .ok u → (s.release iss.key .dev).readPieces c (spairAt c a) (spairAt c a) 24 = .ok x →
    ∃ t y, exec (.launch (.s k) a) s = .next t ∧ t.ctx? iss.key = some y ∧ y.st = c.st ∧ wentOn c y iss ∧
      (256 ≤ s.pending.length ∨ 224 ≤ (s.pending.filter fun p => p.source.isDevice).length →
        pairAt y.arch 0 (.s k) = 1 ∧ t.pending = s.pending ∧ t.nextNum = s.nextNum) ∧
      (s.pending.length < 256 → (s.pending.filter fun p => p.source.isDevice).length < 224 →
        pairAt y.arch 0 (.s k) = s.nextNum.setWidth 64 <<< 32 ∧ t.nextNum = (if s.nextNum = 0xFFFFFFFF then 1 else s.nextNum + 1) ∧
        ∃ p, t.pending = s.pending ++ [p] ∧ p.number = s.nextNum ∧ p.order = s.arrivals ∧ p.checked = false ∧ p.dead = false ∧
          p.pasid = s.pasidOf c.launch ∧ pktField p.pkt 0x3C 4 = (s.pasidOf c.launch).toNat ∧
          (∀ off, off < 192 → ¬ (0x3C ≤ off ∧ off < 0x40) → pktField p.pkt off 1 = x / 256 ^ off % 256) ∧
          ∃ tid, p.source = .device tid c.key.core (pktPrio (s.pktOf c.launch)))

/-- R82–R85: SPAWN of an entry that is not a multiple of 4 faults ALIGN; to an identifier that names no enabled rod, or in a lock-step
launch an odd one, it gives BADCORE, 4; otherwise its message is on its way and it waits. The
rod answers 2 where the launch has no region, 3 where the index space is used up, 1 with FREECNT where no context is free, and
otherwise 0 with the index of the new thread, which is there with its TID. Where the object needs the other NFMT.TOP the new thread
takes NFMT once the sender has its reply. WAITFREE gives the old count for an identifier that names no enabled rod, FREECNT where
it differs, and else waits. That BADCORE completes SPAWN in its own step, and that the new thread's NFMT is delivered in the step of
its message, is the model's reading (log 42), and that it starts with the TOP that its message carries another (log 56). -/
def Obligations.SpawnsAreAnswered : Prop :=
  (∀ s iss c (k : Fin 32) a (b cc : SPair), Ready s iss c ⟨[.s a], [], [(.s ⟨2 * k.val, by omega⟩, 2), (.s ⟨2 * b.k.val, by omega⟩, 2), (.s ⟨2 * cc.k.val, by omega⟩, 2)]⟩ true true [] [] →
    ((spairAt c b).toNat % 4 ≠ 0 →
      exec (.spawn (.s k) a b cc) s = .next (s.deliver iss.key (Trap.one .align (spairAt c b) iss.pc))) ∧
    ((spairAt c b).toNat % 4 = 0 → ((isRod (c.arch.s[a].setWidth 14) && s.enabled (c.arch.s[a].setWidth 14)) = false) ∨
        (pktLockstep (s.pktOf c.launch) = true ∧ coreSlot (c.arch.s[a].setWidth 14) % 2 = 1) →
      ∃ t y, exec (.spawn (.s k) a b cc) s = .next t ∧ t.ctx? iss.key = some y ∧ y.st = .live ∧ pairAt y.arch 0 (.s k) = 4 ∧
        y.arch.lanes = (c.arch.goto c.liveSet (Rules.after iss)).lanes) ∧
    ((spairAt c b).toNat % 4 = 0 → isRod (c.arch.s[a].setWidth 14) = true → s.enabled (c.arch.s[a].setWidth 14) = true →
      pktLockstep (s.pktOf c.launch) = false ∨ coreSlot (c.arch.s[a].setWidth 14) % 2 = 0 →
      ∃ t y, exec (.spawn (.s k) a b cc) s = .next t ∧ t.ctx? iss.key = some y ∧ y.st = .parked (.spawn (.s k) (Rules.after iss)) ∧
        y.arch.s = c.arch.s ∧ y.arch.lanes = c.arch.lanes ∧
        t.spawnQ = s.spawnQ ++ [(iss.key, c.arch.s[a].setWidth 14, spairAt c b, spairAt c cc)])) ∧
  (∀ s core m c (k : Fin 32) next l rs base, s.spawnQ.find? (fun m => m.2.1 == core) = some m → s.ctx? m.1 = some c →
    c.st = .parked (.spawn (.s k) next) → s.launch? c.launch = some l → rs = s.spawnRegions c.launch core → base = pktNwg l.pkt * pktWgsize l.pkt →
    ∃ t u y, (exec (.spawnMessage core) s = .next t ∧ u.ctx? m.1 = some y ∧ y.st = .live ∧ u.spawnQ = s.spawnQ.erase m) ∧
      (rs = [] → t = u ∧ pairAt y.arch 0 (.s k) = 2) ∧
      (rs ≠ [] → l.spawned = 2 ^ 32 - base → t = u ∧ pairAt y.arch 0 (.s k) = 3) ∧
      (rs ≠ [] → l.spawned ≠ 2 ^ 32 - base →
        (∀ r ∈ rs, regionSlots (s.objectOf c.launch) core r.pw ≤ (s.residents r).length) →
        t = u ∧ pairAt y.arch 0 (.s k) = s.freecntOf core ++ 1#32) ∧
      (l.spawned ≠ 2 ^ 32 - base → (∃ r ∈ rs, (s.residents r).length < regionSlots (s.objectOf c.launch) core r.pw) →
        ∀ i, s.rodNumber core = some i →
        (t = if (s.objectOf c.launch).nfmtreq = 0 ∨ nfmtTop c.arch.nfmt = decide ((s.objectOf c.launch).nfmtreq = 2) then u
          else u.deliver ⟨core, i⟩ (Trap.one .nfmt m.2.2.1 m.2.2.1)) ∧
        pairAt y.arch 0 (.s k) = BitVec.ofNat 32 (base + l.spawned) ++ 0#32 ∧
        ∃ z ∈ u.ctxs, z.key = ⟨core, i⟩ ∧ z.uid = s.uids ∧ z.kind = .rod ∧ z.launch = c.launch ∧ z.st = .live ∧
          (z.arch.lane 0).pc = m.2.2.1 ∧ (z.arch.lane 0).tid = c.launch ++ BitVec.ofNat 32 (base + l.spawned) ∧ (z.arch.lane 0).live = true)) ∧
  (∀ s iss c d a b core, Ready s iss c ⟨[.s a, .s b], [d], []⟩ (regType d == .uniform) true [] [] → core = (c.arch.s[a]).setWidth 14 →
    s.inLockstep c = false →
    ((isRod core && s.enabled core) = false →
      ∃ t y, exec (.waitfree d a b) s = .next t ∧ t.ctx? iss.key = some y ∧ y.st = c.st ∧ gives c y iss d c.arch.s[b]) ∧
    (isRod core = true → s.enabled core = true → s.freecntOf core ≠ c.arch.s[b] →
      ∃ t y, exec (.waitfree d a b) s = .next t ∧ t.ctx? iss.key = some y ∧ y.st = c.st ∧ gives c y iss d (s.freecntOf core)) ∧
    (isRod core = true → s.enabled core = true → s.freecntOf core = c.arch.s[b] →
      ∃ t y, exec (.waitfree d a b) s = .next t ∧ t.ctx? iss.key = some y ∧ y.arch = c.arch ∧
        y.st = .parked (.waitfree core d c.arch.s[b] (Rules.after iss))))

/-- R78, R79, R86: JOIN gives 1 where the cell has no room for its lanes and otherwise 0, with the lanes pending in the cell and their
GID its address; LEAVE gives 2 where its lanes are no members and otherwise 0, with the lanes arrived and leaving. A phase that
the update completes closes: MEMBERS takes in the joins and loses the leaves, and PHASE goes up.
That MEMBERS + JOINS - LEAVES of a cell stops at 0, and that LEAVES counts modulo 2¹⁶, is the model's choice (logs 57, 58). -/
def groupsJoinAndLeave : Prop :=
  ∀ s iss c d a p m g n, Ready s iss c (pairNames d a) (regType d == .uniform) true [] [] → s.resolveCell c (spairAt c a) = .ok p →
    exists? s p = true → drained c → s.inLockstep c = false → memoriesWf s →
    m = (s.release iss.key (cellScope (spairAt c a) p)).syncHome c (spairAt c a) p → g = m.cellAt p → n = (lanesOf iss.exec).length →
    (∃ t y x, exec (.join d a) s = .next t ∧ t.ctx? iss.key = some y ∧ y.st = c.st ∧ (∃ k, d = .s k ∧ y.arch.s = c.arch.s.set k x) ∧
      (∀ l, iss.exec.getLsbD l = true → (y.arch.lane l).pc = Rules.after iss ∧
        (y.arch.lane l).gid = if x = 0 then spairAt c a else (c.arch.lane l).gid) ∧
      (0xFFFF < g.joins + n ∨ 0xFFFFFFFF < g.members + g.joins + n → x = 1 ∧ t.cellAt p = g) ∧
      (g.joins + n ≤ 0xFFFF → g.members + g.joins + n ≤ 0xFFFFFFFF → x = 0 ∧
        t.cellAt p = if g.arrived = g.members then ⟨(g.members + (g.joins + n) - g.leaves) % 2 ^ 32, 0, g.phase + 1, 0, 0⟩
          else { g with joins := g.joins + n })) ∧
    ∃ t y x, exec (.leave d a) s = .next t ∧ t.ctx? iss.key = some y ∧ y.st = c.st ∧ (∃ k, d = .s k ∧ y.arch.s = c.arch.s.set k x) ∧
      (∀ l, iss.exec.getLsbD l = true → (y.arch.lane l).pc = Rules.after iss ∧
        (y.arch.lane l).gid = if x = 0 ∧ (c.arch.lane l).gid = spairAt c a then 0 else (c.arch.lane l).gid) ∧
      (g.members < g.arrived + n ∨ g.members < g.leaves + n → x = 2 ∧ t.cellAt p = g) ∧
      (g.arrived + n ≤ g.members → g.leaves + n ≤ g.members → x = 0 ∧
        t.cellAt p = if g.arrived + n = g.members then ⟨(g.members + g.joins - (g.leaves + n) % 2 ^ 16) % 2 ^ 32, 0, g.phase + 1, 0, 0⟩
          else { g with arrived := g.arrived + n, leaves := (g.leaves + n) % 2 ^ 16 })

/-- R87: EXIT of a thread or launched gang whose lanes' group cells miss no page ends its lanes: they are no longer live, and a
context without a live lane drains; the other lanes keep their PCs. In a gang that an entry formed it faults ILL. -/
def lanesExit : Prop :=
  ∀ s iss c, Issuing s iss c →
    (∀ f e, c.kind = .called f e → exec .exit64 s = .next (s.deliver iss.key (Trap.one .ill iss.pc iss.pc))) ∧
    (c.isCalled = false →
      (∀ n w, iss.exec.getLsbD n = true → (c.arch.lane n).gid ≠ 0 → s.resolveCell c (c.arch.lane n).gid ≠ .miss w) →
      (∀ r n o, s.regionOf c = some r → o ∈ (r.cvg[(n : Fin 8)]).waiting → o.key ≠ iss.key) →
      ∃ t y, exec .exit64 s = .next t ∧ t.ctx? iss.key = some y ∧
        (∀ n, (y.arch.lane n).live = ((c.arch.lane n).live && !(iss.exec.getLsbD n))) ∧
        (∀ n, iss.exec.getLsbD n = false → (y.arch.lane n).pc = (c.arch.lane n).pc) ∧
        ((∀ n, (c.arch.lane n).live = true → iss.exec.getLsbD n = true) → y.st = .draining) ∧
        ((∃ n, (c.arch.lane n).live = true ∧ iss.exec.getLsbD n = false) → y.st = c.st))

/-- JOIN, LEAVE and EXIT (R78, R79, R86, R87). -/
def Obligations.GroupsAndExit : Prop := groupsJoinAndLeave ∧ lanesExit

/-- R88, R89, R112: MIGRATE.RK takes a rod's thread to its board's reckoner and gives 0, or gives 2 where the reckoner is not enabled
and 1 where it is full; MIGRATE.HM brings it home and gives 0, and where the home window has moved on from the thread's TBASE it moves
the window back and waits for its fill; both give 0 to a thread that is there. YIELD lets every other ready context of its core issue
first. That YIELD waits for the contexts that are ready as it issues is the model's reading (log 42). -/
def Obligations.ThreadsMove : Prop :=
  ∀ s iss c,
    (∀ d, c.kind = .rod → Ready s iss c ⟨[], [d], []⟩ (regType d == .uniform) true [] [] →
      (∃ t y x, exec (.migrateRk d) s = .next t ∧ t.ctx? iss.key = some y ∧ y.st = c.st ∧ gives c y iss d x ∧
        (c.away = true → x = 0 ∧ y.away = true) ∧
        (c.away = false → s.enabled (boardReckoner (boardNo c.key.core)) = false → x = 2 ∧ y.away = false) ∧
        (c.away = false → s.enabled (boardReckoner (boardNo c.key.core)) = true → 256 ≤ s.awayCount (boardNo c.key.core) → x = 1 ∧ y.away = false) ∧
        (c.away = false → s.enabled (boardReckoner (boardNo c.key.core)) = true → s.awayCount (boardNo c.key.core) < 256 → x = 0 ∧ y.away = true)) ∧
      (c.away = false ∨ (∀ w, s.window? c.launch c.key.core = some w → w.tbase = c.arch.tbase) →
        ∃ t y, exec (.migrateHm d) s = .next t ∧ t.ctx? iss.key = some y ∧ y.st = c.st ∧ gives c y iss d 0 ∧ y.away = false) ∧
      (c.away = true → ∀ w, s.window? c.launch c.key.core = some w → w.tbase ≠ c.arch.tbase →
        ∃ t y v, exec (.migrateHm d) s = .next t ∧ t.ctx? iss.key = some y ∧ y.st = .parked .fill ∧ gives c y iss d 0 ∧ y.away = false ∧
          t.window? c.launch c.key.core = some v ∧ v.tbase = c.arch.tbase ∧ t.fillPending c.launch c.key.core = true)) ∧
    (Issuing s iss c →
      ∃ t y, exec .yield s = .next t ∧ t.ctx? iss.key = some y ∧ y.st = c.st ∧ y.arch.s = c.arch.s ∧ wentOn c y iss ∧
        ∀ k, k ∈ y.yielded ↔ k ≠ iss.key ∧ ∃ x ∈ s.ctxs, x.key = k ∧ x.core = c.core ∧ s.ready x = true)

/-! ## Launch queues and launches -/

/-- The state with one launch queue replaced. -/
def queueSet (s : State) (p : Fin 2) (q : Fin 16) (y : Queue) : State :=
  { s with ports := s.ports.set p { s.ports[p] with queues := s.ports[p].queues.set q y } }

/-- R47–R50, R57: the registers of a launch queue. LQBASE and LOG2N are written while EN is 0, and a new value of either sets LQHEAD
to 0; enabling with an illegal LOG2N or LQBASE sets BADCFG; a tail out of range sets BADTAIL; a 1 clears its LQSTAT bit. The read of
a ring entry takes the packet at LQHEAD into the store and advances LQHEAD; each register is written and read at its offset of BAR0,
and a read that fails disables the queue, sets RINGERR and is reported. That the write which
clears EN leaves LOG2N as it was is the model's choice (log 60). -/
def Obligations.LaunchQueues : Prop :=
  ∀ (s : State) (p : Fin 2) (q : Fin 16) (x : Queue) (v : DWord) (n : BitVec 5), s.boot = .running → x = s.ports[p].queues[q] →
    (x.en = false → exec (.lqbaseWrite p q v) s = .next (queueSet s p q { x with base := v, head := 0 })) ∧
    (x.en = true → exec (.lqbaseWrite p q v) s = .next s ∧ exec (.lqctlResize p q n) s = .next s ∧ exec (.lqctlEnable p q n) s = .next s) ∧
    (x.en = false → exec (.lqctlResize p q n) s = .next (queueSet s p q { x with log2n := n, head := if n = x.log2n then x.head else 0 })) ∧
    (x.en = false → 4 ≤ n.toNat → n.toNat ≤ 16 → 256 ∣ x.base.toNat →
      exec (.lqctlEnable p q n) s = .next (queueSet s p q { x with log2n := n, head := if n = x.log2n then x.head else 0, en := true })) ∧
    (x.en = false → ¬ (4 ≤ n.toNat ∧ n.toNat ≤ 16 ∧ 256 ∣ x.base.toNat) →
      exec (.lqctlEnable p q n) s = .next (queueSet s p q { x with log2n := n, head := if n = x.log2n then x.head else 0, stat := x.stat ||| 1 })) ∧
    exec (.lqctlDisable p q) s = .next (queueSet s p q { x with en := false }) ∧
    (v.toNat < 2 ^ x.log2n.toNat → exec (.lqtailWrite p q v) s = .next (queueSet s p q { x with tail := v.toNat })) ∧
    (2 ^ x.log2n.toNat ≤ v.toNat → exec (.lqtailWrite p q v) s = .next (queueSet s p q { x with stat := x.stat ||| 2 })) ∧
    exec (.lqstatClear p q v) s = .next (queueSet s p q { x with stat := x.stat &&& ~~~(v.setWidth 3) }) ∧
    (s.ports[p].mode ≠ .down →
      exec (.hostMemoryRequest p (.barWrite (0x10000 + 0x100 * q.val) 8 v)) s = exec (.lqbaseWrite p q v) s ∧
      exec (.hostMemoryRequest p (.barWrite (0x10010 + 0x100 * q.val) 8 v)) s = exec (.lqtailWrite p q v) s ∧
      exec (.hostMemoryRequest p (.barWrite (0x10018 + 0x100 * q.val) 8 v)) s = .next s ∧
      exec (.hostMemoryRequest p (.barWrite (0x10020 + 0x100 * q.val) 8 v)) s = exec (.lqstatClear p q v) s ∧
      (v.getLsbD 8 = true →
        exec (.hostMemoryRequest p (.barWrite (0x10008 + 0x100 * q.val) 8 v)) s = exec (.lqctlEnable p q (v.extractLsb' 0 5)) s) ∧
      (v.getLsbD 8 = false → x.en = true → exec (.hostMemoryRequest p (.barWrite (0x10008 + 0x100 * q.val) 8 v)) s = exec (.lqctlDisable p q) s) ∧
      (v.getLsbD 8 = false → x.en = false →
        exec (.hostMemoryRequest p (.barWrite (0x10008 + 0x100 * q.val) 8 v)) s = exec (.lqctlResize p q (v.extractLsb' 0 5)) s) ∧
      ∀ r y, (r, y) ∈ [(0, x.base.toNat), (8, x.log2n.toNat + if x.en then 256 else 0), (0x10, x.tail), (0x18, x.head), (0x20, x.stat.toNat)] →
        exec (.hostMemoryRequest p (.barRead (0x10000 + 0x100 * q.val + r) 8)) s =
          .next { s with reports := s.reports ++ [.answer 0 (BitVec.ofNat 128 (y % 2 ^ 64))] }) ∧
    (x.en = true → x.head ≠ x.tail → s.pending.length < 256 →
      (s.ports[p].mode ≠ .down → ∃ t e, exec (.ringEntryRead p q false) s = .next t ∧
        t.ports = (queueSet s p q { x with head := (x.head + 1) % 2 ^ x.log2n.toNat }).ports ∧ t.pending = s.pending ++ [e] ∧
        e.pkt = BitVec.ofNat 1536 (s.host.read (x.base.toNat + 256 * x.head) 192) ∧ e.source = .host p q ∧ e.order = s.arrivals ∧
        e.checked = false ∧ e.dead = false ∧ t.arrivals = s.arrivals + 1) ∧
      exec (.ringEntryRead p q true) s = .next { queueSet s p q { x with en := false, stat := x.stat ||| 4 } with
        reports := s.reports ++ [.ringError p q] })

/-- R60–R62: a stamp write that is due, whose stamp is not given up and whose address can be written, puts the status word and the
tick into the 16 bytes at STAMP; a final one of a launch with NOTIFY is followed by its interrupt.
Which stamps cannot be written is the model's reading (log 40). -/
def stampsAreWritten : Prop :=
  ∀ (s : State) (order state : Nat) (code : BitVec 8) (num : Word) (st : Stamp) (p : Place),
    s.stamps.find? (fun t => t.order == order) = some st → st.queue = [] → st.waits = [] → st.dead = false → st.top < state → state < 8 →
    s.resolve (serviceAccessor st.source.die st.launch st.pasid st.refused) (pktStamp st.pkt) 16 16 .store = .ok p →
    s.windowRefused (serviceAccessor st.source.die st.launch st.pasid st.refused) (pktStamp st.pkt) p = false →
    s.flawed p 16 = false → s.unreachable p = false →
    (∀ core l w o, p ≠ .scratch core l w o) → memoriesWf s →
    leNat ((s.pushStamp order state code num).homeBytes p 16) =
      state * 2 ^ 56 + code.toNat * 2 ^ 48 + num.toNat + 2 ^ 64 * (s.tick % 2 ^ 64) ∧
    (3 ≤ state → pktNotify st.pkt = true → (s.pushStamp order state code num).reports = s.reports ++ [.msix (pktMsiv st.pkt)])

/-- An event's last effect is that a stamp write becomes due (R62): the stamp of an arrival order, under a launch number, gets a STATE
and a code at the tick of the event. -/
def stampDue (s t : State) (order state : Nat) (code : BitVec 8) (num : Word) : Prop :=
  ∃ u : State, t = u.pushStamp order state code num ∧ u.tick = s.tick ∧
    ∀ st, s.stamps.find? (fun x => x.order == order) = some st →
      ∃ l, u.stamps.find? (fun x => x.order == order) = some { st with launch := l } ∧ (state ≠ 1 → l = st.launch) ∧ (state = 1 → l = num)

/-- R54–R62, R377, R389: LAUNCH_CHECK accepts a packet that passes its checks, a host packet under the next launch number, and rejects
another; LAUNCH_DISPATCH makes a launch that can go, and that no other goes before, a running launch, and the threads of a workgroup
on one rod stand at its kernel with their identifiers; LAUNCH_DONE ends a launch with nothing left to run; HOSTKILL aborts a running
launch and drops one that waits; ABORT_COMPLETE stops the contexts of an aborted launch, which drain, and once none is left ends it.
The stamp's STATE is 1 as the packet is accepted, 4 with the code as it is rejected, 2 at the dispatch, 3 at the end and 5 with the
code at the end of an abort. That a host packet is numbered when it is accepted is the model's reading (log 24); that HOSTKILL drops a
launch that waits, with STATE 5, is the model's choice (log 37), and how an abort takes its contexts its reading (log 36). -/
def launchesRun : Prop :=
  (∀ s order p, s.pending.find? (fun p => p.order == order) = some p → p.dead = false → p.checked = false →
    (∀ map, s.checkPacket p = .ok map →
      ∃ t e, exec (.launchCheck order) s = .next t ∧ e ∈ t.pending ∧ e.order = order ∧ e.checked = true ∧ e.map = map ∧ e.pkt = p.pkt ∧
        e.number = (if p.source.isDevice then p.number else s.nextNum) ∧
        t.nextNum = (if p.source.isDevice then s.nextNum else if s.nextNum = 0xFFFFFFFF then 1 else s.nextNum + 1) ∧
        stampDue s t order 1 0 e.number) ∧
    (∀ code, s.checkPacket p = .reject code →
      ∃ t u, exec (.launchCheck order) s = .next t ∧ t.nextNum = s.nextNum ∧ (∀ e ∈ t.pending, e.order = order → e.dead = true) ∧
        stampDue s u order 4 code 0 ∧ t = { u with pending := t.pending })) ∧
  (∀ s order p o core, s.pending.find? (fun p => p.order == order) = some p → s.objects.find? (fun o => o.addr == pktObj p.pkt) = some o →
    s.canDispatch p = true → s.highestReady (pktPrio p.pkt) = true → s.launch? p.number = none →
    ∃ t l, exec (.launchDispatch order) s = .next t ∧ (∀ e ∈ t.pending, e.order ≠ order) ∧ t.launch? p.number = some l ∧ l.st = .running ∧
      l.pkt = p.pkt ∧ l.map = p.map ∧ stampDue s t order 2 0 p.number ∧
      (p.map = [core] → isRod core = true → ∀ i, i < pktWgsize p.pkt → ∃ z ∈ t.ctxs, z.launch = p.number ∧ z.key.core = core ∧ z.kind = .rod ∧
        z.group = 0 ∧ (z.arch.lane 0).live = true ∧ (z.arch.lane 0).tid = p.number ++ BitVec.ofNat 32 i ∧
        (z.arch.lane 0).pc = kernelEntry o p.pkt ∧ (o.vcnt ≠ 0 → z.arch.vreg 0 0 = BitVec.ofNat 32 i))) ∧
  (∀ s n l, s.launch? n = some l →
    (l.st = .running → s.launchQuiet n = true →
      ∃ t, exec (.launchDone n) s = .next t ∧ t.launch? n = none ∧ (∀ r ∈ t.regions, r.launch ≠ n) ∧ (∀ w ∈ t.windows, w.launch ≠ n) ∧
        stampDue s t l.order 3 0 n) ∧
    (∀ code, l.st = .aborting code → l.halt = none → s.launchQuiet n = true →
      ∃ t, exec (.abortComplete n) s = .next t ∧ t.launch? n = none ∧ (∀ r ∈ t.regions, r.launch ≠ n) ∧ (∀ w ∈ t.windows, w.launch ≠ n) ∧
        stampDue s t l.order 5 code.byte n) ∧
    (∀ code, l.st = .aborting code → l.halt.isSome = true → distinct s → (∀ c ∈ s.ctxsOf n, c.st = .live ∨ c.st = .draining) →
      ∃ t m, exec (.abortComplete n) s = .next t ∧ t.launch? n = some m ∧ m.st = l.st ∧ m.halt = none ∧
        (t.ctxsOf n).map (·.key) = (s.ctxsOf n).map (·.key) ∧ ∀ c ∈ t.ctxsOf n, c.st = .draining) ∧
    (l.st = .running → s.pending.find? (fun p => p.checked && p.number == n) = none →
      ∃ t m, exec (.hostkill n) s = .next t ∧ t.launch? n = some m ∧ m.st = .aborting .hostkill)) ∧
  (∀ s n p, s.pending.find? (fun p => p.checked && p.number == n) = some p →
    ∃ t, exec (.hostkill n) s = .next t ∧ (t.pending = s.pending.filter fun x => x.order != p.order) ∧ stampDue s t p.order 5 Code.hostkill.byte n)

/-- Launches come, run, end and say so in their stamps (R54–R62, R377). -/
def Obligations.LaunchesRun : Prop := stampsAreWritten ∧ launchesRun

/-! ## Memory from outside -/

/-- R42–R44, R221–R224: a granted translation enters the die's cache and a thread that waited for the page alone goes on; a refused one
goes to the host as a page request, or without PRI the thread goes on with the refusal NOTMAPPED; a page response lets it go on,
refused with NOTMAPPED where the page is absent and PERM where it is present; an invalidation removes every translation of its range and,
where no outstanding access uses one, every frame-cache line of it and of a larger page whose translation it removes, and completes;
with such an access outstanding its completion waits. A host AtomicOp that completes has its old value in the request and its new value
in host memory, behind the release of its order, and one that the host refuses faults HATOM in its lane and clears its bit of HCAP.
Which level of the caches takes a translation is the model's choice (log 62); which frame-cache lines go with an invalidation, and that
its completion waits for requests alone, its reading (log 33); and so is the step in which an AtomicOp is performed (log 14). -/
def Obligations.TranslationsReturn : Prop :=
  (∀ s (w : PageWait) k c, s.ports[diePort w.die].mode ≠ .down → s.ctx? k = some c → c.st = .parked (.pages [w]) → w ∉ s.pri →
    w ∈ (s.ats.filter fun x => x.die == w.die).take 256 →
    (∀ base log2 write, log2 ∈ [12, 21, 30] → 2 ^ log2 ∣ base → (w.write = true → write = true) →
      ∃ t y, exec (.atsCompletion w.die w.pasid w.page (.granted base log2 write)) s = .next t ∧ t.ctx? k = some y ∧ y.st = .live ∧ y.arch = c.arch ∧
        ∃ e ∈ t.tlb, e.level = 2 ∧ e.owner = w.die.val ∧ e.pasid = w.pasid ∧ e.page = w.page * 4096 / 2 ^ log2 ∧ e.log2 = log2 ∧ e.base = base ∧
          e.write = write) ∧
    (s.ports[diePort w.die].hcap.getLsbD 2 = true →
      ∃ t y, exec (.atsCompletion w.die w.pasid w.page .refused) s = .next t ∧ t.ctx? k = some y ∧ y.st = c.st ∧ w ∈ t.pri) ∧
    (s.ports[diePort w.die].hcap.getLsbD 2 = false →
      ∃ t y, exec (.atsCompletion w.die w.pasid w.page .refused) s = .next t ∧ t.ctx? k = some y ∧ y.st = .live ∧ (w, Code.notmapped) ∈ y.refused)) ∧
  (∀ s (w : PageWait) k c ans, s.ports[diePort w.die].mode ≠ .down → s.ctx? k = some c → c.st = .parked (.pages [w]) →
    w ∈ (s.pri.filter fun x => diePort x.die == diePort w.die).take 512 →
    ∃ t y, exec (.priResponse w.die w.pasid w.page ans) s = .next t ∧ t.ctx? k = some y ∧ y.st = .live ∧ y.arch = c.arch ∧
      (ans = .success → y.refused = c.refused) ∧ (ans = .absent ∨ ans = .failure → y.refused = (w, .notmapped) :: c.refused) ∧
      (ans = .present → y.refused = (w, .perm) :: c.refused)) ∧
  (∀ s pasid page pages inv, inv = s.invalidation pasid page pages → ∃ t, exec (.atsInvalidation pasid page pages) s = .next t ∧
      (∀ e ∈ t.tlb, e.pasid = pasid → (e.page + 1) * 2 ^ e.log2 ≤ 4096 * page ∨ 4096 * (page + pages) ≤ e.page * 2 ^ e.log2) ∧
      ((∀ c ∈ s.ctxs, s.usesPages c inv = false) →
        (∀ l ∈ t.cache, l.pasid = pasid → (128 * l.line < 4096 * page ∨ 4096 * (page + pages) ≤ 128 * l.line) ∧
          ∀ e ∈ s.tlb, e.pasid = pasid → e ∉ t.tlb → 128 * l.line < e.page * 2 ^ e.log2 ∨ (e.page + 1) * 2 ^ e.log2 ≤ 128 * l.line) ∧
        Report.invalidated pasid page pages ∈ t.reports) ∧
      ((∃ c ∈ s.ctxs, s.usesPages c inv = true) → inv ∈ t.invals)) ∧
  (∀ s k c r op d x pa m u z, s.ctx? k = some c → c.st = .parked (.reply r) → r.kind = .atomic op d → r.acc = [x] → x.answer = none → x.place = .host pa →
    s.ports[diePort (coreDie k.core)].mode ≠ .cxl → u = s.relBefore k r.ord (accScope r.acc r.scope) →
    u.ctx? k = some z → m = BitVec.ofNat 128 (u.host.read pa (bytesOf r.size)) →
    (∃ t y, exec (.hostAtomicCompletion k x.lane true) s = .next t ∧ t.ctx? k = some y ∧ y.arch = z.arch ∧
      y.st = .parked (.reply { r with acc := [{ x with answer := some m }] }) ∧
      t.host = match atomicResult afaddWord op (bytesOf r.size) m x.x x.y with
        | some v => u.host.write pa (bytesOf r.size) v.toNat
        | none => u.host) ∧
    ∃ t y, exec (.hostAtomicCompletion k x.lane false) s = .next t ∧ t.ctx? k = some y ∧ y.arch = c.arch ∧ t.host = s.host ∧
      y.st = .parked (.reply { r with acc := [], faults := ⟨x.lane, .hatom, x.va⟩ :: r.faults }) ∧
      ∀ i, hostAtomicBit op r.size = some i → t.ports[diePort (coreDie k.core)].hcap = s.ports[diePort (coreDie k.core)].hcap &&& ~~~(1#32 <<< i))

/-- An access to device memory from outside has been performed and answered: what it writes is there, every other byte of device
memory is as before, and the answer is the old value. -/
def answered (s t : State) (req : OutsideReq) (off n : Nat) (m : BitVec 128) : Prop :=
  t.reports = s.reports ++ [.answer 0 m] ∧ (∀ a, ¬ (off ≤ a ∧ a < off + n) → t.dev.get a = s.dev.get a) ∧
  ∀ i, i < n → t.dev.get (off + i) = match reqNew m req with
    | some v => v.extractLsb' (8 * i) 8
    | none => s.dev.get (off + i)

/-- R41, R43, R46, R107, R215, R220, R270: the host reaches device memory through a CXL port and another package of the domain through
an opened range; text is not written. A snoop brings the host's writes, and in CXL mode wakes the MWAITs on the line.
The answer to an access of text is the model's reading (log 35), and so is it that a snoop's writes are in host memory in every mode
of the ports (log 34). -/
def outsideReaches : Prop :=
  (∀ s req off n m port, reqRange req = (off, n) → 0 < n → n ≤ 16 → off + n ≤ Config.devBytes → m = BitVec.ofNat 128 (s.dev.read off n) →
    memoriesWf s → s.tests = [] → s.boot = .running → (∀ i, i < n → s.isText (off + i) = false) →
    (s.ports[(port : Fin 2)].mode = .cxl → ∃ t, exec (.hostMemoryRequest port req) s = .next t ∧ answered s t req off n m) ∧
    ∀ pkg pasid o, pkg ≠ s.pkg → s.domain.contains pkg = true → s.deadPeers.contains pkg = false → o ∈ s.opened → o.1 = s.pkg → o.2.1 = pasid →
      o.2.2.1 ≤ off → off + n ≤ o.2.2.1 + o.2.2.2 → ∃ t, exec (.domainRequest pkg pasid req) s = .next t ∧ answered s t req off n m) ∧
  ∀ s line i x, i < 128 → memoriesWf s →
    ∃ t, exec (.snoop line [(i, x)]) s = .next t ∧ t.host.get (128 * line + i) = x ∧ (∀ a, a ≠ 128 * line + i → t.host.get a = s.host.get a) ∧
      (s.ports[0].mode = .cxl ∨ s.ports[1].mode = .cxl → ∀ k c va pa d y sc dl po nx, s.ctx? k = some c →
        c.st = .parked (.mwait va (some (.host pa)) d y sc dl po nx) → pa / 128 = line → ∃ z, t.ctx? k = some z ∧ z.woken = true)

/-- R39, R42, R364, R388, R438: a host port that trains when the other is down or in the same mode runs in that mode with HCAP as
trained, and is held down otherwise; a link that goes down is reported, with SPEED 0; a port of the fabric comes up with the
packages that it reaches, and one that fails, or whose cable is absent, is down and reported, with every package that no other port
reaches; a width report clears one atomic bit. That HCAP keeps its other bits while the link is down is the model's reading (log
34). -/
def linksChange : Prop :=
  ∀ (s : State) (p : Fin 2),
    (∀ cxl ats pri : Bool, s.boot ≠ .off → s.ports[p].mode = .down →
      (s.ports[1 - p].mode = .down ∨ s.ports[1 - p].mode = (if cxl then .cxl else .pcie) →
        ∃ t, exec (.linkTraining (.host p) cxl ats pri) s = .next t ∧ t.ports[p].mode = (if cxl then .cxl else .pcie) ∧ t.ports[p].held = false ∧
          t.ports[p].hcap.getLsbD 0 = cxl ∧ t.ports[p].hcap.getLsbD 1 = ats ∧ t.ports[p].hcap.getLsbD 2 = pri ∧
          t.ports[p].hcap.extractLsb' 3 7 = s.ports[p].hcap.extractLsb' 3 7 ∧ t.ports[p].hcap.extractLsb' 16 4 = 6 ∧
          t.ports[p].queues = s.ports[p].queues ∧ t.ports[1 - p] = s.ports[1 - p]) ∧
      (s.ports[1 - p].mode ≠ .down → s.ports[1 - p].mode ≠ (if cxl then .cxl else .pcie) →
        ∃ t, exec (.linkTraining (.host p) cxl ats pri) s = .next t ∧ t.ports[p].mode = .down ∧ t.ports[p].held = true ∧
          t.reports = s.reports ++ [.portMismatch p])) ∧
    (s.ports[p].mode ≠ .down → ∃ t, exec (.hostLinkDown p) s = .next t ∧ t.ports[p].mode = .down ∧ t.ports[p].hcap.extractLsb' 16 4 = 0 ∧
      t.reports = s.reports ++ [.linkDown p] ∧
      ∀ k c r, s.ctx? k = some c → c.st = .parked (.reply r) → ∃ y q, t.ctx? k = some y ∧ y.st = .parked (.reply q) ∧
        ∀ x ∈ q.acc, ∀ a, x.place = .host a → x.answer = none → diePort (coreDie k.core) ≠ p) ∧
    (∀ (y : Fin 72) (cxl ats pri : Bool),
      (s.boot ≠ .off → ∀ peers, peers ≠ [] → ∃ t, exec (.linkTraining (.ysl y peers) cxl ats pri) s = .next t ∧ t.ysl = s.ysl.set y ⟨true, peers⟩) ∧
      (s.boot ≠ .off → ∃ t, exec (.linkTraining (.ysl y []) cxl ats pri) s = .next t ∧ t.ysl[y].up = false ∧ .portFailed y ∈ t.reports) ∧
      (s.ysl[y].up = true → ∃ t, exec (.linkFailure y) s = .next t ∧ t.ysl[y].up = false ∧ (∀ z : Fin 72, z ≠ y → t.ysl[z] = s.ysl[z]) ∧
        .portFailed y ∈ t.reports ∧
        ∀ peer, peer ≠ s.pkg → s.domain.contains peer = true → s.deadPeers.contains peer = false →
          ((∀ z : Fin 72, z ≠ y → s.ysl[z].up = true → s.ysl[z].peers.contains peer = false) →
            t.deadPeers.contains peer = true ∧ .linkFailed peer ∈ t.reports) ∧
          ∀ z : Fin 72, z ≠ y → s.ysl[z].up = true → s.ysl[z].peers.contains peer = true → t.deadPeers.contains peer = false)) ∧
    ∀ bit : Fin 7, ∃ t, exec (.atomicWidthReport p bit) s = .next t ∧ t.ports[p].hcap = s.ports[p].hcap &&& ~~~(1#32 <<< (3 + bit.val)) ∧
      t.ports[p].mode = s.ports[p].mode ∧ t.ports[p].queues = s.ports[p].queues ∧ t.ports[1 - p] = s.ports[1 - p]

/-- R226–R228, R398, R401–R404: a corrected error counts against its row, and one above the threshold has its row tested; a machine
check loses a dirty line, of a frame or of a home slice, is reported and aborts the running launches of the line's PASID, and drops
a clean one; a storage test that passes clears the slice's count, one that fails fences the slice and is recorded; Gyhouc
clears a fence; a pair that passes lets its context go on; the 4,096th instruction of a lock-step context takes a checkpoint. That
errors come from outside is the model's choice (logs 7, 51, 54), and the window of a count its reading (log 32). -/
def errorsAreHandled : Prop :=
  (∀ (s : State) (stack : Fin 12) r, s.flaws = [] → 1 ≤ s.policy.threshold → s.ecc.find? (fun e => e.1 == Slice.row (12 * r + stack.val)) = none →
    ∃ t, exec (.scrubPass stack [r]) s = .next t ∧ (Slice.row (12 * r + stack.val), 1, s.tick) ∈ t.ecc ∧ t.tests = s.tests) ∧
  (∀ (s : State) (stack : Fin 12) r n since x, s.flaws = [] → x = Slice.row (12 * r + stack.val) → s.ecc.find? (fun e => e.1 == x) = some (x, n, since) →
    s.tick < since + dayCycles → s.policy.threshold ≤ n → s.fenced.contains x = false → (∀ t ∈ s.tests, t.target ≠ .storage x) →
    ∃ t, exec (.scrubPass stack [r]) s = .next t ∧ t.tests = s.tests ++ [⟨.storage x, none, Config.rowBank (12 * r + stack.val), s.tick⟩]) ∧
  (∀ s frame pasid line l, s.line? frame pasid (128 * line) = some l → l.dirty = 0 →
    ∃ t, exec (.machineCheck (.frame frame) pasid line) s = .next t ∧ t.line? frame pasid (128 * line) = none ∧ t.reports = s.reports ∧
      t.launches = s.launches) ∧
  (∀ (s : State) pasid line x, s.l2.find? (fun x => x.line == line) = some x →
    ∃ t, exec (.machineCheck .slice pasid line) s = .next t ∧
      (x.dirty = true → .machineCheck (.dev (128 * line)) ∈ t.reports ∧ (∀ y ∈ t.l2, y.line ≠ line) ∧
        ∀ p n y, x.pasid = some p → s.launch? n = some y → y.pasid = p → y.st = .running → (∀ p ∈ s.pending, p.number ≠ n) →
          ∃ m, t.launch? n = some m ∧ m.st = .aborting .memue) ∧
      (x.dirty = false → t.reports = s.reports ∧ t.l2 = s.l2.filter fun y => y.line != line)) ∧
  (∀ s frame pasid line l, s.line? frame pasid (128 * line) = some l → l.dirty ≠ 0 →
    ∃ t, exec (.machineCheck (.frame frame) pasid line) s = .next t ∧ t.line? frame pasid (128 * line) = none ∧ .machineCheck l.place ∈ t.reports ∧
      ∀ n x, s.launch? n = some x → x.pasid = pasid → x.st = .running → (∀ p ∈ s.pending, p.number ≠ n) →
        ∃ m, t.launch? n = some m ∧ m.st = .aborting .memue) ∧
  (∀ (s : State) n t x choice, s.tests[n]? = some t → t.target = .storage x → t.tick + t.target.duration ≤ s.tick →
    (∃ u, exec (.selfTestComplete n true choice) s = .next u ∧ u.tests = s.tests.eraseIdx n ∧ (∀ e ∈ u.ecc, e.1 ≠ x) ∧ u.fenced = s.fenced) ∧
    ∃ u rec_, exec (.selfTestComplete n false choice) s = .next u ∧ u.fenced = x :: s.fenced ∧ u.reports = s.reports ++ [.record rec_] ∧
      rec_.length = 32) ∧
  (∀ (s : State) n t core key c choice, s.tests[n]? = some t → t.target = .pair core → t.key = some key → t.tick + 4096 ≤ s.tick →
    s.ctx? key = some c → c.st = .parked .selfTest → c.rollbacks < 4 →
    ∃ u y, exec (.selfTestComplete n true choice) s = .next u ∧ u.ctx? key = some y ∧ y.st = .live ∧ y.arch = c.arch) ∧
  (∀ (s : State) x, s.fenced.contains x = true →
    ∃ t, exec (.fencedSliceClear x) s = .next t ∧ t.fenced = (s.fenced.filter fun y => y != x) ∧ ∀ e ∈ t.ecc, e.1 ≠ x) ∧
  ∀ s k c, s.ctx? k = some c → s.inLockstep c = true → 4096 ≤ c.retired → c.st ≠ .parked .selfTest →
    ∃ t y ar, exec (.checkpointCountExpiry k) s = .next t ∧ t.ctx? k = some y ∧ y.retired = 0 ∧ y.ckpt.head? = some ar ∧
      ar.s = c.arch.s ∧ ar.lanes = c.arch.lanes ∧ ∀ g ∈ t.gates, g.key ≠ k

/-- Accesses from outside, links and the handling of errors (R39–R46, R215, R226–R228, R364, R388, R398–R404). -/
def Obligations.LinksAndErrors : Prop := outsideReaches ∧ linksChange ∧ errorsAreHandled

/-! ## Trap slots and Gyhouc's services -/

/-- R376, R378, R386, R387: a slot that becomes free goes to the oldest request; a SYSTEM delivery resumes at EPC, ends its lanes,
or aborts its launch; and the services answer. ALLOC: 2 for a size or an alignment out of range, 1 where the heap has no room, else
0 with the address of a block that reads 0. FREE of a block: 0. POST: PEND.POST of the context that holds the TID, and 0, or 3. Any
other: 0xFF. How a block of ALLOC is mapped is the model's choice (log 19). -/
def Obligations.ServicesComplete : Prop :=
  (∀ (s : State) board key use q, (s.reckoner board).queue = (key, use) :: q → (s.reckoner board).slots.length < 64 →
    ∃ t, exec (.trapSlotGrant board) s = .next t ∧ (t.reckoner board).queue = q ∧ (t.reckoner board).slots = (s.reckoner board).slots ++ [(key, use)] ∧
      (use = .system → ∀ c, s.ctx? key = some c → ∃ y, t.ctx? key = some y ∧ y.st = .parked .system) ∧
      (use = .svc → ∀ c d a b n next, s.ctx? key = some c → c.st = .parked (.svc d a b n next false) →
        ∃ y, t.ctx? key = some y ∧ y.st = .parked (.svc d a b n next true))) ∧
  (∀ (s : State) key c, s.ctx? key = some c → c.st = .parked .system →
    ((c.away = false ∨ c.kind ≠ .rod ∨ ∀ w, s.window? c.launch key.core = some w → w.tbase = c.arch.tbase) →
      ∃ t y, exec (.systemServiceComplete key .resume) s = .next t ∧ t.ctx? key = some y ∧ y.st = .live ∧ y.arch.s = c.arch.s ∧
        ∀ n, (c.arch.lane n).live = true → (y.arch.lane n).pc = if c.arch.sysSet.getLsbD n then c.arch.epc else (c.arch.lane n).pc) ∧
    ((∀ n, c.arch.sysSet.getLsbD n = true → (c.arch.lane n).gid = 0) →
      ∃ t y, exec (.systemServiceComplete key .retire) s = .next t ∧ t.ctx? key = some y ∧
        ∀ n, (y.arch.lane n).live = ((c.arch.lane n).live && !(c.arch.sysSet.getLsbD n))) ∧
    (∀ code l, c.arch.ecode = code.byte.setWidth 32 → s.launch? c.launch = some l → l.st = .running →
      ∃ t m, exec (.systemServiceComplete key .abort) s = .next t ∧ t.launch? c.launch = some m ∧ m.st = .aborting code)) ∧
  (∀ (s : State) key c (k : Fin 16) a b next l place base, s.ctx? key = some c → serving c (.s k) a b 1 next → s.launch? c.launch = some l →
    ((a = 0 ∨ 2 ^ 40 < a.toNat ∨ b.toNat < 3 ∨ 21 < b.toNat) →
      ∃ t y, exec (.alloc key place base) s = .next t ∧ t.ctx? key = some y ∧ replied c y (.s k) next 0 2) ∧
    (a ≠ 0 → a.toNat ≤ 2 ^ 40 → 3 ≤ b.toNat → b.toNat ≤ 21 → s.policy.heapLimit < l.heapUsed + a.toNat ∨ place = 0 →
      ∃ t y, exec (.alloc key place base) s = .next t ∧ t.ctx? key = some y ∧ replied c y (.s k) next 0 1) ∧
    (a ≠ 0 → a.toNat ≤ 2 ^ 40 → 3 ≤ b.toNat → b.toNat ≤ 21 → l.heapUsed + a.toNat ≤ s.policy.heapLimit → place ≠ 0 →
      s.placementOk l.pasid a.toNat (2 ^ b.toNat) place base = true → s.inLockstep c = false →
      ∃ t y m, exec (.alloc key place base) s = .next t ∧ t.ctx? key = some y ∧ replied c y (.s k) next (BitVec.ofNat 64 place) 0 ∧
        t.launch? c.launch = some m ∧ m.allocs = l.allocs ++ [(place, a.toNat, base)] ∧
        ∀ i, i < a.toNat → t.dev.get (base + i) = 0)) ∧
  (∀ (s : State) key c (k : Fin 16) a next l, s.ctx? key = some c → serving c (.s k) a 0 2 next → s.launch? c.launch = some l →
    (l.allocs.any fun x => x.1 == a.toNat) = true →
    ∃ t y m, exec (.free key) s = .next t ∧ t.ctx? key = some y ∧ replied c y (.s k) next 0 0 ∧
      t.launch? c.launch = some m ∧ m.allocs = l.allocs.filter fun x => x.1 != a.toNat) ∧
  (∀ (s : State) key c (k : Fin 16) a next, s.ctx? key = some c → serving c (.s k) a 0 3 next →
    (∀ x, s.ctxs.find? (fun x => x.holdsTid c.launch a) = some x →
      ∃ t y z, exec (.post key) s = .next t ∧ t.ctx? key = some y ∧ replied c y (.s k) next 0 0 ∧ t.ctx? x.key = some z ∧ z.arch.pend.getLsbD 1 = true) ∧
    (s.ctxs.find? (fun x => x.holdsTid c.launch a) = none →
      ∃ t y, exec (.post key) s = .next t ∧ t.ctx? key = some y ∧ replied c y (.s k) next 0 3)) ∧
  ∀ (s : State) key c (k : Fin 16) a b n next, s.ctx? key = some c → serving c (.s k) a b n next → n ≠ 1 → n ≠ 2 → n ≠ 3 →
    ∃ t y, exec (.nosvc key) s = .next t ∧ t.ctx? key = some y ∧ replied c y (.s k) next 0 0xFF

/-! ## The events of a core -/

/-- R104, R106, R108, R110, R111, R373: a fill puts the object's text from TBASE on into its window, zero beyond the text, unless
the window has moved on, and the contexts that wait for the window go on once no other fill of it is pending; a fetch of words puts
them in hand, and a fetch that fails delivers its fault. A fetch past the window enters the overlay handler where there is one and
no handler runs, and is delivered otherwise. A fill whose one read fails leaves every window that joined it, and has not moved on,
without text. That a window without text is what such a fill leaves is the model's reading (log 31), and so is it that a fetch past
the window inside a handler is delivered as a nested OVL (log 25). -/
def textArrives : Prop :=
  (∀ (s : State) launch core f w o, (s.fillsInFlight (frameNo core)).find? (fun f => f.joined.contains (launch, core)) = some f →
    s.window? launch core = some w → o = s.objectOf launch → s.flaws = [] → s.tests = [] →
    (f.read = false → ∃ t, exec (.textFillComplete launch core true) s = .next t ∧ (∀ g ∈ t.fills, g ≠ f) ∧
      ∀ j ∈ f.joined, ∀ v, t.window? j.1 j.2 = some v → v.tbase = f.tbase → v.bad = true) ∧
    ∃ t v, exec (.textFillComplete launch core false) s = .next t ∧ t.window? launch core = some v ∧ v.tbase = w.tbase ∧ v.xb = w.xb ∧
      (f.tbase ≠ w.tbase → v = w) ∧ (f.tbase = w.tbase → v.bad = false) ∧
      (f.tbase = w.tbase → ∀ i, v.bytes.get i = if i < f.xb ∧ f.tbase.toNat + i < o.text + o.textSize then s.dev.get (s.heapOffset f.tbase.toNat + i) else 0) ∧
      ((∀ g ∈ s.fills, g ≠ f → g.joined.contains (launch, core) = false) → ∀ k c, s.ctx? k = some c → c.launch = launch → k.core = core →
        c.st = .parked .fill → ∃ y, t.ctx? k = some y ∧ y.st = .live ∧ y.arch = c.arch)) ∧
  ∀ (s : State) k c set,
    (∀ pc ws, s.candidate k = some (c, set, .words pc ws) → ((s.setCtx c).noteIssue k).stopAt c set pc = none →
      ∃ t y, exec (.instructionFetch k) s = .next t ∧ t.fetched = some ws ∧ t.issue = some ⟨k, set, pc, 4 * ws.length⟩ ∧
        t.ctx? k = some y ∧ ∀ n, set.getLsbD n = true → (y.arch.lane n).pc = pc) ∧
    (∀ code pc, s.candidate k = some (c, set, .fault code pc) →
      exec (.instructionFetch k) s = .next (((s.setCtx c).noteIssue k).deliver k ⟨(lanesOf set).map fun i => ⟨i, code, pc⟩, false, pc⟩)) ∧
    ∀ pc, s.candidate k = some (c, set, .overlay pc) →
      (c.arch.ovh = 0 ∨ c.arch.uh = true →
        exec (.instructionFetch k) s = .next (((s.setCtx c).noteIssue k).deliver k ⟨(lanesOf set).map fun i => ⟨i, .ovl, pc⟩, false, pc⟩)) ∧
      (c.arch.ovh ≠ 0 → c.arch.uh = false → s.inLockstep c = false →
        ∃ t y, exec (.instructionFetch k) s = .next t ∧ t.fetched = s.fetched ∧ t.ctx? k = some y ∧ y.st = .live ∧ y.arch.overlay = true ∧
          y.arch.epc = epcBits pc ∧ y.arch.eaddr = pc ∧ y.arch.trapSet = set ∧ ∀ n, set.getLsbD n = true → (y.arch.lane n).pc = c.arch.ovh)

/-- R76, R84, R297, R298, R300, R313: a context that drains becomes free, and a rod's count goes up; released bytes drain; an entry whose
deadline has come seals; and a sealed entry whose turn it is has its gang placed, with a lane at the leaf for each caller, which
has the caller's TID and v0–v7, the key in s1 and the number of callers in s2. -/
def coresProceed : Prop :=
  (∀ s k c, s.ctx? k = some c → c.st = .draining →
    ∃ t, exec (.contextFree k) s = .next t ∧ t.ctx? k = none ∧
      (c.kind = .rod → t.freecntOf k.core = s.freecntOf k.core + 1 ∧
        ∀ j x (d : Fin 64) old next, s.ctx? j = some x → j ≠ k → x.st = .parked (.waitfree k.core (.s d) old next) → s.struck j = false →
          ∃ y, t.ctx? j = some y ∧ y.st = .live ∧ y.arch.s = x.arch.s.set d (s.freecntOf k.core + 1))) ∧
  (∀ (s : State) core launch w r, s.region? core launch w = some r → r.draining ≠ 0 →
    ∃ t, exec (.drainComplete core launch w) s = .next t ∧ t.region? core launch w = some { r with draining := 0 }) ∧
  (∀ (s : State) e, e ∈ s.rdv → e.st = .opened → e.deadline ≤ s.tick →
    ∃ t, exec (.rendezvousDeadline e.frame e.num) s = .next t ∧ { e with st := .sealed, order := s.arrivals } ∈ t.rdv ∧
      t.arrivals = s.arrivals + 1) ∧
  (∀ (s : State) frame, exec (.requestCollectorFlush frame) s = .next s) ∧
  ∀ (s : State) frame entry e r slot slots o (cs : List Ctx), s.rdv.find? (fun e => e.frame == frame && e.num == entry) = some e → s.nextSealed e = true →
    s.region? (frameCore frame 8) e.launch 0xFFFFF = some r → r.core = frameCore frame 8 → s.slotsFree (frameCore frame 8) = slot :: slots → o = s.objectOf e.launch →
    (s.residents r).length < regionSlots o r.core r.pw → gangBlock o o.vcnt ≤ s.regionFree r →
    e.callers.filterMap s.byUid = cs → cs.length ≤ 32 → (∀ x ∈ cs, nfmtTop x.arch.nfmt = s.launchTop e.launch) →
    ∃ t z, exec (.gangPlacement frame entry) s = .next t ∧ t.ctx? ⟨r.core, slot⟩ = some z ∧ z.kind = .called e.frame e.num ∧ z.launch = e.launch ∧ z.st = .live ∧
      z.arch.s[1] = e.key ∧ z.arch.s[2] = BitVec.ofNat 32 cs.length ∧ z.arch.lanes.length = 32 ∧
      (∀ n x, cs[n]? = some x → (z.arch.lane n).live = true ∧ (z.arch.lane n).pc = e.leaf ∧ (z.arch.lane n).tid = (x.arch.lane 0).tid ∧
        (z.arch.lane n).caller = some x.uid ∧ ∀ j : Fin 64, j.val < 8 → z.arch.vreg n j = x.arch.vreg 0 j) ∧
      (∀ n, cs.length ≤ n → (z.arch.lane n).live = false)

/-- R251, R256–R258, R264–R266, R367, R368: a job whose turn it is is dispatched, and its tag says so; a LINEAR job that is
performed leaves at its destination the bytes that its source held, and its tag is SET with code 0; and so does an ALLGATHER of one
rank. That a job is performed whole when it ends is the model's reading (log 30), and that an ALLGATHER copies its bits as they are its
choice (log 43). -/
def jobsEnd : Prop :=
  (∀ (s : State) num j c, s.job? num = some j → s.mayDispatch j = true → s.byUid j.uid = some c → distinct s →
    ∃ t i y, exec (.jobDispatch num) s = .next t ∧ t.job? num = some i ∧ i.st = .running ∧ t.ctx? c.key = some y ∧
      y.arch.tags[j.tag].status = 0x00200000) ∧
  (∀ (s : State) num j c (src dst : Nat → Place), s.job? num = some j → j.st = .running → j.waits = [] → j.code = none → cardKind j.card = 1 →
    cardStampa j.card = 0 → s.byUid j.uid = some c → c.isCalled = false → distinct s → memoriesWf s →
    (∀ x ∈ cardReads j.card ++ cardWrites j.card, meetsTextWindow x = false ∧ x.1 + x.2 ≤ 7 * 2 ^ 54) → Undisturbed s j.launch →
    (∀ i, i < cardLen j.card → inRegions (cardReads j.card) (srcAddr j.card + (i : Nat)) 1 = true ∧
      s.resolveRead j.accessor (BitVec.ofInt 64 (srcAddr j.card + (i : Nat))) 1 1 .load = .ok (src i) ∧ s.unreachable (src i) = false ∧
      inRegions (cardWrites j.card) (dstAddr j.card + (i : Nat)) 1 = true ∧
      s.resolveWrite j.accessor (BitVec.ofInt 64 (dstAddr j.card + (i : Nat))) 1 1 .store = .ok (dst i) ∧ s.unreachable (dst i) = false ∧
      exists? s (dst i) = true) →
    (∀ i k, i < cardLen j.card → k < cardLen j.card → i ≠ k → home s (dst i) ≠ home s (dst k)) →
    ∃ t y, exec (.jobComplete num ⟨[], []⟩) s = .next t ∧ t.job? num = none ∧ t.ctx? c.key = some y ∧ y.arch.tags[j.tag] = ⟨.set, 0x00300000⟩ ∧
      y.arch.pend.getLsbD 0 = true ∧ ∀ i, i < cardLen j.card → t.homeByte (dst i) = s.homeByte (src i)) ∧
  ∀ (s : State) num j c xs r, s.job? num = some j → s.jobs.filter (fun i => cardKind i.card == 8 && i.st == .running && i.code.isNone
      && collKey i.card == collKey j.card) = [j] → j.waits = [] → s.stillToEnd (collKey j.card) = 0 →
    s.readRmap j (BitVec.ofNat 64 (collField j.card 0x18 8)) (collField j.card 4 4) = .ok [s.pkg] → collField j.card 4 4 = 1 → cardRank j.card = 0 → cardForbidden j.card = false → Undisturbed s j.launch →
    s.domain.contains s.pkg = true → collField j.card 0 1 = 2 → cardStampa j.card = 0 → s.byUid j.uid = some c → c.isCalled = false → distinct s →
    s.collRead j (srcAddr j.card) (cardBytes j.card) (cardLen j.card) = .ok xs →
    jobWriteVals j (dstAddr j.card) (cardBytes j.card) xs (JobRun.start s) = .done r →
    ∃ t y, exec (.collectiveMatch num []) s = .next t ∧ t.job? num = none ∧ t.ctx? c.key = some y ∧ y.arch.tags[j.tag] = ⟨.set, 0x00300000⟩ ∧
      ∀ p, t.homeByte p = r.s.homeByte p

/-- What a core does by itself: texts, frees, gangs and jobs. -/
def Obligations.CoresProceed : Prop := textArrives ∧ coresProceed ∧ jobsEnd

/-! ## Pre-emption, the watchdog, Debug -/

/-- R58, R306, R389–R392: pre-emption of a launch with every context at its point saves it: its contexts, regions and windows leave
the cores, and the registers of a launch whose contexts were all between two instructions are saved as they were. A restore makes a
saved launch run again, with its contexts resident. A watchdog that fires saves its launch and aborts it with WDOG. That a launch is
saved in one step is the model's reading (log 36). -/
def Obligations.PreemptionSaves : Prop :=
  (∀ (s : State) n l, s.launch? n = some l → l.st = .running → distinct s → (∀ c ∈ s.ctxsOf n, s.takeable c = true) →
    (s.mayPreempt l = true →
      ∃ t m, exec (.preemption n) s = .next t ∧ t.launch? n = some m ∧ m.st = .saved ∧ (∀ c ∈ t.ctxs, c.launch ≠ n) ∧
        (∀ r ∈ t.regions, r.launch ≠ n) ∧ (∀ w ∈ t.windows, w.launch ≠ n) ∧ m.saved.map (·.key) = (s.ctxsOf n).map (·.key) ∧
        ((∀ c ∈ s.ctxsOf n, c.st = .live) → ∀ c ∈ s.ctxsOf n, ∃ z ∈ m.saved, z.uid = c.uid ∧ z.arch.s = c.arch.s ∧ z.arch.a = c.arch.a ∧
          z.arch.lanes = c.arch.lanes ∧ z.arch.tags = c.arch.tags)) ∧
    (l.timers.any (s.timerDue l) = true →
      ∃ t m, exec (.watchdogFire n) s = .next t ∧ t.launch? n = some m ∧ m.st = .aborting .wdog ∧ ∀ c ∈ t.ctxs, c.launch ≠ n)) ∧
  ∀ (s : State) n l, s.launch? n = some l → s.canRestore l [] = true → s.highestReady (pktPrio l.pkt) = true →
    (∀ c ∈ l.saved, ∃ w ∈ l.savedWins, w.1 = c.key.core) →
    ∃ t m, exec (.restore n []) s = .next t ∧ t.launch? n = some m ∧ m.st = .running ∧ m.saved = [] ∧ ∀ c ∈ l.saved, ∃ z ∈ t.ctxs, z.uid = c.uid

/-- R411–R416: a comparator of its core that matches at a PC stops the context there before it issues, and BKPT stops its lanes
where a debugger is attached; with a trap slot free the stop is the debug handler's at once, and is reported. A resume lets the
lanes of the stop set go on, past the comparator, or behind the BKPT. The handler writes a launch's comparators, on every core that
holds the launch, and the registers of a stopped context; detaching clears the comparators; barrier logging has a ring with its
header, whose RIDX the handler writes; and a sampling pulse adds one record to the samples. The STATE codes of a sample are the
model's reading (log 20), and the handler's acts are events (log 49). -/
def Obligations.DebugStops : Prop :=
  (∀ (s : State) k c set pc ws d, s.candidate k = some (c, set, .words pc ws) → s.stopAt c set pc = some d → s.inLockstep c = false →
    ∃ t y, exec (.debugStop k) s = .next t ∧ t.ctx? k = some y ∧ y.arch = c.arch.goto set pc ∧
      ((s.reckoner (boardNo k.core)).slots.length < 64 → (s.reckoner (boardNo k.core)).queue = [] →
        y.st = .parked (.stopped d) ∧ t.reports = s.reports ++ [.debugStop k d]) ∧
      (64 ≤ (s.reckoner (boardNo k.core)).slots.length → y.st = .parked (.debugWait d))) ∧
  (∀ s iss c n l, Issuing s iss c → s.launch? c.launch = some l → l.debugger = true → s.inLockstep c = false →
    ∃ t y, exec (.bkpt n) s = .next t ∧ t.ctx? iss.key = some y ∧ y.arch = c.arch ∧
      ((s.reckoner (boardNo iss.key.core)).slots.length < 64 → (s.reckoner (boardNo iss.key.core)).queue = [] →
        y.st = .parked (.stopped ⟨iss.exec, true, n.toNat⟩))) ∧
  (∀ (s : State) k c d, s.ctx? k = some c → c.st = .parked (.stopped d) →
    ∃ t y, exec (.debugResume k) s = .next t ∧ t.ctx? k = some y ∧ y.st = .live ∧
      (d.bkpt = true → y.arch = c.arch.goto d.set (c.pcOf d.set + 8)) ∧
      (d.bkpt = false → y.arch = c.arch ∧ y.passed = some (d.set, c.pcOf d.set))) ∧
  (∀ (s : State) n l cmp v, s.launch? n = some l →
    (∃ t m, exec (.registerWrite (.comparator n cmp 0) v) s = .next t ∧ t.launch? n = some m ∧ m.cmps[cmp].dbpc = v &&& 0x81FFFFFFFFFFFFFC ∧
      (∀ j, j ≠ cmp → m.cmps[j] = l.cmps[j]) ∧
      ((∀ x ∈ s.launches, x = l ∨ (x.number ≠ n ∧ ∀ j : Fin 8, x.cmps[j] = ⟨0, 0, 0, 0⟩)) →
        ∀ core ∈ s.armedCores n, ((t.cmpsOf core)[cmp]).2 = m.cmps[cmp])) ∧
    (∃ t m, exec (.debuggerAttach n) s = .next t ∧ t.launch? n = some m ∧ m.debugger = true ∧ m.cmps = l.cmps) ∧
    (∃ t m, exec (.debuggerDetach n) s = .next t ∧ t.launch? n = some m ∧ m.debugger = false ∧ ∀ j : Fin 8, m.cmps[j] = ⟨0, 0, 0, 0⟩) ∧
    (∀ base, l.logRing = some base → memoriesWf s →
      ∃ t, exec (.registerWrite (.ridx n) v) s = .next t ∧ t.dev.read (base + 8) 8 = v.toNat ∧ ∀ a, ¬ (base + 8 ≤ a ∧ a < base + 16) → t.dev.get a = s.dev.get a) ∧
    ∀ base i, i < 15 → base + 64 + 32 * 2 ^ (10 + i) ≤ Config.devBytes → memoriesWf s →
      ∃ t m, exec (.barrierLoggingEnable n base (2 ^ (10 + i))) s = .next t ∧ t.launch? n = some m ∧ m.logRing = some base ∧
        t.dev.read base 24 = 0 ∧ t.dev.read (base + 24) 4 = 2 ^ (10 + i) ∧ t.dev.read (base + 28) 36 = 0 ∧
        ∀ a, ¬ (base ≤ a ∧ a < base + 64) → t.dev.get a = s.dev.get a) ∧
  (∀ (s : State) k c d (i : Fin 64) v lane, s.ctx? k = some c → c.st = .parked (.stopped d) →
    ∃ t y, exec (.registerWrite (.context k (.reg lane (.s i))) v) s = .next t ∧ t.ctx? k = some y ∧ y.st = c.st ∧
      y.arch.s = c.arch.s.set i (v.setWidth 32) ∧ y.arch.lanes = c.arch.lanes) ∧
  ∀ s : State, s.boot = .running → s.policy.samplePeriod ≠ 0 → s.policy.samplePeriod ∣ s.tick →
    ∃ t rec_, exec .samplingPulse s = .next t ∧ t.samples = s.samples ++ rec_ ∧ t.sampleSeq = s.sampleSeq + 1 ∧ 8 ∣ rec_.length ∧
      leNat (rec_.take 8) = s.tick % 2 ^ 64 ∧ leNat ((rec_.drop 8).take 4) = s.sampleSeq % 2 ^ 32 ∧
      leNat ((rec_.drop 16).take 4) = rec_.length % 2 ^ 32

/-! ## The code heap, power and attestation -/

/-- R31, R32, R34–R36, R440: LOAD of an image that passes its checks puts it at a free place of the code heap and answers 0 with the
address, behind a compaction where no place is free, and NOSPACE, 0x0B, where that makes none; of another it answers the check that
failed. UNLOAD of an object that nothing refers to takes it out, and answers BUSY for one in use and NOOBJ for no object. A
compaction copies the object, names its new place, and forwards its old text on every die. The place of the code heap in device
memory is the model's choice (log 5), and so is a place that serves instead of a taken one (log 48). -/
def codeHeapServes : Prop :=
  (∀ (s : State) image place, s.boot = .running → memoriesWf s →
    (s.loadStatus image ≠ 0 →
      exec (.load image place) s = .next { s with reports := s.reports ++ [.loadStatus (s.loadStatus image) 0] }) ∧
    (∀ a, s.loadStatus image = 0 → s.loadPlace image.length place = some a →
      ∃ t, exec (.load image place) s = .next t ∧ t.reports = s.reports ++ [.loadStatus 0 a] ∧ t.objects = s.objects ++ [objectAt image a] ∧
        4096 ∣ a ∧ (∀ o ∈ s.objects, o.addr ≠ 0 → a + image.length ≤ o.addr ∨ o.addr + o.size ≤ a) ∧
        ∀ i x, image[i]? = some x → t.dev.get (s.heapOffset a + i) = x) ∧
    (∀ u, s.loadStatus image = 0 → s.loadPlace image.length place = none → u = s.makeRoom image.length →
      (∀ a, u.loadPlace image.length place = some a →
        ∃ t, exec (.load image place) s = .next t ∧ t.reports = u.reports ++ [.loadStatus 0 a] ∧ t.objects = u.objects ++ [objectAt image a]) ∧
      (u.loadPlace image.length place = none →
        exec (.load image place) s = .next { u with reports := u.reports ++ [.loadStatus 0x0B 0] }))) ∧
  (∀ (s : State) addr, s.boot = .running →
    (∀ o, s.objects.find? (fun o => o.addr == addr.toNat) = some o →
      (s.objectBusy o = false → ∃ t, exec (.unload addr) s = .next t ∧ t.objects = (s.objects.filter fun x => x.addr != addr.toNat) ∧
        t.reports = s.reports ++ [.unloadStatus 0]) ∧
      (s.objectBusy o = true → exec (.unload addr) s = .next { s with reports := s.reports ++ [.unloadStatus 0x0C] })) ∧
    (s.objects.find? (fun o => o.addr == addr.toNat) = none →
      exec (.unload addr) s = .next { s with reports := s.reports ++ [.unloadStatus 0x0D] })) ∧
  ∀ (s : State) o target, s.objects.find? (fun x => x.addr == o.addr) = some o → s.mayMove o target = true → memoriesWf s →
    ∃ t, exec (.codeHeapCompaction o.addr target) s = .next t ∧ { o with addr := target } ∈ t.objects ∧
      (∀ d : Fin 4, ⟨d, target, o.text, o.textSize, target + o.textOff⟩ ∈ t.forwards) ∧
      (∀ i, i < o.size → t.dev.get (s.heapOffset target + i) = s.dev.get (s.heapOffset o.addr + i)) ∧
      ((∀ b ∈ s.beams, b.ops = []) → ∀ k c l, s.ctx? k = some c → s.launch? c.launch = some l → l.obj = o.addr → distinct s →
        ∃ y, t.ctx? k = some y ∧ ∀ n, (c.arch.lane n).live = true → (y.arch.lane n).pc = movedTo o.text o.textSize (target + o.textOff) (c.arch.lane n).pc)

/-- R405–R409, R434–R436, R439: policy values stay within their limits, and the baseboard only lowers the power target; a
one-millisecond average above 2,800 W throttles until it is below that, and so does an input above 3,000 W; an average above 3,100 W
trips; a sensor whose reading is outside its clamp is clamped until it is back inside, and one outside its trip limits trips; a trip takes the
compute dies down and is recorded, and the I/O dies keep their queues, policy and measurements; a ROM accepts an image whose key has
an unrevoked slot, whose signature verifies and whose version is not rolled back, and a reset starts Gyhouc where both dies accept
one image, and otherwise leaves the package in recovery. The policy values after a reset, the number of samples of an average, and
where an image holds its key are the model's choice (logs 3, 10, 50). -/
def packageManaged : Prop :=
  (∀ (s : State) n k, exec (.powerTargetWrite n) s = .next { s with policy := { s.policy with powerTarget := min n s.policy.powerTarget } } ∧
    exec (.policyWrite (.powerTarget n)) s = .next { s with policy := { s.policy with powerTarget := min 2800 n } } ∧
    exec (.policyWrite (.rdvDefault n)) s = .next { s with policy := { s.policy with rdvDefault := max 64 (min 65535 n) } } ∧
    exec (.policyWrite (.threshold n)) s = .next { s with policy := { s.policy with threshold := max 1 (min 255 n) } } ∧
    ∃ t, exec (.policyWrite (.target k n)) s = .next t ∧
      t.policy.targets[clampIndex k] = max (tripLimits k).1 (min (if k = .heat then 200 else (tripLimits k).2) n)) ∧
  (∀ (s : State) m xs, s.boot ≠ .off → xs = (m.package :: s.power.samples).take 100 →
    (3100 * 1000 * 100 < xs.sum → xs.length = 100 → ∃ t, exec (.powerMeasurement m) s = .next t ∧ t.boot = .off) ∧
    (xs.sum ≤ 3100 * 1000 * 100 ∨ xs.length < 100 →
      ∃ t, exec (.powerMeasurement m) s = .next t ∧ t.power.samples = xs ∧ t.power.measured = m ∧ t.power.clamps = s.power.clamps ∧ t.boot = s.boot ∧
        (t.power.throttle = true ↔ (xs.length = 100 ∧ 2800 * 1000 * 100 < xs.sum) ∨ 3000 * 1000 < m.input ∨
          (s.power.throttle = true ∧ xs.length = 100 ∧ 2800 * 1000 * 100 ≤ xs.sum)))) ∧
  (∀ (s : State) sensor kind x, s.boot ≠ .off → kind = sensorKind sensor →
    (x < (tripLimits kind).1 ∨ (tripLimits kind).2 < x → ∃ t, exec (.clamp sensor x) s = .next t ∧ t.boot = .off) ∧
    ((tripLimits kind).1 ≤ x → x ≤ (tripLimits kind).2 →
      ∃ t, exec (.clamp sensor x) s = .next t ∧ t.boot = s.boot ∧
        (∀ r, r ∈ t.power.readings ↔ r = (sensor, x) ∨ r ∈ s.power.readings ∧ r.1 ≠ sensor) ∧
        (sensor ∈ t.power.clamps ↔ x < (clampLimits kind).1 ∨ (clampLimits kind).2 < x) ∧
        (∀ j, j ≠ sensor → (j ∈ t.power.clamps ↔ j ∈ s.power.clamps)) ∧
        (t.throttled = true ↔ s.power.throttle = true ∨ ∃ j, j ∈ t.power.clamps))) ∧
  (∀ (s : State) cause x, s.boot ≠ .off →
    (beyondTrip cause x = false → exec (.trip ⟨cause, x⟩) s = .next s) ∧
    (beyondTrip cause x = true → ∃ t, exec (.trip ⟨cause, x⟩) s = .next t ∧ t.boot = .off ∧ t.ctxs = [] ∧ t.launches = [] ∧ t.dev = [] ∧
      (∀ p : Fin 2, t.ports[p].mode = .down ∧ t.ports[p].queues = s.ports[p].queues) ∧ t.fenced = s.fenced ∧ t.policy = s.policy ∧
      t.measure = s.measure ∧ t.flash = s.flash ++ [(cause, s.tick)] ∧ .flash cause s.tick ∈ t.reports)) ∧
  (∀ f image, bootAccepts f image = true ↔
    (∃ i : Fin 4, f.revoked.getLsbD i.val = false ∧ f.slots[i] = Config.shake256 (leBytes (Config.imageKey image).toNat 64)) ∧
    Config.slhVerify (Config.imageKey image) (Config.shake256 (Config.imageBody image)) (Config.imageSig image) = true ∧
    f.rollback ≤ Config.imageVersion image) ∧
  ∀ (s : State) i0 i1 fuses policy keys,
    (bootAccepts fuses i0 = true → bootAccepts fuses i1 = true → i0 = i1 →
      ∃ t, exec (.packageReset i0 i1 fuses policy keys) s = .next t ∧ t.boot = .running ∧ t.ctxs = [] ∧ t.launches = [] ∧ t.dev = [] ∧
        t.nextNum = 1 ∧ t.fenced = s.fenced ∧ ∀ p : Fin 2, t.ports[p].hcap = 0x000003F8 ∧ t.ports[p].mode = .down) ∧
    (bootAccepts fuses i0 = false ∨ bootAccepts fuses i1 = false ∨ i0 ≠ i1 →
      ∃ t, exec (.packageReset i0 i1 fuses policy keys) s = .next t ∧ t.boot = .recovery ∧ t.ctxs = [])

/-- An SPDM request has been answered by a message of version 1.3 with a code, and both are in the transcript (R409). -/
def spdmAnswered (s t : State) (req : List Byte) (code : Byte) : Prop :=
  ∃ answer, t.reports = s.reports ++ [.spdm answer] ∧ answer.take 2 = [0x13, code] ∧ t.spdm.transcript = s.spdm.transcript ++ req ++ answer

/-- R409: the seven SPDM requests are answered where the package has power and the algorithms that they need are negotiated, and
with an error where they are not; challenges, and measurements that are asked for signed, end in the device's signature over the
transcript. The byte form of the messages and the way a measurement extends are the model's choice (log 3). -/
def attests : Prop :=
  ∀ (s : State) req (head fixed ext : List Byte), s.boot ≠ .off →
    (∃ t, exec (.getVersion req) s = .next t ∧ spdmAnswered { s with spdm := ⟨false, false, false, []⟩ } t req 0x04) ∧
    (∃ t, exec (.getCapabilities req) s = .next t ∧ spdmAnswered s t req 0x61) ∧
    (∀ sign hash, req = head ++ fixed ++ ext → sign = (extAlgorithms req).1.contains Config.spdmSignId.toNat → hash = (extAlgorithms req).2.contains Config.spdmHashId.toNat →
      (sign = true ∨ hash = true → ∃ t, exec (.negotiateAlgorithms head fixed ext) s = .next t ∧ spdmAnswered s t req 0x63 ∧ t.spdm.negotiated = true ∧
        t.spdm.sign = sign ∧ t.spdm.hash = hash) ∧
      (sign = false → hash = false → ∃ t, exec (.negotiateAlgorithms head fixed ext) s = .next t ∧ spdmAnswered s t req 0x7F ∧
        t.spdm.negotiated = s.spdm.negotiated)) ∧
    (s.spdm.negotiated = true →
      (s.spdm.hash = true → ∃ t, exec (.getDigests req) s = .next t ∧ spdmAnswered s t req 0x01) ∧
      (req = head ++ fixed → imgField req 2 1 % 16 = 0 → imgField req 4 2 ≤ Config.certChain.length →
        ∃ t, exec (.getCertificate head fixed) s = .next t ∧ spdmAnswered s t req 0x02) ∧
      (s.spdm.sign = true → s.spdm.hash = true → ∃ t body, exec (.challenge req) s = .next t ∧ spdmAnswered s t req 0x03 ∧
        t.reports = s.reports ++ [.spdm (body ++ Config.slhSign (s.spdm.transcript ++ req ++ body))]) ∧
      (s.spdm.sign = false → imgField req 2 1 % 2 = 1 → ∃ t, exec (.getMeasurements req) s = .next t ∧ spdmAnswered s t req 0x7F) ∧
      (imgField req 2 1 % 2 = 0 → ∃ t, exec (.getMeasurements req) s = .next t ∧ spdmAnswered s t req 0x60) ∧
      (s.spdm.sign = true → imgField req 2 1 % 2 = 1 → ∃ t body, exec (.getMeasurements req) s = .next t ∧ spdmAnswered s t req 0x60 ∧
        t.reports = s.reports ++ [.spdm (body ++ Config.slhSign (s.spdm.transcript ++ req ++ body))]))

/-- Gyhouc's services and the package as a whole (R31–R36, R405–R409, R434–R440). -/
def Obligations.PackageServices : Prop := codeHeapServes ∧ packageManaged ∧ attests
end

