-- ==== Sys2Proof/Laws/State.lean ====
section
/-!
SUPPORT. What each plain update of the state and of a context's architectural state leaves alone, one lemma per field, and how
a context reads back after an update.
-/
namespace Sys2Proof.Machine

/-- A change of every element that keeps the tested key finds the changed element. -/
theorem find_map_key {α β : Type} [BEq β] (f : α → α) (key : α → β) (k : β) (h : ∀ x, key (f x) = key x) :
    ∀ xs : List α, (xs.map f).find? (fun x => key x == k) = (xs.find? fun x => key x == k).map f
  | [] => rfl
  | x :: xs => by
    by_cases e : (key x == k) = true
    · simp [h, e]
    · simp [h, e, find_map_key f key k h xs]

/-- The context that the state holds at a key has that key. -/
theorem State.ctx?_key {s : State} {k : CtxKey} {c : Ctx} (h : s.ctx? k = some c) : c.key = k := by
  simpa using List.find?_some h

/-- Another context reads as before a change of one in place. -/
theorem State.ctx?_modCtx (s : State) (k j : CtxKey) (f : Ctx → Ctx) (h : ∀ c, (f c).key = c.key) :
    (s.modCtx k f).ctx? j = (s.ctx? j).map fun c => if c.key == k then f c else c :=
  find_map_key (fun c : Ctx => if c.key == k then f c else c) (fun c : Ctx => c.key) j (fun x => by by_cases e : x.key = k <;> simp [e, h]) s.ctxs

/-- A context that is changed in place reads as changed. -/
theorem State.ctx?_modCtx_same (s : State) (k : CtxKey) (f : Ctx → Ctx) (h : ∀ c, (f c).key = c.key) :
    (s.modCtx k f).ctx? k = (s.ctx? k).map f := by
  rw [State.ctx?_modCtx s k k f h]
  cases e : s.ctx? k with
  | none => rfl
  | some c => simp [State.ctx?_key e]

/-- A replacement is a change in place. -/
theorem State.setCtx_eq (s : State) (c : Ctx) : s.setCtx c = s.modCtx c.key fun x => if x.key = c.key then c else x := by
  unfold State.setCtx State.modCtx
  congr 1
  refine List.map_congr_left fun x _ => ?_
  by_cases hx : x.key = c.key <;> simp [hx]

/-- A context that is replaced reads as its replacement. -/
theorem State.ctx?_setCtx_same {s : State} {c d : Ctx} (h : s.ctx? c.key = some d) : (s.setCtx c).ctx? c.key = some c := by
  rw [State.setCtx_eq, State.ctx?_modCtx_same _ _ _ (fun x => by by_cases hx : x.key = c.key <;> simp [hx]), h]
  simp [State.ctx?_key h]

/-- Another context reads as before a replacement. -/
theorem State.ctx?_setCtx_other (s : State) (c : Ctx) (j : CtxKey) (h : j ≠ c.key) : (s.setCtx c).ctx? j = s.ctx? j := by
  rw [State.setCtx_eq, State.ctx?_modCtx _ _ _ _ (fun x => by by_cases hx : x.key = c.key <;> simp [hx])]
  cases e : s.ctx? j with
  | none => rfl
  | some x => simp [State.ctx?_key e, h]

/-- What one lane's change keeps, a change of many keeps. -/
theorem Arch.forLanes_keeps {α : Type} (g : Arch → α) (f : Arch → Nat → Arch) (h : ∀ ar i, g (f ar i) = g ar) :
    ∀ (ls : List Nat) (ar : Arch), g (ar.forLanes ls f) = g ar
  | [], _ => rfl
  | i :: ls, ar => (Arch.forLanes_keeps g f h ls (f ar i)).trans (h ar i)

/-- Sending lanes to a PC changes no field but the lanes. -/
theorem Arch.goto_keeps {α : Type} (g : Arch → α) (h : ∀ (ar : Arch) i f, g (ar.modLane i f) = g ar) (ar : Arch) (m : BitVec 64)
    (pc : DWord) : g (ar.goto m pc) = g ar :=
  Arch.forLanes_keeps g _ (fun ar i => h ar i _) _ _

/-! ## State.setCtx -/

@[simp] theorem State.setCtx_tick (s : State) (c : Ctx) : (s.setCtx c).tick = s.tick := rfl
@[simp] theorem State.setCtx_agenda (s : State) (c : Ctx) : (s.setCtx c).agenda = s.agenda := rfl
@[simp] theorem State.setCtx_inputs (s : State) (c : Ctx) : (s.setCtx c).inputs = s.inputs := rfl
@[simp] theorem State.setCtx_issue (s : State) (c : Ctx) : (s.setCtx c).issue = s.issue := rfl
@[simp] theorem State.setCtx_fetched (s : State) (c : Ctx) : (s.setCtx c).fetched = s.fetched := rfl
@[simp] theorem State.setCtx_freeCtr (s : State) (c : Ctx) : (s.setCtx c).freeCtr = s.freeCtr := rfl
@[simp] theorem State.setCtx_boot (s : State) (c : Ctx) : (s.setCtx c).boot = s.boot := rfl
@[simp] theorem State.setCtx_pkg (s : State) (c : Ctx) : (s.setCtx c).pkg = s.pkg := rfl
@[simp] theorem State.setCtx_domain (s : State) (c : Ctx) : (s.setCtx c).domain = s.domain := rfl
@[simp] theorem State.setCtx_opened (s : State) (c : Ctx) : (s.setCtx c).opened = s.opened := rfl
@[simp] theorem State.setCtx_ysl (s : State) (c : Ctx) : (s.setCtx c).ysl = s.ysl := rfl
@[simp] theorem State.setCtx_hdmBase (s : State) (c : Ctx) : (s.setCtx c).hdmBase = s.hdmBase := rfl
@[simp] theorem State.setCtx_codeHeap (s : State) (c : Ctx) : (s.setCtx c).codeHeap = s.codeHeap := rfl
@[simp] theorem State.setCtx_ports (s : State) (c : Ctx) : (s.setCtx c).ports = s.ports := rfl
@[simp] theorem State.setCtx_pending (s : State) (c : Ctx) : (s.setCtx c).pending = s.pending := rfl
@[simp] theorem State.setCtx_arrivals (s : State) (c : Ctx) : (s.setCtx c).arrivals = s.arrivals := rfl
@[simp] theorem State.setCtx_nextNum (s : State) (c : Ctx) : (s.setCtx c).nextNum = s.nextNum := rfl
@[simp] theorem State.setCtx_launches (s : State) (c : Ctx) : (s.setCtx c).launches = s.launches := rfl
@[simp] theorem State.setCtx_stamps (s : State) (c : Ctx) : (s.setCtx c).stamps = s.stamps := rfl
@[simp] theorem State.setCtx_disabled (s : State) (c : Ctx) : (s.setCtx c).disabled = s.disabled := rfl
@[simp] theorem State.setCtx_freecnt (s : State) (c : Ctx) : (s.setCtx c).freecnt = s.freecnt := rfl
@[simp] theorem State.setCtx_spawnQ (s : State) (c : Ctx) : (s.setCtx c).spawnQ = s.spawnQ := rfl
@[simp] theorem State.setCtx_objects (s : State) (c : Ctx) : (s.setCtx c).objects = s.objects := rfl
@[simp] theorem State.setCtx_forwards (s : State) (c : Ctx) : (s.setCtx c).forwards = s.forwards := rfl
@[simp] theorem State.setCtx_windows (s : State) (c : Ctx) : (s.setCtx c).windows = s.windows := rfl
@[simp] theorem State.setCtx_fills (s : State) (c : Ctx) : (s.setCtx c).fills = s.fills := rfl
@[simp] theorem State.setCtx_uids (s : State) (c : Ctx) : (s.setCtx c).uids = s.uids := rfl
@[simp] theorem State.setCtx_regions (s : State) (c : Ctx) : (s.setCtx c).regions = s.regions := rfl
@[simp] theorem State.setCtx_beams (s : State) (c : Ctx) : (s.setCtx c).beams = s.beams := rfl
@[simp] theorem State.setCtx_rdv (s : State) (c : Ctx) : (s.setCtx c).rdv = s.rdv := rfl
@[simp] theorem State.setCtx_jobs (s : State) (c : Ctx) : (s.setCtx c).jobs = s.jobs := rfl
@[simp] theorem State.setCtx_jobNum (s : State) (c : Ctx) : (s.setCtx c).jobNum = s.jobNum := rfl
@[simp] theorem State.setCtx_mismatched (s : State) (c : Ctx) : (s.setCtx c).mismatched = s.mismatched := rfl
@[simp] theorem State.setCtx_cache (s : State) (c : Ctx) : (s.setCtx c).cache = s.cache := rfl
@[simp] theorem State.setCtx_releasers (s : State) (c : Ctx) : (s.setCtx c).releasers = s.releasers := rfl
@[simp] theorem State.setCtx_hostLines (s : State) (c : Ctx) : (s.setCtx c).hostLines = s.hostLines := rfl
@[simp] theorem State.setCtx_l2 (s : State) (c : Ctx) : (s.setCtx c).l2 = s.l2 := rfl
@[simp] theorem State.setCtx_flaws (s : State) (c : Ctx) : (s.setCtx c).flaws = s.flaws := rfl
@[simp] theorem State.setCtx_dev (s : State) (c : Ctx) : (s.setCtx c).dev = s.dev := rfl
@[simp] theorem State.setCtx_host (s : State) (c : Ctx) : (s.setCtx c).host = s.host := rfl
@[simp] theorem State.setCtx_dom (s : State) (c : Ctx) : (s.setCtx c).dom = s.dom := rfl
@[simp] theorem State.setCtx_tlb (s : State) (c : Ctx) : (s.setCtx c).tlb = s.tlb := rfl
@[simp] theorem State.setCtx_invals (s : State) (c : Ctx) : (s.setCtx c).invals = s.invals := rfl
@[simp] theorem State.setCtx_ats (s : State) (c : Ctx) : (s.setCtx c).ats = s.ats := rfl
@[simp] theorem State.setCtx_pri (s : State) (c : Ctx) : (s.setCtx c).pri = s.pri := rfl
@[simp] theorem State.setCtx_reckoners (s : State) (c : Ctx) : (s.setCtx c).reckoners = s.reckoners := rfl
@[simp] theorem State.setCtx_gates (s : State) (c : Ctx) : (s.setCtx c).gates = s.gates := rfl
@[simp] theorem State.setCtx_strikes (s : State) (c : Ctx) : (s.setCtx c).strikes = s.strikes := rfl
@[simp] theorem State.setCtx_ecc (s : State) (c : Ctx) : (s.setCtx c).ecc = s.ecc := rfl
@[simp] theorem State.setCtx_rowSpares (s : State) (c : Ctx) : (s.setCtx c).rowSpares = s.rowSpares := rfl
@[simp] theorem State.setCtx_fenced (s : State) (c : Ctx) : (s.setCtx c).fenced = s.fenced := rfl
@[simp] theorem State.setCtx_tests (s : State) (c : Ctx) : (s.setCtx c).tests = s.tests := rfl
@[simp] theorem State.setCtx_policy (s : State) (c : Ctx) : (s.setCtx c).policy = s.policy := rfl
@[simp] theorem State.setCtx_power (s : State) (c : Ctx) : (s.setCtx c).power = s.power := rfl
@[simp] theorem State.setCtx_sampleSeq (s : State) (c : Ctx) : (s.setCtx c).sampleSeq = s.sampleSeq := rfl
@[simp] theorem State.setCtx_samples (s : State) (c : Ctx) : (s.setCtx c).samples = s.samples := rfl
@[simp] theorem State.setCtx_spdm (s : State) (c : Ctx) : (s.setCtx c).spdm = s.spdm := rfl
@[simp] theorem State.setCtx_measure (s : State) (c : Ctx) : (s.setCtx c).measure = s.measure := rfl
@[simp] theorem State.setCtx_cmps (s : State) (c : Ctx) : (s.setCtx c).cmps = s.cmps := rfl
@[simp] theorem State.setCtx_flash (s : State) (c : Ctx) : (s.setCtx c).flash = s.flash := rfl
@[simp] theorem State.setCtx_reports (s : State) (c : Ctx) : (s.setCtx c).reports = s.reports := rfl

/-! ## State.modCtx -/

@[simp] theorem State.modCtx_tick (s : State) (k : CtxKey) (f : Ctx → Ctx) : (s.modCtx k f).tick = s.tick := rfl
@[simp] theorem State.modCtx_agenda (s : State) (k : CtxKey) (f : Ctx → Ctx) : (s.modCtx k f).agenda = s.agenda := rfl
@[simp] theorem State.modCtx_inputs (s : State) (k : CtxKey) (f : Ctx → Ctx) : (s.modCtx k f).inputs = s.inputs := rfl
@[simp] theorem State.modCtx_issue (s : State) (k : CtxKey) (f : Ctx → Ctx) : (s.modCtx k f).issue = s.issue := rfl
@[simp] theorem State.modCtx_fetched (s : State) (k : CtxKey) (f : Ctx → Ctx) : (s.modCtx k f).fetched = s.fetched := rfl
@[simp] theorem State.modCtx_freeCtr (s : State) (k : CtxKey) (f : Ctx → Ctx) : (s.modCtx k f).freeCtr = s.freeCtr := rfl
@[simp] theorem State.modCtx_boot (s : State) (k : CtxKey) (f : Ctx → Ctx) : (s.modCtx k f).boot = s.boot := rfl
@[simp] theorem State.modCtx_pkg (s : State) (k : CtxKey) (f : Ctx → Ctx) : (s.modCtx k f).pkg = s.pkg := rfl
@[simp] theorem State.modCtx_domain (s : State) (k : CtxKey) (f : Ctx → Ctx) : (s.modCtx k f).domain = s.domain := rfl
@[simp] theorem State.modCtx_opened (s : State) (k : CtxKey) (f : Ctx → Ctx) : (s.modCtx k f).opened = s.opened := rfl
@[simp] theorem State.modCtx_ysl (s : State) (k : CtxKey) (f : Ctx → Ctx) : (s.modCtx k f).ysl = s.ysl := rfl
@[simp] theorem State.modCtx_hdmBase (s : State) (k : CtxKey) (f : Ctx → Ctx) : (s.modCtx k f).hdmBase = s.hdmBase := rfl
@[simp] theorem State.modCtx_codeHeap (s : State) (k : CtxKey) (f : Ctx → Ctx) : (s.modCtx k f).codeHeap = s.codeHeap := rfl
@[simp] theorem State.modCtx_ports (s : State) (k : CtxKey) (f : Ctx → Ctx) : (s.modCtx k f).ports = s.ports := rfl
@[simp] theorem State.modCtx_pending (s : State) (k : CtxKey) (f : Ctx → Ctx) : (s.modCtx k f).pending = s.pending := rfl
@[simp] theorem State.modCtx_arrivals (s : State) (k : CtxKey) (f : Ctx → Ctx) : (s.modCtx k f).arrivals = s.arrivals := rfl
@[simp] theorem State.modCtx_nextNum (s : State) (k : CtxKey) (f : Ctx → Ctx) : (s.modCtx k f).nextNum = s.nextNum := rfl
@[simp] theorem State.modCtx_launches (s : State) (k : CtxKey) (f : Ctx → Ctx) : (s.modCtx k f).launches = s.launches := rfl
@[simp] theorem State.modCtx_stamps (s : State) (k : CtxKey) (f : Ctx → Ctx) : (s.modCtx k f).stamps = s.stamps := rfl
@[simp] theorem State.modCtx_disabled (s : State) (k : CtxKey) (f : Ctx → Ctx) : (s.modCtx k f).disabled = s.disabled := rfl
@[simp] theorem State.modCtx_freecnt (s : State) (k : CtxKey) (f : Ctx → Ctx) : (s.modCtx k f).freecnt = s.freecnt := rfl
@[simp] theorem State.modCtx_spawnQ (s : State) (k : CtxKey) (f : Ctx → Ctx) : (s.modCtx k f).spawnQ = s.spawnQ := rfl
@[simp] theorem State.modCtx_objects (s : State) (k : CtxKey) (f : Ctx → Ctx) : (s.modCtx k f).objects = s.objects := rfl
@[simp] theorem State.modCtx_forwards (s : State) (k : CtxKey) (f : Ctx → Ctx) : (s.modCtx k f).forwards = s.forwards := rfl
@[simp] theorem State.modCtx_windows (s : State) (k : CtxKey) (f : Ctx → Ctx) : (s.modCtx k f).windows = s.windows := rfl
@[simp] theorem State.modCtx_fills (s : State) (k : CtxKey) (f : Ctx → Ctx) : (s.modCtx k f).fills = s.fills := rfl
@[simp] theorem State.modCtx_uids (s : State) (k : CtxKey) (f : Ctx → Ctx) : (s.modCtx k f).uids = s.uids := rfl
@[simp] theorem State.modCtx_regions (s : State) (k : CtxKey) (f : Ctx → Ctx) : (s.modCtx k f).regions = s.regions := rfl
@[simp] theorem State.modCtx_beams (s : State) (k : CtxKey) (f : Ctx → Ctx) : (s.modCtx k f).beams = s.beams := rfl
@[simp] theorem State.modCtx_rdv (s : State) (k : CtxKey) (f : Ctx → Ctx) : (s.modCtx k f).rdv = s.rdv := rfl
@[simp] theorem State.modCtx_jobs (s : State) (k : CtxKey) (f : Ctx → Ctx) : (s.modCtx k f).jobs = s.jobs := rfl
@[simp] theorem State.modCtx_jobNum (s : State) (k : CtxKey) (f : Ctx → Ctx) : (s.modCtx k f).jobNum = s.jobNum := rfl
@[simp] theorem State.modCtx_mismatched (s : State) (k : CtxKey) (f : Ctx → Ctx) : (s.modCtx k f).mismatched = s.mismatched := rfl
@[simp] theorem State.modCtx_cache (s : State) (k : CtxKey) (f : Ctx → Ctx) : (s.modCtx k f).cache = s.cache := rfl
@[simp] theorem State.modCtx_releasers (s : State) (k : CtxKey) (f : Ctx → Ctx) : (s.modCtx k f).releasers = s.releasers := rfl
@[simp] theorem State.modCtx_hostLines (s : State) (k : CtxKey) (f : Ctx → Ctx) : (s.modCtx k f).hostLines = s.hostLines := rfl
@[simp] theorem State.modCtx_l2 (s : State) (k : CtxKey) (f : Ctx → Ctx) : (s.modCtx k f).l2 = s.l2 := rfl
@[simp] theorem State.modCtx_flaws (s : State) (k : CtxKey) (f : Ctx → Ctx) : (s.modCtx k f).flaws = s.flaws := rfl
@[simp] theorem State.modCtx_dev (s : State) (k : CtxKey) (f : Ctx → Ctx) : (s.modCtx k f).dev = s.dev := rfl
@[simp] theorem State.modCtx_host (s : State) (k : CtxKey) (f : Ctx → Ctx) : (s.modCtx k f).host = s.host := rfl
@[simp] theorem State.modCtx_dom (s : State) (k : CtxKey) (f : Ctx → Ctx) : (s.modCtx k f).dom = s.dom := rfl
@[simp] theorem State.modCtx_tlb (s : State) (k : CtxKey) (f : Ctx → Ctx) : (s.modCtx k f).tlb = s.tlb := rfl
@[simp] theorem State.modCtx_invals (s : State) (k : CtxKey) (f : Ctx → Ctx) : (s.modCtx k f).invals = s.invals := rfl
@[simp] theorem State.modCtx_ats (s : State) (k : CtxKey) (f : Ctx → Ctx) : (s.modCtx k f).ats = s.ats := rfl
@[simp] theorem State.modCtx_pri (s : State) (k : CtxKey) (f : Ctx → Ctx) : (s.modCtx k f).pri = s.pri := rfl
@[simp] theorem State.modCtx_reckoners (s : State) (k : CtxKey) (f : Ctx → Ctx) : (s.modCtx k f).reckoners = s.reckoners := rfl
@[simp] theorem State.modCtx_gates (s : State) (k : CtxKey) (f : Ctx → Ctx) : (s.modCtx k f).gates = s.gates := rfl
@[simp] theorem State.modCtx_strikes (s : State) (k : CtxKey) (f : Ctx → Ctx) : (s.modCtx k f).strikes = s.strikes := rfl
@[simp] theorem State.modCtx_ecc (s : State) (k : CtxKey) (f : Ctx → Ctx) : (s.modCtx k f).ecc = s.ecc := rfl
@[simp] theorem State.modCtx_rowSpares (s : State) (k : CtxKey) (f : Ctx → Ctx) : (s.modCtx k f).rowSpares = s.rowSpares := rfl
@[simp] theorem State.modCtx_fenced (s : State) (k : CtxKey) (f : Ctx → Ctx) : (s.modCtx k f).fenced = s.fenced := rfl
@[simp] theorem State.modCtx_tests (s : State) (k : CtxKey) (f : Ctx → Ctx) : (s.modCtx k f).tests = s.tests := rfl
@[simp] theorem State.modCtx_policy (s : State) (k : CtxKey) (f : Ctx → Ctx) : (s.modCtx k f).policy = s.policy := rfl
@[simp] theorem State.modCtx_power (s : State) (k : CtxKey) (f : Ctx → Ctx) : (s.modCtx k f).power = s.power := rfl
@[simp] theorem State.modCtx_sampleSeq (s : State) (k : CtxKey) (f : Ctx → Ctx) : (s.modCtx k f).sampleSeq = s.sampleSeq := rfl
@[simp] theorem State.modCtx_samples (s : State) (k : CtxKey) (f : Ctx → Ctx) : (s.modCtx k f).samples = s.samples := rfl
@[simp] theorem State.modCtx_spdm (s : State) (k : CtxKey) (f : Ctx → Ctx) : (s.modCtx k f).spdm = s.spdm := rfl
@[simp] theorem State.modCtx_measure (s : State) (k : CtxKey) (f : Ctx → Ctx) : (s.modCtx k f).measure = s.measure := rfl
@[simp] theorem State.modCtx_cmps (s : State) (k : CtxKey) (f : Ctx → Ctx) : (s.modCtx k f).cmps = s.cmps := rfl
@[simp] theorem State.modCtx_flash (s : State) (k : CtxKey) (f : Ctx → Ctx) : (s.modCtx k f).flash = s.flash := rfl
@[simp] theorem State.modCtx_reports (s : State) (k : CtxKey) (f : Ctx → Ctx) : (s.modCtx k f).reports = s.reports := rfl

/-! ## State.modRegion -/

@[simp] theorem State.modRegion_tick (s : State) (c : CoreId) (n : Word) (w : Nat) (f : Region → Region) : (s.modRegion c n w f).tick = s.tick := rfl
@[simp] theorem State.modRegion_agenda (s : State) (c : CoreId) (n : Word) (w : Nat) (f : Region → Region) : (s.modRegion c n w f).agenda = s.agenda := rfl
@[simp] theorem State.modRegion_inputs (s : State) (c : CoreId) (n : Word) (w : Nat) (f : Region → Region) : (s.modRegion c n w f).inputs = s.inputs := rfl
@[simp] theorem State.modRegion_issue (s : State) (c : CoreId) (n : Word) (w : Nat) (f : Region → Region) : (s.modRegion c n w f).issue = s.issue := rfl
@[simp] theorem State.modRegion_fetched (s : State) (c : CoreId) (n : Word) (w : Nat) (f : Region → Region) : (s.modRegion c n w f).fetched = s.fetched := rfl
@[simp] theorem State.modRegion_freeCtr (s : State) (c : CoreId) (n : Word) (w : Nat) (f : Region → Region) : (s.modRegion c n w f).freeCtr = s.freeCtr := rfl
@[simp] theorem State.modRegion_boot (s : State) (c : CoreId) (n : Word) (w : Nat) (f : Region → Region) : (s.modRegion c n w f).boot = s.boot := rfl
@[simp] theorem State.modRegion_pkg (s : State) (c : CoreId) (n : Word) (w : Nat) (f : Region → Region) : (s.modRegion c n w f).pkg = s.pkg := rfl
@[simp] theorem State.modRegion_domain (s : State) (c : CoreId) (n : Word) (w : Nat) (f : Region → Region) : (s.modRegion c n w f).domain = s.domain := rfl
@[simp] theorem State.modRegion_opened (s : State) (c : CoreId) (n : Word) (w : Nat) (f : Region → Region) : (s.modRegion c n w f).opened = s.opened := rfl
@[simp] theorem State.modRegion_ysl (s : State) (c : CoreId) (n : Word) (w : Nat) (f : Region → Region) : (s.modRegion c n w f).ysl = s.ysl := rfl
@[simp] theorem State.modRegion_hdmBase (s : State) (c : CoreId) (n : Word) (w : Nat) (f : Region → Region) : (s.modRegion c n w f).hdmBase = s.hdmBase := rfl
@[simp] theorem State.modRegion_codeHeap (s : State) (c : CoreId) (n : Word) (w : Nat) (f : Region → Region) : (s.modRegion c n w f).codeHeap = s.codeHeap := rfl
@[simp] theorem State.modRegion_ports (s : State) (c : CoreId) (n : Word) (w : Nat) (f : Region → Region) : (s.modRegion c n w f).ports = s.ports := rfl
@[simp] theorem State.modRegion_pending (s : State) (c : CoreId) (n : Word) (w : Nat) (f : Region → Region) : (s.modRegion c n w f).pending = s.pending := rfl
@[simp] theorem State.modRegion_arrivals (s : State) (c : CoreId) (n : Word) (w : Nat) (f : Region → Region) : (s.modRegion c n w f).arrivals = s.arrivals := rfl
@[simp] theorem State.modRegion_nextNum (s : State) (c : CoreId) (n : Word) (w : Nat) (f : Region → Region) : (s.modRegion c n w f).nextNum = s.nextNum := rfl
@[simp] theorem State.modRegion_launches (s : State) (c : CoreId) (n : Word) (w : Nat) (f : Region → Region) : (s.modRegion c n w f).launches = s.launches := rfl
@[simp] theorem State.modRegion_stamps (s : State) (c : CoreId) (n : Word) (w : Nat) (f : Region → Region) : (s.modRegion c n w f).stamps = s.stamps := rfl
@[simp] theorem State.modRegion_disabled (s : State) (c : CoreId) (n : Word) (w : Nat) (f : Region → Region) : (s.modRegion c n w f).disabled = s.disabled := rfl
@[simp] theorem State.modRegion_freecnt (s : State) (c : CoreId) (n : Word) (w : Nat) (f : Region → Region) : (s.modRegion c n w f).freecnt = s.freecnt := rfl
@[simp] theorem State.modRegion_spawnQ (s : State) (c : CoreId) (n : Word) (w : Nat) (f : Region → Region) : (s.modRegion c n w f).spawnQ = s.spawnQ := rfl
@[simp] theorem State.modRegion_objects (s : State) (c : CoreId) (n : Word) (w : Nat) (f : Region → Region) : (s.modRegion c n w f).objects = s.objects := rfl
@[simp] theorem State.modRegion_forwards (s : State) (c : CoreId) (n : Word) (w : Nat) (f : Region → Region) : (s.modRegion c n w f).forwards = s.forwards := rfl
@[simp] theorem State.modRegion_windows (s : State) (c : CoreId) (n : Word) (w : Nat) (f : Region → Region) : (s.modRegion c n w f).windows = s.windows := rfl
@[simp] theorem State.modRegion_fills (s : State) (c : CoreId) (n : Word) (w : Nat) (f : Region → Region) : (s.modRegion c n w f).fills = s.fills := rfl
@[simp] theorem State.modRegion_ctxs (s : State) (c : CoreId) (n : Word) (w : Nat) (f : Region → Region) : (s.modRegion c n w f).ctxs = s.ctxs := rfl
@[simp] theorem State.modRegion_uids (s : State) (c : CoreId) (n : Word) (w : Nat) (f : Region → Region) : (s.modRegion c n w f).uids = s.uids := rfl
@[simp] theorem State.modRegion_beams (s : State) (c : CoreId) (n : Word) (w : Nat) (f : Region → Region) : (s.modRegion c n w f).beams = s.beams := rfl
@[simp] theorem State.modRegion_rdv (s : State) (c : CoreId) (n : Word) (w : Nat) (f : Region → Region) : (s.modRegion c n w f).rdv = s.rdv := rfl
@[simp] theorem State.modRegion_jobs (s : State) (c : CoreId) (n : Word) (w : Nat) (f : Region → Region) : (s.modRegion c n w f).jobs = s.jobs := rfl
@[simp] theorem State.modRegion_jobNum (s : State) (c : CoreId) (n : Word) (w : Nat) (f : Region → Region) : (s.modRegion c n w f).jobNum = s.jobNum := rfl
@[simp] theorem State.modRegion_mismatched (s : State) (c : CoreId) (n : Word) (w : Nat) (f : Region → Region) : (s.modRegion c n w f).mismatched = s.mismatched := rfl
@[simp] theorem State.modRegion_cache (s : State) (c : CoreId) (n : Word) (w : Nat) (f : Region → Region) : (s.modRegion c n w f).cache = s.cache := rfl
@[simp] theorem State.modRegion_releasers (s : State) (c : CoreId) (n : Word) (w : Nat) (f : Region → Region) : (s.modRegion c n w f).releasers = s.releasers := rfl
@[simp] theorem State.modRegion_hostLines (s : State) (c : CoreId) (n : Word) (w : Nat) (f : Region → Region) : (s.modRegion c n w f).hostLines = s.hostLines := rfl
@[simp] theorem State.modRegion_l2 (s : State) (c : CoreId) (n : Word) (w : Nat) (f : Region → Region) : (s.modRegion c n w f).l2 = s.l2 := rfl
@[simp] theorem State.modRegion_flaws (s : State) (c : CoreId) (n : Word) (w : Nat) (f : Region → Region) : (s.modRegion c n w f).flaws = s.flaws := rfl
@[simp] theorem State.modRegion_dev (s : State) (c : CoreId) (n : Word) (w : Nat) (f : Region → Region) : (s.modRegion c n w f).dev = s.dev := rfl
@[simp] theorem State.modRegion_host (s : State) (c : CoreId) (n : Word) (w : Nat) (f : Region → Region) : (s.modRegion c n w f).host = s.host := rfl
@[simp] theorem State.modRegion_dom (s : State) (c : CoreId) (n : Word) (w : Nat) (f : Region → Region) : (s.modRegion c n w f).dom = s.dom := rfl
@[simp] theorem State.modRegion_tlb (s : State) (c : CoreId) (n : Word) (w : Nat) (f : Region → Region) : (s.modRegion c n w f).tlb = s.tlb := rfl
@[simp] theorem State.modRegion_invals (s : State) (c : CoreId) (n : Word) (w : Nat) (f : Region → Region) : (s.modRegion c n w f).invals = s.invals := rfl
@[simp] theorem State.modRegion_ats (s : State) (c : CoreId) (n : Word) (w : Nat) (f : Region → Region) : (s.modRegion c n w f).ats = s.ats := rfl
@[simp] theorem State.modRegion_pri (s : State) (c : CoreId) (n : Word) (w : Nat) (f : Region → Region) : (s.modRegion c n w f).pri = s.pri := rfl
@[simp] theorem State.modRegion_reckoners (s : State) (c : CoreId) (n : Word) (w : Nat) (f : Region → Region) : (s.modRegion c n w f).reckoners = s.reckoners := rfl
@[simp] theorem State.modRegion_gates (s : State) (c : CoreId) (n : Word) (w : Nat) (f : Region → Region) : (s.modRegion c n w f).gates = s.gates := rfl
@[simp] theorem State.modRegion_strikes (s : State) (c : CoreId) (n : Word) (w : Nat) (f : Region → Region) : (s.modRegion c n w f).strikes = s.strikes := rfl
@[simp] theorem State.modRegion_ecc (s : State) (c : CoreId) (n : Word) (w : Nat) (f : Region → Region) : (s.modRegion c n w f).ecc = s.ecc := rfl
@[simp] theorem State.modRegion_rowSpares (s : State) (c : CoreId) (n : Word) (w : Nat) (f : Region → Region) : (s.modRegion c n w f).rowSpares = s.rowSpares := rfl
@[simp] theorem State.modRegion_fenced (s : State) (c : CoreId) (n : Word) (w : Nat) (f : Region → Region) : (s.modRegion c n w f).fenced = s.fenced := rfl
@[simp] theorem State.modRegion_tests (s : State) (c : CoreId) (n : Word) (w : Nat) (f : Region → Region) : (s.modRegion c n w f).tests = s.tests := rfl
@[simp] theorem State.modRegion_policy (s : State) (c : CoreId) (n : Word) (w : Nat) (f : Region → Region) : (s.modRegion c n w f).policy = s.policy := rfl
@[simp] theorem State.modRegion_power (s : State) (c : CoreId) (n : Word) (w : Nat) (f : Region → Region) : (s.modRegion c n w f).power = s.power := rfl
@[simp] theorem State.modRegion_sampleSeq (s : State) (c : CoreId) (n : Word) (w : Nat) (f : Region → Region) : (s.modRegion c n w f).sampleSeq = s.sampleSeq := rfl
@[simp] theorem State.modRegion_samples (s : State) (c : CoreId) (n : Word) (w : Nat) (f : Region → Region) : (s.modRegion c n w f).samples = s.samples := rfl
@[simp] theorem State.modRegion_spdm (s : State) (c : CoreId) (n : Word) (w : Nat) (f : Region → Region) : (s.modRegion c n w f).spdm = s.spdm := rfl
@[simp] theorem State.modRegion_measure (s : State) (c : CoreId) (n : Word) (w : Nat) (f : Region → Region) : (s.modRegion c n w f).measure = s.measure := rfl
@[simp] theorem State.modRegion_cmps (s : State) (c : CoreId) (n : Word) (w : Nat) (f : Region → Region) : (s.modRegion c n w f).cmps = s.cmps := rfl
@[simp] theorem State.modRegion_flash (s : State) (c : CoreId) (n : Word) (w : Nat) (f : Region → Region) : (s.modRegion c n w f).flash = s.flash := rfl
@[simp] theorem State.modRegion_reports (s : State) (c : CoreId) (n : Word) (w : Nat) (f : Region → Region) : (s.modRegion c n w f).reports = s.reports := rfl

/-! ## State.modLaunch -/

@[simp] theorem State.modLaunch_tick (s : State) (n : Word) (f : Launch → Launch) : (s.modLaunch n f).tick = s.tick := rfl
@[simp] theorem State.modLaunch_agenda (s : State) (n : Word) (f : Launch → Launch) : (s.modLaunch n f).agenda = s.agenda := rfl
@[simp] theorem State.modLaunch_inputs (s : State) (n : Word) (f : Launch → Launch) : (s.modLaunch n f).inputs = s.inputs := rfl
@[simp] theorem State.modLaunch_issue (s : State) (n : Word) (f : Launch → Launch) : (s.modLaunch n f).issue = s.issue := rfl
@[simp] theorem State.modLaunch_fetched (s : State) (n : Word) (f : Launch → Launch) : (s.modLaunch n f).fetched = s.fetched := rfl
@[simp] theorem State.modLaunch_freeCtr (s : State) (n : Word) (f : Launch → Launch) : (s.modLaunch n f).freeCtr = s.freeCtr := rfl
@[simp] theorem State.modLaunch_boot (s : State) (n : Word) (f : Launch → Launch) : (s.modLaunch n f).boot = s.boot := rfl
@[simp] theorem State.modLaunch_pkg (s : State) (n : Word) (f : Launch → Launch) : (s.modLaunch n f).pkg = s.pkg := rfl
@[simp] theorem State.modLaunch_domain (s : State) (n : Word) (f : Launch → Launch) : (s.modLaunch n f).domain = s.domain := rfl
@[simp] theorem State.modLaunch_opened (s : State) (n : Word) (f : Launch → Launch) : (s.modLaunch n f).opened = s.opened := rfl
@[simp] theorem State.modLaunch_ysl (s : State) (n : Word) (f : Launch → Launch) : (s.modLaunch n f).ysl = s.ysl := rfl
@[simp] theorem State.modLaunch_hdmBase (s : State) (n : Word) (f : Launch → Launch) : (s.modLaunch n f).hdmBase = s.hdmBase := rfl
@[simp] theorem State.modLaunch_codeHeap (s : State) (n : Word) (f : Launch → Launch) : (s.modLaunch n f).codeHeap = s.codeHeap := rfl
@[simp] theorem State.modLaunch_ports (s : State) (n : Word) (f : Launch → Launch) : (s.modLaunch n f).ports = s.ports := rfl
@[simp] theorem State.modLaunch_pending (s : State) (n : Word) (f : Launch → Launch) : (s.modLaunch n f).pending = s.pending := rfl
@[simp] theorem State.modLaunch_arrivals (s : State) (n : Word) (f : Launch → Launch) : (s.modLaunch n f).arrivals = s.arrivals := rfl
@[simp] theorem State.modLaunch_nextNum (s : State) (n : Word) (f : Launch → Launch) : (s.modLaunch n f).nextNum = s.nextNum := rfl
@[simp] theorem State.modLaunch_stamps (s : State) (n : Word) (f : Launch → Launch) : (s.modLaunch n f).stamps = s.stamps := rfl
@[simp] theorem State.modLaunch_disabled (s : State) (n : Word) (f : Launch → Launch) : (s.modLaunch n f).disabled = s.disabled := rfl
@[simp] theorem State.modLaunch_freecnt (s : State) (n : Word) (f : Launch → Launch) : (s.modLaunch n f).freecnt = s.freecnt := rfl
@[simp] theorem State.modLaunch_spawnQ (s : State) (n : Word) (f : Launch → Launch) : (s.modLaunch n f).spawnQ = s.spawnQ := rfl
@[simp] theorem State.modLaunch_objects (s : State) (n : Word) (f : Launch → Launch) : (s.modLaunch n f).objects = s.objects := rfl
@[simp] theorem State.modLaunch_forwards (s : State) (n : Word) (f : Launch → Launch) : (s.modLaunch n f).forwards = s.forwards := rfl
@[simp] theorem State.modLaunch_windows (s : State) (n : Word) (f : Launch → Launch) : (s.modLaunch n f).windows = s.windows := rfl
@[simp] theorem State.modLaunch_fills (s : State) (n : Word) (f : Launch → Launch) : (s.modLaunch n f).fills = s.fills := rfl
@[simp] theorem State.modLaunch_ctxs (s : State) (n : Word) (f : Launch → Launch) : (s.modLaunch n f).ctxs = s.ctxs := rfl
@[simp] theorem State.modLaunch_uids (s : State) (n : Word) (f : Launch → Launch) : (s.modLaunch n f).uids = s.uids := rfl
@[simp] theorem State.modLaunch_regions (s : State) (n : Word) (f : Launch → Launch) : (s.modLaunch n f).regions = s.regions := rfl
@[simp] theorem State.modLaunch_beams (s : State) (n : Word) (f : Launch → Launch) : (s.modLaunch n f).beams = s.beams := rfl
@[simp] theorem State.modLaunch_rdv (s : State) (n : Word) (f : Launch → Launch) : (s.modLaunch n f).rdv = s.rdv := rfl
@[simp] theorem State.modLaunch_jobs (s : State) (n : Word) (f : Launch → Launch) : (s.modLaunch n f).jobs = s.jobs := rfl
@[simp] theorem State.modLaunch_jobNum (s : State) (n : Word) (f : Launch → Launch) : (s.modLaunch n f).jobNum = s.jobNum := rfl
@[simp] theorem State.modLaunch_mismatched (s : State) (n : Word) (f : Launch → Launch) : (s.modLaunch n f).mismatched = s.mismatched := rfl
@[simp] theorem State.modLaunch_cache (s : State) (n : Word) (f : Launch → Launch) : (s.modLaunch n f).cache = s.cache := rfl
@[simp] theorem State.modLaunch_releasers (s : State) (n : Word) (f : Launch → Launch) : (s.modLaunch n f).releasers = s.releasers := rfl
@[simp] theorem State.modLaunch_hostLines (s : State) (n : Word) (f : Launch → Launch) : (s.modLaunch n f).hostLines = s.hostLines := rfl
@[simp] theorem State.modLaunch_l2 (s : State) (n : Word) (f : Launch → Launch) : (s.modLaunch n f).l2 = s.l2 := rfl
@[simp] theorem State.modLaunch_flaws (s : State) (n : Word) (f : Launch → Launch) : (s.modLaunch n f).flaws = s.flaws := rfl
@[simp] theorem State.modLaunch_dev (s : State) (n : Word) (f : Launch → Launch) : (s.modLaunch n f).dev = s.dev := rfl
@[simp] theorem State.modLaunch_host (s : State) (n : Word) (f : Launch → Launch) : (s.modLaunch n f).host = s.host := rfl
@[simp] theorem State.modLaunch_dom (s : State) (n : Word) (f : Launch → Launch) : (s.modLaunch n f).dom = s.dom := rfl
@[simp] theorem State.modLaunch_tlb (s : State) (n : Word) (f : Launch → Launch) : (s.modLaunch n f).tlb = s.tlb := rfl
@[simp] theorem State.modLaunch_invals (s : State) (n : Word) (f : Launch → Launch) : (s.modLaunch n f).invals = s.invals := rfl
@[simp] theorem State.modLaunch_ats (s : State) (n : Word) (f : Launch → Launch) : (s.modLaunch n f).ats = s.ats := rfl
@[simp] theorem State.modLaunch_pri (s : State) (n : Word) (f : Launch → Launch) : (s.modLaunch n f).pri = s.pri := rfl
@[simp] theorem State.modLaunch_reckoners (s : State) (n : Word) (f : Launch → Launch) : (s.modLaunch n f).reckoners = s.reckoners := rfl
@[simp] theorem State.modLaunch_gates (s : State) (n : Word) (f : Launch → Launch) : (s.modLaunch n f).gates = s.gates := rfl
@[simp] theorem State.modLaunch_strikes (s : State) (n : Word) (f : Launch → Launch) : (s.modLaunch n f).strikes = s.strikes := rfl
@[simp] theorem State.modLaunch_ecc (s : State) (n : Word) (f : Launch → Launch) : (s.modLaunch n f).ecc = s.ecc := rfl
@[simp] theorem State.modLaunch_rowSpares (s : State) (n : Word) (f : Launch → Launch) : (s.modLaunch n f).rowSpares = s.rowSpares := rfl
@[simp] theorem State.modLaunch_fenced (s : State) (n : Word) (f : Launch → Launch) : (s.modLaunch n f).fenced = s.fenced := rfl
@[simp] theorem State.modLaunch_tests (s : State) (n : Word) (f : Launch → Launch) : (s.modLaunch n f).tests = s.tests := rfl
@[simp] theorem State.modLaunch_policy (s : State) (n : Word) (f : Launch → Launch) : (s.modLaunch n f).policy = s.policy := rfl
@[simp] theorem State.modLaunch_power (s : State) (n : Word) (f : Launch → Launch) : (s.modLaunch n f).power = s.power := rfl
@[simp] theorem State.modLaunch_sampleSeq (s : State) (n : Word) (f : Launch → Launch) : (s.modLaunch n f).sampleSeq = s.sampleSeq := rfl
@[simp] theorem State.modLaunch_samples (s : State) (n : Word) (f : Launch → Launch) : (s.modLaunch n f).samples = s.samples := rfl
@[simp] theorem State.modLaunch_spdm (s : State) (n : Word) (f : Launch → Launch) : (s.modLaunch n f).spdm = s.spdm := rfl
@[simp] theorem State.modLaunch_measure (s : State) (n : Word) (f : Launch → Launch) : (s.modLaunch n f).measure = s.measure := rfl
@[simp] theorem State.modLaunch_cmps (s : State) (n : Word) (f : Launch → Launch) : (s.modLaunch n f).cmps = s.cmps := rfl
@[simp] theorem State.modLaunch_flash (s : State) (n : Word) (f : Launch → Launch) : (s.modLaunch n f).flash = s.flash := rfl
@[simp] theorem State.modLaunch_reports (s : State) (n : Word) (f : Launch → Launch) : (s.modLaunch n f).reports = s.reports := rfl

/-! ## State.setBeam -/

@[simp] theorem State.setBeam_tick (s : State) (b : Beam) : (s.setBeam b).tick = s.tick := rfl
@[simp] theorem State.setBeam_agenda (s : State) (b : Beam) : (s.setBeam b).agenda = s.agenda := rfl
@[simp] theorem State.setBeam_inputs (s : State) (b : Beam) : (s.setBeam b).inputs = s.inputs := rfl
@[simp] theorem State.setBeam_issue (s : State) (b : Beam) : (s.setBeam b).issue = s.issue := rfl
@[simp] theorem State.setBeam_fetched (s : State) (b : Beam) : (s.setBeam b).fetched = s.fetched := rfl
@[simp] theorem State.setBeam_freeCtr (s : State) (b : Beam) : (s.setBeam b).freeCtr = s.freeCtr := rfl
@[simp] theorem State.setBeam_boot (s : State) (b : Beam) : (s.setBeam b).boot = s.boot := rfl
@[simp] theorem State.setBeam_pkg (s : State) (b : Beam) : (s.setBeam b).pkg = s.pkg := rfl
@[simp] theorem State.setBeam_domain (s : State) (b : Beam) : (s.setBeam b).domain = s.domain := rfl
@[simp] theorem State.setBeam_opened (s : State) (b : Beam) : (s.setBeam b).opened = s.opened := rfl
@[simp] theorem State.setBeam_ysl (s : State) (b : Beam) : (s.setBeam b).ysl = s.ysl := rfl
@[simp] theorem State.setBeam_hdmBase (s : State) (b : Beam) : (s.setBeam b).hdmBase = s.hdmBase := rfl
@[simp] theorem State.setBeam_codeHeap (s : State) (b : Beam) : (s.setBeam b).codeHeap = s.codeHeap := rfl
@[simp] theorem State.setBeam_ports (s : State) (b : Beam) : (s.setBeam b).ports = s.ports := rfl
@[simp] theorem State.setBeam_pending (s : State) (b : Beam) : (s.setBeam b).pending = s.pending := rfl
@[simp] theorem State.setBeam_arrivals (s : State) (b : Beam) : (s.setBeam b).arrivals = s.arrivals := rfl
@[simp] theorem State.setBeam_nextNum (s : State) (b : Beam) : (s.setBeam b).nextNum = s.nextNum := rfl
@[simp] theorem State.setBeam_launches (s : State) (b : Beam) : (s.setBeam b).launches = s.launches := rfl
@[simp] theorem State.setBeam_stamps (s : State) (b : Beam) : (s.setBeam b).stamps = s.stamps := rfl
@[simp] theorem State.setBeam_disabled (s : State) (b : Beam) : (s.setBeam b).disabled = s.disabled := rfl
@[simp] theorem State.setBeam_freecnt (s : State) (b : Beam) : (s.setBeam b).freecnt = s.freecnt := rfl
@[simp] theorem State.setBeam_spawnQ (s : State) (b : Beam) : (s.setBeam b).spawnQ = s.spawnQ := rfl
@[simp] theorem State.setBeam_objects (s : State) (b : Beam) : (s.setBeam b).objects = s.objects := rfl
@[simp] theorem State.setBeam_forwards (s : State) (b : Beam) : (s.setBeam b).forwards = s.forwards := rfl
@[simp] theorem State.setBeam_windows (s : State) (b : Beam) : (s.setBeam b).windows = s.windows := rfl
@[simp] theorem State.setBeam_fills (s : State) (b : Beam) : (s.setBeam b).fills = s.fills := rfl
@[simp] theorem State.setBeam_ctxs (s : State) (b : Beam) : (s.setBeam b).ctxs = s.ctxs := rfl
@[simp] theorem State.setBeam_uids (s : State) (b : Beam) : (s.setBeam b).uids = s.uids := rfl
@[simp] theorem State.setBeam_regions (s : State) (b : Beam) : (s.setBeam b).regions = s.regions := rfl
@[simp] theorem State.setBeam_rdv (s : State) (b : Beam) : (s.setBeam b).rdv = s.rdv := rfl
@[simp] theorem State.setBeam_jobs (s : State) (b : Beam) : (s.setBeam b).jobs = s.jobs := rfl
@[simp] theorem State.setBeam_jobNum (s : State) (b : Beam) : (s.setBeam b).jobNum = s.jobNum := rfl
@[simp] theorem State.setBeam_mismatched (s : State) (b : Beam) : (s.setBeam b).mismatched = s.mismatched := rfl
@[simp] theorem State.setBeam_cache (s : State) (b : Beam) : (s.setBeam b).cache = s.cache := rfl
@[simp] theorem State.setBeam_releasers (s : State) (b : Beam) : (s.setBeam b).releasers = s.releasers := rfl
@[simp] theorem State.setBeam_hostLines (s : State) (b : Beam) : (s.setBeam b).hostLines = s.hostLines := rfl
@[simp] theorem State.setBeam_l2 (s : State) (b : Beam) : (s.setBeam b).l2 = s.l2 := rfl
@[simp] theorem State.setBeam_flaws (s : State) (b : Beam) : (s.setBeam b).flaws = s.flaws := rfl
@[simp] theorem State.setBeam_dev (s : State) (b : Beam) : (s.setBeam b).dev = s.dev := rfl
@[simp] theorem State.setBeam_host (s : State) (b : Beam) : (s.setBeam b).host = s.host := rfl
@[simp] theorem State.setBeam_dom (s : State) (b : Beam) : (s.setBeam b).dom = s.dom := rfl
@[simp] theorem State.setBeam_tlb (s : State) (b : Beam) : (s.setBeam b).tlb = s.tlb := rfl
@[simp] theorem State.setBeam_invals (s : State) (b : Beam) : (s.setBeam b).invals = s.invals := rfl
@[simp] theorem State.setBeam_ats (s : State) (b : Beam) : (s.setBeam b).ats = s.ats := rfl
@[simp] theorem State.setBeam_pri (s : State) (b : Beam) : (s.setBeam b).pri = s.pri := rfl
@[simp] theorem State.setBeam_reckoners (s : State) (b : Beam) : (s.setBeam b).reckoners = s.reckoners := rfl
@[simp] theorem State.setBeam_gates (s : State) (b : Beam) : (s.setBeam b).gates = s.gates := rfl
@[simp] theorem State.setBeam_strikes (s : State) (b : Beam) : (s.setBeam b).strikes = s.strikes := rfl
@[simp] theorem State.setBeam_ecc (s : State) (b : Beam) : (s.setBeam b).ecc = s.ecc := rfl
@[simp] theorem State.setBeam_rowSpares (s : State) (b : Beam) : (s.setBeam b).rowSpares = s.rowSpares := rfl
@[simp] theorem State.setBeam_fenced (s : State) (b : Beam) : (s.setBeam b).fenced = s.fenced := rfl
@[simp] theorem State.setBeam_tests (s : State) (b : Beam) : (s.setBeam b).tests = s.tests := rfl
@[simp] theorem State.setBeam_policy (s : State) (b : Beam) : (s.setBeam b).policy = s.policy := rfl
@[simp] theorem State.setBeam_power (s : State) (b : Beam) : (s.setBeam b).power = s.power := rfl
@[simp] theorem State.setBeam_sampleSeq (s : State) (b : Beam) : (s.setBeam b).sampleSeq = s.sampleSeq := rfl
@[simp] theorem State.setBeam_samples (s : State) (b : Beam) : (s.setBeam b).samples = s.samples := rfl
@[simp] theorem State.setBeam_spdm (s : State) (b : Beam) : (s.setBeam b).spdm = s.spdm := rfl
@[simp] theorem State.setBeam_measure (s : State) (b : Beam) : (s.setBeam b).measure = s.measure := rfl
@[simp] theorem State.setBeam_cmps (s : State) (b : Beam) : (s.setBeam b).cmps = s.cmps := rfl
@[simp] theorem State.setBeam_flash (s : State) (b : Beam) : (s.setBeam b).flash = s.flash := rfl
@[simp] theorem State.setBeam_reports (s : State) (b : Beam) : (s.setBeam b).reports = s.reports := rfl

/-! ## State.setReckoner -/

@[simp] theorem State.setReckoner_tick (s : State) (r : Reckoner) : (s.setReckoner r).tick = s.tick := rfl
@[simp] theorem State.setReckoner_agenda (s : State) (r : Reckoner) : (s.setReckoner r).agenda = s.agenda := rfl
@[simp] theorem State.setReckoner_inputs (s : State) (r : Reckoner) : (s.setReckoner r).inputs = s.inputs := rfl
@[simp] theorem State.setReckoner_issue (s : State) (r : Reckoner) : (s.setReckoner r).issue = s.issue := rfl
@[simp] theorem State.setReckoner_fetched (s : State) (r : Reckoner) : (s.setReckoner r).fetched = s.fetched := rfl
@[simp] theorem State.setReckoner_freeCtr (s : State) (r : Reckoner) : (s.setReckoner r).freeCtr = s.freeCtr := rfl
@[simp] theorem State.setReckoner_boot (s : State) (r : Reckoner) : (s.setReckoner r).boot = s.boot := rfl
@[simp] theorem State.setReckoner_pkg (s : State) (r : Reckoner) : (s.setReckoner r).pkg = s.pkg := rfl
@[simp] theorem State.setReckoner_domain (s : State) (r : Reckoner) : (s.setReckoner r).domain = s.domain := rfl
@[simp] theorem State.setReckoner_opened (s : State) (r : Reckoner) : (s.setReckoner r).opened = s.opened := rfl
@[simp] theorem State.setReckoner_ysl (s : State) (r : Reckoner) : (s.setReckoner r).ysl = s.ysl := rfl
@[simp] theorem State.setReckoner_hdmBase (s : State) (r : Reckoner) : (s.setReckoner r).hdmBase = s.hdmBase := rfl
@[simp] theorem State.setReckoner_codeHeap (s : State) (r : Reckoner) : (s.setReckoner r).codeHeap = s.codeHeap := rfl
@[simp] theorem State.setReckoner_ports (s : State) (r : Reckoner) : (s.setReckoner r).ports = s.ports := rfl
@[simp] theorem State.setReckoner_pending (s : State) (r : Reckoner) : (s.setReckoner r).pending = s.pending := rfl
@[simp] theorem State.setReckoner_arrivals (s : State) (r : Reckoner) : (s.setReckoner r).arrivals = s.arrivals := rfl
@[simp] theorem State.setReckoner_nextNum (s : State) (r : Reckoner) : (s.setReckoner r).nextNum = s.nextNum := rfl
@[simp] theorem State.setReckoner_launches (s : State) (r : Reckoner) : (s.setReckoner r).launches = s.launches := rfl
@[simp] theorem State.setReckoner_stamps (s : State) (r : Reckoner) : (s.setReckoner r).stamps = s.stamps := rfl
@[simp] theorem State.setReckoner_disabled (s : State) (r : Reckoner) : (s.setReckoner r).disabled = s.disabled := rfl
@[simp] theorem State.setReckoner_freecnt (s : State) (r : Reckoner) : (s.setReckoner r).freecnt = s.freecnt := rfl
@[simp] theorem State.setReckoner_spawnQ (s : State) (r : Reckoner) : (s.setReckoner r).spawnQ = s.spawnQ := rfl
@[simp] theorem State.setReckoner_objects (s : State) (r : Reckoner) : (s.setReckoner r).objects = s.objects := rfl
@[simp] theorem State.setReckoner_forwards (s : State) (r : Reckoner) : (s.setReckoner r).forwards = s.forwards := rfl
@[simp] theorem State.setReckoner_windows (s : State) (r : Reckoner) : (s.setReckoner r).windows = s.windows := rfl
@[simp] theorem State.setReckoner_fills (s : State) (r : Reckoner) : (s.setReckoner r).fills = s.fills := rfl
@[simp] theorem State.setReckoner_ctxs (s : State) (r : Reckoner) : (s.setReckoner r).ctxs = s.ctxs := rfl
@[simp] theorem State.setReckoner_uids (s : State) (r : Reckoner) : (s.setReckoner r).uids = s.uids := rfl
@[simp] theorem State.setReckoner_regions (s : State) (r : Reckoner) : (s.setReckoner r).regions = s.regions := rfl
@[simp] theorem State.setReckoner_beams (s : State) (r : Reckoner) : (s.setReckoner r).beams = s.beams := rfl
@[simp] theorem State.setReckoner_rdv (s : State) (r : Reckoner) : (s.setReckoner r).rdv = s.rdv := rfl
@[simp] theorem State.setReckoner_jobs (s : State) (r : Reckoner) : (s.setReckoner r).jobs = s.jobs := rfl
@[simp] theorem State.setReckoner_jobNum (s : State) (r : Reckoner) : (s.setReckoner r).jobNum = s.jobNum := rfl
@[simp] theorem State.setReckoner_mismatched (s : State) (r : Reckoner) : (s.setReckoner r).mismatched = s.mismatched := rfl
@[simp] theorem State.setReckoner_cache (s : State) (r : Reckoner) : (s.setReckoner r).cache = s.cache := rfl
@[simp] theorem State.setReckoner_releasers (s : State) (r : Reckoner) : (s.setReckoner r).releasers = s.releasers := rfl
@[simp] theorem State.setReckoner_hostLines (s : State) (r : Reckoner) : (s.setReckoner r).hostLines = s.hostLines := rfl
@[simp] theorem State.setReckoner_l2 (s : State) (r : Reckoner) : (s.setReckoner r).l2 = s.l2 := rfl
@[simp] theorem State.setReckoner_flaws (s : State) (r : Reckoner) : (s.setReckoner r).flaws = s.flaws := rfl
@[simp] theorem State.setReckoner_dev (s : State) (r : Reckoner) : (s.setReckoner r).dev = s.dev := rfl
@[simp] theorem State.setReckoner_host (s : State) (r : Reckoner) : (s.setReckoner r).host = s.host := rfl
@[simp] theorem State.setReckoner_dom (s : State) (r : Reckoner) : (s.setReckoner r).dom = s.dom := rfl
@[simp] theorem State.setReckoner_tlb (s : State) (r : Reckoner) : (s.setReckoner r).tlb = s.tlb := rfl
@[simp] theorem State.setReckoner_invals (s : State) (r : Reckoner) : (s.setReckoner r).invals = s.invals := rfl
@[simp] theorem State.setReckoner_ats (s : State) (r : Reckoner) : (s.setReckoner r).ats = s.ats := rfl
@[simp] theorem State.setReckoner_pri (s : State) (r : Reckoner) : (s.setReckoner r).pri = s.pri := rfl
@[simp] theorem State.setReckoner_gates (s : State) (r : Reckoner) : (s.setReckoner r).gates = s.gates := rfl
@[simp] theorem State.setReckoner_strikes (s : State) (r : Reckoner) : (s.setReckoner r).strikes = s.strikes := rfl
@[simp] theorem State.setReckoner_ecc (s : State) (r : Reckoner) : (s.setReckoner r).ecc = s.ecc := rfl
@[simp] theorem State.setReckoner_rowSpares (s : State) (r : Reckoner) : (s.setReckoner r).rowSpares = s.rowSpares := rfl
@[simp] theorem State.setReckoner_fenced (s : State) (r : Reckoner) : (s.setReckoner r).fenced = s.fenced := rfl
@[simp] theorem State.setReckoner_tests (s : State) (r : Reckoner) : (s.setReckoner r).tests = s.tests := rfl
@[simp] theorem State.setReckoner_policy (s : State) (r : Reckoner) : (s.setReckoner r).policy = s.policy := rfl
@[simp] theorem State.setReckoner_power (s : State) (r : Reckoner) : (s.setReckoner r).power = s.power := rfl
@[simp] theorem State.setReckoner_sampleSeq (s : State) (r : Reckoner) : (s.setReckoner r).sampleSeq = s.sampleSeq := rfl
@[simp] theorem State.setReckoner_samples (s : State) (r : Reckoner) : (s.setReckoner r).samples = s.samples := rfl
@[simp] theorem State.setReckoner_spdm (s : State) (r : Reckoner) : (s.setReckoner r).spdm = s.spdm := rfl
@[simp] theorem State.setReckoner_measure (s : State) (r : Reckoner) : (s.setReckoner r).measure = s.measure := rfl
@[simp] theorem State.setReckoner_cmps (s : State) (r : Reckoner) : (s.setReckoner r).cmps = s.cmps := rfl
@[simp] theorem State.setReckoner_flash (s : State) (r : Reckoner) : (s.setReckoner r).flash = s.flash := rfl
@[simp] theorem State.setReckoner_reports (s : State) (r : Reckoner) : (s.setReckoner r).reports = s.reports := rfl

/-! ## State.noteWrite -/

@[simp] theorem State.noteWrite_tick (s : State) (p : Place) : (s.noteWrite p).tick = s.tick := rfl
@[simp] theorem State.noteWrite_agenda (s : State) (p : Place) : (s.noteWrite p).agenda = s.agenda := rfl
@[simp] theorem State.noteWrite_inputs (s : State) (p : Place) : (s.noteWrite p).inputs = s.inputs := rfl
@[simp] theorem State.noteWrite_issue (s : State) (p : Place) : (s.noteWrite p).issue = s.issue := rfl
@[simp] theorem State.noteWrite_fetched (s : State) (p : Place) : (s.noteWrite p).fetched = s.fetched := rfl
@[simp] theorem State.noteWrite_freeCtr (s : State) (p : Place) : (s.noteWrite p).freeCtr = s.freeCtr := rfl
@[simp] theorem State.noteWrite_boot (s : State) (p : Place) : (s.noteWrite p).boot = s.boot := rfl
@[simp] theorem State.noteWrite_pkg (s : State) (p : Place) : (s.noteWrite p).pkg = s.pkg := rfl
@[simp] theorem State.noteWrite_domain (s : State) (p : Place) : (s.noteWrite p).domain = s.domain := rfl
@[simp] theorem State.noteWrite_opened (s : State) (p : Place) : (s.noteWrite p).opened = s.opened := rfl
@[simp] theorem State.noteWrite_ysl (s : State) (p : Place) : (s.noteWrite p).ysl = s.ysl := rfl
@[simp] theorem State.noteWrite_hdmBase (s : State) (p : Place) : (s.noteWrite p).hdmBase = s.hdmBase := rfl
@[simp] theorem State.noteWrite_codeHeap (s : State) (p : Place) : (s.noteWrite p).codeHeap = s.codeHeap := rfl
@[simp] theorem State.noteWrite_ports (s : State) (p : Place) : (s.noteWrite p).ports = s.ports := rfl
@[simp] theorem State.noteWrite_pending (s : State) (p : Place) : (s.noteWrite p).pending = s.pending := rfl
@[simp] theorem State.noteWrite_arrivals (s : State) (p : Place) : (s.noteWrite p).arrivals = s.arrivals := rfl
@[simp] theorem State.noteWrite_nextNum (s : State) (p : Place) : (s.noteWrite p).nextNum = s.nextNum := rfl
@[simp] theorem State.noteWrite_launches (s : State) (p : Place) : (s.noteWrite p).launches = s.launches := rfl
@[simp] theorem State.noteWrite_stamps (s : State) (p : Place) : (s.noteWrite p).stamps = s.stamps := rfl
@[simp] theorem State.noteWrite_disabled (s : State) (p : Place) : (s.noteWrite p).disabled = s.disabled := rfl
@[simp] theorem State.noteWrite_freecnt (s : State) (p : Place) : (s.noteWrite p).freecnt = s.freecnt := rfl
@[simp] theorem State.noteWrite_spawnQ (s : State) (p : Place) : (s.noteWrite p).spawnQ = s.spawnQ := rfl
@[simp] theorem State.noteWrite_objects (s : State) (p : Place) : (s.noteWrite p).objects = s.objects := rfl
@[simp] theorem State.noteWrite_forwards (s : State) (p : Place) : (s.noteWrite p).forwards = s.forwards := rfl
@[simp] theorem State.noteWrite_windows (s : State) (p : Place) : (s.noteWrite p).windows = s.windows := rfl
@[simp] theorem State.noteWrite_fills (s : State) (p : Place) : (s.noteWrite p).fills = s.fills := rfl
@[simp] theorem State.noteWrite_uids (s : State) (p : Place) : (s.noteWrite p).uids = s.uids := rfl
@[simp] theorem State.noteWrite_regions (s : State) (p : Place) : (s.noteWrite p).regions = s.regions := rfl
@[simp] theorem State.noteWrite_beams (s : State) (p : Place) : (s.noteWrite p).beams = s.beams := rfl
@[simp] theorem State.noteWrite_rdv (s : State) (p : Place) : (s.noteWrite p).rdv = s.rdv := rfl
@[simp] theorem State.noteWrite_jobs (s : State) (p : Place) : (s.noteWrite p).jobs = s.jobs := rfl
@[simp] theorem State.noteWrite_jobNum (s : State) (p : Place) : (s.noteWrite p).jobNum = s.jobNum := rfl
@[simp] theorem State.noteWrite_mismatched (s : State) (p : Place) : (s.noteWrite p).mismatched = s.mismatched := rfl
@[simp] theorem State.noteWrite_cache (s : State) (p : Place) : (s.noteWrite p).cache = s.cache := rfl
@[simp] theorem State.noteWrite_releasers (s : State) (p : Place) : (s.noteWrite p).releasers = s.releasers := rfl
@[simp] theorem State.noteWrite_hostLines (s : State) (p : Place) : (s.noteWrite p).hostLines = s.hostLines := rfl
@[simp] theorem State.noteWrite_l2 (s : State) (p : Place) : (s.noteWrite p).l2 = s.l2 := rfl
@[simp] theorem State.noteWrite_flaws (s : State) (p : Place) : (s.noteWrite p).flaws = s.flaws := rfl
@[simp] theorem State.noteWrite_dev (s : State) (p : Place) : (s.noteWrite p).dev = s.dev := rfl
@[simp] theorem State.noteWrite_host (s : State) (p : Place) : (s.noteWrite p).host = s.host := rfl
@[simp] theorem State.noteWrite_dom (s : State) (p : Place) : (s.noteWrite p).dom = s.dom := rfl
@[simp] theorem State.noteWrite_tlb (s : State) (p : Place) : (s.noteWrite p).tlb = s.tlb := rfl
@[simp] theorem State.noteWrite_invals (s : State) (p : Place) : (s.noteWrite p).invals = s.invals := rfl
@[simp] theorem State.noteWrite_ats (s : State) (p : Place) : (s.noteWrite p).ats = s.ats := rfl
@[simp] theorem State.noteWrite_pri (s : State) (p : Place) : (s.noteWrite p).pri = s.pri := rfl
@[simp] theorem State.noteWrite_reckoners (s : State) (p : Place) : (s.noteWrite p).reckoners = s.reckoners := rfl
@[simp] theorem State.noteWrite_gates (s : State) (p : Place) : (s.noteWrite p).gates = s.gates := rfl
@[simp] theorem State.noteWrite_strikes (s : State) (p : Place) : (s.noteWrite p).strikes = s.strikes := rfl
@[simp] theorem State.noteWrite_ecc (s : State) (p : Place) : (s.noteWrite p).ecc = s.ecc := rfl
@[simp] theorem State.noteWrite_rowSpares (s : State) (p : Place) : (s.noteWrite p).rowSpares = s.rowSpares := rfl
@[simp] theorem State.noteWrite_fenced (s : State) (p : Place) : (s.noteWrite p).fenced = s.fenced := rfl
@[simp] theorem State.noteWrite_tests (s : State) (p : Place) : (s.noteWrite p).tests = s.tests := rfl
@[simp] theorem State.noteWrite_policy (s : State) (p : Place) : (s.noteWrite p).policy = s.policy := rfl
@[simp] theorem State.noteWrite_power (s : State) (p : Place) : (s.noteWrite p).power = s.power := rfl
@[simp] theorem State.noteWrite_sampleSeq (s : State) (p : Place) : (s.noteWrite p).sampleSeq = s.sampleSeq := rfl
@[simp] theorem State.noteWrite_samples (s : State) (p : Place) : (s.noteWrite p).samples = s.samples := rfl
@[simp] theorem State.noteWrite_spdm (s : State) (p : Place) : (s.noteWrite p).spdm = s.spdm := rfl
@[simp] theorem State.noteWrite_measure (s : State) (p : Place) : (s.noteWrite p).measure = s.measure := rfl
@[simp] theorem State.noteWrite_cmps (s : State) (p : Place) : (s.noteWrite p).cmps = s.cmps := rfl
@[simp] theorem State.noteWrite_flash (s : State) (p : Place) : (s.noteWrite p).flash = s.flash := rfl
@[simp] theorem State.noteWrite_reports (s : State) (p : Place) : (s.noteWrite p).reports = s.reports := rfl

/-! ## Arch.modLane -/

@[simp] theorem Arch.modLane_s (ar : Arch) (i : Nat) (f : Lane → Lane) : (ar.modLane i f).s = ar.s := rfl
@[simp] theorem Arch.modLane_a (ar : Arch) (i : Nat) (f : Lane → Lane) : (ar.modLane i f).a = ar.a := rfl
@[simp] theorem Arch.modLane_vc (ar : Arch) (i : Nat) (f : Lane → Lane) : (ar.modLane i f).vc = ar.vc := rfl
@[simp] theorem Arch.modLane_tbase (ar : Arch) (i : Nat) (f : Lane → Lane) : (ar.modLane i f).tbase = ar.tbase := rfl
@[simp] theorem Arch.modLane_ovh (ar : Arch) (i : Nat) (f : Lane → Lane) : (ar.modLane i f).ovh = ar.ovh := rfl
@[simp] theorem Arch.modLane_uhnd (ar : Arch) (i : Nat) (f : Lane → Lane) : (ar.modLane i f).uhnd = ar.uhnd := rfl
@[simp] theorem Arch.modLane_epc (ar : Arch) (i : Nat) (f : Lane → Lane) : (ar.modLane i f).epc = ar.epc := rfl
@[simp] theorem Arch.modLane_eaddr (ar : Arch) (i : Nat) (f : Lane → Lane) : (ar.modLane i f).eaddr = ar.eaddr := rfl
@[simp] theorem Arch.modLane_ecode (ar : Arch) (i : Nat) (f : Lane → Lane) : (ar.modLane i f).ecode = ar.ecode := rfl
@[simp] theorem Arch.modLane_elane (ar : Arch) (i : Nat) (f : Lane → Lane) : (ar.modLane i f).elane = ar.elane := rfl
@[simp] theorem Arch.modLane_nfmt (ar : Arch) (i : Nat) (f : Lane → Lane) : (ar.modLane i f).nfmt = ar.nfmt := rfl
@[simp] theorem Arch.modLane_fpctl (ar : Arch) (i : Nat) (f : Lane → Lane) : (ar.modLane i f).fpctl = ar.fpctl := rfl
@[simp] theorem Arch.modLane_xstat (ar : Arch) (i : Nat) (f : Lane → Lane) : (ar.modLane i f).xstat = ar.xstat := rfl
@[simp] theorem Arch.modLane_mprog (ar : Arch) (i : Nat) (f : Lane → Lane) : (ar.modLane i f).mprog = ar.mprog := rfl
@[simp] theorem Arch.modLane_uh (ar : Arch) (i : Nat) (f : Lane → Lane) : (ar.modLane i f).uh = ar.uh := rfl
@[simp] theorem Arch.modLane_overlay (ar : Arch) (i : Nat) (f : Lane → Lane) : (ar.modLane i f).overlay = ar.overlay := rfl
@[simp] theorem Arch.modLane_trapSet (ar : Arch) (i : Nat) (f : Lane → Lane) : (ar.modLane i f).trapSet = ar.trapSet := rfl
@[simp] theorem Arch.modLane_sysSet (ar : Arch) (i : Nat) (f : Lane → Lane) : (ar.modLane i f).sysSet = ar.sysSet := rfl
@[simp] theorem Arch.modLane_heldSet (ar : Arch) (i : Nat) (f : Lane → Lane) : (ar.modLane i f).heldSet = ar.heldSet := rfl
@[simp] theorem Arch.modLane_tags (ar : Arch) (i : Nat) (f : Lane → Lane) : (ar.modLane i f).tags = ar.tags := rfl
@[simp] theorem Arch.modLane_ths (ar : Arch) (i : Nat) (f : Lane → Lane) : (ar.modLane i f).ths = ar.ths := rfl
@[simp] theorem Arch.modLane_iter (ar : Arch) (i : Nat) (f : Lane → Lane) : (ar.modLane i f).iter = ar.iter := rfl
@[simp] theorem Arch.modLane_streams (ar : Arch) (i : Nat) (f : Lane → Lane) : (ar.modLane i f).streams = ar.streams := rfl
@[simp] theorem Arch.modLane_pushes (ar : Arch) (i : Nat) (f : Lane → Lane) : (ar.modLane i f).pushes = ar.pushes := rfl
@[simp] theorem Arch.modLane_link (ar : Arch) (i : Nat) (f : Lane → Lane) : (ar.modLane i f).link = ar.link := rfl
@[simp] theorem Arch.modLane_pend (ar : Arch) (i : Nat) (f : Lane → Lane) : (ar.modLane i f).pend = ar.pend := rfl
@[simp] theorem Arch.modLane_en (ar : Arch) (i : Nat) (f : Lane → Lane) : (ar.modLane i f).en = ar.en := rfl
@[simp] theorem Arch.modLane_mark (ar : Arch) (i : Nat) (f : Lane → Lane) : (ar.modLane i f).mark = ar.mark := rfl
@[simp] theorem Arch.modLane_touched (ar : Arch) (i : Nat) (f : Lane → Lane) : (ar.modLane i f).touched = ar.touched := rfl
@[simp] theorem Arch.modLane_vdot (ar : Arch) (i : Nat) (f : Lane → Lane) : (ar.modLane i f).vdot = ar.vdot := rfl

/-! ## Arch.setS -/

@[simp] theorem Arch.setS_a (ar : Arch) (i : Fin 64) (x : Word) : (ar.setS i x).a = ar.a := rfl
@[simp] theorem Arch.setS_lanes (ar : Arch) (i : Fin 64) (x : Word) : (ar.setS i x).lanes = ar.lanes := rfl
@[simp] theorem Arch.setS_vc (ar : Arch) (i : Fin 64) (x : Word) : (ar.setS i x).vc = ar.vc := rfl
@[simp] theorem Arch.setS_tbase (ar : Arch) (i : Fin 64) (x : Word) : (ar.setS i x).tbase = ar.tbase := rfl
@[simp] theorem Arch.setS_ovh (ar : Arch) (i : Fin 64) (x : Word) : (ar.setS i x).ovh = ar.ovh := rfl
@[simp] theorem Arch.setS_uhnd (ar : Arch) (i : Fin 64) (x : Word) : (ar.setS i x).uhnd = ar.uhnd := rfl
@[simp] theorem Arch.setS_epc (ar : Arch) (i : Fin 64) (x : Word) : (ar.setS i x).epc = ar.epc := rfl
@[simp] theorem Arch.setS_eaddr (ar : Arch) (i : Fin 64) (x : Word) : (ar.setS i x).eaddr = ar.eaddr := rfl
@[simp] theorem Arch.setS_ecode (ar : Arch) (i : Fin 64) (x : Word) : (ar.setS i x).ecode = ar.ecode := rfl
@[simp] theorem Arch.setS_elane (ar : Arch) (i : Fin 64) (x : Word) : (ar.setS i x).elane = ar.elane := rfl
@[simp] theorem Arch.setS_nfmt (ar : Arch) (i : Fin 64) (x : Word) : (ar.setS i x).nfmt = ar.nfmt := rfl
@[simp] theorem Arch.setS_fpctl (ar : Arch) (i : Fin 64) (x : Word) : (ar.setS i x).fpctl = ar.fpctl := rfl
@[simp] theorem Arch.setS_xstat (ar : Arch) (i : Fin 64) (x : Word) : (ar.setS i x).xstat = ar.xstat := rfl
@[simp] theorem Arch.setS_mprog (ar : Arch) (i : Fin 64) (x : Word) : (ar.setS i x).mprog = ar.mprog := rfl
@[simp] theorem Arch.setS_uh (ar : Arch) (i : Fin 64) (x : Word) : (ar.setS i x).uh = ar.uh := rfl
@[simp] theorem Arch.setS_overlay (ar : Arch) (i : Fin 64) (x : Word) : (ar.setS i x).overlay = ar.overlay := rfl
@[simp] theorem Arch.setS_trapSet (ar : Arch) (i : Fin 64) (x : Word) : (ar.setS i x).trapSet = ar.trapSet := rfl
@[simp] theorem Arch.setS_sysSet (ar : Arch) (i : Fin 64) (x : Word) : (ar.setS i x).sysSet = ar.sysSet := rfl
@[simp] theorem Arch.setS_heldSet (ar : Arch) (i : Fin 64) (x : Word) : (ar.setS i x).heldSet = ar.heldSet := rfl
@[simp] theorem Arch.setS_tags (ar : Arch) (i : Fin 64) (x : Word) : (ar.setS i x).tags = ar.tags := rfl
@[simp] theorem Arch.setS_ths (ar : Arch) (i : Fin 64) (x : Word) : (ar.setS i x).ths = ar.ths := rfl
@[simp] theorem Arch.setS_iter (ar : Arch) (i : Fin 64) (x : Word) : (ar.setS i x).iter = ar.iter := rfl
@[simp] theorem Arch.setS_streams (ar : Arch) (i : Fin 64) (x : Word) : (ar.setS i x).streams = ar.streams := rfl
@[simp] theorem Arch.setS_pushes (ar : Arch) (i : Fin 64) (x : Word) : (ar.setS i x).pushes = ar.pushes := rfl
@[simp] theorem Arch.setS_link (ar : Arch) (i : Fin 64) (x : Word) : (ar.setS i x).link = ar.link := rfl
@[simp] theorem Arch.setS_pend (ar : Arch) (i : Fin 64) (x : Word) : (ar.setS i x).pend = ar.pend := rfl
@[simp] theorem Arch.setS_en (ar : Arch) (i : Fin 64) (x : Word) : (ar.setS i x).en = ar.en := rfl
@[simp] theorem Arch.setS_mark (ar : Arch) (i : Fin 64) (x : Word) : (ar.setS i x).mark = ar.mark := rfl
@[simp] theorem Arch.setS_touched (ar : Arch) (i : Fin 64) (x : Word) : (ar.setS i x).touched = ar.touched := rfl
@[simp] theorem Arch.setS_vdot (ar : Arch) (i : Fin 64) (x : Word) : (ar.setS i x).vdot = ar.vdot := rfl

/-! ## Arch.orXstat -/

@[simp] theorem Arch.orXstat_s (ar : Arch) (m : Word) : (ar.orXstat m).s = ar.s := rfl
@[simp] theorem Arch.orXstat_a (ar : Arch) (m : Word) : (ar.orXstat m).a = ar.a := rfl
@[simp] theorem Arch.orXstat_lanes (ar : Arch) (m : Word) : (ar.orXstat m).lanes = ar.lanes := rfl
@[simp] theorem Arch.orXstat_vc (ar : Arch) (m : Word) : (ar.orXstat m).vc = ar.vc := rfl
@[simp] theorem Arch.orXstat_tbase (ar : Arch) (m : Word) : (ar.orXstat m).tbase = ar.tbase := rfl
@[simp] theorem Arch.orXstat_ovh (ar : Arch) (m : Word) : (ar.orXstat m).ovh = ar.ovh := rfl
@[simp] theorem Arch.orXstat_uhnd (ar : Arch) (m : Word) : (ar.orXstat m).uhnd = ar.uhnd := rfl
@[simp] theorem Arch.orXstat_epc (ar : Arch) (m : Word) : (ar.orXstat m).epc = ar.epc := rfl
@[simp] theorem Arch.orXstat_eaddr (ar : Arch) (m : Word) : (ar.orXstat m).eaddr = ar.eaddr := rfl
@[simp] theorem Arch.orXstat_ecode (ar : Arch) (m : Word) : (ar.orXstat m).ecode = ar.ecode := rfl
@[simp] theorem Arch.orXstat_elane (ar : Arch) (m : Word) : (ar.orXstat m).elane = ar.elane := rfl
@[simp] theorem Arch.orXstat_nfmt (ar : Arch) (m : Word) : (ar.orXstat m).nfmt = ar.nfmt := rfl
@[simp] theorem Arch.orXstat_fpctl (ar : Arch) (m : Word) : (ar.orXstat m).fpctl = ar.fpctl := rfl
@[simp] theorem Arch.orXstat_mprog (ar : Arch) (m : Word) : (ar.orXstat m).mprog = ar.mprog := rfl
@[simp] theorem Arch.orXstat_uh (ar : Arch) (m : Word) : (ar.orXstat m).uh = ar.uh := rfl
@[simp] theorem Arch.orXstat_overlay (ar : Arch) (m : Word) : (ar.orXstat m).overlay = ar.overlay := rfl
@[simp] theorem Arch.orXstat_trapSet (ar : Arch) (m : Word) : (ar.orXstat m).trapSet = ar.trapSet := rfl
@[simp] theorem Arch.orXstat_sysSet (ar : Arch) (m : Word) : (ar.orXstat m).sysSet = ar.sysSet := rfl
@[simp] theorem Arch.orXstat_heldSet (ar : Arch) (m : Word) : (ar.orXstat m).heldSet = ar.heldSet := rfl
@[simp] theorem Arch.orXstat_tags (ar : Arch) (m : Word) : (ar.orXstat m).tags = ar.tags := rfl
@[simp] theorem Arch.orXstat_ths (ar : Arch) (m : Word) : (ar.orXstat m).ths = ar.ths := rfl
@[simp] theorem Arch.orXstat_iter (ar : Arch) (m : Word) : (ar.orXstat m).iter = ar.iter := rfl
@[simp] theorem Arch.orXstat_streams (ar : Arch) (m : Word) : (ar.orXstat m).streams = ar.streams := rfl
@[simp] theorem Arch.orXstat_pushes (ar : Arch) (m : Word) : (ar.orXstat m).pushes = ar.pushes := rfl
@[simp] theorem Arch.orXstat_link (ar : Arch) (m : Word) : (ar.orXstat m).link = ar.link := rfl
@[simp] theorem Arch.orXstat_pend (ar : Arch) (m : Word) : (ar.orXstat m).pend = ar.pend := rfl
@[simp] theorem Arch.orXstat_en (ar : Arch) (m : Word) : (ar.orXstat m).en = ar.en := rfl
@[simp] theorem Arch.orXstat_mark (ar : Arch) (m : Word) : (ar.orXstat m).mark = ar.mark := rfl
@[simp] theorem Arch.orXstat_touched (ar : Arch) (m : Word) : (ar.orXstat m).touched = ar.touched := rfl
@[simp] theorem Arch.orXstat_vdot (ar : Arch) (m : Word) : (ar.orXstat m).vdot = ar.vdot := rfl

/-! ## Arch.goto -/

@[simp] theorem Arch.goto_s (ar : Arch) (m : BitVec 64) (pc : DWord) : (ar.goto m pc).s = ar.s := ar.goto_keeps (·.s) (fun _ _ _ => rfl) m pc
@[simp] theorem Arch.goto_a (ar : Arch) (m : BitVec 64) (pc : DWord) : (ar.goto m pc).a = ar.a := ar.goto_keeps (·.a) (fun _ _ _ => rfl) m pc
@[simp] theorem Arch.goto_vc (ar : Arch) (m : BitVec 64) (pc : DWord) : (ar.goto m pc).vc = ar.vc := ar.goto_keeps (·.vc) (fun _ _ _ => rfl) m pc
@[simp] theorem Arch.goto_tbase (ar : Arch) (m : BitVec 64) (pc : DWord) : (ar.goto m pc).tbase = ar.tbase := ar.goto_keeps (·.tbase) (fun _ _ _ => rfl) m pc
@[simp] theorem Arch.goto_ovh (ar : Arch) (m : BitVec 64) (pc : DWord) : (ar.goto m pc).ovh = ar.ovh := ar.goto_keeps (·.ovh) (fun _ _ _ => rfl) m pc
@[simp] theorem Arch.goto_uhnd (ar : Arch) (m : BitVec 64) (pc : DWord) : (ar.goto m pc).uhnd = ar.uhnd := ar.goto_keeps (·.uhnd) (fun _ _ _ => rfl) m pc
@[simp] theorem Arch.goto_epc (ar : Arch) (m : BitVec 64) (pc : DWord) : (ar.goto m pc).epc = ar.epc := ar.goto_keeps (·.epc) (fun _ _ _ => rfl) m pc
@[simp] theorem Arch.goto_eaddr (ar : Arch) (m : BitVec 64) (pc : DWord) : (ar.goto m pc).eaddr = ar.eaddr := ar.goto_keeps (·.eaddr) (fun _ _ _ => rfl) m pc
@[simp] theorem Arch.goto_ecode (ar : Arch) (m : BitVec 64) (pc : DWord) : (ar.goto m pc).ecode = ar.ecode := ar.goto_keeps (·.ecode) (fun _ _ _ => rfl) m pc
@[simp] theorem Arch.goto_elane (ar : Arch) (m : BitVec 64) (pc : DWord) : (ar.goto m pc).elane = ar.elane := ar.goto_keeps (·.elane) (fun _ _ _ => rfl) m pc
@[simp] theorem Arch.goto_nfmt (ar : Arch) (m : BitVec 64) (pc : DWord) : (ar.goto m pc).nfmt = ar.nfmt := ar.goto_keeps (·.nfmt) (fun _ _ _ => rfl) m pc
@[simp] theorem Arch.goto_fpctl (ar : Arch) (m : BitVec 64) (pc : DWord) : (ar.goto m pc).fpctl = ar.fpctl := ar.goto_keeps (·.fpctl) (fun _ _ _ => rfl) m pc
@[simp] theorem Arch.goto_xstat (ar : Arch) (m : BitVec 64) (pc : DWord) : (ar.goto m pc).xstat = ar.xstat := ar.goto_keeps (·.xstat) (fun _ _ _ => rfl) m pc
@[simp] theorem Arch.goto_mprog (ar : Arch) (m : BitVec 64) (pc : DWord) : (ar.goto m pc).mprog = ar.mprog := ar.goto_keeps (·.mprog) (fun _ _ _ => rfl) m pc
@[simp] theorem Arch.goto_uh (ar : Arch) (m : BitVec 64) (pc : DWord) : (ar.goto m pc).uh = ar.uh := ar.goto_keeps (·.uh) (fun _ _ _ => rfl) m pc
@[simp] theorem Arch.goto_overlay (ar : Arch) (m : BitVec 64) (pc : DWord) : (ar.goto m pc).overlay = ar.overlay := ar.goto_keeps (·.overlay) (fun _ _ _ => rfl) m pc
@[simp] theorem Arch.goto_trapSet (ar : Arch) (m : BitVec 64) (pc : DWord) : (ar.goto m pc).trapSet = ar.trapSet := ar.goto_keeps (·.trapSet) (fun _ _ _ => rfl) m pc
@[simp] theorem Arch.goto_sysSet (ar : Arch) (m : BitVec 64) (pc : DWord) : (ar.goto m pc).sysSet = ar.sysSet := ar.goto_keeps (·.sysSet) (fun _ _ _ => rfl) m pc
@[simp] theorem Arch.goto_heldSet (ar : Arch) (m : BitVec 64) (pc : DWord) : (ar.goto m pc).heldSet = ar.heldSet := ar.goto_keeps (·.heldSet) (fun _ _ _ => rfl) m pc
@[simp] theorem Arch.goto_tags (ar : Arch) (m : BitVec 64) (pc : DWord) : (ar.goto m pc).tags = ar.tags := ar.goto_keeps (·.tags) (fun _ _ _ => rfl) m pc
@[simp] theorem Arch.goto_ths (ar : Arch) (m : BitVec 64) (pc : DWord) : (ar.goto m pc).ths = ar.ths := ar.goto_keeps (·.ths) (fun _ _ _ => rfl) m pc
@[simp] theorem Arch.goto_iter (ar : Arch) (m : BitVec 64) (pc : DWord) : (ar.goto m pc).iter = ar.iter := ar.goto_keeps (·.iter) (fun _ _ _ => rfl) m pc
@[simp] theorem Arch.goto_streams (ar : Arch) (m : BitVec 64) (pc : DWord) : (ar.goto m pc).streams = ar.streams := ar.goto_keeps (·.streams) (fun _ _ _ => rfl) m pc
@[simp] theorem Arch.goto_pushes (ar : Arch) (m : BitVec 64) (pc : DWord) : (ar.goto m pc).pushes = ar.pushes := ar.goto_keeps (·.pushes) (fun _ _ _ => rfl) m pc
@[simp] theorem Arch.goto_link (ar : Arch) (m : BitVec 64) (pc : DWord) : (ar.goto m pc).link = ar.link := ar.goto_keeps (·.link) (fun _ _ _ => rfl) m pc
@[simp] theorem Arch.goto_pend (ar : Arch) (m : BitVec 64) (pc : DWord) : (ar.goto m pc).pend = ar.pend := ar.goto_keeps (·.pend) (fun _ _ _ => rfl) m pc
@[simp] theorem Arch.goto_en (ar : Arch) (m : BitVec 64) (pc : DWord) : (ar.goto m pc).en = ar.en := ar.goto_keeps (·.en) (fun _ _ _ => rfl) m pc
@[simp] theorem Arch.goto_mark (ar : Arch) (m : BitVec 64) (pc : DWord) : (ar.goto m pc).mark = ar.mark := ar.goto_keeps (·.mark) (fun _ _ _ => rfl) m pc
@[simp] theorem Arch.goto_touched (ar : Arch) (m : BitVec 64) (pc : DWord) : (ar.goto m pc).touched = ar.touched := ar.goto_keeps (·.touched) (fun _ _ _ => rfl) m pc
@[simp] theorem Arch.goto_vdot (ar : Arch) (m : BitVec 64) (pc : DWord) : (ar.goto m pc).vdot = ar.vdot := ar.goto_keeps (·.vdot) (fun _ _ _ => rfl) m pc

end Sys2Proof.Machine
end

