-- ==== Sys2Proof/Laws/Issue.lean ====
section
/-!
SUPPORT. What the shared run of an instruction comes to: the issuing context, the checks of R130 and R131, and everything that
an instruction of registers alone can do.
-/
namespace Sys2Proof.Machine

/-- An instruction runs its meaning in the context that issues it, whether or not it has something to compare. -/
theorem withIssueIf_of_issuing {s : State} {iss : Issue} {c : Ctx} (h : Issuing s iss c) (p : Ctx → Bool) (f : Issue → Ctx → Eff) :
    s.withIssueIf p f = finish iss.key (f iss c) := by
  simp [State.withIssueIf, h.issue, h.ctx, h.clean]

/-- An encoded instruction runs its meaning in the context that issues it. -/
theorem withIssue_of_issuing {s : State} {iss : Issue} {c : Ctx} (h : Issuing s iss c) (f : Issue → Ctx → Eff) :
    s.withIssue f = finish iss.key (f iss c) := withIssueIf_of_issuing h _ f

/-- So does an instruction that has nothing to compare. -/
theorem withIssueQuiet_of_issuing {s : State} {iss : Issue} {c : Ctx} (h : Issuing s iss c) (f : Issue → Ctx → Eff) :
    s.withIssueQuiet f = finish iss.key (f iss c) := withIssueIf_of_issuing h _ f

/-- An instruction that completes retires. -/
@[simp] theorem finish_done (k : CtxKey) (s : State) : finish k (.done s) = .next (s.retire k) := rfl

/-- An instruction that faults takes its exception. -/
@[simp] theorem finish_trap (k : CtxKey) (s : State) (t : Trap) : finish k (.trap s t) = .next (s.deliver k t) := rfl

/-- An instruction never stops. -/
theorem finish_next (k : CtxKey) (e : Eff) : ∃ t, finish k e = .next t := by
  cases e with
  | done s => exact ⟨_, rfl⟩
  | trap s t => exact ⟨_, rfl⟩

/-- Everything that the issue of an instruction can come to: no issuer, a rolled-back lock-step context, or its meaning. -/
theorem withIssueIf_cases (s : State) (p : Ctx → Bool) (f : Issue → Ctx → Eff) :
    s.withIssueIf p f = .fault .noIssuer ∨
    ∃ iss c, s.issue = some iss ∧ s.ctx? iss.key = some c ∧
      (p c = true ∧ s.struck iss.key = true ∧ s.withIssueIf p f = .next (s.rollBack iss.key) ∨
       s.withIssueIf p f = finish iss.key (f iss c)) := by
  unfold State.withIssueIf
  cases hi : s.issue with
  | none => exact .inl rfl
  | some iss =>
    cases hc : s.ctx? iss.key with
    | none => exact .inl (by simp [hc])
    | some c =>
      refine .inr ⟨iss, c, rfl, hc, ?_⟩
      by_cases hs : (p c && s.struck iss.key) = true
      · exact .inl ⟨by simp_all, by simp_all, by simp [hc, hs]⟩
      · exact .inr (by simp [hc, hs])

/-- The checks pass when each of them does. -/
theorem guarded_of {s : State} {iss : Issue} {c : Ctx} {nm : Names} {typed whole : Bool} (go : Eff) (hn : s.namesOk c nm = true)
    (ht : typed = true) (hw : whole = true → iss.exec = c.liveSet) : s.guarded iss c nm typed whole go = go := by
  cases whole <;> simp_all [State.guarded]

/-- Everything that the checks can come to: one of three faults, or the instruction's own effect. -/
theorem guarded_cases (s : State) (iss : Issue) (c : Ctx) (nm : Names) (typed whole : Bool) (go : Eff) :
    (∃ code, (code = .ill ∨ code = .type ∨ code = .upart) ∧ s.guarded iss c nm typed whole go = faultAt s iss code) ∨
    (s.namesOk c nm = true ∧ typed = true ∧ (whole = true → iss.exec = c.liveSet) ∧ s.guarded iss c nm typed whole go = go) := by
  by_cases hn : s.namesOk c nm = true
  · by_cases ht : typed = true
    · by_cases hw : (whole && iss.exec != c.liveSet) = true
      · exact .inl ⟨.upart, .inr (.inr rfl), by simp only [State.guarded, hn, ht, hw]; rfl⟩
      · have hw2 : whole = true → iss.exec = c.liveSet := fun e => by simpa [e] using hw
        exact .inr ⟨hn, ht, hw2, guarded_of go hn ht hw2⟩
    · exact .inl ⟨.type, .inr (.inl rfl), by simp [State.guarded, hn, ht]⟩
  · exact .inl ⟨.ill, .inl rfl, by simp [State.guarded, hn]⟩

/-- A register instruction whose checks pass commits its registers. -/
theorem operate_of_ready {s : State} {iss : Issue} {c : Ctx} {nm : Names} {typed whole : Bool} {pops : List Pop} {ps : List Push}
    (h : Ready s iss c nm typed whole pops ps) {body : Arch → Body} {ar : Arch} (hb : body (pops.foldl Arch.pop c.arch) = .ok ar) :
    s.operate iss c nm typed whole body = .done (s.commit c ar ps) := by
  simp [State.operate, guarded_of _ h.names h.typed h.whole, h.popped, h.pushed, h.room, hb]

/-- A register instruction without faults of its own, whose checks pass, goes on to the next instruction. -/
theorem simple_of_ready {s : State} {iss : Issue} {c : Ctx} {nm : Names} {typed whole : Bool} {pops : List Pop} {ps : List Push}
    (h : Ready s iss c nm typed whole pops ps) (body : Arch → Arch) :
    s.simple iss c nm typed whole body = .done (s.commit c ((body (pops.foldl Arch.pop c.arch)).advance iss) ps) :=
  operate_of_ready h rfl

/-- A body whose lanes do not fault is its registers. -/
@[simp] theorem body_of_nil (ar : Arch) : Body.of ar [] = .ok ar := rfl

/-- Everything that a register instruction can do: a fault before its effect, a wait for a page or for room in the gated store
buffer, its lanes' faults, or its registers committed. -/
theorem operate_cases (s : State) (iss : Issue) (c : Ctx) (nm : Names) (typed whole : Bool) (body : Arch → Body) :
    (∃ t, s.operate iss c nm typed whole body = .trap s t) ∨
    (∃ w, s.operate iss c nm typed whole body = .done (s.parkPages c.key [w])) ∨
    s.operate iss c nm typed whole body = .done (s.parkGate c.key) ∨
    (∃ ar f fs pops, s.checkPops c (c.streamsIn nm.src) = .ok pops ∧ body (pops.foldl Arch.pop c.arch) = .lanes ar f fs ∧
      s.operate iss c nm typed whole body = .trap (if c.kind == .rod then s else s.setCtx { c with arch := ar }) ⟨f :: fs, false, iss.pc⟩) ∨
    (∃ ar pops ps, s.checkPops c (c.streamsIn nm.src) = .ok pops ∧ s.checkPushes c (c.streamsIn nm.dst) = .ok ps ∧
      body (pops.foldl Arch.pop c.arch) = .ok ar ∧ s.operate iss c nm typed whole body = .done (s.commit c ar ps)) := by
  unfold State.operate
  rcases guarded_cases s iss c nm typed whole _ with ⟨code, -, e⟩ | ⟨-, -, -, e⟩
  · exact .inl ⟨_, e⟩
  · rw [e]
    cases hp : s.checkPops c (c.streamsIn nm.src) with
    | fault code va => exact .inl ⟨_, rfl⟩
    | miss w => exact .inr (.inl ⟨w, rfl⟩)
    | ok pops =>
      dsimp only
      cases hb : body (pops.foldl Arch.pop c.arch) with
      | gang code addr => exact .inl ⟨_, rfl⟩
      | lanes ar f fs => exact .inr (.inr (.inr (.inl ⟨ar, f, fs, pops, rfl, hb, rfl⟩)))
      | ok ar =>
        dsimp only
        cases hq : s.checkPushes c (c.streamsIn nm.dst) with
        | fault code va => exact .inl ⟨_, rfl⟩
        | miss w => exact .inr (.inl ⟨w, rfl⟩)
        | ok ps =>
          by_cases hg : s.gateFull c (pushCount ps) = true
          · exact .inr (.inr (.inl (by simp [hg])))
          · exact .inr (.inr (.inr (.inr ⟨ar, pops, ps, rfl, rfl, hb, by simp [hg]⟩)))

/-- A rod or reckoner thread or a gang that reads no stream pops nothing. -/
@[simp] theorem checkPops_nil (s : State) (c : Ctx) : s.checkPops c [] = .ok [] := rfl

/-- One that writes no stream pushes nothing. -/
@[simp] theorem checkPushes_nil (s : State) (c : Ctx) : s.checkPushes c [] = .ok [] := rfl

/-- A commit without pushes notes what was popped and replaces the context. -/
@[simp] theorem commit_nil (s : State) (c : Ctx) (ar : Arch) :
    s.commit c ar [] = (s.notePopped c ar).setCtx { c with arch := ar, refused := [] } := rfl

/-- An instruction that leaves the streams as they are popped nothing. -/
theorem notePopped_same (s : State) {c : Ctx} {ar : Arch} (h : ar.streams = c.arch.streams) : s.notePopped c ar = s := by
  unfold State.notePopped
  rw [h]
  have step : ∀ (t : State) (i : Fin 8), (match c.arch.streams[i], c.arch.streams[i] with
      | some x, some y =>
        if x.n < y.n && !strmWrites x.desc then
          match t.resolve (t.accessor c) (strmAddr x.desc x.n) (strmBytes x.desc) (strmBytes x.desc) .load with
          | .ok p => t.noteLoad c (strmAddr x.desc x.n) p (strmBytes x.desc) .dev
          | _ => t
        else t
      | _, _ => t) = t := by
    intro t i
    cases c.arch.streams[i] <;> simp
  exact List.foldlRecOn (motive := fun t => t = s) (List.finRange 8) _ rfl fun t ht i _ => ht ▸ step t i

/-- A context that does not run in lock-step retires without a trace. -/
theorem retire_of_not_lockstep {s : State} {k : CtxKey} {c : Ctx} (h : s.ctx? k = some c) (hl : s.inLockstep c = false) :
    s.retire k = s := by
  simp [State.retire, h, hl]

/-- Of every field but the contexts, retiring keeps the value. -/
theorem retire_keeps {α : Type} (g : State → α) (hg : ∀ s c, g (State.setCtx s c) = g s) (s : State) (k : CtxKey) :
    g (s.retire k) = g s := by
  unfold State.retire
  split
  · split
    · exact hg _ _
    · rfl
  · rfl

/-- No instruction's meaning in its issuing context is refused. -/
theorem withIssueIf_not_refused (s : State) (p : Ctx → Bool) (f : Issue → Ctx → Eff) (r : Refusal) : s.withIssueIf p f ≠ .refused r := by
  rcases withIssueIf_cases s p f with h | ⟨iss, c, -, -, ⟨-, -, h⟩ | h⟩
  · simp [h]
  · simp [h]
  · obtain ⟨t, ht⟩ := finish_next iss.key (f iss c)
    simp [h, ht]

/-- What holds after every effect, every delivery and every roll-back holds after an instruction. -/
theorem withIssueIf_keeps {P : State → Prop} {s t : State} {p : Ctx → Bool} {f : Issue → Ctx → Eff} (h : s.withIssueIf p f = .next t)
    (hroll : ∀ k, P (s.rollBack k)) (hdone : ∀ iss c x, f iss c = .done x → P (x.retire iss.key))
    (htrap : ∀ iss c x y, f iss c = .trap x y → P (x.deliver iss.key y)) : P t := by
  rcases withIssueIf_cases s p f with h1 | ⟨iss, c, -, -, ⟨-, -, h1⟩ | h1⟩
  · simp [h1] at h
  · rw [h1] at h; cases h; exact hroll _
  · cases h2 : f iss c <;> rw [h1, h2] at h <;> cases h
    · exact hdone _ _ _ h2
    · exact htrap _ _ _ _ h2

/-- A roll-back changes the gates, the strikes, the tests and the contexts alone. -/
theorem rollBack_eq (s : State) (k : CtxKey) :
    ∃ cs, s.rollBack k = { s with gates := s.gates.filter fun g => g.key != k, strikes := s.strikes.filter fun x => x != k,
                                  tests := s.tests ++ [⟨.pair (pairCore k.core), some k, k.slot.val % 8, s.tick⟩], ctxs := cs } := ⟨_, rfl⟩

end Sys2Proof.Machine
end

