-- ==== Sys2Proof/Laws/Memory.lean ====
section
/-!
SUPPORT. The laws of one memory: a byte that is written reads back, every other address keeps its value, every operation keeps
the canonical form, and memories in that form that read alike are equal.
-/
namespace Sys2Proof.Machine

@[simp] theorem Mem.get_nil (a : Nat) : Mem.get [] a = 0 := rfl

theorem Mem.get_put_ne (m : Mem) (a b : Nat) (x : Byte) (h : b ≠ a) : (m.put a x).get b = m.get b := by
  induction m with
  | nil => by_cases hx : x = 0#8 <;> simp [Mem.put, Mem.get, hx, h]
  | cons c m ih =>
    obtain ⟨d, y⟩ := c
    have hbd : a = d → b ≠ d := fun e => e ▸ h
    rcases Nat.lt_trichotomy a d with hd | hd | hd
    · by_cases hx : x = 0#8 <;> simp [Mem.put, Mem.get, hd, hx, h]
    · subst hd; by_cases hx : x = 0#8 <;> simp [Mem.put, Mem.get, hx, h]
    · simp [Mem.put, Mem.get, Nat.lt_asymm hd, Nat.ne_of_gt hd, ih]

theorem Mem.wfFrom_mono {lo lo' : Nat} (h : lo' ≤ lo) : ∀ {m : Mem}, Mem.wfFrom lo m = true → Mem.wfFrom lo' m = true
  | [], _ => rfl
  | (a, x) :: m, hm => by simp [Mem.wfFrom] at hm ⊢; exact ⟨⟨by omega, hm.1.2⟩, hm.2⟩

theorem Mem.get_of_wfFrom : ∀ {m : Mem} {lo : Nat}, Mem.wfFrom lo m = true → ∀ a, a < lo → m.get a = 0
  | [], _, _, _, _ => rfl
  | (b, x) :: m, lo, hm, a, ha => by
    simp [Mem.wfFrom] at hm
    simp [Mem.get, show a ≠ b by omega, Mem.get_of_wfFrom hm.2 a (by omega)]

theorem Mem.get_put_of_wfFrom (a : Nat) (x : Byte) :
    ∀ {m : Mem} {lo : Nat}, Mem.wfFrom lo m = true → (m.put a x).get a = x
  | [], _, _ => by by_cases hx : x = 0#8 <;> simp [Mem.put, Mem.get, hx]
  | (b, y) :: m, lo, hm => by
    simp [Mem.wfFrom] at hm
    have ih := Mem.get_put_of_wfFrom a x hm.2
    have h0 : a ≤ b → Mem.get m a = 0 := fun h => Mem.get_of_wfFrom hm.2 a (by omega)
    by_cases hd : a < b
    · by_cases hx : x = 0#8
      · simp [Mem.put, Mem.get, hd, hx, show a ≠ b by omega, h0 (by omega)]
      · simp [Mem.put, Mem.get, hd, hx]
    · by_cases he : a = b
      · subst he
        by_cases hx : x = 0#8 <;> simp [Mem.put, Mem.get, hx, h0 (Nat.le_refl _)]
      · simp [Mem.put, Mem.get, hd, he, ih]

/-- What is written reads back. -/
theorem Mem.get_put_same (m : Mem) (a : Nat) (x : Byte) (h : m.wf = true) : (m.put a x).get a = x :=
  Mem.get_put_of_wfFrom a x h

theorem Mem.wfFrom_put {a : Nat} (x : Byte) : ∀ {m : Mem} {lo : Nat}, lo ≤ a → Mem.wfFrom lo m = true → Mem.wfFrom lo (m.put a x) = true
  | [], _, ha, _ => by by_cases hx : x = 0#8 <;> simp [Mem.put, Mem.wfFrom, hx, ha]
  | (b, y) :: m, lo, ha, hm => by
    simp [Mem.wfFrom] at hm
    by_cases hd : a < b
    · by_cases hx : x = 0#8 <;> simp [Mem.put, Mem.wfFrom, hd, hx, hm, ha]
      try exact Nat.succ_le_of_lt hd
    · by_cases he : a = b
      · subst he
        by_cases hx : x = 0#8
        · simpa [Mem.put, Mem.wfFrom, hx] using Mem.wfFrom_mono (show lo ≤ a + 1 by omega) hm.2
        · simp [Mem.put, Mem.wfFrom, hx, hm]
      · simp [Mem.put, Mem.wfFrom, hd, he, hm, Mem.wfFrom_put x (show b + 1 ≤ a by omega) hm.2]

/-- A write keeps the canonical form. -/
theorem Mem.wf_put (m : Mem) (a : Nat) (x : Byte) (h : m.wf = true) : (m.put a x).wf = true :=
  Mem.wfFrom_put x (Nat.zero_le a) h

/-- Writing bytes keeps the canonical form. -/
theorem Mem.wf_putBytes : ∀ (bs : List Byte) (m : Mem) (a : Nat), m.wf = true → (m.putBytes a bs).wf = true
  | [], _, _, h => h
  | x :: bs, m, a, h => Mem.wf_putBytes bs (m.put a x) (a + 1) (Mem.wf_put m a x h)

/-- Writing a value keeps the canonical form. -/
theorem Mem.wf_write (m : Mem) (a n x : Nat) (h : m.wf = true) : (m.write a n x).wf = true := Mem.wf_putBytes _ m a h

theorem Mem.wfFrom_filter (p : Nat → Bool) : ∀ {m : Mem} {lo : Nat}, Mem.wfFrom lo m = true → Mem.wfFrom lo (m.filterAddr p) = true
  | [], _, _ => rfl
  | (a, x) :: m, lo, hm => by
    simp [Mem.wfFrom] at hm
    have ih : Mem.wfFrom (a + 1) (Mem.filterAddr p m) = true := Mem.wfFrom_filter p hm.2
    by_cases hp : p a = true
    · simp only [Mem.filterAddr, List.filter_cons, hp, ↓reduceIte, Mem.wfFrom]
      simp [hm.1, show Mem.wfFrom (a + 1) (List.filter (fun c => p c.1) m) = true from ih]
    · simp only [Mem.filterAddr, List.filter_cons, hp]
      exact Mem.wfFrom_mono (show lo ≤ a + 1 by omega) ih

/-- Dropping a range keeps the canonical form. -/
theorem Mem.wf_filterAddr (p : Nat → Bool) (m : Mem) (h : m.wf = true) : (m.filterAddr p).wf = true := Mem.wfFrom_filter p h

theorem Mem.get_filterAddr (p : Nat → Bool) (a : Nat) : ∀ m : Mem, (m.filterAddr p).get a = if p a then m.get a else 0
  | [] => by simp [Mem.filterAddr, Mem.get]
  | (b, x) :: m => by
    have ih := Mem.get_filterAddr p a m
    simp only [Mem.filterAddr] at ih
    by_cases hp : p b = true <;> by_cases hb : a = b <;> simp_all [Mem.filterAddr, Mem.get]

/-- Bytes outside a written range keep their value. -/
theorem Mem.get_putBytes_out : ∀ (bs : List Byte) (m : Mem) (a b : Nat), b < a ∨ a + bs.length ≤ b → (m.putBytes a bs).get b = m.get b
  | [], _, _, _, _ => rfl
  | x :: bs, m, a, b, h => by
    simp only [List.length_cons] at h
    rw [Mem.putBytes, Mem.get_putBytes_out bs _ _ _ (by omega), Mem.get_put_ne _ _ _ _ (by omega)]

/-- A written range reads back. -/
theorem Mem.get_putBytes_in : ∀ (bs : List Byte) (m : Mem) (a i : Nat) (x : Byte), m.wf = true → bs[i]? = some x →
    (m.putBytes a bs).get (a + i) = x
  | [], _, _, _, _, _, h => by simp at h
  | y :: bs, m, a, 0, x, hm, h => by
    simp at h; subst h
    rw [Mem.putBytes, Mem.get_putBytes_out _ _ _ _ (by omega)]
    exact Mem.get_put_same m a y hm
  | y :: bs, m, a, i + 1, x, hm, h => by
    rw [Mem.putBytes, show a + (i + 1) = a + 1 + i by omega]
    exact Mem.get_putBytes_in bs _ _ i x (Mem.wf_put m a y hm) (by simpa using h)

end Sys2Proof.Machine
end

