-- ==== Sys2Proof/Laws/MemForm.lean ====
section
/-!
SUPPORT. The canonical form of the machine's memories: it holds after reset, and every operation that writes bytes at their
home, in a frame cache or in a region keeps it.
-/
namespace Sys2Proof.Machine

/-- The memories of a region are in their canonical form. -/
def Region.memWf (r : Region) : Prop := r.scratch.wf = true ∧ r.acc.wf = true ∧ r.obuf.wf = true

/-- The form holds after reset. -/
theorem reset_memoriesWf : memoriesWf State.reset := by
  refine ⟨rfl, rfl, ?_, ?_, ?_, ?_⟩ <;> simp [State.reset]

/-- States with the same memories have the form together. -/
theorem memoriesWf_congr {s t : State} (h : memoriesWf s) (h1 : t.dev = s.dev) (h2 : t.host = s.host) (h3 : t.dom = s.dom)
    (h4 : t.regions = s.regions) (h5 : t.windows = s.windows) (h6 : t.launches = s.launches) : memoriesWf t := by
  unfold memoriesWf at *
  rw [h1, h2, h3, h4, h5, h6]; exact h

/-- A change of a context keeps the form. -/
theorem modCtx_memoriesWf {s : State} (h : memoriesWf s) (k : CtxKey) (f : Ctx → Ctx) : memoriesWf (s.modCtx k f) := h

/-- A replaced context keeps the form. -/
theorem setCtx_memoriesWf {s : State} (h : memoriesWf s) (c : Ctx) : memoriesWf (s.setCtx c) := h

/-- The wake-up of MWAITs keeps the form. -/
theorem noteWrite_memoriesWf {s : State} (h : memoriesWf s) (p : Place) : memoriesWf (s.noteWrite p) := h

/-- A change of a region that keeps its memories' form keeps the form. -/
theorem modRegion_memoriesWf {s : State} (h : memoriesWf s) (c : CoreId) (n : Word) (w : Nat) (f : Region → Region)
    (hf : ∀ r, Region.memWf r → Region.memWf (f r)) : memoriesWf (s.modRegion c n w f) := by
  refine ⟨h.1, h.2.1, h.2.2.1, fun r hr => ?_, h.2.2.2.2.1, h.2.2.2.2.2⟩
  obtain ⟨r0, h0, rfl⟩ := List.mem_map.1 hr
  have := h.2.2.2.1 r0 h0
  split
  · exact hf r0 this
  · exact this

/-- The memory of another package has the form. -/
theorem domMem_wf {ds : List (Nat × Mem)} (h : ∀ d ∈ ds, d.2.wf = true) (p : Nat) : (domMem ds p).wf = true := by
  unfold domMem
  cases e : ds.find? fun x => x.1 == p with
  | none => rfl
  | some d => exact h d (List.mem_of_find?_eq_some e)

/-- A replaced memory of another package keeps the form of all. -/
theorem setDomMem_wf {ds : List (Nat × Mem)} (h : ∀ d ∈ ds, d.2.wf = true) (p : Nat) {m : Mem} (hm : m.wf = true) :
    ∀ d ∈ setDomMem ds p m, d.2.wf = true := by
  unfold setDomMem
  split
  · intro d hd
    obtain ⟨d0, h0, rfl⟩ := List.mem_map.1 hd
    split
    · exact hm
    · exact h d0 h0
  · intro d hd
    rcases List.mem_cons.1 hd with rfl | hd
    · exact hm
    · exact h d hd

/-- A byte written at its home keeps the form. -/
theorem putHome_memoriesWf {s : State} (h : memoriesWf s) (x : Byte) (p : Place) : memoriesWf (s.putHome x p) := by
  obtain ⟨h1, h2, h3, h4⟩ := h
  cases p with
  | dev d => exact ⟨Mem.wf_put _ _ _ h1, h2, h3, h4⟩
  | host a => exact ⟨h1, Mem.wf_put _ _ _ h2, h3, h4⟩
  | scratch c n w o => exact modRegion_memoriesWf ⟨h1, h2, h3, h4⟩ c n w _ fun r hr => ⟨Mem.wf_put _ o x hr.1, hr.2⟩
  | dom p d =>
    simp only [State.putHome]
    split
    · exact ⟨Mem.wf_put _ _ _ h1, h2, h3, h4⟩
    · exact ⟨h1, h2, setDomMem_wf h3 _ (Mem.wf_put _ _ _ (domMem_wf h3 _)), h4⟩

/-- Bytes written at their home keep the form. -/
theorem putHomes_memoriesWf : ∀ (bs : List Byte) {s : State} (p : Place), memoriesWf s → memoriesWf (s.putHomes p bs)
  | [], _, _, h => h
  | x :: bs, _, p, h => putHomes_memoriesWf bs (p.plus 1) (putHome_memoriesWf h x p)

/-- The dirty bytes of a line keep the form when they go home. -/
theorem writeLineBytes_memoriesWf (l : CacheLine) : ∀ (n i : Nat) {s : State}, memoriesWf s → memoriesWf (s.writeLineBytes l i n)
  | 0, _, _, h => h
  | n + 1, i, s, h => by
    unfold State.writeLineBytes
    refine writeLineBytes_memoriesWf l n (i + 1) ?_
    split
    · exact putHome_memoriesWf h _ _
    · exact h

/-- A line that enters its home slice keeps the form. -/
theorem enterL2_memoriesWf {s : State} (h : memoriesWf s) (pasid : Option (BitVec 20)) (w : Bool) (p : Place) :
    memoriesWf (s.enterL2 pasid w p) := by
  unfold State.enterL2
  split
  · dsimp only
    repeat' split
    all_goals exact h
  · exact h

/-- A write performed at its home keeps the form. -/
theorem homeWrite_memoriesWf {s : State} (h : memoriesWf s) (pasid : Option (BitVec 20)) (p : Place) (bs : List Byte) :
    memoriesWf (s.homeWrite pasid p bs) :=
  noteWrite_memoriesWf (putHomes_memoriesWf bs p (enterL2_memoriesWf h pasid true p)) p

/-- Counting a corrected error keeps the form. -/
theorem countCorrected_memoriesWf {s : State} (h : memoriesWf s) (x : Slice) : memoriesWf (s.countCorrected x) := by
  unfold State.countCorrected
  dsimp only
  repeat' split
  all_goals first
    | exact h
    | (unfold State.remapRow
       repeat' split
       all_goals exact h)

/-- Counting the errors that a read corrects keeps the form. -/
theorem countFlaws_memoriesWf {s : State} (h : memoriesWf s) (fs : List Flaw) : memoriesWf (s.countFlaws fs) :=
  List.foldlRecOn (fs.filterMap Flaw.slice?) _ h fun _ hs x _ => countCorrected_memoriesWf hs x

/-- A read of a cached line keeps the form. -/
theorem noteLine_memoriesWf {s : State} (h : memoriesWf s) (frame : Nat) (pasid : BitVec 20) (va n : Nat) :
    memoriesWf (s.noteLine frame pasid va n) := by
  unfold State.noteLine
  split
  · exact h
  · exact countFlaws_memoriesWf h _

/-- A line's write-back keeps the form. -/
theorem writeBack_memoriesWf {s : State} (h : memoriesWf s) (l : CacheLine) : memoriesWf (s.writeBack l) := by
  unfold State.writeBack
  split
  · exact h
  · have h1 := noteLine_memoriesWf h l.frame l.pasid (128 * l.line) 128
    generalize s.noteLine l.frame l.pasid (128 * l.line) 128 = m at h1 ⊢
    exact noteWrite_memoriesWf (writeLineBytes_memoriesWf l 128 0 (enterL2_memoriesWf h1 (some l.pasid) true l.place)) l.place

/-- The write-back of a list of lines keeps the form. -/
theorem writeBackAll_memoriesWf : ∀ (ls : List CacheLine) {s : State}, memoriesWf s → memoriesWf (s.writeBackAll ls)
  | [], _, h => h
  | l :: ls, s, h => by
    unfold State.writeBackAll
    refine writeBackAll_memoriesWf ls ?_
    split
    · exact h
    · exact writeBack_memoriesWf h l

/-- Making room in a bank of a frame's cache keeps the form. -/
theorem roomFor_memoriesWf {s : State} (h : memoriesWf s) (f line : Nat) : memoriesWf (s.roomFor f line) := by
  unfold State.roomFor
  dsimp only
  split
  · exact h
  · split
    · next l _ =>
      show memoriesWf (if l.dirty == 0 then s else s.writeBack l)
      split
      · exact h
      · exact writeBack_memoriesWf h _
    · split <;> exact h

/-- A line's fill keeps the form. -/
theorem fillLine_memoriesWf {s : State} (h : memoriesWf s) (f : Nat) (pasid : BitVec 20) (va : Nat) (p : Place) :
    memoriesWf (s.fillLine f pasid va p) := by
  unfold State.fillLine
  split
  · exact h
  · exact enterL2_memoriesWf (roomFor_memoriesWf h _ _) (some pasid) false p

/-- Taking a host line keeps the form. -/
theorem takeLine_memoriesWf {s : State} (h : memoriesWf s) (f : Nat) (pasid : BitVec 20) (va pa : Nat) (own write : Bool) :
    memoriesWf (s.takeLine f pasid va pa own write) := by
  unfold State.takeLine
  split
  · show memoriesWf (if (s.hostLines.find? fun h => h.holds f pasid va).isSome then s else s.roomFor f (va / 128))
    split
    · exact h
    · exact roomFor_memoriesWf h _ _
  · exact h

/-- A snoop keeps the form. -/
theorem snoopLine_memoriesWf {s : State} (h : memoriesWf s) (p : Place) : memoriesWf (s.snoopLine p) := by
  cases p <;> exact h

/-- A store at its serving point keeps the form. -/
theorem storeBytes_memoriesWf {s : State} (h : memoriesWf s) (f : Option Nat) (pasid : BitVec 20) (va : Nat) (p : Place)
    (sc : Scope) (bs : List Byte) : memoriesWf (s.storeBytes f pasid va p sc bs) := by
  unfold State.storeBytes
  split
  · exact h
  · split
    · split
      · exact homeWrite_memoriesWf (takeLine_memoriesWf h _ _ _ _ _ _) _ _ _
      · exact homeWrite_memoriesWf (snoopLine_memoriesWf h p) _ p bs
    · next g _ =>
      split
      · exact fillLine_memoriesWf h _ _ _ _
      · refine homeWrite_memoriesWf (s := match s.line? g pasid va with
          | some l => if l.dirty == 0 then s else s.writeBack l
          | none => s) ?_ (some pasid) p bs
        split
        · split
          · exact h
          · exact writeBack_memoriesWf h _
        · exact h

/-- A release keeps the form. -/
theorem releaseMem_memoriesWf {s : State} (h : memoriesWf s) (k : CtxKey) (sc : Scope) : memoriesWf (s.releaseMem k sc) := by
  unfold State.releaseMem
  split
  · exact h
  · split
    · exact h
    · dsimp only
      refine modCtx_memoriesWf ?_ _ _
      split
      · exact writeBackAll_memoriesWf _ h
      · exact h

/-- An acquire keeps the form. -/
theorem acquireMem_memoriesWf {s : State} (h : memoriesWf s) (k : CtxKey) (sc : Scope) : memoriesWf (s.acquireMem k sc) := by
  unfold State.acquireMem
  repeat' split
  all_goals exact h

/-- A promotion keeps the form. -/
theorem promote_memoriesWf {s : State} (h : memoriesWf s) (p : Place) : memoriesWf (s.promote p) := by
  unfold State.promote
  split
  · exact h
  · exact writeBackAll_memoriesWf _ h

/-- The record of a frame-scope releaser keeps the form. -/
theorem registerReleaser_memoriesWf {s : State} (h : memoriesWf s) (f : Option Nat) (d : Bool) (p : Place) :
    memoriesWf (s.registerReleaser f d p) := by
  unfold State.registerReleaser
  repeat' split
  all_goals exact h

/-- The stores that a checkpoint performs keep the form. -/
theorem performGates_memoriesWf (k : CtxKey) : ∀ (gs : List GatedStore) {s : State}, memoriesWf s → memoriesWf (s.performGates k gs)
  | [], _, h => h
  | g :: gs, s, h => by
    unfold State.performGates
    refine performGates_memoriesWf k gs ?_
    split
    · split
      · next c _ =>
        have h2 := modCtx_memoriesWf (storeBytes_memoriesWf h c.frame? (s.pasidOf c.launch) g.va.toNat g.place g.scope (leBytes g.x.toNat g.n))
          k fun c => { c with arch := { c.arch with touched := c.arch.touched ||| touchedBits (domainAperture g.va) g.place } }
        dsimp only
        split
        · exact registerReleaser_memoriesWf h2 _ _ _
        · exact h2
      · exact h
    · exact h

/-- A checkpoint keeps the form. -/
theorem checkpoint_memoriesWf {s : State} (h : memoriesWf s) (k : CtxKey) : memoriesWf (s.checkpoint k) := by
  unfold State.checkpoint
  split
  · exact h
  · split
    · have h2 := performGates_memoriesWf k s.gates h
      dsimp only
      split <;> exact h2
    · exact h

end Sys2Proof.Machine
end

