-- ==== Sys2Proof/Laws/PerInstr.lean ====
section
/-!
SUPPORT. For each instruction: its words are at most three, and it has words exactly when it is an encoded instruction, not an
event.
-/
namespace Sys2Proof.Laws.Words
set_option Elab.async false

/-- An instruction has at most three words, and an event has none. -/
def Statement (i : Instr) : Prop := (encode i).length ≤ 3 ∧ i.hasWords = !(encode i).isEmpty

/-- The two facts from their evaluations. -/
theorem intro {i : Instr} (h : (encode i).length.ble 3 = true) (h2 : i.hasWords = !(encode i).isEmpty) : Statement i :=
  ⟨Nat.le_of_ble_eq_true h, h2⟩

theorem linkTraining : ∀ x0 x1 x2 x3, Statement (.linkTraining x0 x1 x2 x3) := fun _ _ _ _ => intro rfl rfl
theorem packageReset : ∀ x0 x1 x2 x3 x4, Statement (.packageReset x0 x1 x2 x3 x4) := fun _ _ _ _ _ => intro rfl rfl
theorem getVersion : ∀ x0, Statement (.getVersion x0) := fun _ => intro rfl rfl
theorem getCapabilities : ∀ x0, Statement (.getCapabilities x0) := fun _ => intro rfl rfl
theorem negotiateAlgorithms : ∀ x0 x1 x2, Statement (.negotiateAlgorithms x0 x1 x2) := fun _ _ _ => intro rfl rfl
theorem getDigests : ∀ x0, Statement (.getDigests x0) := fun _ => intro rfl rfl
theorem getCertificate : ∀ x0 x1, Statement (.getCertificate x0 x1) := fun _ _ => intro rfl rfl
theorem challenge : ∀ x0, Statement (.challenge x0) := fun _ => intro rfl rfl
theorem getMeasurements : ∀ x0, Statement (.getMeasurements x0) := fun _ => intro rfl rfl
theorem powerTargetWrite : ∀ x0, Statement (.powerTargetWrite x0) := fun _ => intro rfl rfl
theorem powerMeasurement : ∀ x0, Statement (.powerMeasurement x0) := fun _ => intro rfl rfl
theorem trip : ∀ x0, Statement (.trip x0) := fun _ => intro rfl rfl
theorem load : ∀ x0 x1, Statement (.load x0 x1) := fun _ _ => intro rfl rfl
theorem unload : ∀ x0, Statement (.unload x0) := fun _ => intro rfl rfl
theorem codeHeapCompaction : ∀ x0 x1, Statement (.codeHeapCompaction x0 x1) := fun _ _ => intro rfl rfl
theorem lqbaseWrite : ∀ x0 x1 x2, Statement (.lqbaseWrite x0 x1 x2) := fun _ _ _ => intro rfl rfl
theorem lqctlEnable : ∀ x0 x1 x2, Statement (.lqctlEnable x0 x1 x2) := fun _ _ _ => intro rfl rfl
theorem lqctlDisable : ∀ x0 x1, Statement (.lqctlDisable x0 x1) := fun _ _ => intro rfl rfl
theorem lqctlResize : ∀ x0 x1 x2, Statement (.lqctlResize x0 x1 x2) := fun _ _ _ => intro rfl rfl
theorem lqtailWrite : ∀ x0 x1 x2, Statement (.lqtailWrite x0 x1 x2) := fun _ _ _ => intro rfl rfl
theorem lqstatClear : ∀ x0 x1 x2, Statement (.lqstatClear x0 x1 x2) := fun _ _ _ => intro rfl rfl
theorem ringEntryRead : ∀ x0 x1 x2, Statement (.ringEntryRead x0 x1 x2) := fun _ _ _ => intro rfl rfl
theorem launchCheck : ∀ x0, Statement (.launchCheck x0) := fun _ => intro rfl rfl
theorem launchDispatch : ∀ x0, Statement (.launchDispatch x0) := fun _ => intro rfl rfl
theorem launchDone : ∀ x0, Statement (.launchDone x0) := fun _ => intro rfl rfl
theorem hostMemoryRequest : ∀ x0 x1, Statement (.hostMemoryRequest x0 x1) := fun _ _ => intro rfl rfl
theorem atsCompletion : ∀ x0 x1 x2 x3, Statement (.atsCompletion x0 x1 x2 x3) := fun _ _ _ _ => intro rfl rfl
theorem priResponse : ∀ x0 x1 x2 x3, Statement (.priResponse x0 x1 x2 x3) := fun _ _ _ _ => intro rfl rfl
theorem atsInvalidation : ∀ x0 x1 x2, Statement (.atsInvalidation x0 x1 x2) := fun _ _ _ => intro rfl rfl
theorem hostAtomicCompletion : ∀ x0 x1 x2, Statement (.hostAtomicCompletion x0 x1 x2) := fun _ _ _ => intro rfl rfl
theorem memoryReply : ∀ x0 x1 x2, Statement (.memoryReply x0 x1 x2) := fun _ _ _ => intro rfl rfl
theorem machineCheck : ∀ x0 x1 x2, Statement (.machineCheck x0 x1 x2) := fun _ _ _ => intro rfl rfl
theorem scrubPass : ∀ x0 x1, Statement (.scrubPass x0 x1) := fun _ _ => intro rfl rfl
theorem selfTestComplete : ∀ x0 x1 x2, Statement (.selfTestComplete x0 x1 x2) := fun _ _ _ => intro rfl rfl
theorem linkFailure : ∀ x0, Statement (.linkFailure x0) := fun _ => intro rfl rfl
theorem textFillComplete : ∀ x0 x1 x2, Statement (.textFillComplete x0 x1 x2) := fun _ _ _ => intro rfl rfl
theorem instructionFetch : ∀ x0, Statement (.instructionFetch x0) := fun _ => intro rfl rfl
theorem spawnMessage : ∀ x0, Statement (.spawnMessage x0) := fun _ => intro rfl rfl
theorem contextFree : ∀ x0, Statement (.contextFree x0) := fun _ => intro rfl rfl
theorem drainComplete : ∀ x0 x1 x2, Statement (.drainComplete x0 x1 x2) := fun _ _ _ => intro rfl rfl
theorem rendezvousDeadline : ∀ x0 x1, Statement (.rendezvousDeadline x0 x1) := fun _ _ => intro rfl rfl
theorem gangPlacement : ∀ x0 x1, Statement (.gangPlacement x0 x1) := fun _ _ => intro rfl rfl
theorem requestCollectorFlush : ∀ x0, Statement (.requestCollectorFlush x0) := fun _ => intro rfl rfl
theorem jobDispatch : ∀ x0, Statement (.jobDispatch x0) := fun _ => intro rfl rfl
theorem jobComplete : ∀ x0 x1, Statement (.jobComplete x0 x1) := fun _ _ => intro rfl rfl
theorem collectiveMatch : ∀ x0 x1, Statement (.collectiveMatch x0 x1) := fun _ _ => intro rfl rfl
theorem matrixOperationComplete : ∀ x0 x1, Statement (.matrixOperationComplete x0 x1) := fun _ _ => intro rfl rfl
theorem mwaitWake : ∀ x0, Statement (.mwaitWake x0) := fun _ => intro rfl rfl
theorem mwaitLimitExpiry : ∀ x0, Statement (.mwaitLimitExpiry x0) := fun _ => intro rfl rfl
theorem mwaitPoll : ∀ x0, Statement (.mwaitPoll x0) := fun _ => intro rfl rfl
theorem userInterrupt : ∀ x0, Statement (.userInterrupt x0) := fun _ => intro rfl rfl
theorem trapSlotGrant : ∀ x0, Statement (.trapSlotGrant x0) := fun _ => intro rfl rfl
theorem systemServiceComplete : ∀ x0 x1, Statement (.systemServiceComplete x0 x1) := fun _ _ => intro rfl rfl
theorem alloc : ∀ x0 x1 x2, Statement (.alloc x0 x1 x2) := fun _ _ _ => intro rfl rfl
theorem free : ∀ x0, Statement (.free x0) := fun _ => intro rfl rfl
theorem post : ∀ x0, Statement (.post x0) := fun _ => intro rfl rfl
theorem nosvc : ∀ x0, Statement (.nosvc x0) := fun _ => intro rfl rfl
theorem hostkill : ∀ x0, Statement (.hostkill x0) := fun _ => intro rfl rfl
theorem abortComplete : ∀ x0, Statement (.abortComplete x0) := fun _ => intro rfl rfl
theorem preemption : ∀ x0, Statement (.preemption x0) := fun _ => intro rfl rfl
theorem restore : ∀ x0 x1, Statement (.restore x0 x1) := fun _ _ => intro rfl rfl
theorem watchdogFire : ∀ x0, Statement (.watchdogFire x0) := fun _ => intro rfl rfl
theorem checkpointCountExpiry : ∀ x0, Statement (.checkpointCountExpiry x0) := fun _ => intro rfl rfl
theorem debugStop : ∀ x0, Statement (.debugStop x0) := fun _ => intro rfl rfl
theorem debugResume : ∀ x0, Statement (.debugResume x0) := fun _ => intro rfl rfl
theorem samplingPulse : Statement (.samplingPulse) := intro rfl rfl
theorem registerWrite : ∀ x0 x1, Statement (.registerWrite x0 x1) := fun _ _ => intro rfl rfl
theorem atomicWidthReport : ∀ x0 x1, Statement (.atomicWidthReport x0 x1) := fun _ _ => intro rfl rfl
theorem snoop : ∀ x0 x1, Statement (.snoop x0 x1) := fun _ _ => intro rfl rfl
theorem hostLinkDown : ∀ x0, Statement (.hostLinkDown x0) := fun _ => intro rfl rfl
theorem domainRequest : ∀ x0 x1 x2, Statement (.domainRequest x0 x1 x2) := fun _ _ _ => intro rfl rfl
theorem clamp : ∀ x0 x1, Statement (.clamp x0 x1) := fun _ _ => intro rfl rfl
theorem debuggerAttach : ∀ x0, Statement (.debuggerAttach x0) := fun _ => intro rfl rfl
theorem debuggerDetach : ∀ x0, Statement (.debuggerDetach x0) := fun _ => intro rfl rfl
theorem fencedSliceClear : ∀ x0, Statement (.fencedSliceClear x0) := fun _ => intro rfl rfl
theorem policyWrite : ∀ x0, Statement (.policyWrite x0) := fun _ => intro rfl rfl
theorem barrierLoggingEnable : ∀ x0 x1 x2, Statement (.barrierLoggingEnable x0 x1 x2) := fun _ _ _ => intro rfl rfl
theorem nopCompact : Statement (.nopCompact) := intro rfl rfl
theorem brCompact : ∀ x0, Statement (.brCompact x0) := fun _ => intro rfl rfl
theorem brzCompact : ∀ x0 x1, Statement (.brzCompact x0 x1) := fun _ _ => intro rfl rfl
theorem brnzCompact : ∀ x0 x1, Statement (.brnzCompact x0 x1) := fun _ _ => intro rfl rfl
theorem callCompact : ∀ x0, Statement (.callCompact x0) := fun _ => intro rfl rfl
theorem retCompact : Statement (.retCompact) := intro rfl rfl
theorem addCompact : ∀ x0 x1 x2, Statement (.addCompact x0 x1 x2) := fun _ _ _ => intro rfl rfl
theorem subCompact : ∀ x0 x1 x2, Statement (.subCompact x0 x1 x2) := fun _ _ _ => intro rfl rfl
theorem mulCompact : ∀ x0 x1 x2, Statement (.mulCompact x0 x1 x2) := fun _ _ _ => intro rfl rfl
theorem mulhiCompact : ∀ x0 x1 x2, Statement (.mulhiCompact x0 x1 x2) := fun _ _ _ => intro rfl rfl
theorem mulhuCompact : ∀ x0 x1 x2, Statement (.mulhuCompact x0 x1 x2) := fun _ _ _ => intro rfl rfl
theorem absCompact : ∀ x0 x1, Statement (.absCompact x0 x1) := fun _ _ => intro rfl rfl
theorem minCompact : ∀ x0 x1 x2, Statement (.minCompact x0 x1 x2) := fun _ _ _ => intro rfl rfl
theorem maxCompact : ∀ x0 x1 x2, Statement (.maxCompact x0 x1 x2) := fun _ _ _ => intro rfl rfl
theorem minuCompact : ∀ x0 x1 x2, Statement (.minuCompact x0 x1 x2) := fun _ _ _ => intro rfl rfl
theorem maxuCompact : ∀ x0 x1 x2, Statement (.maxuCompact x0 x1 x2) := fun _ _ _ => intro rfl rfl
theorem andCompact : ∀ x0 x1 x2, Statement (.andCompact x0 x1 x2) := fun _ _ _ => intro rfl rfl
theorem orCompact : ∀ x0 x1 x2, Statement (.orCompact x0 x1 x2) := fun _ _ _ => intro rfl rfl
theorem xorCompact : ∀ x0 x1 x2, Statement (.xorCompact x0 x1 x2) := fun _ _ _ => intro rfl rfl
theorem andnCompact : ∀ x0 x1 x2, Statement (.andnCompact x0 x1 x2) := fun _ _ _ => intro rfl rfl
theorem shlCompact : ∀ x0 x1 x2, Statement (.shlCompact x0 x1 x2) := fun _ _ _ => intro rfl rfl
theorem shrCompact : ∀ x0 x1 x2, Statement (.shrCompact x0 x1 x2) := fun _ _ _ => intro rfl rfl
theorem sarCompact : ∀ x0 x1 x2, Statement (.sarCompact x0 x1 x2) := fun _ _ _ => intro rfl rfl
theorem rolCompact : ∀ x0 x1 x2, Statement (.rolCompact x0 x1 x2) := fun _ _ _ => intro rfl rfl
theorem clzCompact : ∀ x0 x1, Statement (.clzCompact x0 x1) := fun _ _ => intro rfl rfl
theorem ctzCompact : ∀ x0 x1, Statement (.ctzCompact x0 x1) := fun _ _ => intro rfl rfl
theorem popcCompact : ∀ x0 x1, Statement (.popcCompact x0 x1) := fun _ _ => intro rfl rfl
theorem brevCompact : ∀ x0 x1, Statement (.brevCompact x0 x1) := fun _ _ => intro rfl rfl
theorem mskbCompact : ∀ x0 x1 x2, Statement (.mskbCompact x0 x1 x2) := fun _ _ _ => intro rfl rfl
theorem sextCompact : ∀ x0 x1 x2, Statement (.sextCompact x0 x1 x2) := fun _ _ _ => intro rfl rfl
theorem movCompact : ∀ x0 x1, Statement (.movCompact x0 x1) := fun _ _ => intro rfl rfl
theorem faddCompact : ∀ x0 x1 x2, Statement (.faddCompact x0 x1 x2) := fun _ _ _ => intro rfl rfl
theorem fsubCompact : ∀ x0 x1 x2, Statement (.fsubCompact x0 x1 x2) := fun _ _ _ => intro rfl rfl
theorem fmulCompact : ∀ x0 x1 x2, Statement (.fmulCompact x0 x1 x2) := fun _ _ _ => intro rfl rfl
theorem fminCompact : ∀ x0 x1 x2, Statement (.fminCompact x0 x1 x2) := fun _ _ _ => intro rfl rfl
theorem fmaxCompact : ∀ x0 x1 x2, Statement (.fmaxCompact x0 x1 x2) := fun _ _ _ => intro rfl rfl
theorem add64 : ∀ x0 x1 x2 x3, Statement (.add64 x0 x1 x2 x3) := fun _ _ _ _ => intro rfl rfl
theorem add96 : ∀ x0 x1 x2 x3, Statement (.add96 x0 x1 x2 x3) := fun _ _ _ _ => intro rfl rfl
theorem sub64 : ∀ x0 x1 x2 x3, Statement (.sub64 x0 x1 x2 x3) := fun _ _ _ _ => intro rfl rfl
theorem sub96 : ∀ x0 x1 x2 x3, Statement (.sub96 x0 x1 x2 x3) := fun _ _ _ _ => intro rfl rfl
theorem mul64 : ∀ x0 x1 x2, Statement (.mul64 x0 x1 x2) := fun _ _ _ => intro rfl rfl
theorem mul96 : ∀ x0 x1 x2, Statement (.mul96 x0 x1 x2) := fun _ _ _ => intro rfl rfl
theorem mulhi64 : ∀ x0 x1 x2, Statement (.mulhi64 x0 x1 x2) := fun _ _ _ => intro rfl rfl
theorem mulhi96 : ∀ x0 x1 x2, Statement (.mulhi96 x0 x1 x2) := fun _ _ _ => intro rfl rfl
theorem mulhu64 : ∀ x0 x1 x2, Statement (.mulhu64 x0 x1 x2) := fun _ _ _ => intro rfl rfl
theorem mulhu96 : ∀ x0 x1 x2, Statement (.mulhu96 x0 x1 x2) := fun _ _ _ => intro rfl rfl
theorem mad64 : ∀ x0 x1 x2 x3, Statement (.mad64 x0 x1 x2 x3) := fun _ _ _ _ => intro rfl rfl
theorem mad96 : ∀ x0 x1 x2 x3, Statement (.mad96 x0 x1 x2 x3) := fun _ _ _ _ => intro rfl rfl
theorem abs64 : ∀ x0 x1 x2, Statement (.abs64 x0 x1 x2) := fun _ _ _ => intro rfl rfl
theorem min64 : ∀ x0 x1 x2, Statement (.min64 x0 x1 x2) := fun _ _ _ => intro rfl rfl
theorem min96 : ∀ x0 x1 x2, Statement (.min96 x0 x1 x2) := fun _ _ _ => intro rfl rfl
theorem max64 : ∀ x0 x1 x2, Statement (.max64 x0 x1 x2) := fun _ _ _ => intro rfl rfl
theorem max96 : ∀ x0 x1 x2, Statement (.max96 x0 x1 x2) := fun _ _ _ => intro rfl rfl
theorem minu64 : ∀ x0 x1 x2, Statement (.minu64 x0 x1 x2) := fun _ _ _ => intro rfl rfl
theorem minu96 : ∀ x0 x1 x2, Statement (.minu96 x0 x1 x2) := fun _ _ _ => intro rfl rfl
theorem maxu64 : ∀ x0 x1 x2, Statement (.maxu64 x0 x1 x2) := fun _ _ _ => intro rfl rfl
theorem maxu96 : ∀ x0 x1 x2, Statement (.maxu96 x0 x1 x2) := fun _ _ _ => intro rfl rfl
theorem and64 : ∀ x0 x1 x2, Statement (.and64 x0 x1 x2) := fun _ _ _ => intro rfl rfl
theorem and96 : ∀ x0 x1 x2, Statement (.and96 x0 x1 x2) := fun _ _ _ => intro rfl rfl
theorem or64 : ∀ x0 x1 x2, Statement (.or64 x0 x1 x2) := fun _ _ _ => intro rfl rfl
theorem or96 : ∀ x0 x1 x2, Statement (.or96 x0 x1 x2) := fun _ _ _ => intro rfl rfl
theorem xor64 : ∀ x0 x1 x2, Statement (.xor64 x0 x1 x2) := fun _ _ _ => intro rfl rfl
theorem xor96 : ∀ x0 x1 x2, Statement (.xor96 x0 x1 x2) := fun _ _ _ => intro rfl rfl
theorem andn64 : ∀ x0 x1 x2, Statement (.andn64 x0 x1 x2) := fun _ _ _ => intro rfl rfl
theorem andn96 : ∀ x0 x1 x2, Statement (.andn96 x0 x1 x2) := fun _ _ _ => intro rfl rfl
theorem shl64 : ∀ x0 x1 x2, Statement (.shl64 x0 x1 x2) := fun _ _ _ => intro rfl rfl
theorem shl96 : ∀ x0 x1 x2, Statement (.shl96 x0 x1 x2) := fun _ _ _ => intro rfl rfl
theorem shr64 : ∀ x0 x1 x2, Statement (.shr64 x0 x1 x2) := fun _ _ _ => intro rfl rfl
theorem shr96 : ∀ x0 x1 x2, Statement (.shr96 x0 x1 x2) := fun _ _ _ => intro rfl rfl
theorem sar64 : ∀ x0 x1 x2, Statement (.sar64 x0 x1 x2) := fun _ _ _ => intro rfl rfl
theorem sar96 : ∀ x0 x1 x2, Statement (.sar96 x0 x1 x2) := fun _ _ _ => intro rfl rfl
theorem rol64 : ∀ x0 x1 x2, Statement (.rol64 x0 x1 x2) := fun _ _ _ => intro rfl rfl
theorem rol96 : ∀ x0 x1 x2, Statement (.rol96 x0 x1 x2) := fun _ _ _ => intro rfl rfl
theorem clz64 : ∀ x0 x1, Statement (.clz64 x0 x1) := fun _ _ => intro rfl rfl
theorem ctz64 : ∀ x0 x1, Statement (.ctz64 x0 x1) := fun _ _ => intro rfl rfl
theorem popc64 : ∀ x0 x1, Statement (.popc64 x0 x1) := fun _ _ => intro rfl rfl
theorem brev64 : ∀ x0 x1, Statement (.brev64 x0 x1) := fun _ _ => intro rfl rfl
theorem bfx64 : ∀ x0 x1 x2 x3, Statement (.bfx64 x0 x1 x2 x3) := fun _ _ _ _ => intro rfl rfl
theorem bfx96 : ∀ x0 x1 x2 x3, Statement (.bfx96 x0 x1 x2 x3) := fun _ _ _ _ => intro rfl rfl
theorem bfi64 : ∀ x0 x1 x2 x3, Statement (.bfi64 x0 x1 x2 x3) := fun _ _ _ _ => intro rfl rfl
theorem bfi96 : ∀ x0 x1 x2 x3, Statement (.bfi96 x0 x1 x2 x3) := fun _ _ _ _ => intro rfl rfl
theorem addc64 : ∀ x0 x1 x2 x3, Statement (.addc64 x0 x1 x2 x3) := fun _ _ _ _ => intro rfl rfl
theorem addc96 : ∀ x0 x1 x2 x3, Statement (.addc96 x0 x1 x2 x3) := fun _ _ _ _ => intro rfl rfl
theorem subc64 : ∀ x0 x1 x2 x3, Statement (.subc64 x0 x1 x2 x3) := fun _ _ _ _ => intro rfl rfl
theorem subc96 : ∀ x0 x1 x2 x3, Statement (.subc96 x0 x1 x2 x3) := fun _ _ _ _ => intro rfl rfl
theorem sext64 : ∀ x0 x1 x2, Statement (.sext64 x0 x1 x2) := fun _ _ _ => intro rfl rfl
theorem sext96 : ∀ x0 x1 x2, Statement (.sext96 x0 x1 x2) := fun _ _ _ => intro rfl rfl
theorem mov64 : ∀ x0 x1, Statement (.mov64 x0 x1) := fun _ _ => intro rfl rfl
theorem sel64 : ∀ x0 x1 x2 x3, Statement (.sel64 x0 x1 x2 x3) := fun _ _ _ _ => intro rfl rfl
theorem sel96 : ∀ x0 x1 x2 x3, Statement (.sel96 x0 x1 x2 x3) := fun _ _ _ _ => intro rfl rfl
theorem cmp64 : ∀ x0 x1 x2 x3 x4, Statement (.cmp64 x0 x1 x2 x3 x4) := fun _ _ _ _ _ => intro rfl rfl
theorem cmp96 : ∀ x0 x1 x2 x3 x4, Statement (.cmp96 x0 x1 x2 x3 x4) := fun _ _ _ _ _ => intro rfl rfl
theorem cmpm64 : ∀ x0 x1 x2 x3 x4, Statement (.cmpm64 x0 x1 x2 x3 x4) := fun _ _ _ _ _ => intro rfl rfl
theorem cmpm96 : ∀ x0 x1 x2 x3 x4, Statement (.cmpm96 x0 x1 x2 x3 x4) := fun _ _ _ _ _ => intro rfl rfl
theorem mskb64 : ∀ x0 x1 x2, Statement (.mskb64 x0 x1 x2) := fun _ _ _ => intro rfl rfl
theorem mskb96 : ∀ x0 x1 x2, Statement (.mskb96 x0 x1 x2) := fun _ _ _ => intro rfl rfl
theorem br64 : ∀ x0, Statement (.br64 x0) := fun _ => intro rfl rfl
theorem br96 : ∀ x0, Statement (.br96 x0) := fun _ => intro rfl rfl
theorem brz64 : ∀ x0 x1, Statement (.brz64 x0 x1) := fun _ _ => intro rfl rfl
theorem brz96 : ∀ x0 x1, Statement (.brz96 x0 x1) := fun _ _ => intro rfl rfl
theorem brnz64 : ∀ x0 x1, Statement (.brnz64 x0 x1) := fun _ _ => intro rfl rfl
theorem brnz96 : ∀ x0 x1, Statement (.brnz96 x0 x1) := fun _ _ => intro rfl rfl
theorem brm64 : ∀ x0 x1 x2, Statement (.brm64 x0 x1 x2) := fun _ _ _ => intro rfl rfl
theorem brm96 : ∀ x0 x1 x2, Statement (.brm96 x0 x1 x2) := fun _ _ _ => intro rfl rfl
theorem call64 : ∀ x0 x1, Statement (.call64 x0 x1) := fun _ _ => intro rfl rfl
theorem call96 : ∀ x0 x1, Statement (.call96 x0 x1) := fun _ _ => intro rfl rfl
theorem calli : ∀ x0 x1, Statement (.calli x0 x1) := fun _ _ => intro rfl rfl
theorem ret64 : ∀ x0, Statement (.ret64 x0) := fun _ => intro rfl rfl
theorem jmpi : ∀ x0, Statement (.jmpi x0) := fun _ => intro rfl rfl
theorem nop64 : Statement (.nop64) := intro rfl rfl
theorem iterInit : ∀ x0 x1 x2, Statement (.iterInit x0 x1 x2) := fun _ _ _ => intro rfl rfl
theorem iterNext64 : ∀ x0 x1, Statement (.iterNext64 x0 x1) := fun _ _ => intro rfl rfl
theorem iterNext96 : ∀ x0 x1, Statement (.iterNext96 x0 x1) := fun _ _ => intro rfl rfl
theorem iterStep : ∀ x0, Statement (.iterStep x0) := fun _ => intro rfl rfl
theorem fadd64 : ∀ x0 x1 x2, Statement (.fadd64 x0 x1 x2) := fun _ _ _ => intro rfl rfl
theorem fadd96 : ∀ x0 x1 x2, Statement (.fadd96 x0 x1 x2) := fun _ _ _ => intro rfl rfl
theorem fsub64 : ∀ x0 x1 x2, Statement (.fsub64 x0 x1 x2) := fun _ _ _ => intro rfl rfl
theorem fsub96 : ∀ x0 x1 x2, Statement (.fsub96 x0 x1 x2) := fun _ _ _ => intro rfl rfl
theorem fmul64 : ∀ x0 x1 x2, Statement (.fmul64 x0 x1 x2) := fun _ _ _ => intro rfl rfl
theorem fmul96 : ∀ x0 x1 x2, Statement (.fmul96 x0 x1 x2) := fun _ _ _ => intro rfl rfl
theorem ffma64 : ∀ x0 x1 x2 x3, Statement (.ffma64 x0 x1 x2 x3) := fun _ _ _ _ => intro rfl rfl
theorem ffma96 : ∀ x0 x1 x2 x3, Statement (.ffma96 x0 x1 x2 x3) := fun _ _ _ _ => intro rfl rfl
theorem fmin64 : ∀ x0 x1 x2, Statement (.fmin64 x0 x1 x2) := fun _ _ _ => intro rfl rfl
theorem fmin96 : ∀ x0 x1 x2, Statement (.fmin96 x0 x1 x2) := fun _ _ _ => intro rfl rfl
theorem fmax64 : ∀ x0 x1 x2, Statement (.fmax64 x0 x1 x2) := fun _ _ _ => intro rfl rfl
theorem fmax96 : ∀ x0 x1 x2, Statement (.fmax96 x0 x1 x2) := fun _ _ _ => intro rfl rfl
theorem fcmp64 : ∀ x0 x1 x2 x3, Statement (.fcmp64 x0 x1 x2 x3) := fun _ _ _ _ => intro rfl rfl
theorem fcmp96 : ∀ x0 x1 x2 x3, Statement (.fcmp96 x0 x1 x2 x3) := fun _ _ _ _ => intro rfl rfl
theorem fcmpm64 : ∀ x0 x1 x2 x3, Statement (.fcmpm64 x0 x1 x2 x3) := fun _ _ _ _ => intro rfl rfl
theorem fcmpm96 : ∀ x0 x1 x2 x3, Statement (.fcmpm96 x0 x1 x2 x3) := fun _ _ _ _ => intro rfl rfl
theorem fclass : ∀ x0 x1, Statement (.fclass x0 x1) := fun _ _ => intro rfl rfl
theorem frcp : ∀ x0 x1, Statement (.frcp x0 x1) := fun _ _ => intro rfl rfl
theorem frsq : ∀ x0 x1, Statement (.frsq x0 x1) := fun _ _ => intro rfl rfl
theorem fsqrt : ∀ x0 x1, Statement (.fsqrt x0 x1) := fun _ _ => intro rfl rfl
theorem fdiv64 : ∀ x0 x1 x2, Statement (.fdiv64 x0 x1 x2) := fun _ _ _ => intro rfl rfl
theorem fdiv96 : ∀ x0 x1 x2, Statement (.fdiv96 x0 x1 x2) := fun _ _ _ => intro rfl rfl
theorem fexp2 : ∀ x0 x1, Statement (.fexp2 x0 x1) := fun _ _ => intro rfl rfl
theorem flog2 : ∀ x0 x1, Statement (.flog2 x0 x1) := fun _ _ => intro rfl rfl
theorem frnd : ∀ x0 x1 x2, Statement (.frnd x0 x1 x2) := fun _ _ _ => intro rfl rfl
theorem f2i : ∀ x0 x1 x2 x3, Statement (.f2i x0 x1 x2 x3) := fun _ _ _ _ => intro rfl rfl
theorem i2f : ∀ x0 x1 x2, Statement (.i2f x0 x1 x2) := fun _ _ _ => intro rfl rfl
theorem fcvt : ∀ x0 x1 x2, Statement (.fcvt x0 x1 x2) := fun _ _ _ => intro rfl rfl
theorem f4xp64 : ∀ x0 x1 x2 x3, Statement (.f4xp64 x0 x1 x2 x3) := fun _ _ _ _ => intro rfl rfl
theorem f4xp96 : ∀ x0 x1 x2 x3, Statement (.f4xp96 x0 x1 x2 x3) := fun _ _ _ _ => intro rfl rfl
theorem f4xu64 : ∀ x0 x1 x2 x3, Statement (.f4xu64 x0 x1 x2 x3) := fun _ _ _ _ => intro rfl rfl
theorem f4xu96 : ∀ x0 x1 x2 x3, Statement (.f4xu96 x0 x1 x2 x3) := fun _ _ _ _ => intro rfl rfl
theorem scle : ∀ x0 x1, Statement (.scle x0 x1) := fun _ _ => intro rfl rfl
theorem hadd264 : ∀ x0 x1 x2 x3, Statement (.hadd264 x0 x1 x2 x3) := fun _ _ _ _ => intro rfl rfl
theorem hadd296 : ∀ x0 x1 x2 x3, Statement (.hadd296 x0 x1 x2 x3) := fun _ _ _ _ => intro rfl rfl
theorem hmul264 : ∀ x0 x1 x2 x3, Statement (.hmul264 x0 x1 x2 x3) := fun _ _ _ _ => intro rfl rfl
theorem hmul296 : ∀ x0 x1 x2 x3, Statement (.hmul296 x0 x1 x2 x3) := fun _ _ _ _ => intro rfl rfl
theorem hfma264 : ∀ x0 x1 x2 x3 x4, Statement (.hfma264 x0 x1 x2 x3 x4) := fun _ _ _ _ _ => intro rfl rfl
theorem hfma296 : ∀ x0 x1 x2 x3 x4, Statement (.hfma296 x0 x1 x2 x3 x4) := fun _ _ _ _ _ => intro rfl rfl
theorem fkey : ∀ x0 x1 x2, Statement (.fkey x0 x1 x2) := fun _ _ _ => intro rfl rfl
theorem proma64 : ∀ x0 x1 x2, Statement (.proma64 x0 x1 x2) := fun _ _ _ => intro rfl rfl
theorem proma96 : ∀ x0 x1 x2, Statement (.proma96 x0 x1 x2) := fun _ _ _ => intro rfl rfl
theorem promv : ∀ x0 x1, Statement (.promv x0 x1) := fun _ _ => intro rfl rfl
theorem demf : ∀ x0 x1, Statement (.demf x0 x1) := fun _ _ => intro rfl rfl
theorem demc : ∀ x0 x1, Statement (.demc x0 x1) := fun _ _ => intro rfl rfl
theorem movxr : ∀ x0 x1, Statement (.movxr x0 x1) := fun _ _ => intro rfl rfl
theorem movxw : ∀ x0 x1, Statement (.movxw x0 x1) := fun _ _ => intro rfl rfl
theorem meet64 : ∀ x0, Statement (.meet64 x0) := fun _ => intro rfl rfl
theorem meet96 : ∀ x0, Statement (.meet96 x0) := fun _ => intro rfl rfl
theorem ld64 : ∀ x0 x1 x2 x3 x4, Statement (.ld64 x0 x1 x2 x3 x4) := fun _ _ _ _ _ => intro rfl rfl
theorem ld96 : ∀ x0 x1 x2 x3 x4, Statement (.ld96 x0 x1 x2 x3 x4) := fun _ _ _ _ _ => intro rfl rfl
theorem st64 : ∀ x0 x1 x2 x3 x4, Statement (.st64 x0 x1 x2 x3 x4) := fun _ _ _ _ _ => intro rfl rfl
theorem st96 : ∀ x0 x1 x2 x3 x4, Statement (.st96 x0 x1 x2 x3 x4) := fun _ _ _ _ _ => intro rfl rfl
theorem ldl64 : ∀ x0 x1 x2 x3, Statement (.ldl64 x0 x1 x2 x3) := fun _ _ _ _ => intro rfl rfl
theorem ldl96 : ∀ x0 x1 x2 x3, Statement (.ldl96 x0 x1 x2 x3) := fun _ _ _ _ => intro rfl rfl
theorem stl64 : ∀ x0 x1 x2 x3, Statement (.stl64 x0 x1 x2 x3) := fun _ _ _ _ => intro rfl rfl
theorem stl96 : ∀ x0 x1 x2 x3, Statement (.stl96 x0 x1 x2 x3) := fun _ _ _ _ => intro rfl rfl
theorem pfch64 : ∀ x0 x1 x2 x3, Statement (.pfch64 x0 x1 x2 x3) := fun _ _ _ _ => intro rfl rfl
theorem pfch96 : ∀ x0 x1 x2 x3, Statement (.pfch96 x0 x1 x2 x3) := fun _ _ _ _ => intro rfl rfl
theorem aadd64 : ∀ x0 x1 x2 x3 x4, Statement (.aadd64 x0 x1 x2 x3 x4) := fun _ _ _ _ _ => intro rfl rfl
theorem aadd96 : ∀ x0 x1 x2 x3 x4 x5, Statement (.aadd96 x0 x1 x2 x3 x4 x5) := fun _ _ _ _ _ _ => intro rfl rfl
theorem afadd64 : ∀ x0 x1 x2 x3 x4, Statement (.afadd64 x0 x1 x2 x3 x4) := fun _ _ _ _ _ => intro rfl rfl
theorem afadd96 : ∀ x0 x1 x2 x3 x4 x5, Statement (.afadd96 x0 x1 x2 x3 x4 x5) := fun _ _ _ _ _ _ => intro rfl rfl
theorem amin64 : ∀ x0 x1 x2 x3 x4, Statement (.amin64 x0 x1 x2 x3 x4) := fun _ _ _ _ _ => intro rfl rfl
theorem amin96 : ∀ x0 x1 x2 x3 x4 x5, Statement (.amin96 x0 x1 x2 x3 x4 x5) := fun _ _ _ _ _ _ => intro rfl rfl
theorem amax64 : ∀ x0 x1 x2 x3 x4, Statement (.amax64 x0 x1 x2 x3 x4) := fun _ _ _ _ _ => intro rfl rfl
theorem amax96 : ∀ x0 x1 x2 x3 x4 x5, Statement (.amax96 x0 x1 x2 x3 x4 x5) := fun _ _ _ _ _ _ => intro rfl rfl
theorem aand64 : ∀ x0 x1 x2 x3 x4, Statement (.aand64 x0 x1 x2 x3 x4) := fun _ _ _ _ _ => intro rfl rfl
theorem aand96 : ∀ x0 x1 x2 x3 x4 x5, Statement (.aand96 x0 x1 x2 x3 x4 x5) := fun _ _ _ _ _ _ => intro rfl rfl
theorem aor64 : ∀ x0 x1 x2 x3 x4, Statement (.aor64 x0 x1 x2 x3 x4) := fun _ _ _ _ _ => intro rfl rfl
theorem aor96 : ∀ x0 x1 x2 x3 x4 x5, Statement (.aor96 x0 x1 x2 x3 x4 x5) := fun _ _ _ _ _ _ => intro rfl rfl
theorem axor64 : ∀ x0 x1 x2 x3 x4, Statement (.axor64 x0 x1 x2 x3 x4) := fun _ _ _ _ _ => intro rfl rfl
theorem axor96 : ∀ x0 x1 x2 x3 x4 x5, Statement (.axor96 x0 x1 x2 x3 x4 x5) := fun _ _ _ _ _ _ => intro rfl rfl
theorem axch64 : ∀ x0 x1 x2 x3 x4, Statement (.axch64 x0 x1 x2 x3 x4) := fun _ _ _ _ _ => intro rfl rfl
theorem axch96 : ∀ x0 x1 x2 x3 x4 x5, Statement (.axch96 x0 x1 x2 x3 x4 x5) := fun _ _ _ _ _ _ => intro rfl rfl
theorem acas64 : ∀ x0 x1 x2 x3 x4 x5, Statement (.acas64 x0 x1 x2 x3 x4 x5) := fun _ _ _ _ _ _ => intro rfl rfl
theorem acas96 : ∀ x0 x1 x2 x3 x4 x5 x6, Statement (.acas96 x0 x1 x2 x3 x4 x5 x6) := fun _ _ _ _ _ _ _ => intro rfl rfl
theorem strmOpen : ∀ x0 x1 x2, Statement (.strmOpen x0 x1 x2) := fun _ _ _ => intro rfl rfl
theorem strmClose : ∀ x0, Statement (.strmClose x0) := fun _ => intro rfl rfl
theorem fence : ∀ x0, Statement (.fence x0) := fun _ => intro rfl rfl
theorem cfl : ∀ x0 x1 x2, Statement (.cfl x0 x1 x2) := fun _ _ _ => intro rfl rfl
theorem copy : ∀ x0 x1 x2, Statement (.copy x0 x1 x2) := fun _ _ _ => intro rfl rfl
theorem gath : ∀ x0 x1 x2, Statement (.gath x0 x1 x2) := fun _ _ _ => intro rfl rfl
theorem scat : ∀ x0 x1 x2, Statement (.scat x0 x1 x2) := fun _ _ _ => intro rfl rfl
theorem waitany : ∀ x0 x1, Statement (.waitany x0 x1) := fun _ _ => intro rfl rfl
theorem waitall : ∀ x0 x1, Statement (.waitall x0 x1) := fun _ _ => intro rfl rfl
theorem ffr : ∀ x0 x1, Statement (.ffr x0 x1) := fun _ _ => intro rfl rfl
theorem tagclr : ∀ x0, Statement (.tagclr x0) := fun _ => intro rfl rfl
theorem mwait : ∀ x0 x1 x2 x3 x4, Statement (.mwait x0 x1 x2 x3 x4) := fun _ _ _ _ _ => intro rfl rfl
theorem jobst : ∀ x0 x1, Statement (.jobst x0 x1) := fun _ _ => intro rfl rfl
theorem gcall64 : ∀ x0 x1, Statement (.gcall64 x0 x1) := fun _ _ => intro rfl rfl
theorem gcall96 : ∀ x0 x1, Statement (.gcall96 x0 x1) := fun _ _ => intro rfl rfl
theorem gcallI : ∀ x0 x1, Statement (.gcallI x0 x1) := fun _ _ => intro rfl rfl
theorem gret : Statement (.gret) := intro rfl rfl
theorem grow64 : ∀ x0 x1, Statement (.grow64 x0 x1) := fun _ _ => intro rfl rfl
theorem grow96 : ∀ x0 x1, Statement (.grow96 x0 x1) := fun _ _ => intro rfl rfl
theorem shrink64 : ∀ x0, Statement (.shrink64 x0) := fun _ => intro rfl rfl
theorem shrink96 : ∀ x0, Statement (.shrink96 x0) := fun _ => intro rfl rfl
theorem obres64 : ∀ x0 x1 x2, Statement (.obres64 x0 x1 x2) := fun _ _ _ => intro rfl rfl
theorem obres96 : ∀ x0 x1 x2, Statement (.obres96 x0 x1 x2) := fun _ _ _ => intro rfl rfl
theorem obrel : ∀ x0, Statement (.obrel x0) := fun _ => intro rfl rfl
theorem obldS : ∀ x0 x1 x2, Statement (.obldS x0 x1 x2) := fun _ _ _ => intro rfl rfl
theorem obldV : ∀ x0 x1 x2, Statement (.obldV x0 x1 x2) := fun _ _ _ => intro rfl rfl
theorem mma64 : ∀ x0 x1 x2 x3, Statement (.mma64 x0 x1 x2 x3) := fun _ _ _ _ => intro rfl rfl
theorem mma96 : ∀ x0 x1 x2 x3, Statement (.mma96 x0 x1 x2 x3) := fun _ _ _ _ => intro rfl rfl
theorem mmas64 : ∀ x0 x1 x2 x3, Statement (.mmas64 x0 x1 x2 x3) := fun _ _ _ _ => intro rfl rfl
theorem mmas96 : ∀ x0 x1 x2 x3, Statement (.mmas96 x0 x1 x2 x3) := fun _ _ _ _ => intro rfl rfl
theorem accz : ∀ x0, Statement (.accz x0) := fun _ => intro rfl rfl
theorem accld64 : ∀ x0 x1 x2, Statement (.accld64 x0 x1 x2) := fun _ _ _ => intro rfl rfl
theorem accld96 : ∀ x0 x1 x2, Statement (.accld96 x0 x1 x2) := fun _ _ _ => intro rfl rfl
theorem accst64 : ∀ x0 x1 x2, Statement (.accst64 x0 x1 x2) := fun _ _ _ => intro rfl rfl
theorem accst96 : ∀ x0 x1 x2, Statement (.accst96 x0 x1 x2) := fun _ _ _ => intro rfl rfl
theorem accrd64 : ∀ x0 x1 x2, Statement (.accrd64 x0 x1 x2) := fun _ _ _ => intro rfl rfl
theorem accrd96 : ∀ x0 x1 x2, Statement (.accrd96 x0 x1 x2) := fun _ _ _ => intro rfl rfl
theorem sign64 : ∀ x0 x1 x2, Statement (.sign64 x0 x1 x2) := fun _ _ _ => intro rfl rfl
theorem sign96 : ∀ x0 x1 x2, Statement (.sign96 x0 x1 x2) := fun _ _ _ => intro rfl rfl
theorem vdot : ∀ x0 x1 x2 x3 x4 x5, Statement (.vdot x0 x1 x2 x3 x4 x5) := fun _ _ _ _ _ _ => intro rfl rfl
theorem vtest : ∀ x0 x1, Statement (.vtest x0 x1) := fun _ _ => intro rfl rfl
theorem vkey : ∀ x0 x1, Statement (.vkey x0 x1) := fun _ _ => intro rfl rfl
theorem vhdr : ∀ x0 x1 x2, Statement (.vhdr x0 x1 x2) := fun _ _ _ => intro rfl rfl
theorem thsBind : ∀ x0 x1, Statement (.thsBind x0 x1) := fun _ _ => intro rfl rfl
theorem thsRaise64 : ∀ x0 x1 x2, Statement (.thsRaise64 x0 x1 x2) := fun _ _ _ => intro rfl rfl
theorem thsRaise96 : ∀ x0 x1 x2, Statement (.thsRaise96 x0 x1 x2) := fun _ _ _ => intro rfl rfl
theorem thsRead : ∀ x0 x1, Statement (.thsRead x0 x1) := fun _ _ => intro rfl rfl
theorem bar64 : ∀ x0 x1 x2, Statement (.bar64 x0 x1 x2) := fun _ _ _ => intro rfl rfl
theorem reduce : ∀ x0 x1 x2 x3, Statement (.reduce x0 x1 x2 x3) := fun _ _ _ _ => intro rfl rfl
theorem scan : ∀ x0 x1 x2 x3, Statement (.scan x0 x1 x2 x3) := fun _ _ _ _ => intro rfl rfl
theorem shfl : ∀ x0 x1 x2 x3, Statement (.shfl x0 x1 x2 x3) := fun _ _ _ _ => intro rfl rfl
theorem bsort : ∀ x0 x1 x2 x3, Statement (.bsort x0 x1 x2 x3) := fun _ _ _ _ => intro rfl rfl
theorem bmerge : ∀ x0 x1 x2 x3 x4, Statement (.bmerge x0 x1 x2 x3 x4) := fun _ _ _ _ _ => intro rfl rfl
theorem coll : ∀ x0 x1 x2, Statement (.coll x0 x1 x2) := fun _ _ _ => intro rfl rfl
theorem trap64 : ∀ x0, Statement (.trap64 x0) := fun _ => intro rfl rfl
theorem eret : Statement (.eret) := intro rfl rfl
theorem uimask : ∀ x0 x1 x2, Statement (.uimask x0 x1 x2) := fun _ _ _ => intro rfl rfl
theorem pulse : Statement (.pulse) := intro rfl rfl
theorem svc64 : ∀ x0 x1 x2 x3, Statement (.svc64 x0 x1 x2 x3) := fun _ _ _ _ => intro rfl rfl
theorem svc96 : ∀ x0 x1 x2 x3, Statement (.svc96 x0 x1 x2 x3) := fun _ _ _ _ => intro rfl rfl
theorem ckpt64 : Statement (.ckpt64) := intro rfl rfl
theorem bkpt : ∀ x0, Statement (.bkpt x0) := fun _ => intro rfl rfl
theorem launch : ∀ x0 x1, Statement (.launch x0 x1) := fun _ _ => intro rfl rfl
theorem spawn : ∀ x0 x1 x2 x3, Statement (.spawn x0 x1 x2 x3) := fun _ _ _ _ => intro rfl rfl
theorem waitfree : ∀ x0 x1 x2, Statement (.waitfree x0 x1 x2) := fun _ _ _ => intro rfl rfl
theorem join : ∀ x0 x1, Statement (.join x0 x1) := fun _ _ => intro rfl rfl
theorem leave : ∀ x0 x1, Statement (.leave x0 x1) := fun _ _ => intro rfl rfl
theorem exit64 : Statement (.exit64) := intro rfl rfl
theorem migrateRk : ∀ x0, Statement (.migrateRk x0) := fun _ => intro rfl rfl
theorem migrateHm : ∀ x0, Statement (.migrateHm x0) := fun _ => intro rfl rfl
theorem yield : Statement (.yield) := intro rfl rfl

end Sys2Proof.Laws.Words
end

