-- ==== Sys2Proof/Laws/Traps.lean ====
section
/-!
SUPPORT. Taking an exception, by the kind of the context and the disposition of the code: each delivery said once.
-/
namespace Sys2Proof.Machine

/-- Outside lock-step there is no checkpoint to take. -/
theorem State.checkpoint_of_not_lockstep {s : State} {k : CtxKey} (h : ∀ c, s.ctx? k = some c → s.inLockstep c = false) : s.checkpoint k = s := by
  unfold State.checkpoint
  split
  · rfl
  · next c hc => simp [h c hc]

/-- A context that has no place in its beam's issue order has none to give up. -/
theorem State.endTurn_of_none {s : State} {k : CtxKey} {c : Ctx} (hc : s.ctx? k = some c) (ht : c.turn = none) : s.endTurn k = s := by
  simp [State.endTurn, hc, ht]

/-- Faults without MEMUE leave no record. -/
theorem State.recordErrors_of_not_memue {s : State} {k : CtxKey} {fs : List LaneFault} (h : ∀ f ∈ fs, f.code ≠ .memue) :
    s.recordErrors k fs = s := by
  have e : (fs.filter fun f => f.code == .memue) = [] := by simpa [List.filter_eq_nil_iff] using h
  simp [State.recordErrors, e]

/-- What a delivery does before it reads the fault (R227, R403): nothing, for a context without a turn and faults but MEMUE. -/
theorem State.deliver_start {s : State} {k : CtxKey} {c : Ctx} {fs : List LaneFault} (hc : s.ctx? k = some c) (ht : c.turn = none)
    (h : ∀ f ∈ fs, f.code ≠ .memue) : (s.endTurn k).recordErrors k fs = s := by
  rw [State.endTurn_of_none hc ht, State.recordErrors_of_not_memue h]

/-- A fault of no context, or of no lane, ends its turn alone. -/
theorem State.deliver_none (s : State) (k : CtxKey) (t : Trap) (h : s.ctx? k = none ∨ t.lanes = []) :
    s.deliver k t = (s.endTurn k).recordErrors k t.lanes := by
  unfold State.deliver
  rcases h with h | h
  · have e : s.endTurn k = s := by simp [State.endTurn, h]
    have f : ∀ fs : List LaneFault, s.recordErrors k fs = s := fun fs => by
      unfold State.recordErrors
      induction fs.filter fun f => f.code == .memue with
      | nil => rfl
      | cons x xs ih => simpa [h] using ih
    simp [e, f, h]
  · cases ((s.endTurn k).recordErrors k t.lanes).ctx? k <;> simp [h]

/-- A fault of a thread, on its rod or its reckoner. -/
theorem State.deliver_rod {s : State} {k : CtxKey} {c : Ctx} (hc : s.ctx? k = some c) (hk : c.kind = .rod) (ht : c.turn = none)
    {code : Code} (hm : code ≠ .memue) (addr epc : DWord) :
    s.deliver k (Trap.one code addr epc) = s.deliverTo k code addr 0 epc 1 := by
  have h := State.deliver_start (fs := [⟨0, code, addr⟩]) hc ht (by simpa using hm)
  simp [State.deliver, Trap.one, h, hc, hk]

/-- A fault of a launched gang takes every live lane; the gang leaves its open rounds (R331). -/
theorem State.deliver_gang {s : State} {k : CtxKey} {c : Ctx} (hc : s.ctx? k = some c) (hk : c.kind = .gang) (ht : c.turn = none)
    {code : Code} (hm : code ≠ .memue) (addr epc : DWord) :
    s.deliver k (Trap.one code addr epc) =
      (s.leaveRounds c).deliverTo k code addr (BitVec.ofNat 32 (((lanesOf c.arch.liveMask).head?).getD 0)) epc c.arch.liveMask := by
  have h := State.deliver_start (fs := [⟨0, code, addr⟩]) hc ht (by simpa using hm)
  simp [State.deliver, Trap.one, h, hc, hk]

/-- Faults of lanes of a launched gang: the trap set is every faulting lane with the code of the first. -/
theorem State.deliver_lanes {s : State} {k : CtxKey} {c : Ctx} (hc : s.ctx? k = some c) (hk : c.kind = .gang) (ht : c.turn = none)
    (f : LaneFault) (fs : List LaneFault) (hm : ∀ x ∈ f :: fs, x.code ≠ .memue) (epc : DWord) :
    s.deliver k ⟨f :: fs, false, epc⟩ =
      s.deliverTo k f.code f.addr
        (BitVec.ofNat 32 (((lanesOf ((f :: fs).foldl (fun m x => if x.code == f.code then m ||| (1#64 <<< x.lane) else m) 0#64)).head?).getD 0)) epc
        ((f :: fs).foldl (fun m x => if x.code == f.code then m ||| (1#64 <<< x.lane) else m) 0#64) := by
  simp [State.deliver, State.deliver_start hc ht hm, hc, hk]

/-- Faults of a gang that a rendezvous entry formed go to the callers of the lanes that they retire. -/
theorem State.deliver_called {s : State} {k : CtxKey} {c : Ctx} {n m : Nat} {e : RdvEntry} (hc : s.ctx? k = some c)
    (hk : c.kind = .called n m) (ht : c.turn = none) (he : s.entryOf c = some e) (f : LaneFault) (fs : List LaneFault)
    (hm : ∀ x ∈ f :: fs, x.code ≠ .memue) (epc : DWord) :
    s.deliver k ⟨f :: fs, false, epc⟩ = s.retireCalled c e (f :: fs) epc := by
  simp [State.deliver, State.deliver_start hc ht hm, hc, hk, he]

/-- The registers that every delivery writes (R372). -/
def Arch.trapRegs (ar : Arch) (code : Code) (addr : DWord) (elane : Word) (epc : DWord) : Arch :=
  { ar with ecode := ecodeFault code, eaddr := addr, elane := elane, epc := epcBits epc }

/-- A USER delivery outside lock-step: the trap registers, UH, the trap set, and the lanes at UHND. -/
theorem State.deliverTo_user {s : State} {k : CtxKey} {c : Ctx} {code : Code} (hc : s.ctx? k = some c) (hl : s.inLockstep c = false)
    (hd : s.dispositionOf c code = .user) (addr : DWord) (elane : Word) (epc : DWord) (set : BitVec 64) :
    s.deliverTo k code addr elane epc set = s.setCtx { c with
      arch := ({ c.arch.trapRegs code addr elane epc with uh := true, trapSet := set }.takeHeld set).goto set c.arch.uhnd,
      st := .live, refused := [] } := by
  have h := State.checkpoint_of_not_lockstep (s := s) (k := k) fun d hd => by rw [hc] at hd; cases hd; exact hl
  simp [State.deliverTo, h, hc, hd, Arch.trapRegs]

/-- A SYSTEM delivery outside lock-step: the trap registers, and the context waits for a trap slot. -/
theorem State.deliverTo_system {s : State} {k : CtxKey} {c : Ctx} {code : Code} (hc : s.ctx? k = some c) (hl : s.inLockstep c = false)
    (hd : s.dispositionOf c code = .system) (addr : DWord) (elane : Word) (epc : DWord) (set : BitVec 64) :
    s.deliverTo k code addr elane epc set =
      (s.setCtx { c with arch := { c.arch.trapRegs code addr elane epc with sysSet := set }, st := .parked .trapSlot, refused := [] }).requestSlot
        k .system := by
  have h := State.checkpoint_of_not_lockstep (s := s) (k := k) fun d hd => by rw [hc] at hd; cases hd; exact hl
  simp [State.deliverTo, h, hc, hd, Arch.trapRegs]

/-- A KILL delivery outside lock-step: the trap registers, and the launch aborts with the code. -/
theorem State.deliverTo_kill {s : State} {k : CtxKey} {c : Ctx} {code : Code} (hc : s.ctx? k = some c) (hl : s.inLockstep c = false)
    (hd : s.dispositionOf c code = .kill) (addr : DWord) (elane : Word) (epc : DWord) (set : BitVec 64) :
    s.deliverTo k code addr elane epc set = (s.setCtx { c with arch := c.arch.trapRegs code addr elane epc }).abortLaunch c.launch code := by
  have h := State.checkpoint_of_not_lockstep (s := s) (k := k) fun d hd => by rw [hc] at hd; cases hd; exact hl
  simp [State.deliverTo, h, hc, hd, Arch.trapRegs]

/-- The dispositions (R373): KILL and SYSTEM are the packet's, and USER needs a handler and no handler running. -/
theorem State.dispositionOf_cases (s : State) (c : Ctx) (code : Code) :
    pktDisp (s.pktOf c.launch) code = 2 ∧ s.dispositionOf c code = .kill ∨
    pktDisp (s.pktOf c.launch) code = 0 ∧ (c.arch.uhnd ≠ 0 ∧ c.arch.uh = false ∧ c.arch.overlay = false) ∧ s.dispositionOf c code = .user ∨
    s.dispositionOf c code = .system ∧ pktDisp (s.pktOf c.launch) code ≠ 2 := by
  unfold State.dispositionOf
  split
  · next h => exact .inl ⟨h, rfl⟩
  · next h =>
    by_cases h1 : (c.arch.uhnd == 0 || c.arch.uh || c.arch.overlay) = true
    · exact .inr (.inr ⟨by rw [if_pos h1], by rw [h]; decide⟩)
    · simp only [Bool.or_eq_true, beq_iff_eq, not_or, Bool.not_eq_true] at h1
      exact .inr (.inl ⟨h, ⟨h1.1.1, h1.1.2, h1.2⟩, by simp [h1.1.2, h1.2]; exact h1.1.1⟩)
  · next h _ => exact .inr (.inr ⟨rfl, by simpa using h⟩)

end Sys2Proof.Machine
end

