-- ==== Sys2Proof/Tests/Slice0.lean ====
section
/-!
SUPPORT. The model's own tests: words from the spec's encodings, ill-formed instructions, single steps on small states whose
results are the worked examples' or are counted from the rules, and for each statement with hypotheses states that meet them.
-/
namespace Sys2Proof.Tests
open Sys2Proof.Machine Sys2Proof.Machine.Rules
set_option Elab.async false

/-! ## Small states: a rod's thread, and a gang of a few live lanes, about to issue -/

/-- The PC of the instruction. -/
def text : DWord := 0x4000001000

/-- The object, with 16 v registers. -/
def tObject : CodeObject := { firstObject 0x4000000000 with vcnt := 16 }

/-- The partition word of the gang: four register units, four scratch units, eight tiles. -/
def gangPw : Word := 0x02040401

/-- The launch of both: no leaf region, dispositions USER. -/
def tLaunch : Launch := firstLaunch 0x4000000000

/-- The key of the gang. -/
def gangKey : CtxKey := ⟨8, 0⟩

/-- The issue of the thread; a 64-bit instruction. -/
def rodIss : Issue := ⟨firstKey, 1, text, 8⟩

/-- The thread. -/
def rodCtx (f : Arch → Arch := id) : Ctx := { firstCtx text 0 with arch := f (Arch.fresh [freshLane text (tidOf 1 0) true] 64) }

/-- The machine of the thread. -/
def rodS (f : Arch → Arch := id) : State :=
  { State.reset.placeWords [] with agenda := [], issue := some rodIss, ctxs := [rodCtx f] }

/-- The issue of the gang with n live lanes. -/
def gangIss (n : Nat) : Issue := ⟨gangKey, (1#64 <<< n) - 1, text, 8⟩

/-- The gang with n live lanes. -/
def gangCtx (n : Nat) (f : Arch → Arch := id) : Ctx :=
  { firstCtx text 0 with
    key := gangKey, kind := .gang,
    arch := f (Arch.fresh ((List.range 32).map fun i => freshLane text (tidOf 1 i) (decide (i < n))) 16) }

/-- The region of the gang. -/
def gangRegion : Region := { firstRegion with core := 8, pw := gangPw }

/-- The machine of the gang. -/
def gangS (n : Nat) (f : Arch → Arch := id) (g : Region → Region := id) : State :=
  { State.reset.placeWords [] with
    agenda := [], issue := some (gangIss n), ctxs := [gangCtx n f], regions := [g gangRegion], objects := [tObject],
    windows := [⟨1, 8, text, 4096, [], false⟩] }

/-- The values of a v register, lane 0 first. -/
def setVs (ar : Arch) (k : Fin 64) (xs : List Word) : Arch :=
  (List.range xs.length).foldl (fun ar i => ar.setV i k (xs.getD i 0)) ar

/-- An s pair. -/
def setP (ar : Arch) (k : Fin 32) (x : DWord) : Arch := ar.setPair 0 (.s k) x

/-- What is seen of the issuing context after an instruction. -/
def after {α : Type} (i : Instr) (s : State) (f : Ctx → α) : Option α :=
  match exec i s with
  | .next t => (s.issue.bind fun iss => t.ctx? iss.key).map f
  | _ => none

/-- What is seen of the machine after an instruction or event. -/
def afterS {α : Type} (i : Instr) (s : State) (f : State → α) : Option α :=
  match exec i s with
  | .next t => some (f t)
  | _ => none

/-- An s register, the v register of the first n lanes, and the PC of a lane. -/
def sreg (k : Fin 64) (c : Ctx) : Word := c.arch.s[k]
def vregs (k : Fin 64) (n : Nat) (c : Ctx) : List Word := (List.range n).map fun i => c.arch.vreg i k
def pcOf (lane : Nat) (c : Ctx) : DWord := (c.arch.lane lane).pc

/-- The next state, where there is one. -/
def nextOf (o : Host.Outcome State Fault Refusal) (s : State) : State :=
  match o with
  | .next t => t
  | _ => s

/-- The state after an instruction and, in the same context, its reply. -/
def replied (i : Instr) (s : State) : State :=
  let t := nextOf (exec i s) s
  match s.issue with
  | some iss => nextOf (exec (.memoryReply iss.key [] []) t) t
  | none => t

/-- What is seen of the issuing context after the reply. -/
def afterReply {α : Type} (i : Instr) (s : State) (f : Ctx → α) : Option α :=
  (s.issue.bind fun iss => (replied i s).ctx? iss.key).map f

/-- A domain-aperture address of this package's own device memory. -/
def devVa (off : Nat) : DWord := BitVec.ofNat 64 (2 ^ 56 + off)


/-! ## From evaluations to the statements' hypotheses -/

/-- Issuing, as a check. -/
def issuingB (s : State) (iss : Issue) (c : Ctx) : Bool :=
  s.issue == some iss && s.ctx? iss.key == some c && c.st == .live && !s.struck iss.key &&
  (c.arch.lanes.length == 1 || c.arch.lanes.length == 32 || c.arch.lanes.length == 64) && iss.exec != 0 &&
  (List.range 64).all fun n => !(iss.exec.getLsbD n) || (c.arch.lane n).live

theorem issuing_of {s : State} {iss : Issue} {c : Ctx} (h : issuingB s iss c = true) : Issuing s iss c := by
  simp only [issuingB, Bool.and_eq_true, beq_iff_eq, Bool.or_eq_true, bne_iff_ne, Bool.not_eq_true', List.all_eq_true, List.mem_range] at h
  obtain ⟨⟨⟨⟨⟨⟨h1, h2⟩, h3⟩, h4⟩, h5⟩, h6⟩, h7⟩ := h
  refine ⟨h1, h2, h3, h4, ?_, h6, fun n hn => ?_⟩
  · rcases h5 with (h | h) | h
    · exact .inl h
    · exact .inr (.inl h)
    · exact .inr (.inr h)
  · have hlt : n < 64 := by
      by_contra hge
      simp [BitVec.getLsbD_of_ge _ _ (Nat.le_of_not_lt hge)] at hn
    have := h7 n hlt
    simpa [hn] using this

/-- Ready, as a check. -/
def readyB (s : State) (iss : Issue) (c : Ctx) (nm : Names) (typed whole : Bool) (pops : List Pop) (ps : List Push) : Bool :=
  issuingB s iss c && s.namesOk c nm && typed && (!whole || iss.exec == c.liveSet) &&
  decide (s.checkPops c (c.streamsIn nm.src) = .ok pops) && decide (s.checkPushes c (c.streamsIn nm.dst) = .ok ps) &&
  !s.gateFull c (pushCount ps)

theorem ready_of {s : State} {iss : Issue} {c : Ctx} {nm : Names} {typed whole : Bool} {pops : List Pop} {ps : List Push}
    (h : readyB s iss c nm typed whole pops ps = true) : Ready s iss c nm typed whole pops ps := by
  simp only [readyB, Bool.and_eq_true, Bool.or_eq_true, Bool.not_eq_true', beq_iff_eq, decide_eq_true_eq] at h
  obtain ⟨⟨⟨⟨⟨⟨h1, h2⟩, h3⟩, h4⟩, h5⟩, h6⟩, h7⟩ := h
  exact ⟨issuing_of h1, h2, h3, fun hw => by rcases h4 with h | h <;> simp_all, h5, h6, h7⟩

/-- Meets, as a check but for the readiness of values. -/
def meetsB (f : RegForm) (s : State) (iss : Issue) (pops : List Pop) (ps : List Push) : Bool :=
  s.namesOk f.ctx f.names && f.typed && (!f.whole || iss.exec == f.ctx.liveSet) &&
  decide (s.checkPops f.ctx (f.ctx.streamsIn f.names.src) = .ok pops) && decide (s.checkPushes f.ctx (f.ctx.streamsIn f.names.dst) = .ok ps) &&
  !s.gateFull f.ctx (pushCount ps)

theorem meets_of {f : RegForm} {s : State} {iss : Issue} {pops : List Pop} {ps : List Push} (h : meetsB f s iss pops ps = true)
    (hr : f.ready (pops.foldl Arch.pop f.ctx.arch)) : f.Meets s iss pops ps := by
  simp only [meetsB, Bool.and_eq_true, Bool.or_eq_true, Bool.not_eq_true', beq_iff_eq, decide_eq_true_eq] at h
  obtain ⟨⟨⟨⟨⟨h2, h3⟩, h4⟩, h5⟩, h6⟩, h7⟩ := h
  exact ⟨h2, h3, fun hw => by rcases h4 with h | h <;> simp_all, h5, h6, h7, hr⟩

theorem matrixReady_of {s : State} {iss : Issue} {c : Ctx} {nm : Names} {typed whole : Bool} {r : Region}
    (h : (c.kind != .rod && c.pair == none && readyB s iss c nm typed whole [] [] && s.regionOf c == some r) = true) :
    MatrixReady s iss c nm typed whole r := by
  simp only [Bool.and_eq_true, bne_iff_ne, beq_iff_eq] at h
  exact ⟨h.1.1.1, h.1.1.2, ready_of h.1.2, h.2⟩

/-- An empty cache has room. -/
theorem room_of {s : State} {c : Ctx} {n : Nat} (h1 : s.cache = []) (h2 : s.hostLines = []) (h3 : n ≤ Config.bankLines) : cacheRoom s c n := by
  intro f b _
  simpa [State.bankLines, State.bankHosts, h1, h2] using h3

/-- An outcome is a next state. -/
def isNext (o : Host.Outcome State Fault Refusal) : Bool :=
  match o with
  | .next _ => true
  | _ => false

theorem next_of {o : Host.Outcome State Fault Refusal} {s : State} (h : isNext o = true) : o = .next (nextOf o s) := by
  cases o <;> simp_all [isNext, nextOf]

/-- What holds of every bit number holds of 64 and up where no bit is set there. -/
theorem bits_of {x : BitVec 64} {p : Nat → Prop} (h : ∀ n, n < 64 → x.getLsbD n = true → p n) : ∀ n, x.getLsbD n = true → p n := by
  intro n hn
  refine h n ?_ hn
  by_contra hge
  simp [BitVec.getLsbD_of_ge _ _ (Nat.le_of_not_lt hge)] at hn

/-- Nothing takes a hand in a reply where every region of the launch has a resident. -/
theorem undisturbed_of {s : State} {n : Word} (h1 : s.flaws = []) (h2 : s.tests = []) (h3 : s.invals = [])
    (h : (s.regions.all fun r => r.launch != n || !(s.residents r).isEmpty) = true) : Undisturbed s n := by
  refine ⟨h1, h2, h3, fun r hr hn => .inl ?_⟩
  have := List.all_eq_true.mp h r hr
  simp_all

/-- The memories' canonical form, as a check. -/
def memsB (s : State) : Bool :=
  s.dev.wf && s.host.wf && (s.dom.all fun d => d.2.wf) && (s.regions.all fun r => r.scratch.wf && r.acc.wf && r.obuf.wf) &&
  (s.windows.all fun w => w.bytes.wf) && s.launches.all fun l => l.savedRegs.all fun r => r.scratch.wf && r.acc.wf && r.obuf.wf

theorem mems_of {s : State} (h : memsB s = true) : memoriesWf s := by
  simp only [memsB, Bool.and_eq_true, List.all_eq_true] at h
  obtain ⟨⟨⟨⟨⟨h1, h2⟩, h3⟩, h4⟩, h5⟩, h6⟩ := h
  exact ⟨h1, h2, h3, fun r hr => ⟨(h4 r hr).1.1, (h4 r hr).1.2, (h4 r hr).2⟩, h5, fun l hl r hr => ⟨(h6 l hl r hr).1.1, (h6 l hl r hr).1.2, (h6 l hl r hr).2⟩⟩

theorem clear_of {xs : List Src} {m : BitVec 64} {ar : Arch}
    (h : ((xs.all fun x => x.type != .uniform || !isAbandoned (ar.srcWord 0 x)) && (List.range 64).all fun n => !m.getLsbD n || !stopsAt xs ar n) = true) :
    Rules.clear xs m ar := by
  simp only [Bool.and_eq_true, List.all_eq_true, Bool.or_eq_true, bne_iff_ne, Bool.not_eq_true', List.mem_range] at h
  refine ⟨fun x hx ht => (h.1 x hx).resolve_left fun hn => hn ht, fun n hn hm => (h.2 n hn).resolve_left ?_⟩
  simp [hm]

/-! ## Words: each constructor's encoding, written out from the spec's tables (R91–R103 and the entries' forms) -/

/-- Words decode to their instructions, whose encodings they are. -/
noncomputable def readBack (rows : List (Nat × Nat × Instr)) : Bool :=
  rows.all fun r => decodeTableWord r.1 r.2.1 == some r.2.2 && encode r.2.2 == (tableWords r.2.1).take (r.1 / 32)

theorem test_words_compact_1 : readBack [
    (32, 0x1, .nopCompact),
    (32, 0x12345604, .brCompact 0x123456),
    (32, 0x92344905, .brzCompact (.a 9) 0x9234),
    (32, 0x12348908, .brnzCompact (.v 9) 0x1234),
    (32, 0xf2345609, .callCompact 0xF23456),
    (32, 0xc, .retCompact),
    (32, 0xf7068581, .addCompact (.v 5) (.reg (.s 6)) (.imm 55)),
    (32, 0xf7068584, .subCompact (.v 5) (.reg (.s 6)) (.imm 55)),
    (32, 0xf7068585, .mulCompact (.v 5) (.reg (.s 6)) (.imm 55)),
    (32, 0xf7068588, .mulhiCompact (.v 5) (.reg (.s 6)) (.imm 55)),
    (32, 0xf7068589, .mulhuCompact (.v 5) (.reg (.s 6)) (.imm 55)),
    (32, 0x6858d, .absCompact (.v 5) (.reg (.s 6))),
    (32, 0xf7068590, .minCompact (.v 5) (.reg (.s 6)) (.imm 55)),
    (32, 0xf7068591, .maxCompact (.v 5) (.reg (.s 6)) (.imm 55)),
    (32, 0xf7068594, .minuCompact (.v 5) (.reg (.s 6)) (.imm 55)),
    (32, 0xf7068595, .maxuCompact (.v 5) (.reg (.s 6)) (.imm 55)),
    (32, 0xf7068598, .andCompact (.v 5) (.reg (.s 6)) (.imm 55)),
    (32, 0xf7068599, .orCompact (.v 5) (.reg (.s 6)) (.imm 55)),
    (32, 0xf706859c, .xorCompact (.v 5) (.reg (.s 6)) (.imm 55)),
    (32, 0xf706859d, .andnCompact (.v 5) (.reg (.s 6)) (.imm 55))] = true := by decide +kernel

theorem test_words_compact_2 : readBack [
    (32, 0xf70685a0, .shlCompact (.v 5) (.reg (.s 6)) (.imm 55)),
    (32, 0xf70685a1, .shrCompact (.v 5) (.reg (.s 6)) (.imm 55)),
    (32, 0xf70685a4, .sarCompact (.v 5) (.reg (.s 6)) (.imm 55)),
    (32, 0xf70685a5, .rolCompact (.v 5) (.reg (.s 6)) (.imm 55)),
    (32, 0x685a8, .clzCompact (.v 5) (.reg (.s 6))),
    (32, 0x685a9, .ctzCompact (.v 5) (.reg (.s 6))),
    (32, 0x685ac, .popcCompact (.v 5) (.reg (.s 6))),
    (32, 0x685ad, .brevCompact (.v 5) (.reg (.s 6))),
    (32, 0xf70685b9, .mskbCompact (.v 5) (.reg (.s 6)) (.imm 55)),
    (32, 0xf70685c0, .sextCompact (.v 5) (.reg (.s 6)) (.imm 55)),
    (32, 0x685c1, .movCompact (.v 5) (.reg (.s 6))),
    (32, 0x470685e1, .faddCompact (.v 5) (.reg (.s 6)) (.reg (.a 7))),
    (32, 0x470685e4, .fsubCompact (.v 5) (.reg (.s 6)) (.reg (.a 7))),
    (32, 0x470685e5, .fmulCompact (.v 5) (.reg (.s 6)) (.reg (.a 7))),
    (32, 0x470685e9, .fminCompact (.v 5) (.reg (.s 6)) (.reg (.a 7))),
    (32, 0x470685ec, .fmaxCompact (.v 5) (.reg (.s 6)) (.reg (.a 7)))] = true := by decide +kernel

theorem test_words_01_1 : readBack [
    (64, 0x400100f7068506, .add64 ⟨.i32, true⟩ (.v 5) (.reg (.s 6)) (.imm 55)),
    (96, 0x89abcdef00010100ff068507, .add96 ⟨.u32, false⟩ (.v 5) (.reg (.s 6)) 0x89ABCDEF),
    (64, 0x410200f7068506, .sub64 ⟨.u32, true⟩ (.v 5) (.reg (.s 6)) (.imm 55)),
    (96, 0x89abcdef00010200ff068507, .sub96 ⟨.u32, false⟩ (.v 5) (.reg (.s 6)) 0x89ABCDEF),
    (64, 0x300f7068506, .mul64 (.v 5) (.reg (.s 6)) (.imm 55)),
    (96, 0x89abcdef00000300ff478507, .mul96 (.v 5) (.reg (.a 7)) 0x89ABCDEF),
    (64, 0x400f7068506, .mulhi64 (.v 5) (.reg (.s 6)) (.imm 55)),
    (96, 0x89abcdef00000400ff478507, .mulhi96 (.v 5) (.reg (.a 7)) 0x89ABCDEF),
    (64, 0x500f7068506, .mulhu64 (.v 5) (.reg (.s 6)) (.imm 55)),
    (96, 0x89abcdef00000500ff478507, .mulhu96 (.v 5) (.reg (.a 7)) 0x89ABCDEF),
    (64, 0x40070000068506, .abs64 true (.v 5) (.reg (.s 6))),
    (64, 0x800f7068506, .min64 (.v 5) (.reg (.s 6)) (.imm 55)),
    (96, 0x89abcdef00000800ff478507, .min96 (.v 5) (.reg (.a 7)) 0x89ABCDEF),
    (64, 0x900f7068506, .max64 (.v 5) (.reg (.s 6)) (.imm 55)),
    (96, 0x89abcdef00000900ff478507, .max96 (.v 5) (.reg (.a 7)) 0x89ABCDEF),
    (64, 0xa00f7068506, .minu64 (.v 5) (.reg (.s 6)) (.imm 55)),
    (96, 0x89abcdef00000a00ff478507, .minu96 (.v 5) (.reg (.a 7)) 0x89ABCDEF),
    (64, 0xb00f7068506, .maxu64 (.v 5) (.reg (.s 6)) (.imm 55)),
    (96, 0x89abcdef00000b00ff478507, .maxu96 (.v 5) (.reg (.a 7)) 0x89ABCDEF),
    (64, 0xc00f7068506, .and64 (.v 5) (.reg (.s 6)) (.imm 55))] = true := by decide +kernel

theorem test_words_01_2 : readBack [
    (96, 0x89abcdef00000c00ff478507, .and96 (.v 5) (.reg (.a 7)) 0x89ABCDEF),
    (64, 0xd00f7068506, .or64 (.v 5) (.reg (.s 6)) (.imm 55)),
    (96, 0x89abcdef00000d00ff478507, .or96 (.v 5) (.reg (.a 7)) 0x89ABCDEF),
    (64, 0xe00f7068506, .xor64 (.v 5) (.reg (.s 6)) (.imm 55)),
    (96, 0x89abcdef00000e00ff478507, .xor96 (.v 5) (.reg (.a 7)) 0x89ABCDEF),
    (64, 0xf00f7068506, .andn64 (.v 5) (.reg (.s 6)) (.imm 55)),
    (96, 0x89abcdef00000f00ff478507, .andn96 (.v 5) (.reg (.a 7)) 0x89ABCDEF),
    (64, 0x1000f7068506, .shl64 (.v 5) (.reg (.s 6)) (.imm 55)),
    (96, 0x89abcdef00001000ff478507, .shl96 (.v 5) (.reg (.a 7)) 0x89ABCDEF),
    (64, 0x1100f7068506, .shr64 (.v 5) (.reg (.s 6)) (.imm 55)),
    (96, 0x89abcdef00001100ff478507, .shr96 (.v 5) (.reg (.a 7)) 0x89ABCDEF),
    (64, 0x1200f7068506, .sar64 (.v 5) (.reg (.s 6)) (.imm 55)),
    (96, 0x89abcdef00001200ff478507, .sar96 (.v 5) (.reg (.a 7)) 0x89ABCDEF),
    (64, 0x1300f7068506, .rol64 (.v 5) (.reg (.s 6)) (.imm 55)),
    (96, 0x89abcdef00001300ff478507, .rol96 (.v 5) (.reg (.a 7)) 0x89ABCDEF),
    (64, 0x140000068506, .clz64 (.v 5) (.reg (.s 6))),
    (64, 0x150000068506, .ctz64 (.v 5) (.reg (.s 6))),
    (64, 0x160000068506, .popc64 (.v 5) (.reg (.s 6))),
    (64, 0x170000068506, .brev64 (.v 5) (.reg (.s 6))),
    (64, 0x1d00f7068506, .mskb64 (.v 5) (.reg (.s 6)) (.imm 55))] = true := by decide +kernel

theorem test_words_01_3 : readBack [
    (96, 0x89abcdef00001d00ff478507, .mskb96 (.v 5) (.reg (.a 7)) 0x89ABCDEF),
    (64, 0x2000f7068506, .sext64 (.v 5) (.reg (.s 6)) (.imm 55)),
    (96, 0x89abcdef00002000ff478507, .sext96 (.v 5) (.reg (.a 7)) 0x89ABCDEF),
    (64, 0x210000068506, .mov64 (.v 5) (.reg (.s 6))),
    (64, 0x647f7068506, .mad64 (.v 5) (.reg (.s 6)) (.imm 55) (.reg (.a 7))),
    (96, 0x89abcdef00000647ff068507, .mad96 (.v 5) (.reg (.s 6)) (.reg (.a 7)) 0x89ABCDEF),
    (64, 0x1847f7068506, .bfx64 (.v 5) (.reg (.s 6)) (.imm 55) (.reg (.a 7))),
    (96, 0x89abcdef00001847ff068507, .bfx96 (.v 5) (.reg (.s 6)) (.reg (.a 7)) 0x89ABCDEF),
    (64, 0x1947f7068506, .bfi64 (.v 5) (.reg (.s 6)) (.imm 55) (.reg (.a 7))),
    (96, 0x89abcdef00001947ff068507, .bfi96 (.v 5) (.reg (.s 6)) (.reg (.a 7)) 0x89ABCDEF),
    (64, 0x1a47f7068506, .sel64 (.v 5) (.reg (.s 6)) (.imm 55) (.reg (.a 7))),
    (96, 0x89abcdef00001a47ff068507, .sel96 (.v 5) (.reg (.s 6)) (.reg (.a 7)) 0x89ABCDEF),
    (64, 0x1e47f7068506, .addc64 (.v 5) (.reg (.s 6)) (.imm 55) (.reg (.a 7))),
    (96, 0x89abcdef00001e47ff068507, .addc96 (.v 5) (.reg (.s 6)) (.reg (.a 7)) 0x89ABCDEF),
    (64, 0x1f47f7068506, .subc64 (.v 5) (.reg (.s 6)) (.imm 55) (.reg (.a 7))),
    (96, 0x89abcdef00001f47ff068507, .subc96 (.v 5) (.reg (.s 6)) (.reg (.a 7)) 0x89ABCDEF),
    (64, 0x3011b00f7060506, .cmp64 .le .u32 (.s 5) (.reg (.s 6)) (.imm 55)),
    (96, 0x89abcdef05001b00ff060507, .cmp96 .ge .i32 (.s 5) (.reg (.s 6)) 0x89ABCDEF),
    (64, 0x4011c00f7060506, .cmpm64 .gt .u32 (.s 5) (.reg (.s 6)) (.imm 55)),
    (96, 0x89abcdef00001c00ff060507, .cmpm96 .eq .i32 (.s 5) (.reg (.s 6)) 0x89ABCDEF)] = true := by decide +kernel

theorem test_words_02 : readBack [
    (64, 0x920001340000000a, .br64 0x9234),
    (96, 0x89abcdef00000100ff00000b, .br96 0x89ABCDEF),
    (64, 0x120002340047000a, .brz64 (.a 7) 0x1234),
    (96, 0x89abcdef00000200ff85000b, .brz96 (.v 5) 0x89ABCDEF),
    (64, 0x120003340047000a, .brnz64 (.a 7) 0x1234),
    (96, 0x89abcdef00000300ff85000b, .brnz96 (.v 5) 0x89ABCDEF),
    (64, 0x120204340006000a, .brm64 .none 6 0x1234),
    (96, 0x89abcdef00030400ff06000b, .brm96 .lane 6 0x89ABCDEF),
    (64, 0x120005340000880a, .call64 (.v 4) 0x1234),
    (96, 0x89abcdef00000500ff00080b, .call96 (.s 4) 0x89ABCDEF),
    (64, 0x600000a880a, .calli (.v 4) (.s 5)),
    (64, 0x70000be000a, .ret64 (.v 31)),
    (64, 0x800003e000a, .jmpi (.s 31)),
    (64, 0xc000000000a, .nop64),
    (64, 0x10900000c030a, .iterInit 1 (.s 3) ⟨6⟩),
    (64, 0x12010a340000000a, .iterNext64 1 0x1234),
    (96, 0x89abcdef00000a00ff00000b, .iterNext96 0 0x89ABCDEF),
    (64, 0x10b000000000a, .iterStep 1)] = true := by decide +kernel

theorem test_words_03_1 : readBack [
    (64, 0x20100f706850e, .fadd64 (.v 5) (.reg (.s 6)) (.imm 55)),
    (96, 0x89abcdef00020100ff47850f, .fadd96 (.v 5) (.reg (.a 7)) 0x89ABCDEF),
    (64, 0x20200f706850e, .fsub64 (.v 5) (.reg (.s 6)) (.imm 55)),
    (96, 0x89abcdef00020200ff47850f, .fsub96 (.v 5) (.reg (.a 7)) 0x89ABCDEF),
    (64, 0x20300f706850e, .fmul64 (.v 5) (.reg (.s 6)) (.imm 55)),
    (96, 0x89abcdef00020300ff47850f, .fmul96 (.v 5) (.reg (.a 7)) 0x89ABCDEF),
    (64, 0x20500f706850e, .fmin64 (.v 5) (.reg (.s 6)) (.imm 55)),
    (96, 0x89abcdef00020500ff47850f, .fmin96 (.v 5) (.reg (.a 7)) 0x89ABCDEF),
    (64, 0x20600f706850e, .fmax64 (.v 5) (.reg (.s 6)) (.imm 55)),
    (96, 0x89abcdef00020600ff47850f, .fmax96 (.v 5) (.reg (.a 7)) 0x89ABCDEF),
    (64, 0x20d00f706850e, .fdiv64 (.v 5) (.reg (.s 6)) (.imm 55)),
    (96, 0x89abcdef00020d00ff47850f, .fdiv96 (.v 5) (.reg (.a 7)) 0x89ABCDEF),
    (64, 0x20447f706850e, .ffma64 (.v 5) (.reg (.s 6)) (.imm 55) (.reg (.a 7))),
    (96, 0x89abcdef00020447ff06850f, .ffma96 (.v 5) (.reg (.s 6)) (.reg (.a 7)) 0x89ABCDEF),
    (64, 0x6020700f706850e, .fcmp64 .un (.v 5) (.reg (.s 6)) (.imm 55)),
    (96, 0x89abcdef01020700ff06850f, .fcmp96 .ne (.v 5) (.reg (.s 6)) 0x89ABCDEF),
    (64, 0x7020800f706050e, .fcmpm64 .ord (.s 5) (.reg (.s 6)) (.imm 55)),
    (96, 0x89abcdef02020800ff06050f, .fcmpm96 .lt (.s 5) (.reg (.s 6)) 0x89ABCDEF),
    (64, 0x209000006850e, .fclass (.v 5) (.reg (.s 6))),
    (64, 0x20a000006850e, .frcp (.v 5) (.reg (.s 6)))] = true := by decide +kernel

theorem test_words_03_2 : readBack [
    (64, 0x20b000006850e, .frsq (.v 5) (.reg (.s 6))),
    (64, 0x20c000006850e, .fsqrt (.v 5) (.reg (.s 6))),
    (64, 0x20e000006850e, .fexp2 (.v 5) (.reg (.s 6))),
    (64, 0x20f000006850e, .flog2 (.v 5) (.reg (.s 6))),
    (64, 0x30210000006850e, .frnd .rdn (.v 5) (.reg (.s 6))),
    (64, 0x41111000006850e, .f2i .dyn .u32 (.v 5) (.reg (.s 6))),
    (64, 0xa12000006850e, .i2f .u32 (.v 5) (.reg (.s 6))),
    (64, 0x5513000006850e, .fcvt ⟨true, .f32, .e4m3⟩ (.v 5) (.reg (.s 6))),
    (64, 0x171447f706850e, .f4xp64 (.v 5) (.reg (.s 6)) (.imm 55) (.reg (.a 7))),
    (96, 0x89abcdef00171447ff06850f, .f4xp96 (.v 5) (.reg (.s 6)) (.reg (.a 7)) 0x89ABCDEF),
    (64, 0x3a1547f706850e, .f4xu64 (.v 5) (.reg (.s 6)) (.imm 55) (.reg (.a 7))),
    (96, 0x89abcdef003a1547ff06850f, .f4xu96 (.v 5) (.reg (.s 6)) (.reg (.a 7)) 0x89ABCDEF),
    (64, 0x1716000006850e, .scle (.v 5) (.reg (.s 6))),
    (64, 0x31700f706850e, .hadd264 .bf16 (.v 5) (.reg (.s 6)) (.imm 55)),
    (96, 0x89abcdef00041700ff06850f, .hadd296 .f16 (.v 5) (.reg (.s 6)) 0x89ABCDEF),
    (64, 0x31800f706850e, .hmul264 .bf16 (.v 5) (.reg (.s 6)) (.imm 55)),
    (96, 0x89abcdef00041800ff06850f, .hmul296 .f16 (.v 5) (.reg (.s 6)) 0x89ABCDEF),
    (64, 0x41947f706850e, .hfma264 .f16 (.v 5) (.reg (.s 6)) (.imm 55) (.reg (.a 7))),
    (96, 0x89abcdef00031947ff06850f, .hfma296 .bf16 (.v 5) (.reg (.s 6)) (.reg (.a 7)) 0x89ABCDEF),
    (64, 0x41a000006850e, .fkey .f16 (.v 5) (.reg (.s 6)))] = true := by decide +kernel

theorem test_words_04 : readBack [
    (64, 0x100f7064512, .proma64 (.a 5) (.s 6) (.imm 55)),
    (96, 0x89abcdef00000100fff74513, .proma96 (.a 5) (.imm 55) 0x89ABCDEF),
    (64, 0x20000478512, .promv (.v 5) (.a 7)),
    (64, 0x30000890812, .demf (.s 8) 9),
    (64, 0x40000890812, .demc (.s 8) 9),
    (64, 0x26050000000412, .movxr .tick (.s 4)),
    (64, 0x10600008a0012, .movxw .meet (.v 10)),
    (64, 0x1200073400000012, .meet64 0x1234),
    (96, 0x89abcdef00000700ff000013, .meet96 0x89ABCDEF)] = true := by decide +kernel

theorem test_words_08 : readBack [
    (64, 0x122b013441048222, .ld64 ⟨false, .acq, .dev, .b64⟩ (.v 2) (.s 2) (.reg (.a 1)) 0x1234),
    (96, 0x89abcdef00aa0100ff048223, .ld96 ⟨true, .acq, .dev, .b32⟩ (.v 2) (.s 2) none 0x89ABCDEF),
    (64, 0x925c0234c3868422, .st64 ⟨.rel, .sys, .b128⟩ (.v 4) (.v 3) (.imm 3) 0x9234),
    (96, 0x89abcdef0011020083060423, .st96 ⟨.rlx, .dom, .b16⟩ (.s 4) (.s 3) (some (.v 3)) 0x89ABCDEF),
    (64, 0x1202033403008422, .ldl64 ⟨.rlx, .frm, .b32⟩ (.v 4) (.reg (.s 3)) 0x1234),
    (96, 0x89abcdef00020300ff008423, .ldl96 ⟨.rlx, .frm, .b32⟩ (.v 4) none 0x89ABCDEF),
    (64, 0x1200043403008422, .stl64 ⟨.rlx, .frm, .b8⟩ (.v 4) (.reg (.s 3)) 0x1234),
    (96, 0x89abcdef0003040043008423, .stl96 ⟨.rlx, .frm, .b64⟩ (.v 4) (some (.a 3)) 0x89ABCDEF),
    (64, 0x1208053441040022, .pfch64 .dev (.s 2) (.reg (.a 1)) 0x1234),
    (96, 0x89abcdef00000500ff040023, .pfch96 .frm (.s 2) none 0x89ABCDEF)] = true := by decide +kernel

theorem test_words_09 : readBack [
    (64, 0x7b010ac0848226, .aadd64 ⟨.ar, .sys, .b64⟩ (.v 2) (.v 2) (.imm 0) (.reg (.s 10))),
    (96, 0x89abcdef004201c1ff040227, .aadd96 ⟨.rel, .frm, .b32⟩ (.s 2) (.s 2) none (.imm 1) 0x89ABCDEF),
    (64, 0x7b030ac0848226, .amin64 ⟨.ar, .sys, .b64⟩ (.v 2) (.v 2) (.imm 0) (.reg (.s 10))),
    (96, 0x89abcdef004203c1ff040227, .amin96 ⟨.rel, .frm, .b32⟩ (.s 2) (.s 2) none (.imm 1) 0x89ABCDEF),
    (64, 0x7b040ac0848226, .amax64 ⟨.ar, .sys, .b64⟩ (.v 2) (.v 2) (.imm 0) (.reg (.s 10))),
    (96, 0x89abcdef004204c1ff040227, .amax96 ⟨.rel, .frm, .b32⟩ (.s 2) (.s 2) none (.imm 1) 0x89ABCDEF),
    (64, 0x7b050ac0848226, .aand64 ⟨.ar, .sys, .b64⟩ (.v 2) (.v 2) (.imm 0) (.reg (.s 10))),
    (96, 0x89abcdef004205c1ff040227, .aand96 ⟨.rel, .frm, .b32⟩ (.s 2) (.s 2) none (.imm 1) 0x89ABCDEF),
    (64, 0x7b060ac0848226, .aor64 ⟨.ar, .sys, .b64⟩ (.v 2) (.v 2) (.imm 0) (.reg (.s 10))),
    (96, 0x89abcdef004206c1ff040227, .aor96 ⟨.rel, .frm, .b32⟩ (.s 2) (.s 2) none (.imm 1) 0x89ABCDEF),
    (64, 0x7b070ac0848226, .axor64 ⟨.ar, .sys, .b64⟩ (.v 2) (.v 2) (.imm 0) (.reg (.s 10))),
    (96, 0x89abcdef004207c1ff040227, .axor96 ⟨.rel, .frm, .b32⟩ (.s 2) (.s 2) none (.imm 1) 0x89ABCDEF),
    (64, 0x7b080ac0848226, .axch64 ⟨.ar, .sys, .b64⟩ (.v 2) (.v 2) (.imm 0) (.reg (.s 10))),
    (96, 0x89abcdef004208c1ff040227, .axch96 ⟨.rel, .frm, .b32⟩ (.s 2) (.s 2) none (.imm 1) 0x89ABCDEF),
    (64, 0x2a0209c0848226, .afadd64 ⟨.acq, .dev⟩ (.v 2) (.v 2) (.imm 0) (.reg (.s 9))),
    (96, 0x89abcdef0002020901848227, .afadd96 ⟨.rlx, .frm⟩ (.v 2) (.v 2) (some (.s 1)) (.reg (.s 9)) 0x89ABCDEF),
    (64, 0x85120984c0828126, .acas64 ⟨.rlx, .dom, .b32⟩ (.v 1) (.v 1) (.imm 0) (.reg (.v 4)) (.reg (.v 5))),
    (96, 0x89abcdef8c040988ff828427, .acas96 ⟨.rlx, .frm, .b128⟩ (.v 4) (.v 1) none (.reg (.v 8)) (.reg (.v 12)) 0x89ABCDEF)] = true := by decide +kernel

theorem test_words_0a_to_0c : readBack [
    (64, 0x100ba02012a, .strmOpen (.s 1) ⟨1⟩ 2),
    (64, 0x20000bf002a, .strmClose 7),
    (64, 0x1801000000002e, .fence .sys),
    (64, 0x102004784002e, .cfl true (.v 2) (.reg (.a 7))),
    (64, 0x3f000100000a0432, .copy (.s 4) ⟨5⟩ 63),
    (64, 0x3f000200000a0432, .gath (.s 4) ⟨5⟩ 63),
    (64, 0x3f000300000a0432, .scat (.s 4) ⟨5⟩ 63),
    (64, 0x400000a0432, .waitany (.s 4) ⟨5⟩),
    (64, 0x500000a0432, .waitall (.s 4) ⟨5⟩),
    (64, 0x600000a0432, .ffr (.s 4) ⟨5⟩),
    (64, 0x700000a0032, .tagclr ⟨5⟩),
    (64, 0x282b08000c080632, .mwait .dev 40 (.s 3) ⟨4⟩ ⟨6⟩),
    (64, 0x3e00090000000432, .jobst (.s 4) 62)] = true := by decide +kernel

theorem test_words_10_and_11_1 : readBack [
    (64, 0x1200013400f70042, .gcall64 (.imm 55) 0x1234),
    (96, 0x89abcdef00000100ff060043, .gcall96 (.reg (.s 6)) 0x89ABCDEF),
    (64, 0x1010088850042, .gcallI (.v 4) (.reg (.v 5))),
    (64, 0x20000000042, .gret),
    (64, 0x300d4000442, .grow64 (.s 4) (.imm 20)),
    (96, 0x89abcdef00000300ff000443, .grow96 (.s 4) 0x89ABCDEF),
    (64, 0x40003000042, .shrink64 (.s 3)),
    (96, 0x89abcdef00000400ff000043, .shrink96 0x89ABCDEF),
    (64, 0xf00010003000446, .obres64 (.s 4) 15 3),
    (96, 0x89abcdef09000100ff000447, .obres96 (.s 4) 9 0x89ABCDEF),
    (64, 0xe00020000000046, .obrel 14),
    (64, 0xd00030000060446, .obldS (.s 4) 13 ⟨3⟩),
    (64, 0xd01030000860446, .obldV (.s 4) 13 ⟨3⟩),
    (64, 0x85000400d0b3f146, .mma64 (some 5) 0xF1 ⟨3, 11⟩ (.imm 16)),
    (96, 0x89abcdef00000400ffb30747, .mma96 none 7 ⟨3, 11⟩ 0x89ABCDEF),
    (64, 0x85000500d0b3f146, .mmas64 (some 5) 0xF1 ⟨3, 11⟩ (.imm 16)),
    (96, 0x89abcdef00000500ffb30747, .mmas96 none 7 ⟨3, 11⟩ 0x89ABCDEF),
    (64, 0x6000000f146, .accz 0xF1),
    (64, 0x7000706f146, .accld64 0xF1 ⟨3⟩ (.s 7)),
    (96, 0x89abcdef00000700ff06f147, .accld96 0xF1 ⟨3⟩ 0x89ABCDEF)] = true := by decide +kernel

theorem test_words_10_and_11_2 : readBack [
    (64, 0x8000706f146, .accst64 0xF1 ⟨3⟩ (.s 7)),
    (96, 0x89abcdef00000800ff06f147, .accst96 0xF1 ⟨3⟩ 0x89ABCDEF),
    (64, 0x9f1c7008446, .accrd64 (.v 4) 0xF1 (.imm 7)),
    (96, 0x89abcdef000009f1ff008447, .accrd96 (.v 4) 0xF1 0x89ABCDEF),
    (64, 0x6000a0003000446, .sign64 (.s 4) 6 3),
    (96, 0x89abcdef06000a00ff000447, .sign96 (.s 4) 6 0x89ABCDEF)] = true := by decide +kernel

theorem test_words_12_and_14 : readBack [
    (64, 0x75501080684834a, .vdot ⟨true, .gt, .e4m3⟩ 7 (.v 3) (.v 2) ⟨3⟩ ⟨4⟩),
    (64, 0x2000084834a, .vtest (.v 3) (.v 4)),
    (64, 0x3000004034a, .vkey (.s 3) (.s 4)),
    (64, 0x704000084834a, .vhdr .f4x (.v 3) (.v 2)),
    (64, 0x60005000004004a, .thsBind 6 ⟨2⟩),
    (64, 0x60006008300844a, .thsRaise64 (.v 2) 6 (.v 3)),
    (96, 0x89abcdef06000600ff00044b, .thsRaise96 (.s 2) 6 0x89ABCDEF),
    (64, 0x60007000000044a, .thsRead (.s 2) 6),
    (64, 0x10010000020152, .bar64 .dom (.s 1) ⟨1⟩),
    (64, 0x8922020000830252, .reduce ⟨.maxi, .f32⟩ (some 9) (.s 2) (.v 3)),
    (64, 0x78030000438252, .scan ⟨true, .xor, .i32⟩ none (.v 2) (.a 3)),
    (64, 0x2040044038252, .shfl .down (.v 2) (.s 3) (.reg (.a 4))),
    (64, 0x8901050000848252, .bsort true (some 9) (.v 1) ⟨2⟩),
    (64, 0x60086848252, .bmerge false none (.v 1) ⟨2⟩ ⟨3⟩),
    (64, 0x3f000700000a0452, .coll (.s 4) ⟨5⟩ 63)] = true := by decide +kernel

theorem test_words_38_and_3a : readBack [
    (64, 0xc8000100000000e2, .trap64 200),
    (64, 0x200000000e2, .eret),
    (64, 0x300c60504e2, .uimask (.s 4) (.s 5) (.imm 6)),
    (64, 0x400000000e2, .pulse),
    (64, 0xc9000500c60608e2, .svc64 (.s 2) ⟨3⟩ (.imm 6) 201),
    (96, 0x89abcdefc9000500ff0608e3, .svc96 (.s 2) ⟨3⟩ 201 0x89ABCDEF),
    (64, 0x600000000e2, .ckpt64),
    (64, 0xca000700000000e2, .bkpt 202),
    (64, 0x100000604ea, .launch (.s 2) ⟨3⟩),
    (64, 0x20a080704ea, .spawn (.s 2) 7 ⟨4⟩ ⟨5⟩),
    (64, 0x300060504ea, .waitfree (.s 4) 5 6),
    (64, 0x400000604ea, .join (.s 4) ⟨3⟩),
    (64, 0x500000604ea, .leave (.s 4) ⟨3⟩),
    (64, 0x600000000ea, .exit64),
    (64, 0x700000004ea, .migrateRk (.s 4)),
    (64, 0x10700000004ea, .migrateHm (.s 4)),
    (64, 0x800000000ea, .yield)] = true := by decide +kernel


/-! ## What is not an instruction: ill-formed terms and illegal words (R94, R95, R103) -/

theorem test_illformed_a0 : (Instr.addCompact (.a 0) (.imm 1) (.imm 1)).wellFormed = false ∧
    (Instr.addCompact (.a 1) (.reg (.a 0)) (.imm 1)).wellFormed = true ∧ (Instr.ldl64 ⟨.rlx, .frm, .b32⟩ (.a 0) (.imm 0) 0).wellFormed = false ∧
    (Instr.movxr .xb (.a 0)).wellFormed = false := by decide
theorem test_illformed_saturation : (Instr.add64 ⟨.i32, true⟩ (.s 1) (.reg (.a 3)) (.imm 1)).wellFormed = false ∧
    (Instr.sub64 ⟨.i32, true⟩ (.s 1) (.imm 1) (.reg (.a 3))).wellFormed = false ∧
    (Instr.add64 ⟨.i32, false⟩ (.s 1) (.reg (.a 3)) (.imm 1)).wellFormed = true := by decide
theorem test_illformed_conversion : (Instr.fcvt ⟨false, .f16, .f16⟩ (.s 1) (.imm 0)).wellFormed = false ∧
    (Instr.fcvt ⟨true, .f16, .f32⟩ (.s 1) (.imm 0)).wellFormed = false ∧ (Instr.fcvt ⟨true, .f32, .f16⟩ (.s 1) (.imm 0)).wellFormed = true := by decide
theorem test_illformed_special : (Instr.movxr .epc (.s 3)).wellFormed = false ∧ (Instr.movxr .epc (.a 2)).wellFormed = false ∧
    (Instr.movxr .epc (.s 2)).wellFormed = true ∧ (Instr.movxw .tick (.s 2)).wellFormed = false ∧ (Instr.movxw .epc (.v 3)).wellFormed = false ∧
    (Instr.movxw .nfmt (.v 3)).wellFormed = true := by decide
theorem test_illformed_order : (Instr.ld64 ⟨false, .rel, .dev, .b32⟩ (.s 1) (.s 1) (.imm 0) 0).wellFormed = false ∧
    (Instr.st64 ⟨.acq, .dev, .b32⟩ (.s 1) (.s 1) (.imm 0) 0).wellFormed = false ∧
    (Instr.ld64 ⟨true, .acq, .dev, .b64⟩ (.s 2) (.s 1) (.imm 0) 0).wellFormed = false ∧
    (Instr.ld64 ⟨true, .acq, .dev, .b32⟩ (.s 2) (.s 1) (.imm 0) 0).wellFormed = true ∧
    (Instr.ldl64 ⟨.ar, .frm, .b32⟩ (.s 1) (.imm 0) 0).wellFormed = false ∧ (Instr.stl64 ⟨.ar, .frm, .b32⟩ (.s 1) (.imm 0) 0).wellFormed = false := by decide
theorem test_illformed_width : (Instr.ld64 ⟨false, .rlx, .frm, .b64⟩ (.s 3) (.s 1) (.imm 0) 0).wellFormed = false ∧
    (Instr.ld64 ⟨false, .rlx, .frm, .b128⟩ (.v 6) (.s 1) (.imm 0) 0).wellFormed = false ∧
    (Instr.st64 ⟨.rlx, .frm, .b64⟩ (.a 2) (.s 1) (.imm 0) 0).wellFormed = false ∧
    (Instr.ld64 ⟨false, .rlx, .frm, .b128⟩ (.v 8) (.s 1) (.imm 0) 0).wellFormed = true := by decide
theorem test_illformed_atomic : (Instr.aadd64 ⟨.rlx, .dev, .b8⟩ (.s 1) (.s 1) (.imm 0) (.imm 1)).wellFormed = false ∧
    (Instr.axch64 ⟨.rlx, .dev, .b128⟩ (.s 4) (.s 1) (.imm 0) (.imm 1)).wellFormed = false ∧
    (Instr.acas64 ⟨.rlx, .dev, .b128⟩ (.s 4) (.s 1) (.imm 0) (.reg (.s 9)) (.imm 1)).wellFormed = false ∧
    (Instr.acas64 ⟨.rlx, .dev, .b128⟩ (.s 4) (.s 1) (.imm 0) (.reg (.s 8)) (.imm 1)).wellFormed = true := by decide
theorem test_illformed_scope : (Instr.pfch64 .dom (.s 1) (.imm 0) 0).wellFormed = false ∧ (Instr.mwait .frm 3 (.s 1) ⟨2⟩ ⟨3⟩).wellFormed = false ∧
    (Instr.bar64 .sys (.s 1) ⟨1⟩).wellFormed = false := by decide
theorem test_illformed_lanes : (Instr.vdot ⟨false, .sign, .bf16⟩ 1 (.s 1) (.s 1) ⟨2⟩ ⟨3⟩).wellFormed = false ∧
    (Instr.reduce ⟨.and, .f32⟩ none (.s 2) (.v 3)).wellFormed = false ∧ (Instr.reduce ⟨.maxi, .i32⟩ none (.s 3) (.v 3)).wellFormed = false ∧
    (Instr.reduce ⟨.maxi, .i32⟩ none (.a 2) (.v 3)).wellFormed = false ∧ (Instr.scan ⟨false, .mini, .i32⟩ none (.v 2) (.v 3)).wellFormed = false ∧
    (Instr.scan ⟨false, .xor, .f32⟩ none (.v 2) (.v 3)).wellFormed = false := by decide

/-- Why words are no instruction. -/
noncomputable def rejection (ws : List Word) : Option Reject :=
  match decodeWords ws with
  | .error r => some r
  | .ok _ => none

theorem test_reject_opcode : ([[0], [0xFFFFFFFF, 0, 0], [0x02, 0], [0x106, 0x0000FF00]].map rejection) =
    [some .opcode, some .opcode, some .opcode, some .opcode] := by decide +kernel
theorem test_reject_unused : rejection [0x00000101] = some .field ∧ rejection [0x0106858D] = some .field ∧
    rejection [0xF7068506, 0x01400100] = some .field ∧ rejection [0xF7068506, 0x00010300] = some .field := by decide +kernel
theorem test_reject_destination : rejection [0xF706C081] = some .operand ∧ rejection [0xF7064081] = some .combination := by decide +kernel
theorem test_reject_modifier : rejection [0xF7068506, 0x00020100] = some .modifier := by decide +kernel
theorem test_reject_literal_marker : rejection [0xFE068507, 0x00010100, 0x89ABCDEF] = some .field ∧
    rejection [0xFF068507, 0x00010100, 0x89ABCDEF] = none := by decide +kernel
theorem test_reject_truncated : rejection [] = some .truncated ∧ rejection [0xF7068506] = some .truncated ∧
    rejection [0xFF068507, 0x00010100] = some .truncated := by decide +kernel

/-! ## States that meet the hypotheses of the statements: encodings, the step, invariants, registers -/

theorem wit_EncodedInstructionsDecode : (Instr.sub64 ⟨.u32, true⟩ (.s 3) (.reg (.s 4)) (.imm 0x3F)).hasWords = true ∧
    (Instr.sub64 ⟨.u32, true⟩ (.s 3) (.reg (.s 4)) (.imm 0x3F)).wellFormed = true := by decide +kernel
theorem wit_DecodedWordsEncode : decodeWords [0x0000000A, 0xFF0001FF] = .ok (.br64 0xFFFF, 2) := by decide +kernel

/-- After reset, with a MOV of the affine 0 in text: what its thread is about to issue. -/
def movS : State := State.reset.withFetchWord 32 0x07868581
def movC : Ctx := firstCtx 0x4000001000 0

theorem wit_StepRunsDecoded : movS.agenda = .instructionFetch firstKey :: [] ∧
    State.candidate { movS with agenda := [], issue := none, fetched := none } firstKey =
      some (movC, 1, .words 0x4000001000 [0x07868581]) ∧
    ((State.setCtx { movS with agenda := [], issue := none, fetched := none } movC).noteIssue firstKey).stopAt movC 1 0x4000001000 = none ∧
    decodeWords [0x07868581] = .ok (.addCompact (.v 5) (.reg (.v 6)) (.reg (.s 7)), 1) := by decide +kernel
/-- A thread at its meeting address, and three held lanes, the third ahead. -/
def meetC : Ctx := rodCtx fun ar => ar.modLane 0 fun l => { l with meet := text }
def heldAr : Arch :=
  { (gangCtx 3).arch with lanes := (gangCtx 3).arch.lanes.mapIdx fun n l => { l with held := true, meet := text, pc := if n = 2 then text + 8 else text } }
theorem wit_LiveLanesFetch : movC.away = false ∧ movC.arch.overlay = false ∧
    movS.window? movC.launch movC.key.core = some ⟨1, 0, 0x4000001000, 4096, [(0, 0x81), (1, 0x85), (2, 0x86), (3, 0x07)], false⟩ ∧
    1 = lengthOf (BitVec.ofNat 32 (Mem.read [(0, 0x81), (1, 0x85), (2, 0x86), (3, 0x07)] 0 4)) ∧
    (movS.ctx? firstKey).isSome = true ∧ (movS.candidate firstKey).isSome = true ∧
    (meetC.kind = .rod ∧ (meetC.arch.lane 0).meet ≠ 0 ∧ (meetC.arch.lane 0).pc = (meetC.arch.lane 0).meet ∧ meetC.select.2 = 1) ∧
    (heldAr.lanes.length ≤ 64 ∧ (∀ n, n < 64 → (heldAr.lane n).live = true → (heldAr.lane n).held = true) ∧ (heldAr.lane 0).live = true ∧
      (heldAr.lane 0).pc.toNat ≤ (heldAr.lane 1).pc.toNat ∧ (heldAr.lane 0).pc.toNat < (heldAr.lane 2).pc.toNat) ∧
    ((gangCtx 3).arch.lane 0).live = true ∧ ((gangCtx 3).arch.lane 0).held = false := by decide +kernel
theorem wit_NothingIsRefused : exec .nop64 State.reset = .fault .noIssuer ∧ rodS.issue = some rodIss ∧ rodS.ctx? rodIss.key = some rodCtx :=
  ⟨rfl, rfl, by decide +kernel⟩
theorem wit_StepsKeepMemoryForm : memoriesWf movS ∧ step movS = .next (nextOf (step movS) movS) :=
  ⟨mems_of (by decide +kernel), next_of (by decide +kernel)⟩
theorem wit_StepsKeepPorts : portsWf State.reset ∧ step State.reset = .next (nextOf (step State.reset) State.reset) :=
  ⟨by unfold portsWf; decide +kernel, next_of (by decide +kernel)⟩
theorem wit_StepsKeepLanes : contextsShaped movS ∧ step movS = .next (nextOf (step movS) movS) := by
  refine ⟨⟨fun c hc => ?_, fun l hl c hc => ?_, by decide +kernel⟩, next_of (by decide +kernel)⟩
  · have h : movS.ctxs = [movC] := by decide +kernel
    rw [h] at hc
    obtain rfl := List.mem_singleton.mp hc
    exact ⟨.inl (by decide +kernel), fun _ => by decide +kernel, by decide +kernel⟩
  · have h : (movS.launches.all fun l => l.saved.isEmpty) = true := by decide +kernel
    simp_all

/-- A stream of two words that the thread reads in v56, and one that it writes in v57. -/
def sDesc (base ctl stride count : Nat) : BitVec 512 := BitVec.ofNat 512 (base + 2 ^ 64 * ctl + 2 ^ 128 * stride + 2 ^ 192 * count)
def strmCtx : Ctx := rodCtx fun ar => { ar with
  streams := (ar.streams.set 0 (some ⟨sDesc (2 ^ 56) 0x12 4 2, 0, 0⟩)).set 1 (some ⟨sDesc (2 ^ 56 + 0x200000000) 0x1A 4 2, 0, 0⟩) }
def strmS : State := { rodS with ctxs := [strmCtx], dev := [(0, 7), (4, 9)] }

theorem wit_IntegerResults : ∃ r, row (.addCompact (.v 57) (.reg (.v 56)) (.imm 1)) = some r ∧ Issuing strmS rodIss strmCtx ∧
    (r.form rodIss strmCtx).Meets strmS rodIss [⟨0, some 7⟩] [⟨1, some (devVa 0x200000000, .dev 0x200000000)⟩] :=
  ⟨_, rfl, issuing_of (by decide +kernel), meets_of (by decide +kernel) trivial⟩
theorem wit_ControlResults : ∃ f, controls (.call64 (.s 3) 8) = some f ∧ Issuing (gangS 32) (gangIss 32) (gangCtx 32) ∧
    (f (gangIss 32) (gangCtx 32)).Meets (gangS 32) (gangIss 32) [] [] :=
  ⟨_, rfl, issuing_of (by decide +kernel), meets_of (by decide +kernel) trivial⟩
theorem wit_FloatResults : ∃ r, frow (.fadd64 (.v 1) (.reg (.v 2)) (.reg (.s 3))) = some r ∧ Issuing (gangS 3) (gangIss 3) (gangCtx 3) ∧
    (r.form (gangIss 3) (gangCtx 3)).Meets (gangS 3) (gangIss 3) [] [] :=
  ⟨_, rfl, issuing_of (by decide +kernel), meets_of (by decide +kernel) (clear_of (by decide +kernel))⟩
theorem wit_LaneResults : (∃ r, maskRow (.cmpm64 .ne .i32 (.s 6) (.reg (.v 1)) (.imm 0)) = some r ∧ Issuing (gangS 8) (gangIss 8) (gangCtx 8) ∧
      (cmpm r (gangIss 8) (gangCtx 8)).Meets (gangS 8) (gangIss 8) [] []) ∧
    (∃ r, fmaskRow (.fcmpm64 .gt (.s 6) (.reg (.v 1)) (.imm 0)) = some r ∧ (fcmpm r (gangIss 8) (gangCtx 8)).Meets (gangS 8) (gangIss 8) [] []) ∧
    ∃ f, laneForms (.reduce ⟨.maxi, .f32⟩ none (.s 6) (.v 3)) = some f ∧ (f (gangIss 8) (gangCtx 8)).Meets (gangS 8) (gangIss 8) [] [] :=
  ⟨⟨_, rfl, issuing_of (by decide +kernel), meets_of (by decide +kernel) trivial⟩, ⟨_, rfl, meets_of (by decide +kernel) (clear_of (by decide +kernel))⟩,
    ⟨_, rfl, meets_of (by decide +kernel) (fun _ => by decide +kernel)⟩⟩

/-- A thread whose pair s4 holds a 4 KiB address of its text. -/
def tbaseCtx : Ctx := rodCtx fun ar => setP ar 2 0x4000001000
theorem wit_SpecialRegisters : (∃ f, special (.movxr .tick (.s 4)) = some f ∧ Issuing rodS rodIss rodCtx ∧
      (f rodS rodIss rodCtx).Meets rodS rodIss [] []) ∧
    Ready { rodS with ctxs := [tbaseCtx] } rodIss tbaseCtx ⟨[], [], [(.s 4, 2)]⟩ true true [] [] ∧
    (pairAt tbaseCtx.arch 0 (.s 2)).toNat % 4096 = 0 ∧
    inRange (pairAt tbaseCtx.arch 0 (.s 2)).toNat (rodS.objectOf tbaseCtx.launch).text (rodS.objectOf tbaseCtx.launch).textSize = true ∧
    rodS.region? 0 1 0 = some firstRegion ∧ tbaseCtx.away = false ∧ rodS.window? tbaseCtx.launch tbaseCtx.key.core ≠ none ∧
    ([0x4000001001, 0x4000001FFF].map (· % 4096)) = [1, 4095] ∧
    ([0, 0x8000000000].map fun v => inRange v (rodS.objectOf tbaseCtx.launch).text (rodS.objectOf tbaseCtx.launch).textSize) = [false, false] ∧
    rodS.namesOk rodCtx ⟨[], [], [(regOfSv (.s 5), 2)]⟩ = false ∧ rodS.namesOk rodCtx ⟨[], [], [(regOfSv (.v 4), 2)]⟩ = true ∧
    regType (regOfSv (.v 4)) ≠ .uniform ∧
    (Issuing { gangS 4 with issue := some (gangIss 3) } (gangIss 3) (gangCtx 4) ∧ regType (regOfSv (.s 4)) = .uniform ∧
      State.namesOk { gangS 4 with issue := some (gangIss 3) } (gangCtx 4) ⟨[], [], [(regOfSv (.s 4), 2)]⟩ = true ∧
      (gangIss 3).exec ≠ (gangCtx 4).liveSet) :=
  ⟨⟨_, rfl, issuing_of (by decide +kernel), meets_of (by decide +kernel) trivial⟩, ready_of (by decide +kernel), by decide +kernel, by decide +kernel,
    by decide +kernel, rfl, by decide +kernel, by decide +kernel, by decide +kernel, by decide +kernel, by decide +kernel, by decide +kernel,
    issuing_of (by decide +kernel), by decide +kernel, by decide +kernel, by decide +kernel⟩
theorem wit_FloatFunctions : (num32 0).isZero = true ∧ (num32 0x80000000).neg? = true ∧ finite (num32 1) = true ∧ finite (num32 0x7F7FFFFF) = true ∧
    (num32 0x7F800000).isInf = true ∧ (num32 0xFF800000).neg? = true ∧ (num32 0x7FC00000).isNan = true ∧ (num32 0x7FC00000).isSnan = false ∧
    (num32 0x7F800001).isSnan = true ∧ (num32 0x7FBFFFFF).isSnan = true ∧ (num32 0x3F800000).isNan = false ∧
    (bf16.dec 0x7F80).isInf = true ∧ (fp16.dec 0x7C01).isSnan = true ∧ ((e5m2 true).dec 0x7C).isInf = false ∧ ((e5m2 false).dec 0x7C).isInf = true := by
  decide +kernel
theorem wit_RegisterFrame : ∃ f, registerForm (.addCompact (.s 5) (.reg (.s 6)) (.reg (.s 7))) = some f ∧ Issuing rodS rodIss rodCtx ∧
    (f rodS rodIss rodCtx).Meets rodS rodIss [] [] ∧ (∀ f ∈ rodS.flaws, f.bad ≠ 1) ∧
    isNext (exec (.addCompact (.s 5) (.reg (.s 6)) (.reg (.s 7))) rodS) = true :=
  ⟨_, rfl, issuing_of (by decide +kernel), meets_of (by decide +kernel) trivial, by decide +kernel, by decide +kernel⟩

/-- An object with 4 s registers, and a gang with 3 of its 4 lanes in the converged set. -/
def fewS : State := { rodS with objects := [{ firstObject 0x4000000000 with scnt := 4 }] }
def partS : State := { gangS 4 with issue := some (gangIss 3) }
theorem wit_OperandChecks : decodeWords [0] = .error .opcode ∧
    (∃ f, registerForm (.movCompact (.s 3) (.reg (.s 4))) = some f ∧ Issuing fewS rodIss rodCtx ∧
      fewS.namesOk rodCtx (f fewS rodIss rodCtx).names = false) ∧
    (∃ f, registerForm (.movCompact (.s 3) (.reg (.v 4))) = some f ∧ rodS.namesOk rodCtx (f rodS rodIss rodCtx).names = true ∧
      (f rodS rodIss rodCtx).typed = false) ∧
    ∃ f, registerForm (.movCompact (.s 3) (.reg (.s 4))) = some f ∧ Issuing partS (gangIss 3) (gangCtx 4) ∧
      partS.namesOk (gangCtx 4) (f partS (gangIss 3) (gangCtx 4)).names = true ∧ (f partS (gangIss 3) (gangCtx 4)).typed = true ∧
      (f partS (gangIss 3) (gangCtx 4)).whole = true ∧ (gangIss 3).exec ≠ (gangCtx 4).liveSet :=
  ⟨by decide +kernel, ⟨_, rfl, issuing_of (by decide +kernel), by decide +kernel⟩, ⟨_, rfl, by decide +kernel, by decide +kernel⟩,
    ⟨_, rfl, issuing_of (by decide +kernel), by decide +kernel, by decide +kernel, by decide +kernel, by decide +kernel⟩⟩

/-! ## States that meet the hypotheses of the statements: memory -/

/-- A device address that holds no text, in the domain aperture of this package; s4:s5 holds it, s6 a value. -/
def dOff : Nat := 0x200000000
def memCtx (va : DWord) (f : Arch → Arch := id) : Ctx := rodCtx fun ar => f ((setP ar 2 va).setS 6 0x11223344)
def farCtx : Ctx := { rodCtx with key := ⟨1, 0⟩, uid := 1 }
def memS (va : DWord) (f : Arch → Arch := id) : State :=
  { rodS with ctxs := [memCtx va f, farCtx], regions := [firstRegion, { firstRegion with core := 1 }], dev := [(dOff, 0x2A)] }
def ldI : Instr := .ld64 ⟨false, .rlx, .dev, .b32⟩ (.s 8) (.s 2) (.imm 0) 0
def ldF : LoadForm := ⟨false, .rlx, .dev, .b32, .s 8, ⟨some (.s 2), .op (.imm 0), 0⟩⟩
def stI : Instr := .st64 ⟨.rlx, .dev, .b32⟩ (.s 6) (.s 2) (.imm 0) 0
def stF : StoreForm := ⟨.rlx, .dev, .b32, .s 6, ⟨some (.s 2), .op (.imm 0), 0⟩⟩
noncomputable def aaI : Instr := .aadd64 ⟨.rlx, .dev, .b32⟩ (.s 8) (.s 2) (.imm 0) (.imm 1)
def aaF : AtomicForm := ⟨.add, .rlx, .dev, .b32, .s 8, ⟨some (.s 2), .op (.imm 0), 0⟩, .imm 1, none⟩

theorem mem_forms : loads ldI = some ldF ∧ stores stI = some stF ∧ atomics aaI = some aaF := ⟨rfl, rfl, rfl⟩
theorem mem_ready : Ready (memS (devVa dOff)) rodIss (memCtx (devVa dOff)) ldF.names ldF.typed ldF.once [] [] ∧
    Ready (memS (devVa dOff)) rodIss (memCtx (devVa dOff)) stF.names true stF.once [] [] ∧
    Ready (memS (devVa dOff)) rodIss (memCtx (devVa dOff)) aaF.names aaF.typed aaF.once [] [] :=
  ⟨ready_of (by decide +kernel), ready_of (by decide +kernel), ready_of (by decide +kernel)⟩

/-- An affine offset of a gang that does not fit 32 bits in its second lane, and fits in its first. -/
def aovfCtx : Ctx := gangCtx 2 fun ar => (setP ar 2 (devVa dOff)).setA 1 ⟨0x7FFFFFFF, 1⟩
/-- An address of a package that no route reaches, whose line the thread's frame holds or does not hold. -/
def deadVa : DWord := devVa dOff + BitVec.ofNat 64 (2 ^ 45)
def deadS (cache : List CacheLine) : State :=
  { memS deadVa with domain := [0, 1], opened := [(1, 0, dOff, 128)], cache := cache }
def deadLine : CacheLine := ⟨0, 0, deadVa.toNat / 128, .dom 1 dOff, 0, 0⟩
theorem wit_AddressesAreChecked : (∀ ls ∈ [[], [deadLine]], (deadS ls).resolve ((deadS ls).accessor (memCtx deadVa)) deadVa 4 4 .load = .fault .flink) ∧
    (memCtx deadVa).frame? = some 0 ∧ (deadS []).line? 0 ((deadS []).pasidOf 1) deadVa.toNat = none ∧
    ((deadS [deadLine]).line? 0 ((deadS [deadLine]).pasidOf 1) deadVa.toNat).isSome = true ∧ (AddrForm.mk (some (.s 2)) (.op (.reg (.a 1))) 0).base = some (.s 2) ∧
    (aovfCtx.arch.offset (.op (.reg (.a 1))) 1).2 = true ∧ (aovfCtx.arch.offset (.op (.reg (.a 1))) 0).2 = false ∧
    ((memS 0).resolve ((memS 0).accessor (memCtx 0)) (devVa dOff) 4 4 .load) = .ok (.dev dOff) ∧
    (0xFFFF : DWord).toNat < 0x10000 ∧ (0x10000 ≤ (0x10001 : DWord).toNat ∧ ¬ 4 ∣ (0x10001 : DWord).toNat) ∧
    (4 ∣ (0x200000000000000 : DWord).toNat ∧ 2 ^ 57 ≤ (0x200000000000000 : DWord).toNat) ∧
    (4 ∣ (0x1C0000000000000 : DWord).toNat ∧ 0x1C0000000000000 ≤ (0x1C0000000000000 : DWord).toNat) ∧
    (AddrForm.mk none (.op (.reg (.s 6))) 4).base = none ∧ (∀ x ∈ [(0x200000000, 0), (768 * 2 ^ 30, 0), (0, 5)],
      (devVa x.1 + BitVec.ofNat 64 (2 ^ 45 * x.2)).toNat = 2 ^ 56 + x.2 * 2 ^ 45 + x.1 ∧ 4 ∣ (devVa x.1 + BitVec.ofNat 64 (2 ^ 45 * x.2)).toNat) ∧
    (∀ x ∈ [(0, 0, 0), (0, 0, 2 ^ 20 - 4), (0, 0xFFFFE, 0), (9, 1, 8), (2 ^ 14 - 1, 0, 0)],
      (BitVec.ofNat 64 (3 * 2 ^ 55 + x.1 * 2 ^ 40 + x.2.1 * 2 ^ 20 + x.2.2)).toNat = 3 * 2 ^ 55 + x.1 * 2 ^ 40 + x.2.1 * 2 ^ 20 + x.2.2 ∧
      4 ∣ 3 * 2 ^ 55 + x.1 * 2 ^ 40 + x.2.1 * 2 ^ 20 + x.2.2) := by decide +kernel

theorem mem_passes : passes (memS (devVa dOff)) (memCtx (devVa dOff)) (memCtx (devVa dOff)).arch ldF.addr 4 .load .dev
      (taking ldF.once rodIss.exec) (fun _ => devVa dOff) (fun _ => .dev dOff) ∧
    passes (memS (devVa dOff)) (memCtx (devVa dOff)) (memCtx (devVa dOff)).arch stF.addr 4 .store .dev
      (taking stF.once rodIss.exec) (fun _ => devVa dOff) (fun _ => .dev dOff) ∧
    passes (memS (devVa dOff)) (memCtx (devVa dOff)) (memCtx (devVa dOff)).arch aaF.addr 4 (.atomic (some 3)) .dev
      (taking aaF.once rodIss.exec) (fun _ => devVa dOff) (fun _ => .dev dOff) := by unfold passes; decide +kernel
theorem mem_undisturbed (va : DWord) : Undisturbed (memS va) 1 := undisturbed_of rfl rfl rfl rfl
theorem mem_drained (va : DWord) : drained (memCtx va) := rfl
theorem wit_LoadsRead : loads ldI = some ldF ∧ Ready (memS (devVa dOff)) rodIss (memCtx (devVa dOff)) ldF.names ldF.typed ldF.once [] [] ∧
    passes (memS (devVa dOff)) (memCtx (devVa dOff)) (memCtx (devVa dOff)).arch ldF.addr (bytesOf ldF.size) .load ldF.scope
      (taking ldF.once rodIss.exec) (fun _ => devVa dOff) (fun _ => .dev dOff) ∧ Undisturbed (memS (devVa dOff)) (memCtx (devVa dOff)).launch ∧
    (memS (devVa dOff)).inLockstep (memCtx (devVa dOff)) = false :=
  ⟨rfl, mem_ready.1, mem_passes.1, mem_undisturbed _, by decide +kernel⟩

/-- After the load has been issued, and after its reply. -/
def ldT : State := nextOf (exec ldI (memS (devVa dOff))) (memS (devVa dOff))
theorem wit_LoadFrame : ldF.prm = false ∧ drained (memCtx (devVa dOff)) ∧ Undisturbed (memS (devVa dOff)) (memCtx (devVa dOff)).launch ∧
    cacheRoom (memS (devVa dOff)) (memCtx (devVa dOff)) (taking ldF.once rodIss.exec).length ∧ exec ldI (memS (devVa dOff)) = .next ldT ∧
    isNext (exec (.memoryReply firstKey [] []) ldT) = true :=
  ⟨rfl, mem_drained _, mem_undisturbed _, room_of rfl rfl (by decide +kernel), next_of (by decide +kernel), by decide +kernel⟩
theorem wit_AccessesFault : ((memCtx 0).kind = .rod ∧ rodIss.exec = 1 ∧ taking ldF.once rodIss.exec = [0] ∧ (memS (devVa dOff)).tests = [] ∧
      (memS (devVa dOff)).inLockstep (memCtx (devVa dOff)) = false ∧
      passes (memS (devVa dOff)) (memCtx (devVa dOff)) (memCtx (devVa dOff)).arch ldF.addr 4 .load .dev [0] (fun _ => devVa dOff) (fun _ => .dev dOff)) ∧
    Ready (memS 0xFFFC) rodIss (memCtx 0xFFFC) ldF.names ldF.typed ldF.once [] [] ∧
    Ready (memS 0xFFFC) rodIss (memCtx 0xFFFC) stF.names true stF.once [] [] ∧
    Ready (memS 0xFFFC) rodIss (memCtx 0xFFFC) aaF.names aaF.typed aaF.once [] [] ∧ aaF.op ≠ .fadd ∧
    (memCtx 0xFFFC).strm? stF.d = none ∧
    (memS 0xFFFC).tryLane (memCtx 0xFFFC) (memCtx 0xFFFC).arch ldF.addr 0 4 .load .dev = (0xFFFC, .fault .null) ∧
    (memS 0xFFFC).tryLane (memCtx 0xFFFC) (memCtx 0xFFFC).arch stF.addr 0 4 .store .dev = (0xFFFC, .fault .null) ∧
    (memS 0xFFFC).tryLane (memCtx 0xFFFC) (memCtx 0xFFFC).arch aaF.addr 0 4 (.atomic (some 3)) .dev = (0xFFFC, .fault .null) :=
  ⟨by unfold passes; decide +kernel, ready_of (by decide +kernel), ready_of (by decide +kernel), ready_of (by decide +kernel), by decide +kernel,
    by decide +kernel, by decide +kernel, by decide +kernel, by decide +kernel⟩
theorem wit_StoresComplete : stores stI = some stF ∧ stF.ord = .rlx ∧
    Ready (memS (devVa dOff)) rodIss (memCtx (devVa dOff)) stF.names true stF.once [] [] ∧ (memCtx (devVa dOff)).strm? stF.d = none ∧
    drained (memCtx (devVa dOff)) ∧ (memS (devVa dOff)).inLockstep (memCtx (devVa dOff)) = false ∧ (memS (devVa dOff)).gates = [] ∧
    (memS (devVa dOff)).gateFull (memCtx (devVa dOff)) (taking stF.once rodIss.exec).length = false ∧ taking stF.once rodIss.exec = [0] ∧
    passes (memS (devVa dOff)) (memCtx (devVa dOff)) (memCtx (devVa dOff)).arch stF.addr (bytesOf stF.size) .store stF.scope [0] (fun _ => devVa dOff)
      (fun _ => .dev dOff) ∧
    Access.windowed ⟨0, devVa dOff, .dev dOff, 0, 0, none⟩ = false ∧ exists? (memS (devVa dOff)) (.dev dOff) = true ∧
    memoriesWf (memS (devVa dOff)) ∧ isNext (exec stI (memS (devVa dOff))) = true :=
  ⟨rfl, rfl, mem_ready.2.1, by decide +kernel, mem_drained _, by decide +kernel, by decide +kernel, by decide +kernel, by decide +kernel,
    by unfold passes; decide +kernel, by decide +kernel, by decide +kernel, mems_of (by decide +kernel), by decide +kernel⟩
theorem wit_StoreFrame : (memCtx (devVa dOff)).frame? = some 0 ∧
    (memS (devVa dOff)).line? 0 ((memS (devVa dOff)).pasidOf (memCtx (devVa dOff)).launch) (devVa dOff).toNat = none ∧
    cacheRoom (memS (devVa dOff)) (memCtx (devVa dOff)) (taking stF.once rodIss.exec).length ∧ isNext (exec stI (memS (devVa dOff))) = true :=
  ⟨by decide +kernel, by decide +kernel, room_of rfl rfl (by decide +kernel), by decide +kernel⟩

/-- The thread's own window, and that of another core which does not let it in. -/
def ownVa : DWord := 0x180000000000000
def farVa : DWord := 0x180010000000000
theorem wit_WindowStores : (Ready (memS ownVa) rodIss (memCtx ownVa) stF.names true stF.once [] [] ∧
      passes (memS ownVa) (memCtx ownVa) (memCtx ownVa).arch stF.addr 4 .store .dev [0] (fun _ => ownVa) (fun _ => .scratch 0 1 0 0) ∧
      Access.windowed ⟨0, ownVa, .scratch 0 1 0 0, 0, 0, none⟩ = true ∧ (memS ownVa).region? 0 1 0 = some firstRegion ∧
      memoriesWf (memS ownVa) ∧ isNext (exec stI (memS ownVa)) = true ∧
      State.windowAllowed ((memS ownVa).accessor (memCtx ownVa)) firstRegion = true ∧ Undisturbed (memS ownVa) (memCtx ownVa).launch ∧
      Undisturbed (memS farVa) (memCtx farVa).launch) ∧
    Ready (memS farVa) rodIss (memCtx farVa) stF.names true stF.once [] [] ∧
    passes (memS farVa) (memCtx farVa) (memCtx farVa).arch stF.addr 4 .store .dev [0] (fun _ => farVa) (fun _ => .scratch 1 1 0 0) ∧
    Access.windowed ⟨0, farVa, .scratch 1 1 0 0, 0, 0, none⟩ = true ∧ (memS farVa).region? 1 1 0 = some { firstRegion with core := 1 } ∧
    memoriesWf (memS farVa) ∧ isNext (exec stI (memS farVa)) = true ∧
    State.windowAllowed ((memS farVa).accessor (memCtx farVa)) { firstRegion with core := 1 } = false :=
  ⟨⟨ready_of (by decide +kernel), by unfold passes; decide +kernel, by decide +kernel, by decide +kernel, mems_of (by decide +kernel),
      by decide +kernel, by decide +kernel, mem_undisturbed _, mem_undisturbed _⟩, ready_of (by decide +kernel), by unfold passes; decide +kernel,
    by decide +kernel, by decide +kernel, mems_of (by decide +kernel), by decide +kernel, by decide +kernel⟩
theorem wit_AtomicsPerform : atomics aaI = some aaF ∧ Ready (memS (devVa dOff)) rodIss (memCtx (devVa dOff)) aaF.names aaF.typed aaF.once [] [] ∧
    passes (memS (devVa dOff)) (memCtx (devVa dOff)) (memCtx (devVa dOff)).arch aaF.addr (bytesOf aaF.size)
      (.atomic (hostAtomicBit aaF.op aaF.size)) aaF.scope (taking aaF.once rodIss.exec) (fun _ => devVa dOff) (fun _ => .dev dOff) ∧
    Access.windowed ⟨0, devVa dOff, .dev dOff, 0, 0, none⟩ = false ∧ isAbandoned ((memCtx 0).arch.opWord 0 aaF.c) = false ∧
    Undisturbed (memS (devVa dOff)) (memCtx (devVa dOff)).launch :=
  ⟨rfl, mem_ready.2.2, mem_passes.2.2, by decide +kernel, by decide +kernel, mem_undisturbed _⟩
theorem wit_AtomicSteps : exists? (memS 0) (.dev dOff) = true ∧ (memS 0).unreachable (.dev dOff) = false ∧ memoriesWf (memS 0) ∧
    leNat (((memS 0).syncHome (memCtx 0) (devVa dOff) (.dev dOff)).homeBytes (.dev dOff) 4) = 0x2A ∧
    home (memS 0) (.dev (dOff + 4)) ≠ home (memS 0) (.dev dOff) := ⟨by decide +kernel, by decide +kernel, mems_of (by decide +kernel), by decide +kernel, by decide +kernel⟩

/-! ## States that meet the hypotheses of the statements: streams, ordering, iteration, jobs, tags, waits, barriers -/

/-- A thread whose pair s4:s5 holds an address in device memory, and device memory that holds a number there. -/
def descCtx (f : Arch → Arch := id) : Ctx := memCtx (devVa dOff) f
def descS (x n : Nat) (f : Arch → Arch := id) : State := { rodS with ctxs := [descCtx f], dev := Mem.putBytes [] dOff (leBytes x n) }

theorem wit_StreamsOpenAndClose : (Issuing (descS (sDesc (2 ^ 56 + dOff) 0x12 4 2).toNat 64) rodIss descCtx ∧ descCtx.kind = .rod ∧
      rodIss.exec = 1 ∧ 56 + 7 < descCtx.arch.vc) ∧
    Ready (descS (sDesc (2 ^ 56 + dOff) 0x12 4 2).toNat 64) rodIss descCtx (pairNames (.s 8) ⟨2⟩) (regType (.s 8) == .uniform) true [] [] ∧
    (descS (sDesc (2 ^ 56 + dOff) 0x12 4 2).toNat 64).readDesc descCtx (spairAt descCtx ⟨2⟩) 8 8 = .ok (sDesc (2 ^ 56 + dOff) 0x12 4 2).toNat ∧
    strmValid (sDesc (2 ^ 56 + dOff) 0x12 4 2) = true ∧
    (descS 3 64).readDesc descCtx (spairAt descCtx ⟨2⟩) 8 8 = .ok 3 ∧ strmValid 3 = false :=
  ⟨⟨issuing_of (by decide +kernel), rfl, rfl, by decide +kernel⟩, ready_of (by decide +kernel), by decide +kernel, by decide +kernel,
    by decide +kernel, by decide +kernel⟩
theorem wit_FenceAndFlush : Issuing (gangS 3) (gangIss 3) (gangCtx 3) ∧ drained (gangCtx 3) ∧ (gangS 3).inLockstep (gangCtx 3) = false ∧
    (gangCtx 3).frame? = some 0 ∧
    Ready (memS (devVa dOff)) rodIss (memCtx (devVa dOff)) (AddrForm.names ⟨some (.s 2), .op (.imm 0), 0⟩) true
      ((AddrForm.types ⟨some (.s 2), .op (.imm 0), 0⟩).all (· == .uniform)) [] [] ∧
    ∀ n ∈ taking ((AddrForm.types ⟨some (.s 2), .op (.imm 0), 0⟩).all (· == .uniform)) rodIss.exec,
      cflFault ((memCtx (devVa dOff)).arch.address ⟨some (.s 2), .op (.imm 0), 0⟩ n) ((memCtx (devVa dOff)).arch.offset (.op (.imm 0)) n).2 = none :=
  ⟨issuing_of (by decide +kernel), rfl, by decide +kernel, by decide +kernel, ready_of (by decide +kernel), by decide +kernel⟩

/-- A nest of 100 iterations over 4 threads, in chunks of at least 2, with its index in v9 and its counter behind it. -/
def nestD : BitVec 448 :=
  BitVec.ofNat 448 (1 + 2 ^ 16 * 4 + 2 ^ 32 * 2 + 2 ^ 64 * (2 ^ 56 + dOff + 64) + 2 ^ 160 + 2 ^ 192 * 100 + 2 ^ 416 * 9)
def inNest (st : IterState) (l e : DWord) : Arch → Arch := fun ar => { ar with iter := ar.iter.set 0 ⟨st, nestD, text, l, e⟩ }
theorem wit_IterationRuns : (Ready (descS nestD.toNat 56) rodIss descCtx (pairNames (.s 8) ⟨2⟩) (regType (.s 8) == .uniform) true [] [] ∧
      (descS nestD.toNat 56).readDesc descCtx (spairAt descCtx ⟨2⟩) 8 7 = .ok nestD.toNat ∧ nestValid nestD 64 = true ∧
      (descS 0 56).readDesc descCtx (spairAt descCtx ⟨2⟩) 8 7 = .ok 0 ∧ nestValid 0 64 = false) ∧
    (∃ f, iters (.iterNext64 0 4) rodIss (descCtx (inNest .loaded 0 0)) = some f ∧ f.ready = true ∧ f.l = 0 ∧
      (descCtx (inNest .loaded 0 0)).arch.iter[f.slot].e.toNat ≤ f.l) ∧
    (∃ f, iters (.iterStep 0) rodIss (descCtx (inNest .active 11 13)) = some f ∧ f.ready = true ∧ f.l = 12 ∧
      f.l < (descCtx (inNest .active 11 13)).arch.iter[f.slot].e.toNat) ∧
    (descCtx (inNest .active 11 13)).arch.vc ≤ 64 ∧ nestValid nestD (descCtx (inNest .active 11 13)).arch.vc = true ∧
    Ready (descS 0 0 (inNest .active 11 13)) rodIss (descCtx (inNest .active 11 13)) ⟨[], nestRegs nestD, []⟩ true false [] [] ∧
    Ready (descS 0 0 (inNest .loaded 0 0)) rodIss (descCtx (inNest .loaded 0 0)) ⟨[], nestRegs nestD, []⟩ true false [] [] ∧
    memoriesWf (descS 0 0 (inNest .loaded 0 0)) ∧ drained (descCtx (inNest .loaded 0 0)) ∧
    (descS 0 0 (inNest .loaded 0 0)).resolve ((descS 0 0 (inNest .loaded 0 0)).accessor (descCtx (inNest .loaded 0 0))) (nestCnt nestD) 8 8
      (.atomic none) = .ok (.dev (dOff + 64)) ∧
    exists? (descS 0 0) (.dev (dOff + 64)) = true ∧ Access.windowed ⟨0, nestCnt nestD, .dev (dOff + 64), 0, 0, none⟩ = false ∧
    (descS 0 0 (inNest .loaded 0 0)).inLockstep (descCtx (inNest .loaded 0 0)) = false ∧ Undisturbed (descS 0 0 (inNest .loaded 0 0)) 1 ∧
    Undisturbed (descS 0 0 (inNest .active 11 13)) 1 :=
  ⟨⟨ready_of (by decide +kernel), by decide +kernel, by decide +kernel, by decide +kernel, by decide +kernel⟩, ⟨_, rfl, by decide +kernel, rfl,
      by decide +kernel⟩, ⟨_, rfl, by decide +kernel, by decide +kernel, by decide +kernel⟩, by decide +kernel, by decide +kernel,
    ready_of (by decide +kernel), ready_of (by decide +kernel), mems_of (by decide +kernel), rfl, by decide +kernel, by decide +kernel,
    by decide +kernel, by decide +kernel, undisturbed_of rfl rfl rfl rfl, undisturbed_of rfl rfl rfl rfl⟩

/-- A LINEAR card of 16 bytes, from device memory to device memory. -/
def cardN : Nat := 1 + 2 ^ 64 * (2 ^ 56 + dOff + 0x1000) + 2 ^ 128 * (2 ^ 56 + dOff + 0x2000) + 2 ^ 192 * 16 + 2 ^ 1024 * (2 ^ 56 + dOff + 0x1000) + 2 ^ 1088 * 16 +
  2 ^ 1536 * (2 ^ 56 + dOff + 0x2000) + 2 ^ 1600 * 16
/-- The job of that card, of the thread's tag 3. -/
def jobOf (num : Nat) (st : JobState) : Job := ⟨num, 0, firstKey, 0, 1, 0, 3, BitVec.ofNat 2048 cardN, false, [], st, false, [], [], [], none, false⟩
def busyTag : Arch → Arch := fun ar => { ar with tags := ar.tags.set 3 ⟨.pending, 0⟩ }
theorem wit_JobsEnter : (∃ f, submits (.copy (.s 8) ⟨2⟩ 3) = some f ∧
      Ready (descS cardN 256) rodIss descCtx (pairNames f.d f.a) (regType f.d == .uniform) true [] [] ∧
      (descS cardN 256).readDesc descCtx (spairAt descCtx f.a) 64 0 = .ok 0 ∧
      ((descS cardN 256).release firstKey f.scope).readPieces descCtx (spairAt descCtx f.a) (spairAt descCtx f.a) 32 = .ok cardN ∧
      descCtx.arch.tags[f.tag].st = .free ∧ cardValid f.coll f.kinds (BitVec.ofNat 2048 cardN) = true ∧
      cardValid f.coll f.kinds 0 = false ∧ ((descS cardN 256).jobsOf descCtx.scheduler).length < 64) ∧
    64 ≤ (({ descS cardN 256 with jobs := List.replicate 64 (jobOf 0 .queued) } : State).jobsOf descCtx.scheduler).length ∧
    (descCtx busyTag).arch.tags[(3 : Fin 64)].st ≠ .free :=
  ⟨⟨_, rfl, ready_of (by decide +kernel), by decide +kernel, by decide +kernel, by decide +kernel, by decide +kernel, by decide +kernel,
    by decide +kernel⟩, by decide +kernel, by decide +kernel⟩

/-- A thread whose mask has one tag, in a state. -/
def tagCtx (st : TagState) : Ctx := memCtx 8 fun ar => { ar with tags := ar.tags.set 3 ⟨st, 0⟩ }
def tagS (st : TagState) : State := { rodS with ctxs := [tagCtx st] }
theorem wit_TagsWait : (∀ st, Ready (tagS st) rodIss (tagCtx st) (pairNames (.s 8) ⟨2⟩) (regType (.s 8) == .uniform) true [] []) ∧
    (∀ st, Ready (tagS st) rodIss (tagCtx st) ⟨[], [], [(.s 4, 2)]⟩ true true [] []) ∧
    tagIn (tagCtx .set) (spairAt (tagCtx .set) ⟨2⟩) .set 3 ∧ (∀ t, ¬ tagIn (tagCtx .set) (spairAt (tagCtx .set) ⟨2⟩) .pending t) ∧
    tagIn (tagCtx .pending) (spairAt (tagCtx .pending) ⟨2⟩) .pending 3 ∧ ∀ t, ¬ tagIn (tagCtx .pending) (spairAt (tagCtx .pending) ⟨2⟩) .set t :=
  ⟨fun st => by cases st <;> exact ready_of (by decide +kernel), fun st => by cases st <;> exact ready_of (by decide +kernel),
    by unfold tagIn; decide +kernel, by unfold tagIn; decide +kernel, by unfold tagIn; decide +kernel, by unfold tagIn; decide +kernel⟩

/-- An AADD of host memory that goes to the host. -/
def hostAcc : Access := ⟨0, 0x20000, .host 0x20000, 1, 0, none⟩
def hostReq : Request := ⟨.atomic .add (.s 8), .b32, .rlx, .sys, text, text + 8, [hostAcc], [], [], [], 1, true⟩

/-- A thread that waits for a word to reach 5, of device memory or of host memory, with a limit or without. -/
def waitC (p : Place) (va : DWord) (deadline : Option Nat) (woken : Bool) : Ctx :=
  { memCtx va with st := .parked (.mwait va (some p) (.s 4) 5 .dev deadline 0 (text + 8)), woken := woken }
def waitS (p : Place) (va : DWord) (deadline : Option Nat) (woken : Bool) (v : Byte) : State :=
  { rodS with issue := none, ctxs := [waitC p va deadline woken], dev := [(dOff, v)], host := [(0x20000, 9)], tick := 5000,
              ports := rodS.ports.set 0 { rodS.ports[0] with mode := .pcie, hcap := 0x000603FB },
              tlb := [⟨2, 0, 0, 0x20, 12, 0x20000, true⟩] }
theorem wit_MwaitWaits : (drained descCtx ∧ (descS 5 8).inLockstep descCtx = false) ∧ Ready (descS 5 8) rodIss descCtx ⟨[], [], [(.s 8, 2), (.s 4, 2), (.s 6, 2)]⟩ true true [] [] ∧
    (descS 5 8).resolveRead ((descS 5 8).accessor descCtx) (spairAt descCtx ⟨2⟩) 8 8 .load = .ok (.dev dOff) ∧
    (((descS 5 8).loadValue descCtx (spairAt descCtx ⟨2⟩) (.dev dOff) 8 .dev).setWidth 64 = 5 ∧ (spairAt descCtx ⟨3⟩).toNat = 0x11223344) ∧
    (spairAt descCtx ⟨0⟩).toNat ≤ (5 : DWord).toNat ∧
    (∀ v : Byte, v = 5 ∨ v = 4 → (waitS (.dev dOff) (devVa dOff) none true v).ctx? firstKey = some (waitC (.dev dOff) (devVa dOff) none true) ∧
      (waitS (.dev dOff) (devVa dOff) none true v).resolveRead
        ((waitS (.dev dOff) (devVa dOff) none true v).accessor (waitC (.dev dOff) (devVa dOff) none true)) (devVa dOff) 8 8 .load = .ok (.dev dOff) ∧
      ((waitS (.dev dOff) (devVa dOff) none true v).loadValue (waitC (.dev dOff) (devVa dOff) none true) (devVa dOff) (.dev dOff) 8 .dev).setWidth 64 =
        v.setWidth 64) ∧
    ((waitS (.dev dOff) (devVa dOff) none true 5).struck firstKey = false ∧
      (waitS (.dev dOff) (devVa dOff) none true 5).bankTested 1 (some (waitC (.dev dOff) (devVa dOff) none true).core) = false) ∧
    (waitS (.dev dOff) (devVa dOff) (some 5000) false 0).resolveRead
      ((waitS (.dev dOff) (devVa dOff) (some 5000) false 0).accessor (waitC (.dev dOff) (devVa dOff) (some 5000) false)) (devVa dOff) 8 8 .load =
      .ok (.dev dOff) ∧
    (waitS (.host 0x20000) 0x20000 none false 0).resolveRead
      ((waitS (.host 0x20000) 0x20000 none false 0).accessor (waitC (.host 0x20000) 0x20000 none false)) 0x20000 8 8 .load = .ok (.host 0x20000) ∧
    5 ≤ (((waitS (.host 0x20000) 0x20000 none false 0).loadValue (waitC (.host 0x20000) 0x20000 none false) 0x20000 (.host 0x20000) 8 .dev).setWidth 64).toNat ∧
    (waitS (.host 0x20000) 0x20000 none false 0).ports[diePort (coreDie firstKey.core)].mode = .pcie ∧
    0 + 2048 ≤ (waitS (.host 0x20000) 0x20000 none false 0).tick := by
  refine ⟨⟨rfl, by decide +kernel⟩, ready_of (by decide +kernel), by decide +kernel, by decide +kernel, by decide +kernel, fun v hv => ?_, by decide +kernel,
    by decide +kernel, by decide +kernel, by decide +kernel, by decide +kernel, by decide +kernel⟩
  rcases hv with rfl | rfl <;> decide +kernel

/-- A cell of n members of which one has arrived, in phase 4; a thread that has arrived there in an earlier phase. -/
def cellN (n : Nat) : Nat := n + 2 ^ 32 + 2 ^ 64 * 4
def markAt (phase : Word) : Arch → Arch := fun ar => { ar with mark := some (text, phase) }
theorem wit_BarrierArrives : (∀ n : Fin 4, Ready (descS (cellN n) 16) rodIss descCtx (pairNames (.s 8) ⟨2⟩) (regType (.s 8) == .uniform) true [] []) ∧
    (descS (cellN 2) 16).resolveCell descCtx (spairAt descCtx ⟨2⟩) = .ok (.dev dOff) ∧ exists? (descS (cellN 2) 16) (.dev dOff) = true ∧
    ((descS (cellN 2) 16).launch? descCtx.launch).bind Launch.logRing = none ∧ drained descCtx ∧ memoriesWf (descS (cellN 2) 16) ∧
    (∀ n : Fin 4, (((descS (cellN n) 16).release firstKey .dev).syncHome descCtx (spairAt descCtx ⟨2⟩) (.dev dOff)).cellAt (.dev dOff) =
      ⟨n.val, 1, 4, 0, 0⟩) ∧
    (descCtx.arch.mark.map (·.1)) ≠ some rodIss.pc ∧
    Ready (descS (cellN 2) 16 (markAt 3)) rodIss (descCtx (markAt 3)) (pairNames (.s 8) ⟨2⟩) (regType (.s 8) == .uniform) true [] [] ∧
    (descCtx (markAt 3)).arch.mark = some (rodIss.pc, 3) ∧ ((descS (cellN 2) 16 (markAt 3)).cellAt (.dev dOff)).phase ≠ 3 := by
  refine ⟨fun n => ?_, by decide +kernel, by decide +kernel, by decide +kernel, rfl, mems_of (by decide +kernel), fun n => ?_,
    by decide +kernel, ready_of (by decide +kernel), by decide +kernel, by decide +kernel⟩
  · fin_cases n <;> exact ready_of (by decide +kernel)
  · fin_cases n <;> decide +kernel

/-! ## States that meet the hypotheses of the statements: gangs, the matrix engine, verdicts -/

/-- An object with a leaf 0x100 bytes into its text, and the launch with and without leaf regions. -/
def leafO : CodeObject := { firstObject 0x4000000000 with leaves := [(0x100, 64, false)] }
def leafL : Launch := { firstLaunch 0x4000000000 with pkt := (firstLaunch 0x4000000000).pkt ||| (gangPw.setWidth 1536 <<< 224) }
def leafS (l : Launch) (rdv : List RdvEntry) : State := { rodS with objects := [leafO], launches := [l], rdv := rdv }
/-- A table with no free entry. -/
def fullRdv : List RdvEntry := (List.range 64).map fun n => ⟨0, n, .sealed, 1, text, 0, 0, [], 0⟩
theorem wit_gangCallsRun : (∃ f, gangCalls (.gcall64 (.imm 5) 0x40) = some f ∧ rodCtx.kind = .rod ∧
      Ready (leafS leafL []) rodIss rodCtx f.names true false [] [] ∧
      text + 0x100 = (leafS leafL []).forwardAll (coreDie rodCtx.key.core) rodCtx.launch Config.forwardMax (f.target rodIss rodCtx.arch) ∧
      ((leafS leafL []).objectOf rodCtx.launch).leafAt (text + 0x100) = some (64, false) ∧ rodCtx.arch.opWord 0 f.key = 5 ∧
      Ready (leafS (firstLaunch 0x4000000000) []) rodIss rodCtx f.names true false [] [] ∧
      Ready (leafS leafL fullRdv) rodIss rodCtx f.names true false [] []) ∧
    8 ≤ leafO.vcnt ∧ 3 ≤ leafO.scnt ∧ rodCtx.arch.link = none ∧
    pwReg (pktBeampw ((leafS (firstLaunch 0x4000000000) []).pktOf rodCtx.launch)) = 0 ∧
    ¬ (rodCtx.away = true ∨ pwReg (pktBeampw ((leafS leafL []).pktOf rodCtx.launch)) = 0) ∧
    (∃ n, n < 64 ∧ ∀ e ∈ (leafS leafL []).rdv, e.frame = frameNo rodCtx.key.core → e.num ≠ n) ∧
    ¬ ((∃ n, n < 64 ∧ ∀ e ∈ fullRdv, e.frame = frameNo rodCtx.key.core → e.num ≠ n) ∨
      ∃ e ∈ fullRdv, e.frame = frameNo rodCtx.key.core ∧ e.st = .opened ∧ e.launch = rodCtx.launch ∧ e.leaf = text + 0x100 ∧ e.key = 5) := by
  refine ⟨⟨_, rfl, rfl, ready_of (by decide +kernel), by decide +kernel, by decide +kernel, by decide +kernel, ready_of (by decide +kernel),
    ready_of (by decide +kernel)⟩, by decide +kernel, by decide +kernel, by decide +kernel, by decide +kernel, by decide +kernel, ⟨0, by decide, ?_⟩,
    by decide +kernel⟩
  intro e he
  cases he

/-- A thread that runs its leaf itself; a gang that an entry formed for one caller, who waits in its GCALL. -/
def linkCtx : Ctx := rodCtx fun ar => { ar with link := some (text + 0x40) }
def callerCtx : Ctx := { rodCtx with st := .parked (.gcall text (text + 8) []) }
def calledCtx : Ctx :=
  { gangCtx 1 with uid := 1, kind := .called 0 0, group := 0xFFFFF,
                   arch := { (gangCtx 1).arch with lanes := (gangCtx 1).arch.lanes.map fun l => if l.live then { l with caller := some 0 } else l } }
def calledS : State :=
  { gangS 1 with ctxs := [calledCtx, callerCtx], regions := [{ gangRegion with w := 0xFFFFF }], rdv := [⟨0, 0, .running, 1, text, 5, 0, [0], 0⟩] }
theorem wit_gangReturnsRun : (Issuing { rodS with ctxs := [linkCtx] } rodIss linkCtx ∧ linkCtx.kind = .rod ∧ linkCtx.arch.link = some (text + 0x40)) ∧
    Issuing calledS (gangIss 1) calledCtx ∧ calledCtx.kind = .called 0 0 ∧ distinct calledS ∧
    (∀ r n, calledS.regionOf calledCtx = some r → (r.cvg[(n : Fin 8)]).waiting = []) ∧
    (∀ n, (gangIss 1).exec.getLsbD n = true → callerCtx ∈ calledS.ctxs ∧ callerCtx.kind = .rod ∧ callerCtx.arch.lanes.length = 1 ∧
      (calledCtx.arch.lane n).caller = some callerCtx.uid ∧ ∃ call next pops, callerCtx.st = .parked (.gcall call next pops)) ∧
    ∀ m n, (gangIss 1).exec.getLsbD m = true → (gangIss 1).exec.getLsbD n = true → callerCtx.uid = callerCtx.uid → m = n := by
  have h1 : ∀ n, (gangIss 1).exec.getLsbD n = true → n = 0 := bits_of (by decide +kernel)
  refine ⟨⟨issuing_of (by decide +kernel), rfl, by decide +kernel⟩, issuing_of (by decide +kernel), rfl, by unfold distinct; decide +kernel,
    fun r n hr => ?_, fun n hn => ?_, fun m n hm hn _ => (h1 m hm).trans (h1 n hn).symm⟩
  · have h2 : calledS.regionOf calledCtx = some { gangRegion with w := 0xFFFFF } := by decide +kernel
    rw [h2] at hr
    obtain rfl := Option.some.inj hr
    revert n
    decide +kernel
  · obtain rfl := h1 n hn
    exact ⟨by decide +kernel, rfl, by decide +kernel, by decide +kernel, text, text + 8, [], rfl⟩

theorem wit_GangsGrowAndShrink : (gangCtx 3).kind ≠ .rod ∧ (gangS 3).regionOf (gangCtx 3) = some gangRegion ∧
    (∃ b n, grows (.grow96 (.s 8) 16) = some (.s 8, b) ∧ Ready (gangS 3) (gangIss 3) (gangCtx 3) ⟨b.regs, [.s 8], []⟩ (regType (.s 8) == .uniform) true [] [] ∧
      n = ((gangCtx 3).arch.srcWord 0 b).toNat ∧ n ≤ (gangCtx 3).arch.vc) ∧
    (∃ b n, grows (.grow96 (.s 8) 65) = some (.s 8, b) ∧ n = ((gangCtx 3).arch.srcWord 0 b).toNat ∧ (gangCtx 3).arch.vc < n ∧ 64 < n) ∧
    (∃ b n, grows (.grow96 (.s 8) 17) = some (.s 8, b) ∧ n = ((gangCtx 3).arch.srcWord 0 b).toNat ∧ (gangCtx 3).arch.vc < n ∧ n ≤ 64 ∧
      gangBlock ((gangS 3).objectOf (gangCtx 3).launch) n ≤ regBytes gangRegion.core gangRegion.pw ∧
      (gangS 3).blockFor (gangCtx 3) n - (gangS 3).blockOf (gangCtx 3) ≤ (gangS 3).regionFree gangRegion ∧
      ∀ x ∈ (gangS 3).residents gangRegion, x.growing = none) ∧
    ∃ b, shrinks (.shrink96 8) = some b ∧
      Ready (gangS 3 fun ar => { ar with vc := 20 }) (gangIss 3) (gangCtx 3 fun ar => { ar with vc := 20 }) ⟨b.regs, [], []⟩ true true [] [] ∧
      max ((gangCtx 3).arch.srcWord 0 b).toNat ((gangS 3).objectOf (gangCtx 3).launch).vcnt < 20 :=
  ⟨by decide +kernel, by decide +kernel, ⟨_, 16, rfl, ready_of (by decide +kernel), by decide +kernel, by decide +kernel⟩,
    ⟨_, 65, rfl, by decide +kernel, by decide +kernel, by decide +kernel⟩,
    ⟨_, 17, rfl, by decide +kernel, by decide +kernel, by decide +kernel, by decide +kernel, by decide +kernel, by decide +kernel⟩,
    ⟨_, rfl, ready_of (by decide +kernel), by decide +kernel⟩⟩

/-- BF16 records of eight terms, at 0 and behind it; s4:s5 and v4:v5 hold an address in device memory. -/
def recA : ObsRecord := ⟨true, false, 3, 0, 8, 0, 32, 32, 32⟩
def obRegion : Region := { gangRegion with obs := (gangRegion.obs.set 0 recA).set 1 { recA with base := 32 } }
def obCtx : Ctx := gangCtx 3 fun ar => setVs (setVs (setP ar 2 (devVa dOff)) 4 [0, 0, 0]) 5 [0x01000002, 0x01000002, 0x01000002]
def obS (r : Region) (x n : Nat) : State := { gangS 3 with ctxs := [obCtx], regions := [r], dev := Mem.putBytes [] dOff (leBytes x n) }
theorem ob_ready (nm : Names) (whole : Bool) (r : Region) (x n : Nat)
    (h : (readyB (obS r x n) (gangIss 3) obCtx nm true whole [] [] && (obS r x n).regionOf obCtx == some r) = true) :
    MatrixReady (obS r x n) (gangIss 3) obCtx nm true whole r := by
  simp only [Bool.and_eq_true] at h
  exact matrixReady_of (by rw [h.1, h.2]; decide +kernel)
theorem ob_none (r : Region) (x n : Nat) : noneWaits (obS r x n) obCtx := fun y hy _ => by
  obtain rfl := List.mem_singleton.mp hy
  rfl
theorem ob_noOps (r : Region) (x n : Nat) (recs : List (Fin 16)) (tile : Option Nat) : noOps (obS r x n) obCtx recs tile := fun _ ho =>
  absurd ho List.not_mem_nil
theorem wit_BufferRecords : (∃ b, reserves (.obres96 (.s 8) 0 0x803) = some (.s 8, 0, b) ∧
      MatrixReady (obS gangRegion 0 0) (gangIss 3) obCtx ⟨b.regs, [.s 8], []⟩ (regType (.s 8) == .uniform) true gangRegion ∧
      MatrixReady (obS obRegion 0 0) (gangIss 3) obCtx ⟨b.regs, [.s 8], []⟩ (regType (.s 8) == .uniform) true obRegion ∧
      attrRecord (obCtx.arch.srcWord 0 b) = some recA) ∧
    gangRegion.obs[0].v = false ∧ obRegion.obs[0].v = true ∧ attrRecord 8 = none ∧
    rangeFree ((obS gangRegion 0 0).obufRanges 8) recA.size 0 ∧
    (∀ base, ¬ rangeFree ((obS { gangRegion with obs := gangRegion.obs.set 1 { recA with size := Config.obufBytes / 64 } } 0 0).obufRanges 8) 32 base) ∧
    MatrixReady (obS obRegion 0 0) (gangIss 3) obCtx ⟨[], [], []⟩ true true obRegion ∧ noneWaits (obS obRegion 0 0) obCtx ∧ noneWaits (obS gangRegion 0 0) obCtx ∧ noOps (obS obRegion 0 0) obCtx [0] none ∧
    ∀ j o, o ∈ (obRegion.cvg[(j : Fin 8)]).waiting → o.a ≠ 0 ∧ o.b ≠ 0 := by
  refine ⟨⟨_, rfl, ob_ready _ _ _ _ _ (by decide +kernel), ob_ready _ _ _ _ _ (by decide +kernel), by decide +kernel⟩, by decide +kernel,
    by decide +kernel, by decide +kernel, by unfold rangeFree; decide +kernel, fun base h => ?_, ob_ready _ _ _ _ _ (by decide +kernel), ob_none _ _ _,
    ob_none _ _ _, ob_noOps _ _ _ _ _, fun j o ho => ?_⟩
  · have h2 := h.2 (0, Config.obufBytes / 64) (by decide +kernel)
    have h3 := h.1
    simp only at h2
    omega
  · have h4 : ∀ j : Fin 8, obRegion.cvg[j].waiting = [] := by decide +kernel
    rw [h4 j] at ho
    cases ho

/-- Lines that are there. -/
def areOk (x : Fetched × (Mem → Mem)) : Bool := match x.1 with | .ok [] _ => true | _ => false
theorem lines_of {x : Fetched × (Mem → Mem)} (h : areOk x = true) : ∃ ps f, x = (.ok [] ps, f) := by
  obtain ⟨x, f⟩ := x
  cases x with
  | ok bs ps => cases bs with
    | nil => exact ⟨ps, f, rfl⟩
    | cons b bs => simp [areOk] at h
  | _ => simp [areOk] at h
/-- The bytes of a line that is there. -/
def lineOf (x : Fetched) : List Byte × List (DWord × Place) := match x with | .ok bs ps => (bs, ps) | _ => ([], [])
/-- A descriptor with 16 bytes of each line at a stride of 16, behind it. -/
def obDesc : Nat := 2 ^ 56 + dOff + 0x1000 + 2 ^ 64 * 16
theorem wit_BufferLoads : MatrixReady (obS obRegion obDesc 32) (gangIss 3) obCtx (pairNames (.s 8) ⟨2⟩) (regType (.s 8) == .uniform) true obRegion ∧
    obRegion.obs[2].v = false ∧ obRegion.obs[0].v = true ∧
    (obS obRegion obDesc 32).readDesc obCtx (spairAt obCtx ⟨2⟩) 8 4 = .ok obDesc ∧
    obldDesc (BitVec.ofNat 256 (2 ^ 96)) recA.dens = none ∧
    obldDesc (BitVec.ofNat 256 obDesc) obRegion.obs[0].dens = some (devVa (dOff + 0x1000), 16, 0, 0) ∧ noneWaits (obS obRegion obDesc 32) obCtx ∧
    noOps (obS obRegion obDesc 32) obCtx [0] none ∧
    (∃ ps f, ((obS obRegion obDesc 32).noteDesc obCtx (spairAt obCtx ⟨2⟩) 4).fetchLines obCtx obRegion.obs[0] (devVa (dOff + 0x1000)) 16 0 0 0 32 = (.ok [] ps, f)) ∧
    MatrixReady (obS obRegion obDesc 32) (gangIss 3) obCtx ⟨[], [.s 8], [(.v 4, 2)]⟩ (regType (.s 8) == .uniform) true obRegion ∧ obRegion.obs[0].dens = 0 ∧
    { recA with dens := 1 }.dens ≠ 0 ∧
    (∀ l, l < 32 → (obCtx.arch.lane l).live = true → (obS obRegion obDesc 32).fetchLine obCtx obRegion.obs[0] (pairAt obCtx.arch l (.v 2)) =
      .ok (lineOf ((obS obRegion obDesc 32).fetchLine obCtx obRegion.obs[0] (pairAt obCtx.arch l (.v 2)))).1
        (lineOf ((obS obRegion obDesc 32).fetchLine obCtx obRegion.obs[0] (pairAt obCtx.arch l (.v 2)))).2) :=
  ⟨ob_ready _ _ _ _ _ (by decide +kernel), by decide +kernel, by decide +kernel, by decide +kernel, by decide +kernel, by decide +kernel, ob_none _ _ _, ob_noOps _ _ _ _ _,
    lines_of (by decide +kernel), ob_ready _ _ _ _ _ (by decide +kernel), by decide +kernel, by decide, by decide +kernel⟩

/-- Where the rows of a tile are, 128 bytes apart. -/
def tileVa (x : Nat) : DWord := elementAt (devVa dOff) 128 x
def tilePl (x : Nat) : Place := .dev (dOff + 4 * x)
theorem tile_va : ∀ x, x < 1024 → (tileVa x).toNat = 2 ^ 56 + dOff + 4 * x := by decide +kernel
theorem wit_Accumulators : (0 : BitVec 8).toNat < gangRegion.tiles ∧ noneWaits (obS gangRegion 0 0) obCtx ∧ noOps (obS gangRegion 0 0) obCtx [] (some 0) ∧ memoriesWf (obS gangRegion 0 0) ∧
    MatrixReady (obS gangRegion 0 0) (gangIss 3) obCtx ⟨[], [], []⟩ true true gangRegion ∧
    (∃ b, tileReads (.accrd96 (.v 8) 0 31) = some (.v 8, 0, b) ∧
      MatrixReady (obS gangRegion 0 0) (gangIss 3) obCtx ⟨b.regs, [.v 8], []⟩ (regType (.v 8) == .varying) false gangRegion) ∧
    (∃ b, tileMoves (.accld96 0 ⟨2⟩ 128) = some (false, 0, ⟨2⟩, b) ∧ MatrixReady (obS gangRegion 0 0) (gangIss 3) obCtx ⟨b.regs, [], [(.s 4, 2)]⟩ true true gangRegion ∧
      (obCtx.arch.srcWord 0 b) = 128) ∧
    (∃ b, tileMoves (.accst96 0 ⟨2⟩ 128) = some (true, 0, ⟨2⟩, b) ∧ (obCtx.arch.srcWord 0 b) = 128) ∧ spairAt obCtx ⟨2⟩ = devVa dOff ∧
    (∀ x, x < 1024 → (obS gangRegion 0 0).resolveRead ((obS gangRegion 0 0).accessor obCtx) (tileVa x) 4 4 .load = .ok (tilePl x)) ∧
    (∀ x, x < 1024 → (obS gangRegion 0 0).resolveWrite ((obS gangRegion 0 0).accessor obCtx) (tileVa x) 4 4 .store = .ok (tilePl x)) ∧ linesAgree 1024 tileVa tilePl ∧
    (∀ x z j k, x < 1024 → z < 1024 → x ≠ z → j < 4 → k < 4 →
      home (obS gangRegion 0 0) ((tilePl x).plus j) ≠ home (obS gangRegion 0 0) ((tilePl z).plus k)) ∧ (obS gangRegion 0 0).gates = [] ∧ cacheRoom (obS gangRegion 0 0) obCtx 64 ∧
    ∀ j o, o ∈ (gangRegion.cvg[(j : Fin 8)]).waiting → o.tile ≠ (0 : BitVec 8).toNat := by
  refine ⟨by decide +kernel, ob_none _ _ _, ob_noOps _ _ _ _ _, mems_of (by decide +kernel), ob_ready _ _ _ _ _ (by decide +kernel),
    ⟨_, rfl, ob_ready _ _ _ _ _ (by decide +kernel)⟩, ⟨_, rfl, ob_ready _ _ _ _ _ (by decide +kernel), by decide +kernel⟩, ⟨_, rfl, by decide +kernel⟩,
    by decide +kernel, by decide +kernel, by decide +kernel, fun x y hx hy => ?_, fun x z j k hx hz hn hj hk => ?_, by decide +kernel,
    room_of rfl rfl (by decide +kernel), fun j o ho => ?_⟩
  · have h1 := tile_va x hx
    have h2 := tile_va y hy
    simp only [dOff] at h1 h2
    refine ⟨?_, fun h => ?_⟩
    · simp only [tilePl, Place.lineBase, Place.plus, h1, dOff, Place.dev.injEq]
      omega
    · simp only [tilePl, Place.lineBase, dOff, Place.dev.injEq]
      omega
  · simp only [tilePl, Place.plus, home, ne_eq, Place.dev.injEq]
    omega
  · have h : ∀ j : Fin 8, gangRegion.cvg[j].waiting = [] := by decide +kernel
    rw [h j] at ho
    cases ho
theorem wit_MatrixProducts : (∃ b, products (.mma96 none 0 ⟨0, 1⟩ 8) = some (false, none, 0, ⟨0, 1⟩, b) ∧
      MatrixReady (obS obRegion 0 0) (gangIss 3) obCtx ⟨b.regs, [], []⟩ true true obRegion ∧ 8 = (obCtx.arch.srcWord 0 b).toNat) ∧
    mmaOk obRegion false 0 obRegion.obs[0] obRegion.obs[1] 8 = true ∧ ((obS obRegion 0 0).beam 8).fenced = false ∧ (obS obRegion 0 0).columnHeld 8 = false ∧ ((obS obRegion 0 0).beam 8).ops = [] ∧ noneWaits (obS obRegion 0 0) obCtx ∧
    roundOpen obRegion obCtx.index none ∧ obRegion.acc.wf = true ∧
    roundOpen { obRegion with cvg := obRegion.cvg.set 2 { CvgReg.idle with mset := some 1, signed := 1 } } 0 (some 2) := by
  refine ⟨⟨_, rfl, ob_ready _ _ _ _ _ (by decide +kernel), by decide +kernel⟩, by decide +kernel, by decide +kernel, by decide +kernel, by decide +kernel, ob_none _ _ _, trivial, by decide +kernel,
    1, by decide +kernel, by decide +kernel, by decide +kernel, by decide +kernel, by decide +kernel, by decide +kernel, by decide +kernel⟩
theorem wit_GangsSign : decodeWords [0x09000846, 0x03000A00] = .ok (.sign64 (.s 8) 3 9, 2) ∧
    decodeWords [0xFF000847, 0x03000A00, 1] = .ok (.sign96 (.s 8) 3 1, 3) ∧
    (∀ x : Fin 3, ∃ b, signs (.sign96 (.s 8) 3 (BitVec.ofNat 32 x.val)) = some (.s 8, 3, b) ∧
      MatrixReady (obS gangRegion 0 0) (gangIss 3) obCtx ⟨b.regs, [.s 8], []⟩ (regType (.s 8) == .uniform) true gangRegion ∧
      obCtx.arch.srcWord 0 b = BitVec.ofNat 32 x.val) ∧
    (∀ o ∈ gangRegion.cvg[3].waiting, o.key ≠ gangKey) ∧ gangRegion.cvg[3].issued.contains obCtx.index = false := by
  refine ⟨by decide +kernel, by decide +kernel, fun x => ?_, by decide +kernel, by decide +kernel⟩
  fin_cases x <;> exact ⟨_, rfl, ob_ready _ _ _ _ _ (by decide +kernel), by decide +kernel⟩

/-! ## States that meet the hypotheses of the statements: verdicts, exceptions, launching, spawning, moving -/

/-- A rod's thread about to take the dot product of two blocks: the row, the vector and the control pair. -/
def vdCtx : Ctx := memCtx (devVa dOff) fun ar => setP (setP (setP ar 3 (devVa (dOff + 0x4000))) 5 0x0001000240000000) 6 0
def vdS : State := { rodS with ctxs := [vdCtx] }
theorem wit_VerdictsAccumulate : Ready vdS rodIss vdCtx ⟨[], [.s 14], [pairName (.s 2)]⟩ (regType (.s 14) == pairType (.s 2)) (pairIsS (.s 2)) [] [] ∧
    (∀ n ∈ taking (pairIsS (.s 2)) rodIss.exec,
      vdS.fetchBlock vdCtx (verdictBlock .bf16).2 (verdictBlock .bf16).1 (pairAt vdCtx.arch n (.s 2)) =
        .ok (lineOf (vdS.fetchBlock vdCtx 2 128 (pairAt vdCtx.arch n (.s 2)))).1 (lineOf (vdS.fetchBlock vdCtx 2 128 (pairAt vdCtx.arch n (.s 2)))).2) ∧
    Ready vdS rodIss vdCtx ⟨[], [.s 14], [pairName (.s 2), (.s 6, 2), pairName (pairOfS ⟨5⟩)]⟩ (regType (.s 14) == pairType (.s 2)) (pairIsS (.s 2)) [] [] ∧
    vdCtx.pair = none ∧ vdCtx.arch.vdot = none ∧ (vdCtx.arch.vdotStart text 0).done = none ∧ (vdCtx.arch.vdotStart text 0).fault = none ∧ (vdCtx.arch.vdotStart text 0).c = 0 ∧ max 1 ((spairAt vdCtx ⟨5⟩).toNat / 2 ^ 48 % 2 ^ 8) = 1 ∧ (spairAt vdCtx ⟨5⟩).toNat / 2 ^ 32 % 2 ^ 16 = 2 ∧ isAbandoned ((spairAt vdCtx ⟨5⟩).setWidth 32) = false ∧
    ∀ n ∈ taking (pairIsS (.s 2)) rodIss.exec, ∀ j, j < 2 →
      (∃ bs ps, vdS.fetchBlock vdCtx 4 4 (pairAt vdCtx.arch n (.s 2) + BitVec.ofNat 64 (4 * j)) = .ok bs ps) ∧
      (∃ ps, vdS.fetchBlock vdCtx 2 128 (pairAt vdCtx.arch n (.s 2) + BitVec.ofNat 64 (roundUp (4 * 2) 64 + j * 128)) = .ok (List.replicate 128 0) ps) ∧
      ∃ ps, vdS.fetchBlock vdCtx 2 128 (pairAt vdCtx.arch 0 (.s 3) + BitVec.ofNat 64 (128 * j)) = .ok (List.replicate 128 0) ps := by
  have ok : ∀ {x : Fetched} (bs : List Byte), (match x with | .ok b _ => b == bs | _ => false) = true → ∃ ps, x = .ok bs ps := by
    intro x bs h
    cases x <;> simp_all
  refine ⟨ready_of (by decide +kernel), by decide +kernel, ready_of (by decide +kernel), by decide +kernel, by decide +kernel, by decide +kernel,
    by decide +kernel, by decide +kernel, by decide +kernel, by decide +kernel, by decide +kernel, fun n hn j hj => ?_⟩
  have hn0 : n = 0 := by
    have h : taking (pairIsS (.s 2)) rodIss.exec = [0] := by decide +kernel
    rw [h] at hn
    exact List.mem_singleton.mp hn
  subst hn0
  obtain rfl | rfl : j = 0 ∨ j = 1 := by omega
  · exact ⟨⟨[0, 0, 0, 0], ok _ (by decide +kernel)⟩, ok _ (by decide +kernel), ok _ (by decide +kernel)⟩
  · exact ⟨⟨[0, 0, 0, 0], ok _ (by decide +kernel)⟩, ok _ (by decide +kernel), ok _ (by decide +kernel)⟩

/-- A thread with threshold slot 2 bound to a cell. -/
def thsCtx (x : DWord) : Ctx := descCtx fun ar => { ar with ths := ar.ths.set 2 x }
def thsS (x : DWord) : State := { descS 0x0000000340000000 8 with ctxs := [thsCtx x] }
def boundTo : DWord := 0x8100000200000000
theorem wit_ThresholdCells : Ready (thsS 0) rodIss (thsCtx 0) ⟨[], [], [(.s 4, 2)]⟩ true true [] [] ∧
    (thsS 0).resolveRead ((thsS 0).accessor (thsCtx 0)) (spairAt (thsCtx 0) ⟨2⟩) 8 8 .load = .ok (.dev dOff) ∧ spairAt (thsCtx 0) ⟨0⟩ = 0 ∧
    Ready (thsS boundTo) rodIss (thsCtx boundTo) ⟨[], [], [(.s 8, 2)]⟩ true true [] [] ∧ (thsCtx boundTo).arch.ths[2].getLsbD 63 = true ∧
    (thsCtx boundTo).arch.ths[2] &&& 0x01FFFFFFFFFFFFF8 = devVa dOff ∧
    (thsS boundTo).resolveRead ((thsS boundTo).accessor (thsCtx boundTo)) (devVa dOff) 8 8 .load = .ok (.dev dOff) ∧
    (∃ b, raises (.thsRaise96 (.s 4) 2 0x41000000) = some (.s 4, 2, b) ∧
      Ready (thsS boundTo) rodIss (thsCtx boundTo) ⟨b.regs, [], [pairName (.s 4)]⟩ (pairType (.s 4) == b.type) (b.type == .uniform) [] [] ∧
      Ready (thsS 0) rodIss (thsCtx 0) ⟨b.regs, [], [pairName (.s 4)]⟩ (pairType (.s 4) == b.type) (b.type == .uniform) [] [] ∧
      (thsCtx 0).arch.ths[2].getLsbD 63 = false ∧ taking (b.type == .uniform) rodIss.exec = [0] ∧
      isAbandoned ((thsCtx boundTo).arch.srcWord 0 b) = false) ∧
    Ready (thsS 0) rodIss (thsCtx 0) ⟨[], [], [pairName (.s 4)]⟩ (pairIsS (.s 4)) true [] [] ∧
    (thsS boundTo).resolveThs (thsCtx boundTo) (devVa dOff) = .ok (.dev dOff) ∧ exists? (thsS boundTo) (.dev dOff) = true ∧
    memoriesWf (thsS boundTo) ∧ (thsS boundTo).inLockstep (thsCtx boundTo) = false :=
  ⟨ready_of (by decide +kernel), by decide +kernel, by decide +kernel, ready_of (by decide +kernel), by decide +kernel, by decide +kernel, by decide +kernel,
    ⟨_, rfl, ready_of (by decide +kernel), ready_of (by decide +kernel), by decide +kernel, by decide +kernel, by decide +kernel⟩,
    ready_of (by decide +kernel), by decide +kernel, by decide +kernel, mems_of (by decide +kernel), by decide +kernel⟩

/-! ### Exceptions -/

/-- A gang with a handler, outside it and inside it, in a launch whose TRAPU has a disposition. -/
def hCtx (uh : Bool) : Ctx :=
  gangCtx 3 fun ar => { ar with uhnd := text + 0x80, uh := uh, trapSet := if uh then 3 else 0, epc := if uh then text + 0x20 else 0 }
def hS (disp : Nat) (uh : Bool) : State :=
  { gangS 3 with ctxs := [hCtx uh], launches := [{ tLaunch with pkt := tLaunch.pkt ||| BitVec.ofNat 1536 (disp * 2 ^ (8 * 0x82 + 4)) }] }
theorem wit_ExceptionsAreTaken : (∀ d : Fin 3, (hS d.val false).ctx? gangKey = some (hCtx false) ∧ (hS d.val false).inLockstep (hCtx false) = false ∧
      pktDisp ((hS d.val false).pktOf (hCtx false).launch) .trapu = d.val ∧ ∃ l, (hS d.val false).launch? (hCtx false).launch = some l ∧ l.st = .running) ∧
    distinct (hS 0 false) ∧ (∀ n, (7 : BitVec 64).getLsbD n = true → ((hCtx false).arch.lane n).live = true) ∧
    ((hCtx false).arch.uhnd ≠ 0 ∧ (hCtx false).arch.uh = false ∧ (hCtx false).arch.overlay = false) ∧ (hCtx true).arch.uh = true ∧
    (hS 1 false).reckoner (boardNo 8) = ⟨0, [], []⟩ ∧
    64 ≤ (State.reckoner { hS 1 false with reckoners := [⟨0, List.replicate 64 (firstKey, .svc), []⟩] } (boardNo 8)).slots.length := by
  refine ⟨fun d => ?_, by unfold distinct; decide +kernel, bits_of (by decide +kernel), by decide +kernel, by decide +kernel, by decide +kernel,
    by decide +kernel⟩
  fin_cases d <;> exact ⟨by decide +kernel, by decide +kernel, by decide +kernel, _, rfl, rfl⟩
theorem wit_trapsAreRaised : (Issuing rodS rodIss rodCtx ∧ rodCtx.kind = .rod) ∧ (Issuing (hS 0 false) (gangIss 3) (hCtx false) ∧ (hCtx false).kind = .gang) ∧
    (Issuing calledS (gangIss 1) calledCtx ∧ calledCtx.kind = .called 0 0) ∧
    ∀ l, rodS.launch? rodCtx.launch = some l → l.debugger = false := by
  refine ⟨⟨issuing_of (by decide +kernel), rfl⟩, ⟨issuing_of (by decide +kernel), rfl⟩, ⟨issuing_of (by decide +kernel), rfl⟩, fun l hl => ?_⟩
  have h : rodS.launch? rodCtx.launch = some (firstLaunch 0x4000000000) := by decide +kernel
  rw [h] at hl
  obtain rfl := Option.some.inj hl
  rfl
theorem wit_handlersReturn : (Issuing (hS 0 false) (gangIss 3) (hCtx false) ∧ (hCtx false).arch.uh = false ∧ (hCtx false).arch.overlay = false) ∧
    (Issuing calledS (gangIss 1) calledCtx ∧ calledCtx.kind = .called 0 0 ∧ calledCtx.arch.overlay = false) ∧
    (Issuing { hS 0 true with issue := some (gangIss 1) } (gangIss 1) (hCtx true) ∧ (hCtx true).arch.uh = true ∧ (hCtx true).kind = .gang ∧
      (gangIss 1).exec ≠ (hCtx true).arch.trapSet) ∧
    Issuing { hS 0 true with issue := some (gangIss 2) } (gangIss 2) (hCtx true) ∧ (gangIss 2).exec = (hCtx true).arch.trapSet :=
  ⟨⟨issuing_of (by decide +kernel), by decide +kernel, by decide +kernel⟩, ⟨issuing_of (by decide +kernel), rfl, by decide +kernel⟩,
    ⟨issuing_of (by decide +kernel), by decide +kernel, rfl, by decide +kernel⟩, issuing_of (by decide +kernel), by decide +kernel⟩
/-- A thread with source 2 pending and enabled, in a state of it. -/
def intCtx (st : CtxState) (f : Arch → Arch := id) : Ctx := { rodCtx fun ar => f { ar with uhnd := text + 0x80, pend := 6, en := 4 } with st := st }
def intS (st : CtxState) (f : Arch → Arch := id) : State := { rodS with issue := none, ctxs := [intCtx st f] }
theorem wit_InterruptsPulsesAndServices : (∀ st ∈ [CtxState.parked .tags, .parked (.waitfree 1 (.s 8) 0 (text + 8)),
        .parked (.mwait (devVa dOff) (some (.dev dOff)) (.s 4) 5 .dev none 0 (text + 8)), .parked (.barrier (.dev dOff) 4),
        .parked (.grow 17 17 (.s 8) (text + 8)), .parked (.reply hostReq), .parked .trapSlot, .parked (.svc (.s 3) 8 3 1 (text + 8) false)],
      (intS st).ctx? firstKey = some (intCtx st) ∧ (intS st).halted (intCtx st).launch = false ∧ (intCtx st).arch.uh = false ∧
      (intCtx st).arch.overlay = false ∧ (intCtx st).arch.uhnd ≠ 0 ∧ (intCtx st).isCalled = false ∧
      ((intCtx st).arch.en &&& (intCtx st).arch.pend).getLsbD 2 = true ∧
      (∀ j, j < 2 → ((intCtx st).arch.en &&& (intCtx st).arch.pend).getLsbD j = false) ∧
      ({ intCtx st with st := .live, woken := false } : Ctx).select = (intCtx .live, 1)) ∧
    (rodCtx.isCalled = false ∧
      Ready rodS rodIss rodCtx ⟨opRegs (opOfU (.s 6)) ++ opRegs (opOfU (.imm 3)), [.s 8], []⟩ (regType (.s 8) == .uniform) true [] []) ∧
    (∃ l, rodS.launch? rodCtx.launch = some l) ∧
    (∃ b n, services (.svc96 (.s 3) ⟨2⟩ 1 12) = some (.s 3, ⟨2⟩, b, n) ∧ Ready rodS rodIss rodCtx ⟨b.regs, [], [(.s 12, 4), (.s 4, 2)]⟩ true true [] []) ∧
    ({ rodS with launches := [{ firstLaunch 0x4000000000 with pkt := (firstLaunch 0x4000000000).pkt ||| 0x10 }] } : State).inLockstep rodCtx = true :=
  ⟨by decide +kernel, ⟨rfl, ready_of (by decide +kernel)⟩, ⟨_, rfl⟩, ⟨_, _, rfl, ready_of (by decide +kernel)⟩, by decide +kernel⟩

theorem wit_InterruptsAreTaken : ((intS .live).ctx? firstKey = some (intCtx .live) ∧ (intCtx .live).st = .live ∧ (intS .live).ready (intCtx .live) = true ∧
      (intCtx .live).isCalled = false ∧ (intCtx .live).select = (intCtx .live, 1)) ∧
    ((intCtx .live).arch.uh = false ∧ (intCtx .live).arch.overlay = false ∧ (intCtx .live).arch.uhnd ≠ 0) ∧
    ((intCtx .live).arch.en &&& (intCtx .live).arch.pend).getLsbD 2 = true ∧
    (∀ j, j < 2 → ((intCtx .live).arch.en &&& (intCtx .live).arch.pend).getLsbD j = false) ∧
    (intCtx .live fun ar => { ar with en := 1 }).arch.en &&& (intCtx .live fun ar => { ar with en := 1 }).arch.pend = 0 ∧
    (∀ f ∈ [fun ar : Arch => { ar with en := 1 }, fun ar => { ar with uh := true }, fun ar => { ar with overlay := true }, fun ar => { ar with uhnd := 0 }],
      (intS .live f).ctx? firstKey = some (intCtx .live f) ∧ (intS .live f).ready (intCtx .live f) = true) := by decide +kernel

/-! ### Launching, spawning, moving -/

/-- A packet in device memory, and a store that is full. -/
def pendAt (order : Nat) (pkt : BitVec 1536) (number : Word) : Pending := ⟨order, number, pkt, .host 0 0, 0, false, [], [], [], false⟩
theorem wit_LaunchesEnter : Ready (descS 5 192) rodIss descCtx ⟨[], [], [(.s 8, 2), (.s 4, 2)]⟩ true true [] [] ∧
    (descS 5 192).readDesc descCtx (spairAt descCtx ⟨2⟩) 64 0 = .ok 0 ∧
    ((descS 5 192).release firstKey .dev).readPieces descCtx (spairAt descCtx ⟨2⟩) (spairAt descCtx ⟨2⟩) 24 = .ok 5 ∧
    (descS 5 192).pending.length < 256 ∧ 256 ≤ (List.replicate 256 (pendAt 0 0 0)).length :=
  ⟨ready_of (by decide +kernel), by decide +kernel, by decide +kernel, by decide +kernel, by decide +kernel⟩

/-- A thread that names core n in s0, and a new PC in s4:s5; and one that waits for the answer to its SPAWN on rod 1. -/
def spCtx (n : Word) : Ctx := memCtx (text + 0x40) fun ar => ar.setS 0 n
def spS (n : Word) : State := { rodS with ctxs := [spCtx n] }
def waitCtx : Ctx := { rodCtx with st := .parked (.spawn (.s 4) (text + 8)) }
def spMsg : CtxKey × CoreId × DWord × DWord := (firstKey, 1, text + 0x40, 7)
def msgS (l : Launch) (rs : List Region) (others : List Ctx) : State :=
  { rodS with issue := none, ctxs := waitCtx :: others, launches := [l], regions := rs, spawnQ := [spMsg] }
def lockPkt : BitVec 1536 := (firstLaunch 0x4000000000).pkt ||| 0x10
def farRegion : Region := { firstRegion with core := 1 }
theorem wit_SpawnsAreAnswered : (∀ n ∈ [(1 : Word), 8], Ready (spS n) rodIss (spCtx n) ⟨[.s 0], [], [(.s 16, 2), (.s 4, 2), (.s 6, 2)]⟩ true true [] []) ∧
    (spairAt (spCtx 1) ⟨2⟩).toNat % 4 = 0 ∧ (spairAt (memCtx (text + 0x42)) ⟨2⟩).toNat % 4 ≠ 0 ∧ (isRod ((2 : Word).setWidth 14) = true ∧ coreSlot ((2 : Word).setWidth 14) % 2 = 0 ∧
      (∃ n : Fin 64, isRod ((BitVec.ofNat 32 n.val).setWidth 14) = true ∧ coreSlot ((BitVec.ofNat 32 n.val).setWidth 14) % 2 = 1) ∧
      pktLockstep lockPkt = true) ∧ (isRod ((spCtx 8).arch.s[(0 : Fin 64)].setWidth 14) && (spS 8).enabled ((spCtx 8).arch.s[(0 : Fin 64)].setWidth 14)) = false ∧
    (isRod ((spCtx 1).arch.s[(0 : Fin 64)].setWidth 14) = true ∧ (spS 1).enabled ((spCtx 1).arch.s[(0 : Fin 64)].setWidth 14) = true ∧
      pktLockstep ((spS 1).pktOf (spCtx 1).launch) = false) ∧
    ((msgS (firstLaunch 0x4000000000) [farRegion] []).spawnQ.find? (fun m => m.2.1 == 1) = some spMsg ∧
      (msgS (firstLaunch 0x4000000000) [farRegion] []).ctx? spMsg.1 = some waitCtx ∧ (msgS (firstLaunch 0x4000000000) [] []).spawnRegions 1 1 = [] ∧
      (msgS (firstLaunch 0x4000000000) [farRegion] []).spawnRegions 1 1 = [farRegion] ∧
      ({ firstLaunch 0x4000000000 with spawned := 2 ^ 32 - 1 } : Launch).spawned = 2 ^ 32 - pktNwg (firstLaunch 0x4000000000).pkt * pktWgsize (firstLaunch 0x4000000000).pkt ∧
      (firstLaunch 0x4000000000).spawned ≠ 2 ^ 32 - pktNwg (firstLaunch 0x4000000000).pkt * pktWgsize (firstLaunch 0x4000000000).pkt ∧
      ((msgS (firstLaunch 0x4000000000) [farRegion] []).residents farRegion).length <
        regionSlots ((msgS (firstLaunch 0x4000000000) [farRegion] []).objectOf 1) 1 farRegion.pw ∧
      regionSlots ((msgS (firstLaunch 0x4000000000) [farRegion] []).objectOf 1) 1 0 ≤ ((msgS (firstLaunch 0x4000000000) [{ farRegion with pw := 0 }] []).residents farRegion).length ∧
      (msgS (firstLaunch 0x4000000000) [farRegion] []).rodNumber 1 = some 0 ∧ ((msgS (firstLaunch 0x4000000000) [farRegion] []).objectOf 1).nfmtreq = 0) ∧
    (∀ n ∈ [(1 : Word), 8], Ready (spS n) rodIss (spCtx n) ⟨[.s 0, .s 6], [.s 8], []⟩ (regType (.s 8) == .uniform) true [] []) ∧
    (spS 1).freecntOf 1 ≠ (spCtx 1).arch.s[(6 : Fin 64)] ∧
    ({ spS 1 with freecnt := [(1, 0x11223344)] } : State).freecntOf 1 = (spCtx 1).arch.s[(6 : Fin 64)] := by
  refine ⟨fun n hn => ?_, by decide +kernel, by decide +kernel, by decide +kernel, by decide +kernel, by decide +kernel, by decide +kernel, fun n hn => ?_, by decide +kernel, by decide +kernel⟩ <;>
  · simp only [List.mem_cons, List.not_mem_nil, or_false] at hn
    rcases hn with rfl | rfl <;> exact ready_of (by decide +kernel)

theorem wit_groupsJoinAndLeave : Ready (descS (cellN 2) 16) rodIss descCtx (pairNames (.s 8) ⟨2⟩) (regType (.s 8) == .uniform) true [] [] ∧
    (descS (cellN 2) 16).resolveCell descCtx (spairAt descCtx ⟨2⟩) = .ok (.dev dOff) ∧ drained descCtx ∧ memoriesWf (descS (cellN 2) 16) ∧
    (lanesOf rodIss.exec).length = 1 ∧
    (∀ x ∈ [(2, 0), (1, 0), (0xFFFFFFFF, 0), (2, 0xFFFF)],
      (((descS (x.1 + 2 ^ 32 + 2 ^ 64 * 4 + 2 ^ 96 * x.2) 16).release firstKey (cellScope (spairAt descCtx ⟨2⟩) (.dev dOff))).syncHome descCtx
        (spairAt descCtx ⟨2⟩) (.dev dOff)).cellAt (.dev dOff) = ⟨x.1, 1, 4, x.2, 0⟩) :=
  ⟨ready_of (by decide +kernel), by decide +kernel, rfl, mems_of (by decide +kernel), by decide +kernel, by decide +kernel⟩
theorem wit_lanesExit : (Issuing calledS (gangIss 1) calledCtx ∧ calledCtx.kind = .called 0 0) ∧ Issuing partS (gangIss 3) (gangCtx 4) ∧
    (gangCtx 4).isCalled = false ∧ (∀ n, (gangIss 3).exec.getLsbD n = true → ((gangCtx 4).arch.lane n).gid = 0) ∧
    (∃ n, ((gangCtx 4).arch.lane n).live = true ∧ (gangIss 3).exec.getLsbD n = false) ∧
    (∀ n, n < 32 → ((gangCtx 3).arch.lane n).live = true → (gangIss 3).exec.getLsbD n = true) :=
  ⟨⟨issuing_of (by decide +kernel), rfl⟩, issuing_of (by decide +kernel), rfl, bits_of (by decide +kernel), ⟨3, by decide +kernel⟩, by decide +kernel⟩
theorem wit_ThreadsMove : Ready rodS rodIss rodCtx ⟨[], [.s 8], []⟩ (regType (.s 8) == .uniform) true [] [] ∧ rodCtx.away = false ∧
    rodS.enabled (boardReckoner (boardNo rodCtx.key.core)) = true ∧ rodS.awayCount (boardNo rodCtx.key.core) < 256 ∧
    ({ rodS with disabled := [boardReckoner 0] } : State).enabled (boardReckoner (boardNo rodCtx.key.core)) = false ∧
    256 ≤ ({ rodS with ctxs := rodCtx :: List.replicate 256 { rodCtx with key := ⟨1, 0⟩, away := true, place := some 0 } } : State).awayCount (boardNo rodCtx.key.core) ∧
    Ready { rodS with ctxs := [{ rodCtx with away := true }] } rodIss { rodCtx with away := true } ⟨[], [.s 8], []⟩ (regType (.s 8) == .uniform) true [] [] ∧
    ((rodS.window? 1 0).map Window.tbase = some text ∧ text ≠ (rodCtx fun ar => { ar with tbase := text + 0x1000 }).arch.tbase) ∧
    (∀ w, rodS.window? 1 0 = some w → w.tbase = (rodCtx fun ar => { ar with tbase := text }).arch.tbase) := by
  refine ⟨ready_of (by decide +kernel), rfl, by decide +kernel, by decide +kernel, by decide +kernel, by decide +kernel, ready_of (by decide +kernel), by decide +kernel, fun w hw => ?_⟩
  have h : (rodS.window? 1 0).map Window.tbase = some text := by decide +kernel
  rw [hw] at h
  exact Option.some.inj h

/-! ## States that meet the hypotheses of the statements: queues, launches, memory from outside -/

theorem wit_LaunchQueues : State.reset.boot = .running ∧ State.reset.ports[(0 : Fin 2)].queues[(3 : Fin 16)].en = false ∧
    (4 ≤ (4 : BitVec 5).toNat ∧ (4 : BitVec 5).toNat ≤ 16 ∧ 256 ∣ State.reset.ports[(0 : Fin 2)].queues[(3 : Fin 16)].base.toNat) ∧
    ¬ (4 ≤ (3 : BitVec 5).toNat ∧ (3 : BitVec 5).toNat ≤ 16 ∧ 256 ∣ State.reset.ports[(0 : Fin 2)].queues[(3 : Fin 16)].base.toNat) ∧
    (15 : DWord).toNat < 2 ^ (4 : BitVec 5).toNat ∧ 2 ^ (4 : BitVec 5).toNat ≤ (16 : DWord).toNat ∧
    (queueSet State.reset 0 3 ⟨0x10000, 4, true, 1, 0, 0⟩).ports[(0 : Fin 2)].queues[(3 : Fin 16)].en = true ∧
    (queueSet State.reset 0 3 ⟨0x10000, 4, true, 1, 0, 0⟩).ports[(0 : Fin 2)].queues[(3 : Fin 16)].head ≠
      (queueSet State.reset 0 3 ⟨0x10000, 4, true, 1, 0, 0⟩).ports[(0 : Fin 2)].queues[(3 : Fin 16)].tail ∧ State.reset.pending.length < 256 ∧
    (waitS (.host 0) 0 none false 0).ports[(0 : Fin 2)].mode ≠ .down ∧ (waitS (.host 0) 0 none false 0).boot = .running := by decide +kernel

/-- A packet of one thread on rod 0 whose map and stamp are in device memory, pending, accepted or dispatched. -/
def okPkt : BitVec 1536 :=
  firstPacket 0x4000000000 ||| BitVec.ofNat 1536 ((2 ^ 56 + dOff) * 2 ^ 256 + (2 ^ 56 + dOff + 0x40) * 2 ^ 320 + 2 ^ 56 * 2 ^ 384 + 0x100)
def okStamp : Stamp := ⟨0, okPkt, .host 0 0, 0, 1, [], [], [], 0, false, false⟩
def pendS (p : Pending) : State := { State.reset with objects := [firstObject 0x4000000000], pending := [p] }
def accepted : Pending := { pendAt 0 okPkt 1 with checked := true, map := [0] }
theorem wit_stampsAreWritten : ({ State.reset with stamps := [okStamp] } : State).stamps.find? (fun t => t.order == 0) = some okStamp ∧
    (okStamp.queue = [] ∧ okStamp.waits = [] ∧ okStamp.dead = false ∧ okStamp.top < 3) ∧
    State.resolve { State.reset with stamps := [okStamp] } (serviceAccessor okStamp.source.die okStamp.launch okStamp.pasid okStamp.refused)
      (pktStamp okStamp.pkt) 16 16 .store = .ok (.dev (dOff + 0x40)) ∧
    (State.windowRefused { State.reset with stamps := [okStamp] } (serviceAccessor okStamp.source.die okStamp.launch okStamp.pasid okStamp.refused)
      (pktStamp okStamp.pkt) (.dev (dOff + 0x40)) = false ∧ State.reset.flawed (.dev (dOff + 0x40)) 16 = false ∧
      State.reset.unreachable (.dev (dOff + 0x40)) = false) ∧ memoriesWf State.reset ∧ pktNotify okStamp.pkt = true :=
  ⟨by decide +kernel, by decide +kernel, by decide +kernel, by decide +kernel, mems_of (by decide +kernel), by decide +kernel⟩
theorem wit_launchesRun : ((pendS (pendAt 0 okPkt 0)).pending.find? (fun p => p.order == 0) = some (pendAt 0 okPkt 0) ∧
      (pendS (pendAt 0 okPkt 0)).checkPacket (pendAt 0 okPkt 0) = .ok [0] ∧ (pendS (pendAt 0 0 0)).checkPacket (pendAt 0 0 0) = .reject 1) ∧
    ((pendS accepted).pending.find? (fun p => p.order == 0) = some accepted ∧
      (pendS accepted).objects.find? (fun o => o.addr == pktObj accepted.pkt) = some (firstObject 0x4000000000) ∧ (pendS accepted).canDispatch accepted = true ∧
      (pendS accepted).highestReady (pktPrio accepted.pkt) = true ∧ (pendS accepted).launch? accepted.number = none ∧ accepted.map = [0] ∧ isRod 0 = true ∧
      0 < pktWgsize accepted.pkt ∧ (firstObject 0x4000000000).vcnt ≠ 0) ∧
    (∀ x, ({ rodS with ctxs := [], launches := [{ firstLaunch 0x4000000000 with st := x }] } : State).launch? 1 = some { firstLaunch 0x4000000000 with st := x }) ∧
    (({ firstLaunch 0x4000000000 with st := .aborting .ill, halt := some 3 } : Launch).halt.isSome = true ∧ distinct rodS ∧
      (∀ c ∈ rodS.ctxsOf 1, c.st = .live ∨ c.st = .draining) ∧ rodS.ctxsOf 1 ≠ []) ∧ (firstLaunch 0x4000000000).halt = none ∧
    ({ rodS with ctxs := [] } : State).launchQuiet 1 = true ∧ rodS.pending.find? (fun p => p.checked && p.number == 1) = none ∧
    (pendS accepted).pending.find? (fun p => p.checked && p.number == 1) = some accepted :=
  ⟨by decide +kernel, by decide +kernel, fun _ => rfl, ⟨rfl, by unfold distinct; decide +kernel, by decide +kernel, by decide +kernel⟩, rfl,
    by decide +kernel, by decide +kernel, by decide +kernel⟩

/-- A thread that waits for a page of host memory, asked for with ATS or with PRI. -/
def aPage : PageWait := ⟨0, 0, 0x20, false, false⟩
def pageCtx : Ctx := { rodCtx with st := .parked (.pages [aPage]) }
def pageS (hcap : Word) (ats pri : List PageWait) : State :=
  { waitS (.host 0) 0 none false 0 with ctxs := [pageCtx], ports := rodS.ports.set 0 { rodS.ports[0] with mode := .pcie, hcap := hcap }, ats := ats, pri := pri }
/-- A thread whose AADD of host memory goes to the host. -/
def hostCtx : Ctx := { rodCtx with st := .parked (.reply hostReq) }
theorem wit_TranslationsReturn : ((pageS 0x603FB [aPage] []).ports[diePort aPage.die].mode ≠ .down ∧ (pageS 0x603FB [aPage] []).ctx? firstKey = some pageCtx ∧
      aPage ∉ (pageS 0x603FB [aPage] []).pri ∧ aPage ∈ ((pageS 0x603FB [aPage] []).ats.filter fun x => x.die == aPage.die).take 256 ∧
      12 ∈ [12, 21, 30] ∧ 2 ^ 12 ∣ 0x20000 ∧ (aPage.write = true → false = true) ∧ (pageS 0x603FF [aPage] []).ports[diePort aPage.die].hcap.getLsbD 2 = true ∧
      (pageS 0x603FB [aPage] []).ports[diePort aPage.die].hcap.getLsbD 2 = false) ∧
    aPage ∈ ((pageS 0x603FF [] [aPage]).pri.filter fun x => diePort x.die == diePort aPage.die).take 512 ∧
    (∀ c ∈ (pageS 0x603FB [aPage] []).ctxs, (pageS 0x603FB [aPage] []).usesPages c ((pageS 0x603FB [aPage] []).invalidation 0 0x20 1) = false) ∧
    ({ pageS 0x603FB [] [] with ctxs := [hostCtx] } : State).usesPages hostCtx (({ pageS 0x603FB [] [] with ctxs := [hostCtx] } : State).invalidation 0 0x20 1) = true ∧
    (State.ctx? (State.relBefore { pageS 0x603FB [] [] with ctxs := [hostCtx] } firstKey hostReq.ord (accScope hostReq.acc hostReq.scope)) firstKey).isSome = true ∧
    ({ pageS 0x603FB [] [] with ctxs := [hostCtx] } : State).ctx? firstKey = some hostCtx ∧ hostReq.acc = [hostAcc] ∧ hostAcc.answer = none ∧
    ({ pageS 0x603FB [] [] with ctxs := [hostCtx] } : State).ports[diePort (coreDie firstKey.core)].mode ≠ .cxl ∧
    hostAtomicBit .add hostReq.size = some 3 := by decide +kernel

theorem wit_outsideReaches : (reqRange (.write (768 * 2 ^ 30 - 4) 4 7) = (768 * 2 ^ 30 - 4, 4) ∧ 0 < 4 ∧ 4 ≤ 16 ∧ 768 * 2 ^ 30 - 4 + 4 ≤ Config.devBytes ∧
      State.reset.boot = .running ∧ State.reset.tests = [] ∧ (∀ i, i < 4 → State.reset.isText (768 * 2 ^ 30 - 4 + i) = false)) ∧ memoriesWf State.reset ∧
    ({ rodS with ports := rodS.ports.set 0 { rodS.ports[0] with mode := .cxl } } : State).ports[(0 : Fin 2)].mode = .cxl ∧
    (1 ≠ State.reset.pkg ∧ ({ State.reset with domain := [0, 1], opened := [(0, 5, dOff, 16)] } : State).domain.contains 1 = true ∧
      State.reset.deadPeers.contains 1 = false ∧ (0, (5 : BitVec 20), dOff, 16) ∈ ({ State.reset with domain := [0, 1], opened := [(0, 5, dOff, 16)] } : State).opened) ∧
    (waitS (.host 0x20000) 0x20000 none false 0).ctx? firstKey = some (waitC (.host 0x20000) 0x20000 none false) ∧ 0x20000 / 128 = 0x400 :=
  ⟨by decide +kernel, mems_of (by decide +kernel), by decide +kernel, by decide +kernel, by decide +kernel, by decide +kernel⟩
theorem wit_linksChange : (State.reset.boot ≠ .off ∧ State.reset.ports[(0 : Fin 2)].mode = .down ∧ State.reset.ports[(1 - 0 : Fin 2)].mode = .down) ∧
    ((pageS 0x603FB [] []).ports[(1 : Fin 2)].mode = .down ∧ (pageS 0x603FB [] []).ports[(1 - 1 : Fin 2)].mode ≠ .down ∧
      (pageS 0x603FB [] []).ports[(1 - 1 : Fin 2)].mode ≠ (if true then .cxl else .pcie)) ∧
    ({ pageS 0x603FB [] [] with ctxs := [hostCtx] } : State).ctx? firstKey = some hostCtx ∧
    (1 ≠ State.reset.pkg ∧ ({ State.reset with domain := [0, 1] } : State).domain.contains 1 = true ∧ State.reset.deadPeers.contains 1 = false) ∧
    ((State.reset.ysl.set 5 ⟨true, [1]⟩)[5].up = true ∧ ∀ z : Fin 72, z ≠ 5 → (State.reset.ysl.set 5 ⟨true, [1]⟩)[z].peers.contains 1 = false) ∧
    ((State.reset.ysl.set 5 ⟨true, [1]⟩).set 7 ⟨true, [1]⟩)[7].peers.contains 1 = true := by
  decide +kernel

/-- A frame's dirty line, rows with errors, and tests of a row and of a pair. -/
def dirtyLine : CacheLine := ⟨0, 0, dOff / 128, .dev dOff, 5, 1⟩
def pairCtx : Ctx := { rodCtx with st := .parked .selfTest }
def lockL : Launch := { firstLaunch 0x4000000000 with pkt := (firstLaunch 0x4000000000).pkt ||| 0x10 }
theorem wit_errorsAreHandled : (State.reset.flaws = [] ∧ (∀ t ∈ State.reset.tests, t.target ≠ .storage (.row 95)) ∧
      (({ rodS with cache := [{ dirtyLine with dirty := 0 }] } : State).line? 0 0 (128 * (dOff / 128)) = some { dirtyLine with dirty := 0 }) ∧
      ∀ d, ({ rodS with l2 := [⟨3, some 0, d, 0⟩] } : State).l2.find? (fun x => x.line == 3) = some ⟨3, some 0, d, 0⟩) ∧ (1 ≤ State.reset.policy.threshold ∧ State.reset.ecc.find? (fun e => e.1 == Slice.row (12 * 7 + 11)) = none) ∧
    (({ State.reset with ecc := [(.row 95, 255, 0)] } : State).ecc.find? (fun e => e.1 == Slice.row (12 * 7 + 11)) = some (.row 95, 255, 0) ∧
      State.reset.tick < 0 + dayCycles ∧ State.reset.policy.threshold ≤ 255 ∧ State.reset.fenced.contains (.row 95) = false) ∧
    (({ rodS with cache := [dirtyLine] } : State).line? 0 0 (128 * (dOff / 128)) = some dirtyLine ∧ dirtyLine.dirty ≠ 0 ∧
      rodS.launch? 1 = some (firstLaunch 0x4000000000) ∧ (firstLaunch 0x4000000000).pasid = 0) ∧
    (({ State.reset with tests := [⟨.storage (.row 95), none, 95, 0⟩] } : State).tests[0]? = some ⟨.storage (.row 95), none, 95, 0⟩ ∧
      0 + (TestTarget.storage (.row 95)).duration ≤ State.reset.tick) ∧
    (({ rodS with tick := 4096, ctxs := [pairCtx], tests := [⟨.pair 0, some firstKey, 0, 0⟩] } : State).ctx? firstKey = some pairCtx ∧ pairCtx.rollbacks < 4) ∧
    (({ rodS with l2 := [⟨3, some 0, true, 0⟩] } : State).launch? 1 = some (firstLaunch 0x4000000000) ∧ (firstLaunch 0x4000000000).st = .running ∧
      rodS.pending = [] ∧ rodCtx.st ≠ .parked .selfTest) ∧
    ({ State.reset with fenced := [.bank 3] } : State).fenced.contains (.bank 3) = true ∧
    ({ rodS with launches := [lockL], ctxs := [{ rodCtx with retired := 4096 }] } : State).inLockstep { rodCtx with retired := 4096 } = true := by decide +kernel

/-! ### Trap slots and services -/

/-- A thread whose request of a service holds a slot, or waits for one, in a launch with one block. -/
def svcCtx (a : DWord) (b : Word) (n : BitVec 8) (slot : Bool) : Ctx := { rodCtx with st := .parked (.svc (.s 3) a b n (text + 8) slot) }
def svcL : Launch := { firstLaunch 0x4000000000 with allocs := [(0x10000, 64, 0x200000000)] }
def svcS (c : Ctx) : State := { rodS with issue := none, launches := [svcL], ctxs := [c] }
def fullSlots (use : SlotUse) : Reckoner := ⟨0, List.replicate 63 (gangKey, .svc), [(firstKey, use)]⟩
theorem wit_ServicesComplete : (∀ use, (State.reckoner { rodS with reckoners := [fullSlots use] } 0).queue = (firstKey, use) :: [] ∧
      (State.reckoner { rodS with reckoners := [fullSlots use] } 0).slots.length < 64) ∧
    ((svcS (svcCtx 8 3 1 false)).ctx? firstKey = some (svcCtx 8 3 1 false)) ∧
    (({ rodS with ctxs := [{ rodCtx with st := .parked .system }] } : State).ctx? firstKey = some { rodCtx with st := .parked .system } ∧ rodCtx.away = false ∧
      ∀ n, n < 64 → (rodCtx.arch.lane n).gid = 0) ∧
    (rodCtx fun ar => { ar with ecode := 1 }).arch.ecode = Code.ill.byte.setWidth 32 ∧
    (∀ a, (svcS (svcCtx a 3 1 true)).ctx? firstKey = some (svcCtx a 3 1 true)) ∧ 2 ^ 40 < (0x10000000001 : DWord).toNat ∧
    (svcS (svcCtx 8 3 1 true)).launch? 1 = some svcL ∧
    ((8 : DWord) ≠ 0 ∧ (8 : DWord).toNat ≤ 2 ^ 40 ∧ 3 ≤ (3 : Word).toNat ∧ (3 : Word).toNat ≤ 21 ∧
      svcL.heapUsed + (8 : DWord).toNat ≤ (svcS (svcCtx 8 3 1 true)).policy.heapLimit ∧ 0x20000 ≠ 0 ∧
      (svcS (svcCtx 8 3 1 true)).placementOk svcL.pasid 8 (2 ^ 3) 0x20000 0x300000000 = true) ∧
    (svcS (svcCtx 0x10000000000 21 1 true)).policy.heapLimit < svcL.heapUsed + (0x10000000000 : DWord).toNat ∧
    (svcL.allocs.any fun x => x.1 == (0x10000 : DWord).toNat) = true ∧
    ((svcS (svcCtx 0x100000000 0 3 true)).ctxs.find? (fun x => x.holdsTid 1 0x100000000) = some (svcCtx 0x100000000 0 3 true)) ∧
    ((svcS (svcCtx 5 0 3 true)).ctxs.find? (fun x => x.holdsTid 1 5) = none) ∧ ((4 : BitVec 8) ≠ 1 ∧ (4 : BitVec 8) ≠ 2 ∧ (4 : BitVec 8) ≠ 3) := by
  exact ⟨fun use => by cases use <;> decide +kernel, by decide +kernel, by decide +kernel, by decide +kernel, fun _ => rfl, by decide +kernel, by decide +kernel,
    by decide +kernel, by decide +kernel, by decide +kernel, by decide +kernel, by decide +kernel, by decide +kernel⟩

/-! ### Cores, jobs -/

/-- A fill of the thread's window, and a thread that waits for it. -/
def aFill : Fill := ⟨0, 0x4000000000, text, 4096, [(1, 0)], false⟩
def fillCtx : Ctx := { rodCtx with st := .parked .fill }
def fillS : State := { rodS with ctxs := [fillCtx], fills := [aFill] }
/-- A PC that is not of text. -/
def lostS : State := { rodS with ctxs := [{ rodCtx with arch := { rodCtx.arch with lanes := rodCtx.arch.lanes.map fun l => { l with pc := 0 } } }] }
/-- A thread past its text window, without and with an overlay handler. -/
def ovCtx (h : Fin 2) : Ctx := { movC with arch := { movC.arch with ovh := if h = 0 then 0 else text + 0x80 } }
theorem wit_textArrives : ((fillS.fillsInFlight (frameNo 0)).find? (fun f => f.joined.contains (1, 0)) = some aFill ∧
      (fillS.window? 1 0).map Window.tbase = some text ∧ fillS.ctx? firstKey = some fillCtx ∧ fillS.flaws = [] ∧ fillS.tests = [] ∧ aFill.read = false ∧ aFill.tbase = text ∧
      ({ aFill with tbase := 0x4000002000 } : Fill).tbase ≠ text ∧ ∀ g ∈ fillS.fills, g = aFill) ∧
    (∀ h : Fin 2, ∃ c, State.candidate { movS with windows := [], ctxs := [ovCtx h] } firstKey = some (c, 1, .overlay text) ∧ c.arch.ovh = (if h = 0 then 0 else text + 0x80) ∧
      c.arch.uh = false ∧ State.inLockstep { movS with windows := [], ctxs := [ovCtx h] } c = false) ∧
    (movS.candidate firstKey = some (movC, 1, .words text [0x07868581]) ∧ ((movS.setCtx movC).noteIssue firstKey).stopAt movC 1 text = none) ∧
    (lostS.candidate firstKey).map (fun x => x.2) = some (1, .fault .null 0) :=
  ⟨by decide +kernel, fun h => ⟨ovCtx h, by fin_cases h <;> decide +kernel⟩, by decide +kernel, by decide +kernel⟩

/-- A context that drains, one that waits for it to be free, and entries that are open past their deadline and sealed. -/
def drainCtx : Ctx := { rodCtx with st := .draining }
def freeCtx : Ctx := { rodCtx with key := ⟨0, 1⟩, uid := 1, st := .parked (.waitfree 0 (.s 8) 0 (text + 8)) }
def rdvE (st : RdvState) : RdvEntry := ⟨0, 0, st, 1, text + 0x100, 5, 0, [0], 0⟩
def rdvS (st : RdvState) : State :=
  { leafS leafL [rdvE st] with ctxs := [callerCtx], regions := [{ gangRegion with w := 0xFFFFF }], objects := [{ leafO with vcnt := 16 }] }
theorem wit_coresProceed : (({ rodS with ctxs := [drainCtx, freeCtx] } : State).ctx? firstKey = some drainCtx ∧
      ({ rodS with ctxs := [drainCtx, freeCtx] } : State).ctx? ⟨0, 1⟩ = some freeCtx ∧ ({ rodS with ctxs := [drainCtx, freeCtx] } : State).struck ⟨0, 1⟩ = false) ∧
    ({ rodS with regions := [{ gangRegion with draining := 1024 }] } : State).region? 8 1 0 = some { gangRegion with draining := 1024 } ∧
    (rdvE .opened ∈ (rdvS .opened).rdv ∧ (rdvE .opened).deadline ≤ (rdvS .opened).tick) ∧
    ((rdvS .sealed).rdv.find? (fun e => e.frame == 0 && e.num == 0) = some (rdvE .sealed) ∧ (rdvS .sealed).nextSealed (rdvE .sealed) = true ∧
      (rdvS .sealed).region? (frameCore 0 8) 1 0xFFFFF = some { gangRegion with w := 0xFFFFF } ∧ gangRegion.core = frameCore 0 8 ∧
      (∃ x xs, (rdvS .sealed).slotsFree (frameCore 0 8) = x :: xs) ∧
      ((rdvS .sealed).residents { gangRegion with w := 0xFFFFF }).length < regionSlots ((rdvS .sealed).objectOf 1) gangRegion.core gangRegion.pw ∧
      gangBlock ((rdvS .sealed).objectOf 1) ((rdvS .sealed).objectOf 1).vcnt ≤ (rdvS .sealed).regionFree { gangRegion with w := 0xFFFFF } ∧
      (rdvE .sealed).callers.filterMap (rdvS .sealed).byUid = [callerCtx] ∧ nfmtTop callerCtx.arch.nfmt = (rdvS .sealed).launchTop 1) := by
  refine ⟨by decide +kernel, by decide +kernel, by decide +kernel, by decide +kernel, by decide +kernel, by decide +kernel, by decide +kernel,
    ⟨0, (List.finRange 32).tail, by decide +kernel⟩, by decide +kernel, by decide +kernel, by decide +kernel, by decide +kernel⟩

/-- A job of the card above that waits, or runs; and the job of a collective of one rank. -/
def jobS (st : JobState) : State := { rodS with jobs := [jobOf 7 st], dev := [(dOff + 0x1000, 0x11), (dOff + 0x100F, 0x22)] }
def collN : Nat := 8 + 2 ^ 64 * (2 ^ 56 + dOff + 0x1000) + 2 ^ 128 * (2 ^ 56 + dOff + 0x2000) + 2 ^ 192 * 4 + 2 ^ 512 * 2 + 2 ^ 544 +
  2 ^ (8 * 0x58) * (2 ^ 56 + dOff + 0x3000) + 2 ^ 1024 * (2 ^ 56 + dOff + 0x1000) + 2 ^ 1088 * 16 + 2 ^ 1536 * (2 ^ 56 + dOff + 0x2000) + 2 ^ 1600 * 16
def collJob : Job := { jobOf 7 .running with card := BitVec.ofNat 2048 collN }
def collS : State := { jobS .running with jobs := [collJob] }
theorem wit_jobsEnd : ((jobS .queued).job? 7 = some (jobOf 7 .queued) ∧ (jobS .queued).mayDispatch (jobOf 7 .queued) = true ∧ (jobS .queued).byUid 0 = some rodCtx) ∧
    distinct (jobS .queued) ∧
    ((jobS .running).job? 7 = some (jobOf 7 .running) ∧ cardKind (jobOf 7 .running).card = 1 ∧ cardStampa (jobOf 7 .running).card = 0 ∧ rodCtx.isCalled = false) ∧
    memoriesWf (jobS .running) ∧
    (∀ x ∈ cardReads (jobOf 7 .running).card ++ cardWrites (jobOf 7 .running).card, meetsTextWindow x = false ∧ x.1 + x.2 ≤ 7 * 2 ^ 54) ∧
    Undisturbed (jobS .running) (jobOf 7 .running).launch ∧
    (∀ i, i < cardLen (jobOf 7 .running).card →
      inRegions (cardReads (jobOf 7 .running).card) (srcAddr (jobOf 7 .running).card + (i : Nat)) 1 = true ∧
      (jobS .running).resolveRead (jobOf 7 .running).accessor (BitVec.ofInt 64 (srcAddr (jobOf 7 .running).card + (i : Nat))) 1 1 .load =
        .ok (.dev (dOff + 0x1000 + i)) ∧ (jobS .running).unreachable (.dev (dOff + 0x1000 + i)) = false ∧
      inRegions (cardWrites (jobOf 7 .running).card) (dstAddr (jobOf 7 .running).card + (i : Nat)) 1 = true ∧
      (jobS .running).resolveWrite (jobOf 7 .running).accessor (BitVec.ofInt 64 (dstAddr (jobOf 7 .running).card + (i : Nat))) 1 1 .store =
        .ok (.dev (dOff + 0x2000 + i)) ∧ (jobS .running).unreachable (.dev (dOff + 0x2000 + i)) = false ∧
      exists? (jobS .running) (.dev (dOff + 0x2000 + i)) = true) ∧
    (∀ i, i < 16 → ∀ k, k < 16 → i ≠ k → home (jobS .running) (.dev (dOff + 0x2000 + i)) ≠ home (jobS .running) (.dev (dOff + 0x2000 + k))) ∧
    (collS.job? 7 = some collJob ∧ collS.jobs.filter (fun i => cardKind i.card == 8 && i.st == .running && i.code.isNone && collKey i.card == collKey collJob.card) =
        [collJob] ∧ collS.stillToEnd (collKey collJob.card) = 0 ∧
      collS.readRmap collJob (BitVec.ofNat 64 (collField collJob.card 0x18 8)) (collField collJob.card 4 4) = .ok [collS.pkg] ∧
      collField collJob.card 4 4 = 1 ∧ cardRank collJob.card = 0 ∧ cardForbidden collJob.card = false ∧ collS.domain.contains collS.pkg = true ∧ collField collJob.card 0 1 = 2 ∧
      (match collS.collRead collJob (srcAddr collJob.card) (cardBytes collJob.card) (cardLen collJob.card) with
        | .ok xs => xs == [0x11, 0, 0, 0]
        | .error _ => false) = true) ∧ Undisturbed collS collJob.launch ∧
    ∃ r, jobWriteVals collJob (dstAddr collJob.card) (cardBytes collJob.card) [0x11, 0, 0, 0] (JobRun.start collS) = .done r := by
  refine ⟨by decide +kernel, by unfold distinct; decide +kernel, by decide +kernel, mems_of (by decide +kernel), by decide +kernel,
    undisturbed_of rfl rfl rfl (by decide +kernel), by decide +kernel, by decide +kernel,
    by decide +kernel, undisturbed_of rfl rfl rfl (by decide +kernel), ?_⟩
  have h : ∀ x : JobEnd, (match x with | .done _ => true | _ => false) = true → ∃ r, x = .done r := by
    intro x h
    cases x <;> simp_all
  exact h _ (by decide +kernel)

/-! ### Pre-emption, Debug, the package -/

/-- A running launch that a launch of higher priority displaces, whose watchdog is due; and a saved launch. -/
def timedL : Launch := { firstLaunch 0x4000000000 with timers := [⟨none, 0, 0⟩] }
def urgent : Pending := { accepted with order := 1, number := 2, pkt := okPkt ||| 7 }
def preS : State := { rodS with issue := none, launches := [timedL], pending := [urgent], disabled := [0], tick := 2 ^ 60 }
def savedS : State := nextOf (exec (.preemption 1) preS) preS
theorem wit_PreemptionSaves : preS.launch? 1 = some timedL ∧ timedL.st = .running ∧ distinct preS ∧ (∀ c ∈ preS.ctxsOf 1, preS.takeable c = true) ∧
    preS.mayPreempt timedL = true ∧ timedL.timers.any (preS.timerDue timedL) = true ∧
    (∃ l, ({ savedS with pending := [], disabled := [] } : State).launch? 1 = some l ∧ State.canRestore { savedS with pending := [], disabled := [] } l [] = true ∧
      State.highestReady { savedS with pending := [], disabled := [] } (pktPrio l.pkt) = true ∧ l.saved.length = 1 ∧ ∀ c ∈ l.saved, ∃ w ∈ l.savedWins, w.1 = c.key.core) := by
  refine ⟨by decide +kernel, rfl, by unfold distinct; decide +kernel, by decide +kernel, by decide +kernel, by decide +kernel,
    ((({ savedS with pending := [], disabled := [] } : State).launch? 1).getD timedL), ?_⟩
  decide +kernel

/-- A launch with a comparator at its thread's PC, and one with a debugger. -/
def cmpL : Launch := { firstLaunch 0x4000000000 with cmps := (firstLaunch 0x4000000000).cmps.set 2 ⟨0x8000004000001000, 0x10001, 0, 0⟩, debugger := true }
def cmpS : State := { movS with agenda := [], launches := [cmpL], cmps := [⟨0, (Vector.replicate 8 (1, Comparator.clear)).set 2 (1, cmpL.cmps[2])⟩] }
def stopCtx (bkpt : Bool) : Ctx := { rodCtx with st := .parked (.stopped ⟨1, bkpt, 2⟩) }
theorem wit_DebugStops : (cmpS.candidate firstKey = some (movC, 1, .words text [0x07868581]) ∧ cmpS.stopAt movC 1 text = some ⟨1, false, 2⟩ ∧
      (cmpS.reckoner (boardNo firstKey.core)).slots.length < 64 ∧ (cmpS.reckoner (boardNo firstKey.core)).queue = [] ∧
      64 ≤ (State.reckoner { cmpS with reckoners := [⟨0, List.replicate 64 (gangKey, .svc), []⟩] } (boardNo firstKey.core)).slots.length) ∧
    (Issuing { rodS with launches := [cmpL] } rodIss rodCtx ∧ ({ rodS with launches := [cmpL] } : State).launch? rodCtx.launch = some cmpL ∧ cmpL.debugger = true) ∧
    (∀ b, ({ rodS with ctxs := [stopCtx b] } : State).ctx? firstKey = some (stopCtx b)) ∧
    ((∀ x ∈ cmpS.launches, x = cmpL ∨ (x.number ≠ 1 ∧ ∀ j : Fin 8, x.cmps[j] = ⟨0, 0, 0, 0⟩)) ∧ cmpS.launch? 1 = some cmpL ∧ 0 ∈ cmpS.armedCores 1 ∧
      ({ cmpL with logRing := some dOff } : Launch).logRing = some dOff ∧ memoriesWf cmpS) ∧
    (14 < 15 ∧ dOff + 64 + 32 * 2 ^ (10 + 14) ≤ Config.devBytes) ∧
    (State.reset.boot = .running ∧ ({ State.reset with policy := { State.reset.policy with samplePeriod := 5 }, tick := 10 } : State).policy.samplePeriod ∣ 10) := by
  refine ⟨by decide +kernel, ⟨issuing_of (by decide +kernel), by decide +kernel, rfl⟩, fun b => ?_,
    ⟨by decide +kernel, by decide +kernel, by decide +kernel, rfl, mems_of (by decide +kernel)⟩, by decide +kernel, by decide +kernel⟩
  cases b <;> decide +kernel

/-- An image of one page of text, and an object that is loaded and not in use. -/
def anImage : List Byte := leBytes (0x4F564331 + 2 ^ 32 + 2 ^ 48 + 2 ^ 128 * 8192 + 2 ^ 256 + 2 ^ 320 * 4096 + 2 ^ 352 * 4096) 48 ++ List.replicate 8144 0
def loadedS : State := { State.reset with objects := [firstObject 0x4000000000] }
theorem wit_codeHeapServes : State.reset.loadStatus anImage = 0 ∧ State.reset.loadPlace anImage.length 0x4000000000 = some 0x4000000000 ∧ State.reset.loadStatus [] ≠ 0 ∧
    loadedS.objects.find? (fun o => o.addr == (0x4000000000 : DWord).toNat) = some (firstObject 0x4000000000) ∧
    loadedS.objectBusy (firstObject 0x4000000000) = false ∧ rodS.objectBusy (firstObject 0x4000000000) = true ∧
    State.reset.objects.find? (fun o => o.addr == (0x4000000000 : DWord).toNat) = none ∧
    loadedS.mayMove (firstObject 0x4000000000) 0x4000010000 = true ∧ memoriesWf loadedS :=
  ⟨by decide +kernel, by decide +kernel, by decide +kernel, by decide +kernel, by decide +kernel, by decide +kernel, by decide +kernel, by decide +kernel,
    mems_of (by decide +kernel)⟩
theorem wit_packageManaged : State.reset.boot ≠ .off ∧
    (3100 * 1000 * 100 < (List.replicate 100 3100001).sum ∧ (3100001 :: List.replicate 99 3100001).take 100 = List.replicate 100 3100001) ∧
    ((List.replicate 100 2800001).sum ≤ 3100 * 1000 * 100 ∧ 2800 * 1000 * 100 < (List.replicate 100 2800001).sum) ∧
    ((tripLimits .voltage).1 ≤ 649 ∧ 649 < (clampLimits .voltage).1 ∧ 599 < (tripLimits .voltage).1 ∧ beyondTrip .voltage 599 = true ∧ beyondTrip .current 64 = false ∧
      sensorKind (.voltage 2) = .voltage ∧ sensorKind .current = .current) ∧
    (∀ image, bootAccepts ⟨Vector.replicate 4 0, 0xF, 0⟩ image = false) ∧
    ∀ image, Config.slhVerify (Config.imageKey image) (Config.shake256 (Config.imageBody image)) (Config.imageSig image) = true →
      bootAccepts ⟨Vector.replicate 4 (Config.shake256 (leBytes (Config.imageKey image).toNat 64)), 0, 0⟩ image = true := by
  refine ⟨by decide +kernel, by decide +kernel, by decide +kernel, by decide +kernel, fun image => ?_, fun image h => ?_⟩
  · simp only [bootAccepts, Bool.and_eq_false_iff, List.any_eq_false]
    exact .inl (.inl fun i _ => by fin_cases i <;> simp)
  · simp only [bootAccepts, h, Bool.and_true, Nat.zero_le, decide_true, Bool.and_eq_true, List.any_eq_true]
    exact ⟨0, List.mem_finRange 0, by simp⟩

/-- A request that offers one extended algorithm of a kind. -/
def offers (sign : Bool) (id : Word) : List Byte :=
  [0x13, 0xE3] ++ List.replicate 26 0 ++ (if sign then [1, 0] else [0, 1]) ++ [0, 0] ++ leBytes id.toNat 4
theorem offers_read (sign : Bool) (id : Word) : extAlgorithms (offers sign id) = if sign then ([id.toNat], []) else ([], [id.toNat]) := by
  have h : leNat (leBytes id.toNat 4) = id.toNat := by
    simp only [leBytes, leNat, BitVec.toNat_ofNat]
    omega
  have h4 : (leBytes id.toNat 4).length = 4 := rfl
  cases sign <;> simp [extAlgorithms, imgField, offers, leNat, h, List.take_of_length_le, h4, List.range_succ]
theorem wit_attests : State.reset.boot ≠ .off ∧ ({ State.reset with spdm := ⟨true, true, true, []⟩ } : State).spdm.negotiated = true ∧
    (extAlgorithms (offers true Config.spdmSignId)).1.contains Config.spdmSignId.toNat = true ∧
    (extAlgorithms (offers true Config.spdmSignId)).2.contains Config.spdmHashId.toNat = false ∧
    (extAlgorithms (offers false Config.spdmHashId)).2.contains Config.spdmHashId.toNat = true ∧
    ((extAlgorithms []).1 = [] ∧ (extAlgorithms []).2 = []) ∧
    (imgField [0x13, 0x82, 0, 0, 0, 0] 2 1 % 16 = 0 ∧ imgField [0x13, 0x82, 0, 0, 0, 0] 4 2 ≤ Config.certChain.length) ∧
    imgField [0x13, 0xE0, 1] 2 1 % 2 = 1 ∧ imgField [0x13, 0xE0, 0] 2 1 % 2 = 0 :=
  ⟨by decide +kernel, rfl, by simp [offers_read], by simp [offers_read], by simp [offers_read], by decide +kernel,
    ⟨by decide +kernel, Nat.zero_le _⟩, by decide +kernel, by decide +kernel⟩

/-! ## Integer, control and lane instructions; the values are the worked examples' of the spec and R129–R179's -/

theorem test_add_wraps : after (.addCompact (.s 5) (.reg (.s 6)) (.reg (.s 7))) (rodS fun ar => (ar.setS 6 0xFFFFFFFF).setS 7 2)
    (fun c => (sreg 5 c, sreg 6 c, pcOf 0 c)) = some (1, 0xFFFFFFFF, text + 8) := by decide +kernel
theorem test_add_affine : after (.addCompact (.a 3) (.reg (.a 1)) (.reg (.a 2)))
    (gangS 4 fun ar => (ar.setA 1 ⟨10, 3⟩).setA 2 ⟨0xFFFFFFFF, 5⟩) (fun c => c.arch.areg 3) = some ⟨9, 8⟩ := by decide +kernel
theorem test_add_lanes : after (.addCompact (.v 2) (.reg (.v 2)) (.reg (.a 0))) { gangS 4 fun ar => setVs ar 2 [5, 6, 7, 8, 9] with
    issue := some ⟨gangKey, 0b0101, text, 4⟩ } (fun c => (vregs 2 5 c, pcOf 0 c, pcOf 1 c)) =
    some ([5, 6, 9, 8, 9], text + 4, text) := by decide +kernel
theorem test_add_saturates : after (.add64 ⟨.i32, true⟩ (.v 5) (.reg (.v 6)) (.imm 1)) (rodS fun ar => ar.setV 0 6 0x7FFFFFFF)
    (vregs 5 1) = some [0x7FFFFFFF] := by decide +kernel
theorem test_add_literal : after (.add96 ⟨.i32, false⟩ (.s 5) (.reg (.s 5)) 0x80000000) (rodS fun ar => ar.setS 5 0x80000001)
    (sreg 5) = some 1 := by decide +kernel
theorem test_sub_saturates : after (.sub64 ⟨.u32, true⟩ (.s 3) (.reg (.s 4)) (.imm 0x3F)) (rodS fun ar => ar.setS 4 7) (sreg 3) = some 0 := by
  decide +kernel
theorem test_sub_affine : after (.subCompact (.a 3) (.reg (.s 1)) (.reg (.a 2))) (rodS fun ar => (ar.setS 1 4).setA 2 ⟨5, 3⟩)
    (fun c => c.arch.areg 3) = some ⟨0xFFFFFFFF, 0xFFFFFFFD⟩ := by decide +kernel
theorem test_mulhi : after (.mulhi64 (.s 3) (.reg (.s 4)) (.reg (.s 4))) (rodS fun ar => ar.setS 4 0xFFFFFFFF) (sreg 3) = some 0 ∧
    after (.mulhu64 (.s 3) (.reg (.s 4)) (.reg (.s 4))) (rodS fun ar => ar.setS 4 0xFFFFFFFF) (sreg 3) = some 0xFFFFFFFE ∧
    after (.mulCompact (.s 3) (.reg (.s 4)) (.reg (.s 4))) (rodS fun ar => ar.setS 4 0xFFFFFFFF) (sreg 3) = some 1 := by decide +kernel
theorem test_mad : after (.mad96 (.s 3) (.reg (.s 4)) (.reg (.s 5)) 0x10000) (rodS fun ar => (ar.setS 4 0x10001).setS 5 7) (sreg 3) =
    some 0x10007 := by decide +kernel
theorem test_abs : after (.abs64 false (.s 3) (.reg (.s 4))) (rodS fun ar => ar.setS 4 0x80000000) (sreg 3) = some 0x80000000 ∧
    after (.abs64 true (.s 3) (.reg (.s 4))) (rodS fun ar => ar.setS 4 0x80000000) (sreg 3) = some 0x7FFFFFFF := by decide +kernel
theorem test_min_max : after (.minCompact (.s 3) (.reg (.s 4)) (.imm 1)) (rodS fun ar => ar.setS 4 0x80000000) (sreg 3) = some 0x80000000 ∧
    after (.minuCompact (.s 3) (.reg (.s 4)) (.imm 1)) (rodS fun ar => ar.setS 4 0x80000000) (sreg 3) = some 1 ∧
    after (.maxCompact (.s 3) (.reg (.s 4)) (.imm 1)) (rodS fun ar => ar.setS 4 0x80000000) (sreg 3) = some 1 ∧
    after (.maxuCompact (.s 3) (.reg (.s 4)) (.imm 1)) (rodS fun ar => ar.setS 4 0x80000000) (sreg 3) = some 0x80000000 := by decide +kernel
theorem test_andn : after (.andn64 (.s 3) (.reg (.s 4)) (.imm 0x3E)) (rodS fun ar => ar.setS 4 7) (sreg 3) = some 1 := by decide +kernel
theorem test_shifts : after (.shlCompact (.s 3) (.reg (.s 4)) (.reg (.s 5))) (rodS fun ar => (ar.setS 4 1).setS 5 32) (sreg 3) = some 0 ∧
    after (.sarCompact (.s 3) (.reg (.s 4)) (.reg (.s 5))) (rodS fun ar => (ar.setS 4 0x80000000).setS 5 0xFFFFFFFF) (sreg 3) = some 0xFFFFFFFF ∧
    after (.rolCompact (.s 3) (.reg (.s 4)) (.reg (.s 5))) (rodS fun ar => (ar.setS 4 0x80000001).setS 5 33) (sreg 3) = some 3 := by decide +kernel
theorem test_shr_mask : after (.shrCompact (.v 2) (.reg (.s 6)) (.reg (.a 0))) (gangS 8 fun ar => ar.setS 6 0xA5) (vregs 2 8) =
    some [0xA5, 0x52, 0x29, 0x14, 0x0A, 5, 2, 1] := by decide +kernel
theorem test_counts : after (.popcCompact (.s 7) (.reg (.s 6))) (rodS fun ar => ar.setS 6 0xA5) (sreg 7) = some 4 ∧
    after (.ctzCompact (.s 7) (.reg (.s 6))) (rodS fun ar => ar.setS 6 0xA5) (sreg 7) = some 0 ∧
    after (.clzCompact (.s 7) (.reg (.s 6))) (rodS) (sreg 7) = some 32 ∧
    after (.brevCompact (.s 7) (.reg (.s 6))) (rodS fun ar => ar.setS 6 0xA5) (sreg 7) = some 0xA5000000 := by decide +kernel
theorem test_bfx_bfi : after (.bfx64 (.v 11) (.reg (.v 4)) (.imm 4) (.imm 8)) (rodS fun ar => ar.setV 0 4 0xFFFFFFF0) (vregs 11 1) = some [0xFF] ∧
    after (.bfi64 (.v 4) (.reg (.v 11)) (.imm 28) (.imm 8)) (rodS fun ar => (ar.setV 0 4 0xFFFFFFF0).setV 0 11 0xFF) (vregs 4 1) =
      some [0xFFFFFFF0] ∧
    after (.bfi64 (.s 4) (.imm 0) (.imm 28) (.imm 8)) (rodS fun ar => ar.setS 4 0xFFFFFFF0) (sreg 4) = some 0x0FFFFFF0 := by decide +kernel
theorem test_addc : after (.addc64 (.v 10) (.reg (.v 4)) (.reg (.v 6)) (.imm 0)) (rodS fun ar => (ar.setV 0 4 0xFFFFFFF0).setV 0 6 0x20)
    (vregs 10 1) = some [1] ∧
    after (.subc64 (.s 3) (.imm 0) (.imm 0) (.imm 1)) rodS (sreg 3) = some 1 := by decide +kernel
theorem test_sext : after (.sextCompact (.s 3) (.reg (.s 4)) (.imm 8)) (rodS fun ar => ar.setS 4 0x1280) (sreg 3) = some 0xFFFFFF80 := by
  decide +kernel
theorem test_sel : after (.sel64 (.v 3) (.imm 5) (.reg (.a 0)) (.reg (.v 4))) (gangS 3 fun ar => setVs ar 4 [0, 9, 0]) (vregs 3 3) =
    some [0, 5, 2] := by decide +kernel
theorem test_cmp : after (.cmp64 .lt .i32 (.s 3) (.imm 0x3F) (.imm 0)) rodS (sreg 3) = some 1 ∧
    after (.cmp64 .lt .u32 (.s 3) (.imm 0x3F) (.imm 0)) rodS (sreg 3) = some 0 := by decide +kernel
theorem test_cmpm : after (.cmpm64 .ne .i32 (.s 6) (.reg (.v 1)) (.imm 0)) (gangS 8 fun ar => setVs ar 1 [5, 0, 7, 0, 0, 3, 0, 9, 0, 1])
    (sreg 6) = some 0xA5 := by decide +kernel
theorem test_cmpm_partial : after (.cmpm64 .ne .i32 (.s 6) (.reg (.v 1)) (.imm 0)) { gangS 8 with issue := some ⟨gangKey, 0x0F, text, 8⟩ }
    (fun c => (sreg 6 c, c.arch.ecode, c.arch.epc, c.arch.eaddr)) = some (0, 3, text, text) := by decide +kernel
theorem test_mskb : after (.mskbCompact (.s 3) (.imm 4) (.imm 8)) rodS (sreg 3) = some 0xFF0 ∧
    after (.mskbCompact (.s 3) (.imm 28) (.imm 8)) rodS (sreg 3) = some 0xF0000000 := by decide +kernel
theorem test_mov_affine : after (.movCompact (.a 4) (.reg (.a 0))) rodS (fun c => c.arch.areg 4) = some ⟨0, 1⟩ := by decide +kernel
theorem test_type : after (.addCompact (.s 3) (.reg (.v 4)) (.imm 1)) rodS (fun c => (sreg 3 c, c.arch.ecode, c.arch.epc)) =
    some (0, 2, text) := by decide +kernel
theorem test_branches : after (.brCompact 0xFFFFFF) rodS (pcOf 0) = some (text - 4) ∧
    after (.brz64 (.v 1) 6) (gangS 4 fun ar => setVs ar 1 [0, 1, 0, 1]) (fun c => (List.range 4).map fun i => pcOf i c) =
      some [text + 24, text + 8, text + 24, text + 8] ∧
    after (.brnzCompact (.v 1) 3) { gangS 4 fun ar => setVs ar 1 [0, 1, 0, 1] with issue := some ⟨gangKey, 0xF, text, 4⟩ }
      (fun c => (List.range 4).map fun i => pcOf i c) = some [text + 4, text + 12, text + 4, text + 12] := by decide +kernel
theorem test_brm : after (.brm64 .none 6 4) (gangS 8 fun ar => ar.setS 6 0xA5) (pcOf 3) = some (text + 8) ∧
    after (.brm64 .lane 6 4) (gangS 8 fun ar => ar.setS 6 0xA5) (fun c => (pcOf 0 c, pcOf 1 c)) = some (text + 16, text + 8) := by decide +kernel
theorem test_call_ret : after (.callCompact 4) { rodS with issue := some ⟨firstKey, 1, text, 4⟩ }
    (fun c => (pcOf 0 c, c.arch.pair 0 (.v 4))) = some (text + 16, text + 4) ∧
    after .retCompact (rodS fun ar => ar.setPair 0 (.v 4) 0x12345678) (pcOf 0) = some 0x12345678 ∧
    after (.calli (.s 4) (.s 5)) (rodS fun ar => setP ar 5 0x4000002000) (fun c => (pcOf 0 c, c.arch.spair ⟨4⟩)) = some (0x4000002000, text + 8) := by
  decide +kernel
theorem test_jmpi : after (.jmpi (.v 5)) (gangS 2 fun ar => (ar.setPair 0 (.v 5) 0x100).setPair 1 (.v 5) 0x200) (fun c => (pcOf 0 c, pcOf 1 c)) =
    some (0x100, 0x200) := by decide +kernel
theorem test_meet : after (.meet64 6) (gangS 4) (fun c => ((c.arch.lane 3).meet, pcOf 3 c, (c.arch.lane 4).meet)) = some (text + 24, text + 8, 0) := by
  decide +kernel
theorem test_proma : after (.proma64 (.a 1) (.s 7) (.imm 8)) (gangS 4 fun ar => ar.setS 7 0x7FFFFFF0)
    (fun c => (List.range 4).map fun i => c.arch.reg i (.a 1)) = some [0x7FFFFFF0, 0x7FFFFFF8, 0x80000000, 0x80000008] := by decide +kernel
theorem test_promv : after (.promv (.v 9) (.a 1)) (gangS 2 fun ar => ar.setA 1 ⟨7, 8⟩) (vregs 9 3) = some [7, 15, 0] := by decide +kernel
theorem test_demc : after (.demc (.s 8) 9) (gangS 2 fun ar => setVs ar 9 [3, 4]) (fun c => (sreg 8 c, c.arch.xstat)) =
    some (3, 0x200) ∧ after (.demf (.s 8) 9) (gangS 2 fun ar => setVs ar 9 [3, 4]) (fun c => (sreg 8 c, c.arch.xstat)) = some (3, 0) := by decide +kernel
theorem test_movxr : after (.movxr .tick (.s 4)) { rodS with tick := 0x500000007 } (fun c => (sreg 4 c, sreg 5 c)) = some (7, 5) ∧
    after (.movxr .tid (.v 4)) (gangS 2) (fun c => (vregs 4 2 c, vregs 5 2 c)) = some ([0, 1], [1, 1]) ∧
    after (.movxr .tick (.v 4)) rodS (fun c => c.arch.ecode) = some 2 ∧ after (.movxr .exec (.s 4)) (gangS 5) (sreg 4) = some 31 := by decide +kernel
theorem test_movxw : after (.movxw .xstat (.s 4)) (rodS fun ar => (ar.orXstat 0x1F).setS 4 0x11) (fun c => c.arch.xstat) = some 0x11 ∧
    after (.movxw .meet (.v 10)) (gangS 2 fun ar => (ar.setPair 0 (.v 5) 0x100).setPair 1 (.v 5) 0x204)
      (fun c => ((c.arch.lane 0).meet, (c.arch.lane 1).meet)) = some (0x100, 0x204) := by decide +kernel

/-! ## Floating point (R150–R209) and cross-lane operations (R358–R363); values from the worked examples and the formats -/

theorem test_fadd : after (.fadd96 (.s 1) (.reg (.s 2)) 0x3F800000) (rodS fun ar => ar.setS 2 0x4B800000) (fun c => (sreg 1 c, c.arch.xstat)) =
    some (0x4B800000, 1) ∧
    after (.faddCompact (.s 1) (.reg (.s 2)) (.reg (.s 3))) (rodS fun ar => (ar.setS 2 0x7F800000).setS 3 0xFF800000)
      (fun c => (sreg 1 c, c.arch.xstat)) = some (0x7FC00000, 0x10) := by decide +kernel
theorem test_fsub_zero : after (.fsub64 (.s 1) (.reg (.s 2)) (.reg (.s 2))) (rodS fun ar => ar.setS 2 0x40490FDB) (fun c => (sreg 1 c, c.arch.xstat)) =
    some (0, 0) := by decide +kernel
theorem test_fmul : after (.fmulCompact (.s 1) (.reg (.s 2)) (.reg (.s 3))) (rodS fun ar => (ar.setS 2 0x40400000).setS 3 0xBF000000) (sreg 1) =
    some 0xBFC00000 := by decide +kernel
theorem test_ffma : after (.ffma64 (.s 1) (.reg (.s 2)) (.reg (.s 2)) (.reg (.s 3)))
    (rodS fun ar => (ar.setS 2 0x3F800001).setS 3 0xBF800002) (fun c => (sreg 1 c, c.arch.xstat)) = some (0x28800000, 0) := by decide +kernel
theorem test_fmin_zero : after (.fminCompact (.s 1) (.reg (.s 2)) (.imm 0)) (rodS fun ar => ar.setS 2 0x80000000) (sreg 1) = some 0x80000000 ∧
    after (.fmaxCompact (.s 1) (.reg (.s 2)) (.imm 0)) (rodS fun ar => ar.setS 2 0x7FC00000) (sreg 1) = some 0 := by decide +kernel
theorem test_fcmp : after (.fcmp64 .un (.s 1) (.reg (.s 2)) (.imm 0)) (rodS fun ar => ar.setS 2 0x7FC00000) (sreg 1) = some 1 ∧
    after (.fcmp64 .lt (.s 1) (.reg (.s 2)) (.imm 0)) (rodS fun ar => ar.setS 2 0x80000000) (sreg 1) = some 0 := by decide +kernel
theorem test_fcmpm : after (.fcmpm64 .gt (.s 1) (.reg (.v 2)) (.imm 0)) (gangS 3 fun ar => setVs ar 2 [0x3F800000, 0xBF800000, 1]) (sreg 1) =
    some 0b101 := by decide +kernel
theorem test_abandoned : after (.fadd64 (.v 1) (.reg (.v 2)) (.imm 0)) (gangS 2 fun ar => setVs ar 2 [0x7FB00002, 0x3F800000])
    (fun c => (vregs 1 2 c, c.arch.ecode, c.arch.elane, pcOf 1 c)) = some ([0, 0x3F800000], 5, 0, text + 8) := by decide +kernel
theorem test_fclass : after (.fclass (.s 1) (.reg (.s 2))) (rodS fun ar => ar.setS 2 0x807FFFFF) (sreg 1) = some 4 ∧
    after (.fclass (.s 1) (.reg (.s 2))) (rodS fun ar => ar.setS 2 0x7FC00000) (sreg 1) = some 0x200 := by decide +kernel
theorem test_frcp : after (.frcp (.s 1) (.imm 0)) rodS (fun c => (sreg 1 c, c.arch.xstat)) = some (0x7F800000, 8) := by decide +kernel
theorem test_fsqrt : after (.fsqrt (.s 1) (.reg (.s 2))) (rodS fun ar => ar.setS 2 0x40000000) (fun c => (sreg 1 c, c.arch.xstat)) =
    some (0x3FB504F3, 1) := by decide +kernel
theorem test_frsq : after (.frsq (.s 1) (.reg (.s 2))) (rodS fun ar => ar.setS 2 0x40800000) (sreg 1) = some 0x3F000000 := by decide +kernel
theorem test_fdiv : after (.fdiv64 (.s 1) (.reg (.s 2)) (.reg (.s 3))) (rodS fun ar => (ar.setS 2 0x3F800000).setS 3 0x40400000)
    (fun c => (sreg 1 c, c.arch.xstat)) = some (0x3EAAAAAB, 1) := by decide +kernel
theorem test_fexp2 : after (.fexp2 (.s 1) (.reg (.s 2))) (rodS fun ar => ar.setS 2 0x40400000) (fun c => (sreg 1 c, c.arch.xstat)) =
    some (0x41000000, 0) := by decide +kernel
theorem test_flog2 : after (.flog2 (.s 1) (.reg (.s 2))) (rodS fun ar => ar.setS 2 0x41000000) (fun c => (sreg 1 c, c.arch.xstat)) =
    some (0x40400000, 0) := by decide +kernel
theorem test_frnd : after (.frnd .rup (.s 1) (.reg (.s 2))) (rodS fun ar => ar.setS 2 0xBE99999A) (fun c => (sreg 1 c, c.arch.xstat)) =
    some (0x80000000, 0) := by decide +kernel
theorem test_f2i : after (.f2i .rtz .u32 (.s 1) (.reg (.s 2))) (rodS fun ar => ar.setS 2 0xBF000000) (fun c => (sreg 1 c, c.arch.xstat)) =
    some (0, 1) ∧
    after (.f2i .rne .i32 (.s 1) (.reg (.s 2))) (rodS fun ar => ar.setS 2 0x4F000000) (fun c => (sreg 1 c, c.arch.xstat)) =
      some (0x7FFFFFFF, 0x10) := by decide +kernel
theorem test_i2f : after (.i2f .u32 (.s 1) (.imm 0x3F)) rodS (fun c => (sreg 1 c, c.arch.xstat)) = some (0x4F800000, 1) := by decide +kernel
theorem test_fcvt : after (.fcvt ⟨false, .f32, .e4m3⟩ (.s 1) (.reg (.s 2))) (rodS fun ar => { ar.setS 2 0x43C80000 with nfmt := 1 }) (sreg 1) = some 0x7C ∧
    after (.fcvt ⟨false, .f32, .e4m3⟩ (.s 1) (.reg (.s 2))) (rodS fun ar => ar.setS 2 0x43C80000) (sreg 1) = some 0x78 := by decide +kernel
theorem test_fcvt_saturates : after (.fcvt ⟨true, .f32, .e4m3⟩ (.s 1) (.reg (.s 2))) (rodS fun ar => ar.setS 2 0x43C80000) (sreg 1) = some 0x77 ∧
    after (.fcvt ⟨false, .e5m2, .f32⟩ (.s 1) (.reg (.s 2))) (rodS fun ar => ar.setS 2 0xFC) (sreg 1) = some 0xFF800000 := by decide +kernel
theorem test_f4xp : after (.f4xp64 (.v 6) (.reg (.v 2)) (.imm 1) (.reg (.s 9))) (rodS fun ar => ((ar.setV 0 6 8).setV 0 2 0xBF333333).setS 9 0x4A7F)
    (fun c => (vregs 6 1 c, c.arch.xstat)) = some ([0x98], 1) ∧
    after (.f4xp64 (.v 6) (.reg (.v 4)) (.imm 3) (.reg (.s 9))) (rodS fun ar => ((ar.setV 0 6 0x498).setV 0 4 0x40E00000).setS 9 0x4A7F)
      (fun c => (vregs 6 1 c, c.arch.xstat)) = some ([0x7498], 5) := by decide +kernel
theorem test_f4xu : after (.f4xu64 (.v 7) (.reg (.v 6)) (.imm 0) (.reg (.s 9))) (rodS fun ar => (ar.setV 0 6 0x7498).setS 9 0x4A7F) (vregs 7 1) =
    some [0x40A00000] ∧
    after (.f4xu64 (.v 7) (.reg (.v 6)) (.imm 2) (.reg (.s 9))) (rodS fun ar => (ar.setV 0 6 0x7498).setS 9 0x4A7F) (vregs 7 1) =
      some [0x40000000] := by decide +kernel
theorem test_scle : after (.scle (.s 1) (.reg (.s 2))) (rodS fun ar => ar.setS 2 0x40E00000) (sreg 1) = some 0x80 := by decide +kernel
theorem test_hadd2 : after (.hadd264 .bf16 (.s 1) (.reg (.s 2)) (.reg (.s 2))) (rodS fun ar => ar.setS 2 0xC0003F80) (sreg 1) = some 0xC0804000 := by
  decide +kernel
theorem test_hmul2_hfma2 : after (.hmul264 .f16 (.s 1) (.reg (.s 2)) (.reg (.s 2))) (rodS fun ar => ar.setS 2 0x40003C00) (sreg 1) = some 0x44003C00 ∧
    after (.hfma264 .f16 (.s 1) (.reg (.s 2)) (.reg (.s 2)) (.reg (.s 2))) (rodS fun ar => ar.setS 2 0x40003C00) (sreg 1) = some 0x46004000 := by
  decide +kernel
theorem test_fkey : after (.fkey .f32 (.s 1) (.reg (.s 2))) (rodS fun ar => ar.setS 2 0x80000000) (sreg 1) = some 0x80000000 ∧
    after (.fkey .i32 (.s 1) (.imm 0)) rodS (sreg 1) = some 0x80000000 := by decide +kernel

/-- The eight lanes of R359's worked example. -/
def eight : List Word := [0x3FC00000, 0x7FC00001, 0x40400000, 0x80000000, 0x40400000, 0, 0x7FA00000, 0x40000000]

theorem test_reduce_maxi : after (.reduce ⟨.maxi, .f32⟩ (some 9) (.s 6) (.v 3)) (gangS 8 fun ar => (setVs ar 3 eight).setS 9 0xFF)
    (fun c => (sreg 6 c, sreg 7 c, c.arch.xstat)) = some (0x40400000, 2, 0x10) ∧
    after (.reduce ⟨.maxi, .f32⟩ (some 9) (.s 6) (.v 3)) (gangS 8 fun ar => (setVs ar 3 eight).setS 9 0)
      (fun c => (sreg 6 c, sreg 7 c, c.arch.xstat)) = some (0xFF800000, 0xFFFFFFFF, 0x100) := by decide +kernel
theorem test_reduce_add : after (.reduce ⟨.add, .f32⟩ (some 9) (.s 6) (.v 3))
    (gangS 8 fun ar => (setVs ar 3 [0x4B800000, 0x3F800000, 0x3F800000, 0xCB800000, 9]).setS 9 0x0F) (fun c => (sreg 6 c, c.arch.xstat)) =
    some (0x3F800000, 1) := by decide +kernel
theorem test_scan : after (.scan ⟨false, .add, .f32⟩ (some 9) (.v 4) (.v 3))
    (gangS 8 fun ar => (setVs ar 3 [0x4B800000, 0x3F800000, 0x3F800000, 0xCB800000, 9]).setS 9 0x0F) (vregs 4 5) =
    some [0x4B800000, 0x4B800000, 0x4B800000, 0, 0] ∧
    after (.scan ⟨true, .max, .i32⟩ none (.v 4) (.v 3)) (gangS 3 fun ar => setVs ar 3 [5, 9, 7]) (vregs 4 3) = some [0x80000000, 5, 9] := by decide +kernel
theorem test_shfl : after (.shfl .down (.v 3) (.v 3) (.imm 1)) (gangS 32 fun ar => setVs ar 3 [5, 9, 7]) (vregs 3 3) = some [9, 7, 0] ∧
    after (.shfl .xor (.v 3) (.v 3) (.imm 1)) (gangS 32 fun ar => setVs ar 3 [5, 9, 7, 8]) (vregs 3 4) = some [9, 5, 8, 7] := by decide +kernel
theorem test_bsort : after (.bsort false none (.v 2) ⟨3⟩) (gangS 4 fun ar => setVs (setVs ar 6 [9, 2, 9, 1]) 7 [1, 2, 3, 4])
    (fun c => (vregs 4 4 c, vregs 5 4 c)) = some ([1, 2, 9, 9], [4, 2, 1, 3]) := by decide +kernel
theorem test_bmerge : after (.bmerge false none (.v 2) ⟨3⟩ ⟨4⟩)
    (gangS 3 fun ar => setVs (setVs (setVs (setVs ar 6 [1, 4, 9]) 7 [1, 2, 3]) 8 [2, 3, 4]) 9 [4, 5, 6]) (vregs 4 3) = some [1, 2, 3] := by decide +kernel

/-! ## Memory, streams, iteration, jobs, waits, gangs, the matrix engine, verdicts, traps and launches, one step (and a reply) each -/

/-- The unsigned number in n bytes of device memory at an offset. -/
def devNat (off n : Nat) (s : State) : Nat := leNat ((List.range n).map fun i => s.dev.get (off + i))

/-- An atomic of a thread on a word x at its s4:s5: the old value it returns and the new one in memory. -/
noncomputable def atomic (i : Instr) (x : Nat) (f : Arch → Arch := id) : Option Word × Nat :=
  (afterReply i (descS x 4 f) (sreg 8), devNat dOff 4 (replied i (descS x 4 f)))

theorem test_ld : afterReply ldI (memS (devVa dOff)) (fun c => (sreg 8 c, pcOf 0 c)) = some (0x2A, text + 8) := by decide +kernel
theorem test_ld_sizes : afterReply (.ld64 ⟨false, .rlx, .dev, .b8⟩ (.s 8) (.s 2) (.imm 0) 1) (descS 0xFFEEDDCC 4) (sreg 8) = some 0xDD ∧
    afterReply (.ld96 ⟨false, .acq, .sys, .b64⟩ (.s 8) (.s 2) none 8) (descS 0x1122334455667788FFFF000000000000 16) (fun c => (sreg 8 c, sreg 9 c)) =
      some (0x55667788, 0x11223344) := by decide +kernel
theorem test_st : afterS stI (memS (devVa dOff)) (·.dev) = some [(dOff, 0x44), (dOff + 1, 0x33), (dOff + 2, 0x22), (dOff + 3, 0x11)] ∧
    afterS (.st96 ⟨.rlx, .dev, .b16⟩ (.s 6) (.s 2) none 2) (memS (devVa dOff)) (·.dev) = some [(dOff, 0x2A), (dOff + 2, 0x44), (dOff + 3, 0x33)] := by
  decide +kernel
theorem test_stl_ldl : afterReply (.ldl64 ⟨.rlx, .frm, .b32⟩ (.s 8) (.imm 4) 8)
      { memS 0 with regions := [{ firstRegion with scratch := [(12, 0x5A)] }] } (sreg 8) = some 0x5A ∧
    afterS (.stl96 ⟨.rlx, .frm, .b8⟩ (.s 6) none 13) (memS 0) (fun s => s.regions.map (·.scratch)) = some [[(13, 0x44)], []] := by decide +kernel
theorem test_aadd_one : afterReply (.aadd64 ⟨.rlx, .dev, .b32⟩ (.s 6) (.s 1) (.imm 0) (.imm 1))
      { gangS 4 fun ar => setP ar 1 (devVa dOff) with dev := [(dOff, 10)] } (sreg 6) = some 10 ∧
    (replied (.aadd64 ⟨.rlx, .dev, .b32⟩ (.s 6) (.s 1) (.imm 0) (.imm 1))
      { gangS 4 fun ar => setP ar 1 (devVa dOff) with dev := [(dOff, 10)] }).dev = [(dOff, 11)] := by decide +kernel
theorem test_aadd_four : afterReply (.aadd64 ⟨.rlx, .dev, .b32⟩ (.v 6) (.s 1) (.imm 0) (.reg (.v 7)))
      { gangS 4 fun ar => setVs (setP ar 1 (devVa dOff)) 7 [1, 2, 3, 4] with dev := [(dOff, 11)] } (vregs 6 4) = some [11, 12, 14, 17] ∧
    (replied (.aadd64 ⟨.rlx, .dev, .b32⟩ (.v 6) (.s 1) (.imm 0) (.reg (.v 7)))
      { gangS 4 fun ar => setVs (setP ar 1 (devVa dOff)) 7 [1, 2, 3, 4] with dev := [(dOff, 11)] }).dev = [(dOff, 21)] := by decide +kernel
theorem test_amin_amax : atomic (.amin64 ⟨.rlx, .dev, .b32⟩ (.s 8) (.s 2) (.imm 0) (.imm 0x3F)) 5 = (some 5, 0xFFFFFFFF) ∧
    atomic (.amax64 ⟨.rlx, .dev, .b32⟩ (.s 8) (.s 2) (.imm 0) (.imm 0x3F)) 5 = (some 5, 5) := by decide +kernel
theorem test_abits : atomic (.aand64 ⟨.rlx, .dev, .b32⟩ (.s 8) (.s 2) (.imm 0) (.imm 12)) 10 = (some 10, 8) ∧
    atomic (.aor64 ⟨.rlx, .dev, .b32⟩ (.s 8) (.s 2) (.imm 0) (.imm 12)) 10 = (some 10, 14) ∧
    atomic (.axor64 ⟨.rlx, .dev, .b32⟩ (.s 8) (.s 2) (.imm 0) (.imm 12)) 10 = (some 10, 6) ∧
    atomic (.axch64 ⟨.rlx, .dev, .b32⟩ (.s 8) (.s 2) (.imm 0) (.imm 12)) 10 = (some 10, 12) := by decide +kernel
theorem test_acas : atomic (.acas64 ⟨.rlx, .dev, .b32⟩ (.s 8) (.s 2) (.imm 0) (.imm 10) (.imm 3)) 10 = (some 10, 3) ∧
    atomic (.acas64 ⟨.rlx, .dev, .b32⟩ (.s 8) (.s 2) (.imm 0) (.imm 9) (.imm 3)) 10 = (some 10, 10) := by decide +kernel
theorem test_afadd : atomic (.afadd64 ⟨.rlx, .dev⟩ (.s 8) (.s 2) (.imm 0) (.reg (.s 6))) 0x3F800000 (fun ar => ar.setS 6 0x40000000) =
    (some 0x3F800000, 0x40400000) := by decide +kernel
theorem test_null : after ldI (memS 8) (fun c => (c.arch.ecode, c.arch.eaddr, c.arch.epc)) = some (0x12, 8, text) := by decide +kernel

/-- The worked example's stream at v56, about to pop its element n, and its halfwords in device memory. -/
def exampleDesc : BitVec 512 := sDesc (2 ^ 56 + dOff + 0x1000) 0x61 2 3 ||| BitVec.ofNat 512 (2 ^ 256 * (64 + 2 ^ 64 * 2))
def exampleStrm (n : Nat) : State :=
  { rodS fun ar => { ar with streams := ar.streams.set 0 (some ⟨exampleDesc, n, 0⟩) } with
    dev := [(dOff + 0x1000, 5), (dOff + 0x1002, 0xFF), (dOff + 0x1003, 0xFF), (dOff + 0x1004, 7), (dOff + 0x1040, 100), (dOff + 0x1043, 0x80),
       (dOff + 0x1044, 3)] }

theorem test_stream_open : after (.strmOpen (.s 8) ⟨2⟩ 0) (descS exampleDesc.toNat 64) (fun c => (sreg 8 c, (c.arch.streams[0]).isSome)) =
    some (0, true) ∧
    after (.strmOpen (.s 8) ⟨2⟩ 0) (descS 3 64) (fun c => (sreg 8 c, (c.arch.streams[0]).isSome)) = some (1, false) := by decide +kernel
theorem test_stream_pops : ([0, 1, 2, 3, 4, 5].map fun n => after (.addCompact (.v 3) (.reg (.v 3)) (.reg (.v 56))) (exampleStrm n) (vregs 3 1)) =
    [some [5], some [0xFFFFFFFF], some [7], some [100], some [0xFFFF8000], some [3]] := by decide +kernel
theorem test_stream_end : after (.addCompact (.v 3) (.reg (.v 3)) (.reg (.v 56))) (exampleStrm 6) (fun c => (vregs 3 1 c, c.arch.xstat)) =
    some ([0], 0x400) := by decide +kernel
theorem test_stream_closed : after (.strmClose 0) (exampleStrm 6) (fun c => (c.arch.streams[0]).isSome) = some false := by decide +kernel
theorem test_store_on_read_stream : after (.st64 ⟨.rlx, .dev, .b16⟩ (.v 56) (.s 2) (.imm 0) 0) (exampleStrm 0) (fun c => c.arch.ecode) = some 1 := by
  decide +kernel

/-! ### Iteration, jobs and tags -/

/-- The worked example's nest, claimed from a counter that stands at n; a chunk in hand. -/
noncomputable def claim (n : Nat) : Option (DWord × DWord × List Word) :=
  let s := { rodS (inNest .loaded 0 0) with dev := Mem.putBytes [] (dOff + 64) (leBytes n 8) }
  afterReply (.iterNext64 0 4) s fun c => (c.arch.iter[0].l, c.arch.iter[0].e, vregs 9 1 c)

theorem test_iter_init : after (.iterInit 0 (.s 8) ⟨2⟩) (descS nestD.toNat 56) (fun c => (sreg 8 c, c.arch.iter[0].st)) = some (0, .loaded) ∧
    after (.iterInit 0 (.s 8) ⟨2⟩) (descS 0 56) (sreg 8) = some 1 := by decide +kernel
theorem test_iter_claims : ([0, 13, 24, 34, 43, 86].map fun n => claim n) =
    [some (0, 13, [0]), some (13, 24, [13]), some (24, 34, [24]), some (34, 43, [34]), some (43, 51, [43]), some (86, 88, [86])] := by decide +kernel
theorem test_iter_step : after (.iterStep 0) (rodS (inNest .active 11 13)) (fun c => (c.arch.iter[0].l, vregs 9 1 c, pcOf 0 c)) =
    some (12, [12], text) := by decide +kernel
theorem test_copy : after (.copy (.s 8) ⟨2⟩ 3) (descS cardN 256) (fun c => (sreg 8 c, c.arch.tags[3].st)) = some (0, .pending) ∧
    afterS (.copy (.s 8) ⟨2⟩ 3) (descS cardN 256) (fun s => s.jobs.length) = some 1 ∧
    after (.copy (.s 8) ⟨2⟩ 3) (descS 0 256) (sreg 8) = some 3 := by decide +kernel
theorem test_jobst : after (.jobst (.s 8) 3) (rodS fun ar => { ar with tags := ar.tags.set 3 ⟨.set, 0x00310000⟩ }) (sreg 8) = some 0x00310000 := by decide +kernel
theorem test_tagclr : after (.tagclr ⟨2⟩) (tagS .set) (fun c => c.arch.tags[3].st) = some .free := by decide +kernel
theorem test_ffr : after (.ffr (.s 8) ⟨2⟩) (tagS .set) (sreg 8) = some 3 := by decide +kernel
theorem test_waits : after (.waitany (.s 8) ⟨2⟩) (tagS .set) (sreg 8) = some 3 ∧ after (.waitall (.s 8) ⟨2⟩) (tagS .pending) (fun c => c.st) =
    some (.parked .tags) := by decide +kernel
theorem test_fence_cfl : after (.fence .dev) (gangS 3) (pcOf 2) = some (text + 8) ∧
    after (.cfl true (.s 2) (.imm 0)) (memS (devVa dOff)) (pcOf 0) = some (text + 8) ∧
    after (.pfch64 .dev (.s 2) (.imm 0) 0) (memS 8) (pcOf 0) = some (text + 8) := by decide +kernel
theorem test_mwait : after (.mwait .dev 0 (.s 4) ⟨2⟩ ⟨3⟩) (descS 0x1122334500000000 8) (fun c => c.st) = some .live ∧
    after (.mwait .dev 3 (.s 4) ⟨2⟩ ⟨3⟩) (descS 5 8) (fun c => c.st == .live) = some false := by decide +kernel
theorem test_barrier_last : after (.bar64 .dev (.s 8) ⟨2⟩) (descS (cellN 2) 16) (sreg 8) = some 0 ∧
    afterS (.bar64 .dev (.s 8) ⟨2⟩) (descS (cellN 2) 16) (fun s => (devNat dOff 4 s, devNat (dOff + 4) 4 s, devNat (dOff + 8) 4 s)) =
      some (2, 0, 5) := by decide +kernel

/-! ### Gangs, the matrix engine and verdicts -/

theorem test_gcall : afterS (.gcall64 (.imm 5) 0x40) { leafS leafL [] with tick := 1000 } (fun s => s.rdv.map fun e => (e.num, e.st, e.deadline)) =
    some [(0, .opened, 1064)] := by decide +kernel
theorem test_gcall_local : after (.gcall64 (.imm 5) 0x40) (leafS (firstLaunch 0x4000000000) []) (fun c => (sreg 1 c, sreg 2 c, pcOf 0 c, c.arch.link)) =
    some (5, 1, text + 0x100, some (text + 8)) := by decide +kernel
theorem test_gret_local : after .gret { rodS with ctxs := [linkCtx] } (fun c => (pcOf 0 c, c.arch.link)) = some (text + 0x40, none) := by decide +kernel
theorem test_obres : afterS (.obres96 (.s 8) 0 0x4003) (obS gangRegion 0 0) (fun s => s.regions.map fun r => (r.obs[0].v, r.obs[0].size)) =
      some [(true, 64)] ∧
    afterS (.obres96 (.s 8) 1 0x40037) (obS gangRegion 0 0) (fun s => s.regions.map fun r => (r.obs[1].v, r.obs[1].size)) = some [(true, 136)] := by
  decide +kernel
theorem test_obrel : afterS (.obrel 0) (obS obRegion 0 0) (fun s => s.regions.map fun r => r.obs[0].v) = some [false] := by decide +kernel
theorem test_accz_accrd : afterS (.accz 2) (obS { obRegion with acc := [(2 * 4096, 9)] } 0 0) (fun s => s.regions.map (·.acc)) = some [[]] ∧
    after (.accrd96 (.v 4) 2 1) (obS { obRegion with acc := [(2 * 4096 + 132, 9)] } 0 0) (vregs 4 2) = some [0, 9] := by decide +kernel
/-- The eight products of the worked example in R160, as BF16 lines of two records. -/
def groupRegion : Region :=
  { obRegion with obuf := Mem.putBytes (Mem.putBytes [] 0 (leBytes 0x40A0000040404600_3F80C6003F804600 16)) 2048 (leBytes 0x000040E03F804580_3F8045803F804580 16) }
theorem test_product : groupRegion.product recA { recA with base := 32 } false 0 0 0 0 4 = 0x40000000 ∧
    groupRegion.product recA { recA with base := 32 } false 0 0 0 0 8 = 0x4C000002 := by decide +kernel
theorem test_block : (([0, 1, 2, 3, 4].map fun i => f4xDec 0x507D (0x0FC871 / 16 ^ i)).map fun x => (fp32.word .rne x).1) =
    [0x3E000000, 0x3FC00000, 0x40000000, 0xBF000000, 0xBFC00000] := by decide +kernel
theorem test_readings : (([0x78, 0x7E, 0xF8, 0xFC].map fun b => ((e4m3 false).dec b, (e4m3 true).dec b)).map fun x =>
      ((fp32.word .rne x.1).1, (fp32.word .rne x.2).1)) =
    [(0x7F800000, 0x43800000), (0x7FC00000, 0x43E00000), (0xFF800000, 0xC3800000), (0x7FC00000, 0xC3C00000)] := by decide +kernel
theorem test_monitor : ([0x40A00000, 0x41000000].map fun (tau : Word) =>
      monitorCheck ⟨false, .gt, .bf16⟩ (num32 0x40000000) (.fin false 7 0) (checkTheta .gt (some tau)) 2 (num32 0xC0E00000) (.fin false 50 0)) =
    [none, some false] := by decide +kernel
/-- R431: rows 40, 45, 50, 55 and a zero row of round 2: what block 0 gives S and M, and what the check at c = 1 under τ = 5 finds. -/
def topkRow (a b : Word) : Word × Word × Option Bool :=
  let one : List Byte := (List.replicate 64 [0x80, 0x3F]).flatten
  let r := monitorBlock .bf16 false (leBytes (a.toNat / 65536) 2 ++ List.replicate 126 0) one 0 0
  (r.1, r.2, monitorCheck ⟨false, .gt, .bf16⟩ (num32 0x3F800000) (num32 b) (checkTheta .gt (some 0x40A00000)) 1 (num32 r.1) (num32 r.2))
theorem test_R431_rows : topkRow 0x40400000 0x40800000 = (0x40400000, 0x40C00000, none) ∧ topkRow 0x40000000 0x40C00000 = (0x40000000, 0x40800000, none) ∧
    topkRow 0x3F800000 0x40400000 = (0x3F800000, 0x40000000, some false) ∧ topkRow 0x40A00000 0 = (0x40A00000, 0x41200000, none) ∧
    topkRow 0 0 = (0, 0, some false) := by decide +kernel
theorem test_R431_cell_and_keys : raised 0x00000000FF800000 0x40A00000 = 0x0000000140A00000 ∧ raised 0x0000000140A00000 0x40C00000 = 0x0000000240C00000 ∧
    ([0x41100000, 0x41000000, 0x40E00000, 0x40C00000, 0x40A00000, 0, 0xC0000000, 0x7FB00001].map vkeyWord) =
      [0xC1100000, 0xC1000000, 0xC0E00000, 0xC0C00000, 0xC0A00000, 0x80000000, 0x3FFFFFFF, 1] := by decide +kernel
/-- R427: log₂(−log₂ u) of each u, the scores, the flags of the two NaNs, and the lane that REDUCE.MAXI delivers. -/
theorem test_R427_sampler : ([0x3F000000, 0x3E800000, 0x3D800000, 0x37800000].map fun (u : Word) => flog2Word (fsubWord .rne 0x80000000 (flog2Word u).1).1) =
      [(0, 0), (0x3F800000, 0), (0x40000000, 0), (0x40800000, 0)] ∧
    (fsubWord .rne 0x40400000 0x40000000, fsubWord .rne 0x40800000 0x40800000) = ((0x3F800000, 0), (0, 0)) ∧
    fsubWord .rne 0x7FC00000 0 = (0x7FC00000, 0) ∧ fcondHolds .gt 0x7FC00000 0xFF800000 = (false, 0x10) ∧ fsubWord .rne 0x7FA00000 0 = (0x7FC00000, 0x10) ∧
    fcondHolds .gt 0x3F800000 0x3F800000 = (false, 0) ∧ combine .maxi .f32 ⟨0x3F800000, 2⟩ ⟨0x3F800000, 3⟩ = (⟨0x3F800000, 2⟩, 0) := by decide +kernel
theorem test_vtest_vkey : after (.vtest (.s 8) (.s 6)) (rodS fun ar => ar.setS 6 0x7FB00002) (sreg 8) = some 0x00020001 ∧
    after (.vkey (.s 8) (.s 6)) (rodS fun ar => ar.setS 6 0x7FB00002) (sreg 8) = some 1 := by decide +kernel
theorem test_ths : after (.thsBind 2 ⟨2⟩) (thsS 0) (fun c => c.arch.ths[2]) = some boundTo ∧
    after (.thsRead (.s 4) 2) (thsS boundTo) (fun c => (sreg 8 c, sreg 9 c)) = some (0x40000000, 3) := by decide +kernel
theorem test_ths_raise : afterS (.thsRaise96 (.s 4) 2 0x41000000) (thsS boundTo) (fun s => (devNat dOff 4 s, devNat (dOff + 4) 4 s)) =
    some (0x41000000, 4) := by decide +kernel

/-! ### Traps, launches, spawning, moving -/

/-- The gang of the worked example: lane 0 loads, lanes 1 and 3 are in the null guard, lane 2 is misaligned. -/
def twoFaults : State :=
  { hS 0 false with
    issue := some (gangIss 4),
    ctxs := [gangCtx 4 fun ar => setVs (setVs { ar with uhnd := text + 0x80 } 2 [0, 0, 2, 8]) 3 [0x01000002, 0, 0x01000002, 0]] }
theorem test_two_faults : afterReply (.ld64 ⟨false, .rlx, .dev, .b32⟩ (.v 4) (.v 1) (.imm 0) 0) twoFaults
    (fun c => (c.arch.trapSet, c.arch.ecode, c.arch.eaddr, c.arch.elane, c.arch.epc, c.arch.uh)) =
      some (0b1010, 0x12, 0, 1, text, true) := by decide +kernel
theorem test_two_faults_pcs : afterReply (.ld64 ⟨false, .rlx, .dev, .b32⟩ (.v 4) (.v 1) (.imm 0) 0) twoFaults
    (fun c => [pcOf 0 c, pcOf 1 c, pcOf 2 c, pcOf 3 c]) = some [text + 8, text + 0x80, text, text + 0x80] := by decide +kernel
theorem test_trap : after (.trap64 7) (rodS fun ar => { ar with uhnd := text + 0x80 }) (fun c => (c.arch.ecode, c.arch.epc, c.arch.eaddr, pcOf 0 c)) =
    some (0x0A, text + 8, 7, text + 0x80) := by decide +kernel
theorem test_eret : after .eret (rodS fun ar => { ar with uh := true, epc := text + 0x40, trapSet := 1 }) (fun c => (c.arch.uh, pcOf 0 c)) =
    some (false, text + 0x40) := by decide +kernel
theorem test_uimask : after (.uimask (.s 8) (.imm 1) (.imm 2)) (rodS fun ar => { ar with en := 5, pend := 2 }) (fun c => (sreg 8 c, c.arch.en)) =
    some (0x205, 6) := by decide +kernel
theorem test_interrupt : afterS (.userInterrupt firstKey) (intS .live)
    (fun s => (s.ctx? firstKey).map fun c => (c.arch.ecode, c.arch.uh, c.arch.pend, pcOf 0 c)) = some (some (0x40000200, true, 2, text + 0x80)) := by
  decide +kernel
theorem test_svc : after (.svc96 (.s 3) ⟨2⟩ 1 12) rodS (fun c => c.st == .live) = some false := by decide +kernel
theorem test_exit : after .exit64 (gangS 3) (fun c => c.st) = some .draining := by decide +kernel
theorem test_migrate : after (.migrateRk (.s 8)) rodS (fun c => (sreg 8 c, c.away, pcOf 0 c)) = some (0, true, text + 8) := by decide +kernel
theorem test_launch : after (.launch (.s 4) ⟨2⟩) (descS 5 192) (sreg 8) = some 0 ∧
    afterS (.launch (.s 4) ⟨2⟩) (descS 5 192) (fun s => s.pending.length) = some 1 := by decide +kernel
theorem test_waitfree : after (.waitfree (.s 8) 0 6) { spS 1 with freecnt := [(1, 7)] } (sreg 8) = some 7 := by decide +kernel

/-! ### Words of the worked examples -/

theorem test_example_words_1 : readBack [
    (32, 0x000607AC, .popcCompact (.s 7) (.reg (.s 6))), (32, 0xC1828281, .addCompact (.v 2) (.reg (.v 2)) (.imm 1)),
    (32, 0xB8838381, .addCompact (.v 3) (.reg (.v 3)) (.reg (.v 56))), (32, 0x00060408, .brnzCompact (.s 4) 6),
    (64, 0x01001C00C0810606, .cmpm64 .ne .i32 (.s 6) (.reg (.v 1)) (.imm 0)), (64, 0x0026050000000412, .movxr .tick (.s 4)),
    (64, 0x0000070600000012, .meet64 6), (64, 0x000009000000040A, .iterInit 0 (.s 4) ⟨0⟩)] = true := by decide +kernel
theorem test_example_words_2 : readBack [
    (64, 0x000A01C1C0020626, .aadd64 ⟨.rlx, .dev, .b32⟩ (.s 6) (.s 1) (.imm 0) (.imm 1)),
    (64, 0x000A0187C0028626, .aadd64 ⟨.rlx, .dev, .b32⟩ (.v 6) (.s 1) (.imm 0) (.reg (.v 7))),
    (64, 0x00000100B806042A, .strmOpen (.s 4) ⟨3⟩ 0), (64, 0x0000018000050042, .gcall64 (.reg (.s 5)) 0x80),
    (96, 0x0000040000000400FF100247, .mma96 none 2 ⟨0, 1⟩ 0x400), (64, 0x8200040009100446, .mma64 (some 2) 4 ⟨0, 1⟩ (.s 9)),
    (64, 0x0113010A0882844A, .vdot ⟨false, .gt, .bf16⟩ 1 (.v 4) (.v 1) ⟨4⟩ ⟨5⟩), (64, 0x000002000084864A, .vtest (.v 6) (.v 4)),
    (64, 0x05000100000000E2, .trap64 5), (64, 0x00000300C10504E2, .uimask (.s 4) (.s 5) (.imm 1)),
    (64, 0x00000100000A04EA, .launch (.s 2) ⟨5⟩)] = true := by decide +kernel


end Sys2Proof.Tests
end

section
namespace Sys2Proof.Machine
variable {s : State}

/-!
# Every step keeps the canonical form of every memory

Each operation of the model has one lemma, named after it: that it keeps `memoriesWf`, or that what it comes to (an `Eff`, a
`JobEnd`, an outcome) has the form. An operation's lemma cites those of the operations that it is made of; only the few that
write bytes, regions, windows or saved launches rest on the laws of `Mem`. A step is then an instruction or an event of `exec`, or
a new cycle.
-/

/-! ### The shapes in which operations are composed -/

/-- The memories of a saved launch's regions are in their canonical form. -/
def Launch.memWf (l : Launch) : Prop := ∀ r ∈ l.savedRegs, Region.memWf r

/-- What an instruction's body comes to has the form. -/
def Eff.memWf : Eff → Prop
  | .done s => memoriesWf s
  | .trap s _ => memoriesWf s

/-- An outcome has the form when its next state has it. -/
def outcomeWf : Host.Outcome State Fault Refusal → Prop
  | .next s => memoriesWf s
  | .fault _ => True
  | .refused _ => True

theorem outcomeWf.next {o : Host.Outcome State Fault Refusal} {t : State} (ho : outcomeWf o) (e : o = .next t) : memoriesWf t := by
  subst e; exact ho

theorem foldl_memoriesWf {α : Type} {f : State → α → State} (hf : ∀ {s} x, memoriesWf s → memoriesWf (f s x)) {xs : List α}
    (h : memoriesWf s) : memoriesWf (xs.foldl f s) :=
  List.foldlRecOn xs f h fun _ hs x _ => hf x hs

theorem ite_memoriesWf {c : Prop} [Decidable c] {a b : State} (ha : memoriesWf a) (hb : memoriesWf b) :
    memoriesWf (if c then a else b) := by
  split
  · exact ha
  · exact hb

theorem modLaunch_memoriesWf {n : Word} {f : Launch → Launch} (h : memoriesWf s) (hf : ∀ l, l.memWf → (f l).memWf) :
    memoriesWf (s.modLaunch n f) := by
  obtain ⟨hdev, hhost, hdom, hreg, hwin, hsaved⟩ := h
  refine ⟨hdev, hhost, hdom, hreg, hwin, fun l hl => ?_⟩
  obtain ⟨l', hl', rfl⟩ := List.mem_map.1 hl
  split
  · exact hf l' (hsaved l' hl')
  · exact hsaved l' hl'

/-! ### Reads, stores and pushes -/

theorem noteRead_memoriesWf {p : Place} {n : Nat} (h : memoriesWf s) : memoriesWf (s.noteRead p n) := countFlaws_memoriesWf h _

theorem recordMemue_memoriesWf {tid : DWord} {p : Place} (h : memoriesWf s) : memoriesWf (s.recordMemue tid p) := by
  unfold State.recordMemue
  split <;> exact h

theorem performStore_memoriesWf {c : Ctx} {va : DWord} {p : Place} {n : Nat} {x : BitVec 128} {sc : Scope} {rel : Bool}
    (h : memoriesWf s) : memoriesWf (s.performStore c va p n x sc rel) := by
  unfold State.performStore
  split
  · exact h
  · have hs := storeBytes_memoriesWf h c.frame? (s.pasidOf c.launch) va.toNat p sc (leBytes x.toNat n)
    exact ite_memoriesWf (registerReleaser_memoriesWf (modCtx_memoriesWf hs _ _) _ _ _) hs

theorem performPushes_memoriesWf {k : CtxKey} : ∀ {xs : List Pushed} {s : State}, memoriesWf s → memoriesWf (s.performPushes k xs)
  | [], _, h => h
  | x :: xs, s, h => by
    unfold State.performPushes
    split
    · exact performPushes_memoriesWf (performStore_memoriesWf h)
    · exact h

theorem flushStreams_memoriesWf {k : CtxKey} (h : memoriesWf s) : memoriesWf (s.flushStreams k) := by
  unfold State.flushStreams
  split
  · exact modCtx_memoriesWf (performPushes_memoriesWf h) _ _
  · exact h

theorem performOldest_memoriesWf {k : CtxKey} (h : memoriesWf s) : memoriesWf (s.performOldest k) := by
  unfold State.performOldest
  split
  · exact modCtx_memoriesWf (performPushes_memoriesWf h) _ _
  · exact h

theorem drainPushes_memoriesWf {k : CtxKey} : ∀ {n : Nat} {s : State}, memoriesWf s → memoriesWf (s.drainPushes k n)
  | 0, _, h => h
  | n + 1, s, h => by
    unfold State.drainPushes
    split
    · exact h
    · exact ite_memoriesWf (drainPushes_memoriesWf (performOldest_memoriesWf h)) h

theorem spill_memoriesWf {k : CtxKey} {n : Nat} (h : memoriesWf s) : memoriesWf (s.spill k n) :=
  ite_memoriesWf (checkpoint_memoriesWf (flushStreams_memoriesWf (checkpoint_memoriesWf h k)) k) (drainPushes_memoriesWf h)

theorem release_memoriesWf {k : CtxKey} {sc : Scope} (h : memoriesWf s) : memoriesWf (s.release k sc) :=
  releaseMem_memoriesWf (checkpoint_memoriesWf (flushStreams_memoriesWf h) k) k sc

theorem loadFill_memoriesWf {c : Ctx} {va : DWord} {p : Place} {sc : Scope} (h : memoriesWf s) : memoriesWf (s.loadFill c va p sc) := by
  unfold State.loadFill
  split
  · exact takeLine_memoriesWf h _ _ _ _ _ _
  · exact ite_memoriesWf h (ite_memoriesWf (fillLine_memoriesWf h _ _ _ _) h)
  · exact h

theorem noteLoad_memoriesWf {c : Ctx} {va : DWord} {p : Place} {n : Nat} {sc : Scope} (h : memoriesWf s) :
    memoriesWf (s.noteLoad c va p n sc) := by
  refine loadFill_memoriesWf (noteRead_memoriesWf ?_)
  split
  · exact noteLine_memoriesWf h _ _ _ _
  · exact h

theorem syncHome_memoriesWf {c : Ctx} {va : DWord} {p : Place} (h : memoriesWf s) : memoriesWf (s.syncHome c va p) := by
  unfold State.syncHome
  split
  · exact h
  · exact takeLine_memoriesWf h _ _ _ _ _ _
  · refine ite_memoriesWf h ?_
    split
    · exact ite_memoriesWf h (writeBack_memoriesWf h _)
    · exact h

theorem notePopped_memoriesWf {c : Ctx} {ar : Arch} (h : memoriesWf s) : memoriesWf (s.notePopped c ar) := by
  refine foldl_memoriesWf (fun i hs => ?_) h
  split
  · split
    · split
      · exact noteLoad_memoriesWf hs
      · exact hs
    · exact hs
  · exact hs

theorem commit_memoriesWf {c : Ctx} {ar : Arch} {ps : List Push} (h : memoriesWf s) : memoriesWf (s.commit c ar ps) :=
  have hs := setCtx_memoriesWf (notePopped_memoriesWf h) _
  ite_memoriesWf hs (spill_memoriesWf hs)

/-! ### Page requests, trap slots and rendezvous entries -/

theorem askPage_memoriesWf {w : PageWait} (h : memoriesWf s) : memoriesWf (s.askPage w) := ite_memoriesWf h (ite_memoriesWf h h)

theorem parkPages_memoriesWf {k : CtxKey} {ws : List PageWait} (h : memoriesWf s) : memoriesWf (s.parkPages k ws) :=
  modCtx_memoriesWf (foldl_memoriesWf (fun _ => askPage_memoriesWf) h) _ _

theorem granted_memoriesWf {k : CtxKey} {u : SlotUse} (h : memoriesWf s) : memoriesWf (s.granted k u) := by
  cases u with
  | system => exact modCtx_memoriesWf (release_memoriesWf h) _ _
  | svc => exact h
  | debug =>
    dsimp only [State.granted]
    split <;> exact h

theorem requestSlot_memoriesWf {k : CtxKey} {u : SlotUse} (h : memoriesWf s) : memoriesWf (s.requestSlot k u) :=
  ite_memoriesWf (granted_memoriesWf h) h

theorem rdvJoin_memoriesWf {t : State} {frame uid timeout : Nat} {launch key : Word} {leaf : DWord} (h : memoriesWf s)
    (ht : s.rdvJoin frame uid launch leaf key timeout = some t) : memoriesWf t := by
  unfold State.rdvJoin at ht
  dsimp only at ht
  split at ht
  · exact Option.some.inj ht ▸ h
  · split at ht
    · simp at ht
    · exact Option.some.inj ht ▸ h

theorem retryLookups_memoriesWf {frame : Nat} (h : memoriesWf s) : memoriesWf (s.retryLookups frame) := by
  refine foldl_memoriesWf (fun c hs => ?_) h
  split
  · refine ite_memoriesWf hs ?_
    split
    · exact hs
    · next ht => exact modCtx_memoriesWf (rdvJoin_memoriesWf hs ht) _ _
  · exact hs

theorem freeEntry_memoriesWf {frame num : Nat} (h : memoriesWf s) : memoriesWf (s.freeEntry frame num) := retryLookups_memoriesWf h

/-! ### Matrix operations, rounds and the end of lanes -/

theorem endTurn_memoriesWf {k : CtxKey} (h : memoriesWf s) : memoriesWf (s.endTurn k) := ite_memoriesWf h h

theorem roundMember_memoriesWf {p o : MatrixOp} {done : Bool} (h : memoriesWf s) : memoriesWf (s.roundMember p done o) :=
  ite_memoriesWf h (ite_memoriesWf h h)

/-- A change of a region's convergence registers alone keeps the form. -/
theorem modCvg_memoriesWf {c : CoreId} {n : Word} {w : Nat} {f : Region → Vector CvgReg 8} (h : memoriesWf s) :
    memoriesWf (s.modRegion c n w fun r => { r with cvg := f r }) :=
  modRegion_memoriesWf h c n w _ fun _ hr => hr

theorem wakeObuf_memoriesWf {core : CoreId} (h : memoriesWf s) : memoriesWf (s.wakeObuf core) := h

/-- Parking the operations of a round, to fault at their next issue, keeps the form. -/
theorem parkBad_memoriesWf {code : Code} {os : List MatrixOp} (h : memoriesWf s) :
    memoriesWf (os.foldl (fun (s : State) o => s.modCtx o.key fun c => { c with st := .parked (.roundBad code) }) s) :=
  foldl_memoriesWf (fun _ hs => modCtx_memoriesWf hs _ _) h

theorem runRound_memoriesWf {core : CoreId} {launch : Word} {w : Nat} {n : Fin 8} (h : memoriesWf s) :
    memoriesWf (s.runRound core launch w n) := by
  unfold State.runRound
  split
  · exact h
  · dsimp only
    split
    · exact h
    · refine ite_memoriesWf (wakeObuf_memoriesWf (modCvg_memoriesWf ?_)) h
      split
      · refine foldl_memoriesWf (fun _ => roundMember_memoriesWf) ?_
        split <;> exact ite_memoriesWf (parkBad_memoriesWf h) h
      · split <;> exact ite_memoriesWf (parkBad_memoriesWf h) h

theorem runRounds_memoriesWf {core : CoreId} {launch : Word} {w : Nat} (h : memoriesWf s) : memoriesWf (s.runRounds core launch w) :=
  foldl_memoriesWf (fun _ => runRound_memoriesWf) h

theorem leaveRounds_memoriesWf {c : Ctx} (h : memoriesWf s) : memoriesWf (s.leaveRounds c) := runRounds_memoriesWf (modCvg_memoriesWf h)

theorem drain_memoriesWf {k : CtxKey} (h : memoriesWf s) : memoriesWf (s.drain k) := by
  have hs : memoriesWf (((s.releaseMem k .dev).freeSlot k).endTurn k) := endTurn_memoriesWf (releaseMem_memoriesWf h k .dev)
  unfold State.drain
  dsimp only
  split
  · exact hs
  · split
    · exact leaveRounds_memoriesWf (ite_memoriesWf (freeEntry_memoriesWf hs) hs)
    · exact leaveRounds_memoriesWf hs
    · exact hs

theorem endLanes_memoriesWf {k : CtxKey} {m : BitVec 64} (h : memoriesWf s) : memoriesWf (s.endLanes k m) := by
  unfold State.endLanes
  dsimp only
  split
  · exact ite_memoriesWf (drain_memoriesWf h) h
  · exact h

/-! ### Exceptions -/

theorem abortLaunch_memoriesWf {n : Word} {code : Code} (h : memoriesWf s) : memoriesWf (s.abortLaunch n code) := by
  unfold State.abortLaunch
  split
  · exact h
  · split
    · refine foldl_memoriesWf (fun _ => freeEntry_memoriesWf) (modLaunch_memoriesWf ?_ fun _ hl => hl)
      exact h
    · refine foldl_memoriesWf (fun _ => freeEntry_memoriesWf) (modLaunch_memoriesWf ?_ fun _ hl => hl)
      exact h
    · exact h

theorem deliverTo_memoriesWf {k : CtxKey} {code : Code} {addr epc : DWord} {elane : Word} {set : BitVec 64} (h : memoriesWf s) :
    memoriesWf (s.deliverTo k code addr elane epc set) := by
  have hs := checkpoint_memoriesWf h k
  unfold State.deliverTo
  dsimp only
  split
  · exact hs
  · split
    · exact abortLaunch_memoriesWf hs
    · exact hs
    · exact requestSlot_memoriesWf hs

theorem faultCaller_memoriesWf {e : RdvEntry} {f : LaneFault} {pc : DWord} {u : Nat} (h : memoriesWf s) :
    memoriesWf (s.faultCaller e f pc u) := by
  unfold State.faultCaller
  split
  · exact h
  · exact ite_memoriesWf h (deliverTo_memoriesWf h)

theorem retireCalled_memoriesWf {c : Ctx} {e : RdvEntry} {fs : List LaneFault} {pc : DWord} (h : memoriesWf s) :
    memoriesWf (s.retireCalled c e fs pc) := by
  refine foldl_memoriesWf (fun f hs => ?_) (endLanes_memoriesWf h)
  split
  · exact faultCaller_memoriesWf hs
  · exact hs

theorem recordErrors_memoriesWf {k : CtxKey} {fs : List LaneFault} (h : memoriesWf s) : memoriesWf (s.recordErrors k fs) := by
  refine foldl_memoriesWf (fun f hs => ?_) h
  split
  · exact recordMemue_memoriesWf hs
  · exact hs

theorem deliver_memoriesWf {k : CtxKey} {t : Trap} (h : memoriesWf s) : memoriesWf (s.deliver k t) := by
  have hs : memoriesWf ((s.endTurn k).recordErrors k t.lanes) := recordErrors_memoriesWf (endTurn_memoriesWf h)
  unfold State.deliver
  dsimp only
  split
  · split
    · exact deliverTo_memoriesWf hs
    · exact deliverTo_memoriesWf (ite_memoriesWf (leaveRounds_memoriesWf hs) hs)
    · split
      · exact hs
      · exact retireCalled_memoriesWf hs
  · exact hs

theorem retire_memoriesWf {k : CtxKey} (h : memoriesWf s) : memoriesWf (s.retire k) := by
  unfold State.retire
  split
  · exact ite_memoriesWf h h
  · exact h

theorem unlessStruck_memoriesWf {k : CtxKey} {t : State} (h : memoriesWf s) (ht : memoriesWf t) : memoriesWf (s.unlessStruck k t) :=
  ite_memoriesWf h ht

/-! ### The frame of an instruction -/

theorem finish_outcomeWf {k : CtxKey} : ∀ {e : Eff}, e.memWf → outcomeWf (finish k e)
  | .done _, h => retire_memoriesWf h
  | .trap _ _, h => deliver_memoriesWf h

theorem withIssueIf_outcomeWf {p : Ctx → Bool} {f : Issue → Ctx → Eff} (h : memoriesWf s) (hf : ∀ iss c, (f iss c).memWf) :
    outcomeWf (s.withIssueIf p f) := by
  unfold State.withIssueIf
  split
  · trivial
  · split
    · trivial
    · split
      · exact h
      · exact finish_outcomeWf (hf _ _)

theorem withIssue_outcomeWf {f : Issue → Ctx → Eff} (h : memoriesWf s) (hf : ∀ iss c, (f iss c).memWf) : outcomeWf (s.withIssue f) :=
  withIssueIf_outcomeWf h hf

theorem withIssueQuiet_outcomeWf {f : Issue → Ctx → Eff} (h : memoriesWf s) (hf : ∀ iss c, (f iss c).memWf) :
    outcomeWf (s.withIssueQuiet f) :=
  withIssueIf_outcomeWf h hf

theorem ite_memWf {c : Prop} [Decidable c] {a b : Eff} (ha : a.memWf) (hb : b.memWf) : (if c then a else b).memWf := by
  split
  · exact ha
  · exact hb

theorem guarded_memWf {iss : Issue} {c : Ctx} {nm : Names} {typeOk whole : Bool} {go : Eff} (h : memoriesWf s) (hgo : go.memWf) :
    (s.guarded iss c nm typeOk whole go).memWf :=
  ite_memWf h (ite_memWf h (ite_memWf h hgo))

theorem accessTrap_memWf {c : Ctx} {once : Bool} {fs : List LaneFault} {epc : DWord} (h : memoriesWf s) :
    (accessTrap s c once fs epc).memWf := by
  cases fs <;> exact h

theorem operate_memWf {iss : Issue} {c : Ctx} {nm : Names} {typeOk whole : Bool} {body : Arch → Body} (h : memoriesWf s) :
    (s.operate iss c nm typeOk whole body).memWf := by
  refine guarded_memWf h ?_
  split
  · exact h
  · exact parkPages_memoriesWf h
  · split
    · exact h
    · exact ite_memoriesWf h h
    · split
      · exact h
      · exact parkPages_memoriesWf h
      · exact ite_memWf h (commit_memoriesWf h)

theorem simple_memWf {iss : Issue} {c : Ctx} {nm : Names} {typeOk whole : Bool} {body : Arch → Arch} (h : memoriesWf s) :
    (s.simple iss c nm typeOk whole body).memWf :=
  operate_memWf h

theorem withStreams_memWf {iss : Issue} {c : Ctx} {nm : Names} {go : List Pop → List Push → Arch → Eff} (h : memoriesWf s)
    (hgo : ∀ pops pushes ar, (go pops pushes ar).memWf) : (s.withStreams iss c nm go).memWf := by
  unfold State.withStreams
  split
  · exact h
  · exact parkPages_memoriesWf h
  · split
    · exact h
    · exact parkPages_memoriesWf h
    · exact hgo _ _ _

theorem andThen_memWf {α : Type} {x : Checked α} {iss : Issue} {c : Ctx} {go : α → Eff} (h : memoriesWf s)
    (hgo : ∀ v, (go v).memWf) : (x.andThen s iss c go).memWf := by
  cases x with
  | fault code va => exact h
  | miss w => exact parkPages_memoriesWf h
  | ok v => exact hgo v

end Sys2Proof.Machine
end

section
namespace Sys2Proof.Machine
variable {s : State}

/-! ### Memory requests and their replies -/

theorem relBefore_memoriesWf {k : CtxKey} {o : MemOrder} {sc : Scope} (h : memoriesWf s) : memoriesWf (s.relBefore k o sc) :=
  ite_memoriesWf (release_memoriesWf h) h

theorem acqAfter_memoriesWf {k : CtxKey} {o : MemOrder} {sc : Scope} (h : memoriesWf s) : memoriesWf (s.acqAfter k o sc) :=
  ite_memoriesWf (acquireMem_memoriesWf h k sc) h

theorem noteRelease_memoriesWf {c : Ctx} {o : MemOrder} {sc : Scope} {va : DWord} {p : Place} (h : memoriesWf s) :
    memoriesWf (s.noteRelease c o sc va p) :=
  ite_memoriesWf (registerReleaser_memoriesWf h _ _ _) h

theorem storeAll_memoriesWf {c : Ctx} {n : Nat} {o : MemOrder} {sc : Scope} :
    ∀ {xs : List Access} {s : State}, memoriesWf s → memoriesWf (s.storeAll c n o sc xs)
  | [], _, h => h
  | x :: xs, s, h => by
    unfold State.storeAll
    exact storeAll_memoriesWf (performStore_memoriesWf h)

theorem atomicAt_memoriesWf {c : Ctx} {op : AtomicOp} {n : Nat} {x : Access} (h : memoriesWf s) :
    memoriesWf (s.atomicAt c op n x).1 := by
  refine modCtx_memoriesWf ?_ _ _
  split
  · exact storeBytes_memoriesWf (syncHome_memoriesWf h) _ _ _ _ _ _
  · exact syncHome_memoriesWf h

theorem parkReply_memoriesWf {k : CtxKey} {r : Request} (h : memoriesWf s) : memoriesWf (s.parkReply k r) :=
  modCtx_memoriesWf (flushStreams_memoriesWf h) _ _

theorem loadOp_outcomeWf {prm : Bool} {ord : MemOrder} {sc : Scope} {sz : Size} {d : Reg} {f : AddrForm} (h : memoriesWf s) :
    outcomeWf (s.loadOp prm ord sc sz d f) := by
  refine withIssue_outcomeWf h fun iss c => guarded_memWf h (withStreams_memWf h fun pops pushes ar => ?_)
  split
  · exact parkPages_memoriesWf h
  · exact accessTrap_memWf h
  · exact parkReply_memoriesWf h

theorem storeOp_outcomeWf {ord : MemOrder} {sc : Scope} {sz : Size} {d : Reg} {f : AddrForm} (h : memoriesWf s) :
    outcomeWf (s.storeOp ord sc sz d f) := by
  refine withIssue_outcomeWf h fun iss c => ite_memWf h (guarded_memWf h (withStreams_memWf h fun pops pushes ar => ?_))
  dsimp only
  split
  · exact parkPages_memoriesWf h
  · exact accessTrap_memWf h
  · refine ite_memWf (parkReply_memoriesWf h) (ite_memWf h (accessTrap_memWf (modCtx_memoriesWf ?_ _ _)))
    exact storeAll_memoriesWf (relBefore_memoriesWf (flushStreams_memoriesWf (notePopped_memoriesWf h)))

theorem atomicOp_outcomeWf {op : AtomicOp} {ord : MemOrder} {sc : Scope} {sz : Size} {d : Reg} {f : AddrForm} {x : Operand}
    {q : Option Operand} (h : memoriesWf s) : outcomeWf (s.atomicOp op ord sc sz d f x q) := by
  refine withIssue_outcomeWf h fun iss c => guarded_memWf h (withStreams_memWf h fun pops pushes ar => ite_memWf h ?_)
  split
  · exact parkPages_memoriesWf h
  · exact accessTrap_memWf h
  · exact parkReply_memoriesWf (checkpoint_memoriesWf (flushStreams_memoriesWf h) _)

theorem noteDesc_memoriesWf {c : Ctx} : ∀ {n : Nat} {va : DWord} {s : State}, memoriesWf s → memoriesWf (s.noteDesc c va n)
  | 0, _, _, h => h
  | n + 1, va, s, h => by
    unfold State.noteDesc
    refine noteDesc_memoriesWf ?_
    split
    · exact noteLoad_memoriesWf h
    · exact h

theorem completeRequest_memoriesWf {k : CtxKey} {r : Request} {write : Arch → Arch} {fs : List LaneFault} (h : memoriesWf s) :
    memoriesWf (s.completeRequest k r write fs) := by
  cases fs with
  | nil =>
    have hs : memoriesWf (match s.ctx? k with
        | some c => s.notePopped c (r.pops.foldl Arch.pop c.arch)
        | none => s) := by
      split
      · exact notePopped_memoriesWf h
      · exact h
    exact ite_memoriesWf (modCtx_memoriesWf hs _ _) (spill_memoriesWf (modCtx_memoriesWf hs _ _))
  | cons f fs => exact deliver_memoriesWf (modCtx_memoriesWf h _ _)

theorem landLoad_memoriesWf {k : CtxKey} {c : Ctx} {r : Request} {d : Reg} {prm : Bool} {errors : List Nat} (h : memoriesWf s) :
    memoriesWf (s.landLoad k c r d prm errors) := by
  have promoted (xs : List Access) : memoriesWf (xs.foldl (fun s x => if domainAperture x.va then s else s.promote x.place) s) :=
    foldl_memoriesWf (fun _ hs => ite_memoriesWf hs (promote_memoriesWf hs _)) h
  have noted (xs ys : List Access) := foldl_memoriesWf (xs := ys) (f := fun s x => s.noteLoad c x.va x.place (bytesOf r.size) r.scope)
    (fun _ => noteLoad_memoriesWf) (ite_memoriesWf (c := prm = true) (promoted xs) h)
  exact completeRequest_memoriesWf (ite_memoriesWf (noted _ _) (acqAfter_memoriesWf (noted _ _)))

theorem landStore_memoriesWf {k : CtxKey} {c : Ctx} {r : Request} (h : memoriesWf s) : memoriesWf (s.landStore k c r) := by
  unfold State.landStore
  extract_lets refused bad good s₁ external s₂ s₃ s₄
  have h₁ : memoriesWf s₁ := ite_memoriesWf h (relBefore_memoriesWf h)
  have h₂ : memoriesWf s₂ := ite_memoriesWf (checkpoint_memoriesWf h₁ k) h₁
  have h₄ : memoriesWf s₄ := completeRequest_memoriesWf (storeAll_memoriesWf h₂)
  exact ite_memoriesWf (checkpoint_memoriesWf h₄ k) h₄

theorem atomicAll_memoriesWf {k : CtxKey} {c : Ctx} {op : AtomicOp} {n : Nat} {errors : List Nat} :
    ∀ {xs : List Access} {s : State}, memoriesWf s → memoriesWf (s.atomicAll k c op n errors xs).1
  | [], _, h => h
  | x :: xs, s, h => by
    unfold State.atomicAll
    dsimp only
    split
    · exact atomicAll_memoriesWf h
    · split
      · exact atomicAll_memoriesWf h
      · refine atomicAll_memoriesWf ?_
        split
        · exact h
        · exact atomicAt_memoriesWf (noteRead_memoriesWf h)

theorem landAtomic_memoriesWf {k : CtxKey} {c : Ctx} {r : Request} {op : AtomicOp} {d : Reg} {errors : List Nat} (h : memoriesWf s) :
    memoriesWf (s.landAtomic k c r op d errors) := by
  unfold State.landAtomic
  extract_lets n due s₁ a done s₂ s₃
  have h₁ : memoriesWf s₁ := ite_memoriesWf (relBefore_memoriesWf h) h
  have h₂ : memoriesWf s₂ := foldl_memoriesWf (fun _ => noteRelease_memoriesWf) (atomicAll_memoriesWf h₁)
  have h₃ : memoriesWf s₃ := ite_memoriesWf h₂ (acqAfter_memoriesWf h₂)
  exact checkpoint_memoriesWf (completeRequest_memoriesWf h₃) k

theorem settle_memoriesWf {k : CtxKey} (h : memoriesWf s) : memoriesWf (s.settle k) := h

theorem landClaim_memoriesWf {k : CtxKey} {c : Ctx} {r : Request} {slot : Fin 2} {body taken empty : DWord} {errors : List Nat}
    (h : memoriesWf s) : memoriesWf (s.landClaim k c r slot body taken empty errors) := by
  have settled {t : State} {q : Request} {write : Arch → Arch} {fs : List LaneFault} (ht : memoriesWf t) :
      memoriesWf (((t.settle k).completeRequest k q write fs).checkpoint k) :=
    checkpoint_memoriesWf (completeRequest_memoriesWf (settle_memoriesWf ht)) k
  unfold State.landClaim
  cases r.acc with
  | nil => exact settled h
  | cons x xs =>
    have hs : memoriesWf ((s.noteRead x.place 8).syncHome c x.va x.place) := syncHome_memoriesWf (noteRead_memoriesWf h)
    dsimp only
    refine ite_memoriesWf (settled h) (ite_memoriesWf (settled h) ?_)
    split
    · exact settled hs
    · exact parkPages_memoriesWf hs
    · exact settled (modCtx_memoriesWf (ite_memoriesWf hs (storeBytes_memoriesWf hs _ _ _ _ _ _)) _ _)

theorem landReply_memoriesWf {c : Ctx} {r : Request} {errors : List Nat} (h : memoriesWf s) : memoriesWf (s.landReply c r errors) := by
  unfold State.landReply
  split
  · exact completeRequest_memoriesWf h
  · split
    · exact landLoad_memoriesWf h
    · exact landStore_memoriesWf h
    · exact landAtomic_memoriesWf h
    · exact landClaim_memoriesWf h

/-! ### Text windows -/

/-- A change of windows that keeps their bytes' form keeps the form. -/
theorem modWindow_memoriesWf {launch : Word} {core : CoreId} {f : Window → Window} (h : memoriesWf s)
    (hf : ∀ w, w.bytes.wf = true → (f w).bytes.wf = true) : memoriesWf (s.modWindow launch core f) := by
  obtain ⟨hdev, hhost, hdom, hreg, hwin, hsaved⟩ := h
  refine ⟨hdev, hhost, hdom, hreg, fun w hw => ?_, hsaved⟩
  obtain ⟨v, hv, rfl⟩ := List.mem_map.1 hw
  split
  · exact hf v (hwin v hv)
  · exact hwin v hv

theorem windowText_wf {o : CodeObject} {tbase : DWord} {xb : Nat} : (s.windowText o tbase xb).wf = true := Mem.wf_putBytes _ _ _ rfl

theorem requestFill_memoriesWf {launch : Word} {core : CoreId} {tbase : DWord} (h : memoriesWf s) :
    memoriesWf (s.requestFill launch core tbase) := by
  have hs : memoriesWf (s.modWindow launch core fun w => { w with tbase := tbase }) := modWindow_memoriesWf h fun _ hw => hw
  unfold State.requestFill
  split
  · exact h
  · exact ite_memoriesWf hs hs

theorem moveWindow_memoriesWf {k : CtxKey} {launch : Word} {core : CoreId} {tbase : DWord} (h : memoriesWf s) :
    memoriesWf (s.moveWindow k launch core tbase) :=
  ite_memoriesWf (modCtx_memoriesWf (requestFill_memoriesWf h) _ _) h

/-! ### Stamps -/

theorem stampNotify_memoriesWf {t : Stamp} {w : StampWrite} (h : memoriesWf s) : memoriesWf (s.stampNotify t w) := ite_memoriesWf h h

theorem pumpStamp_memoriesWf {order : Nat} : ∀ {ws : List StampWrite} {s : State}, memoriesWf s → memoriesWf (s.pumpStamp order ws)
  | [], _, h => h
  | w :: ws, s, h => by
    unfold State.pumpStamp
    have next {t : State} {f : Stamp → Stamp} {x : Stamp} (ht : memoriesWf t) :
        memoriesWf ((((t.modStamp order f).stampNotify x w)).pumpStamp order ws) :=
      pumpStamp_memoriesWf (stampNotify_memoriesWf ht)
    split
    · exact h
    · refine ite_memoriesWf (pumpStamp_memoriesWf h) (ite_memoriesWf (next h) ?_)
      dsimp only
      split
      · exact askPage_memoriesWf h
      · exact next h
      · refine ite_memoriesWf (next h) (ite_memoriesWf (next (recordMemue_memoriesWf h)) (ite_memoriesWf (next h) (next ?_)))
        exact homeWrite_memoriesWf (snoopLine_memoriesWf h _) _ _ _

theorem pushStamp_memoriesWf {order state : Nat} {code : BitVec 8} {num : Word} (h : memoriesWf s) :
    memoriesWf (s.pushStamp order state code num) := by
  unfold State.pushStamp
  split
  · exact h
  · exact ite_memoriesWf (pumpStamp_memoriesWf h) h

end Sys2Proof.Machine
end

section
namespace Sys2Proof.Machine
variable {s : State}

theorem ite_outcomeWf {c : Prop} [Decidable c] {a b : Host.Outcome State Fault Refusal} (ha : outcomeWf a) (hb : outcomeWf b) :
    outcomeWf (if c then a else b) := by
  split
  · exact ha
  · exact hb

/-! ### Regions and contexts that come and go -/

/-- A state whose memories are among those of another has the form with it. -/
theorem memoriesWf_of_subset {t : State} (h : memoriesWf s) (hdev : t.dev = s.dev) (hhost : t.host = s.host) (hdom : t.dom = s.dom)
    (hreg : t.regions ⊆ s.regions) (hwin : t.windows ⊆ s.windows) (hlaunch : t.launches ⊆ s.launches) : memoriesWf t := by
  obtain ⟨h₁, h₂, h₃, h₄, h₅, h₆⟩ := h
  exact ⟨hdev ▸ h₁, hhost ▸ h₂, hdom ▸ h₃, fun r hr => h₄ r (hreg hr), fun w hw => h₅ w (hwin hw), fun l hl => h₆ l (hlaunch hl)⟩

theorem freeRegions_memoriesWf {launch : Word} {core : CoreId} (h : memoriesWf s) : memoriesWf (s.freeRegions launch core) :=
  ite_memoriesWf
    (memoriesWf_of_subset h rfl rfl rfl (List.filter_sublist.subset) (List.Subset.refl _) (List.Subset.refl _))
    (memoriesWf_of_subset h rfl rfl rfl (List.filter_sublist.subset) (List.filter_sublist.subset) (List.Subset.refl _))

theorem freeWritten_memoriesWf {launch : Word} (h : memoriesWf s) : memoriesWf (s.freeWritten launch) :=
  foldl_memoriesWf (fun _ => freeRegions_memoriesWf) h

theorem freeLeaf_memoriesWf {launch : Word} {core : CoreId} (h : memoriesWf s) : memoriesWf (s.freeLeaf launch core) :=
  freeRegions_memoriesWf h

theorem contextFree_memoriesWf {core : CoreId} (h : memoriesWf s) : memoriesWf (s.contextFree core) := by
  refine foldl_memoriesWf (fun _ ht => unlessStruck_memoriesWf ht ht) ?_
  exact h

theorem updateCell_memoriesWf {c : Ctx} {va : DWord} {p : Place} {f : GroupCell → Option GroupCell} (h : memoriesWf s) :
    memoriesWf (s.updateCell c va p f).1 := by
  have hs : memoriesWf ((s.noteRead p 16).syncHome c va p) := syncHome_memoriesWf (noteRead_memoriesWf h)
  unfold State.updateCell
  dsimp only
  split
  · exact hs
  · exact modCtx_memoriesWf (storeBytes_memoriesWf hs _ _ _ _ _ _) _ _

theorem addCtx_memoriesWf {key : CtxKey} {launch : Word} {kind : CtxKind} {group index : Nat} {pair : Option (Fin 32)} {ar : Arch}
    (h : memoriesWf s) : memoriesWf (s.addCtx key launch kind group index pair ar) := h

/-- A packet that enters the store, where the launch counter advances too, keeps the form. -/
theorem enterPending_memoriesWf {n number : Word} {pkt : BitVec 1536} {src : Source} {pasid : BitVec 20} (h : memoriesWf s) :
    memoriesWf ({ s with nextNum := n }.enterPending number pkt src pasid) := h

/-! ### LAUNCH, SPAWN, WAITFREE, JOIN, LEAVE and EXIT -/

theorem execLaunch_outcomeWf {d : Pair} {a : SPair} (h : memoriesWf s) : outcomeWf (execLaunch d a s) := by
  refine withIssue_outcomeWf h fun iss c => guarded_memWf h (andThen_memWf h fun _ => ?_)
  refine andThen_memWf (release_memoriesWf h) fun x => ?_
  have hs := noteDesc_memoriesWf (c := c) (va := c.arch.spair a) (n := 24) (release_memoriesWf (k := c.key) (sc := .dev) h)
  dsimp only
  generalize State.noteDesc _ _ _ _ = t at hs ⊢
  exact ite_memWf (checkpoint_memoriesWf (modCtx_memoriesWf (enterPending_memoriesWf hs) _ _) _)
    (checkpoint_memoriesWf (modCtx_memoriesWf hs _ _) _)

theorem spawnReply_memoriesWf {k : CtxKey} {d : Pair} {next : DWord} {status value : Word} (h : memoriesWf s) :
    memoriesWf (s.spawnReply k d next status value) :=
  checkpoint_memoriesWf (modCtx_memoriesWf h _ _) k

theorem execSpawn_outcomeWf {d : Pair} {a : Fin 64} {b e : SPair} (h : memoriesWf s) : outcomeWf (execSpawn d a b e s) := by
  refine withIssue_outcomeWf h fun iss c => guarded_memWf h (ite_memWf h ?_)
  exact ite_memWf (spawnReply_memoriesWf (release_memoriesWf h)) (release_memoriesWf (k := c.key) (sc := .dev) h)

theorem answerSpawn_memoriesWf {c : Ctx} {t : CoreId} {pc args next : DWord} {d : Pair} (h : memoriesWf s) :
    memoriesWf (s.answerSpawn c t pc args d next) := by
  unfold State.answerSpawn
  refine ite_memoriesWf (spawnReply_memoriesWf h) (ite_memoriesWf (spawnReply_memoriesWf h) ?_)
  split
  · have hs {key : CtxKey} {group : Nat} {ar : Arch} {f : Launch → Launch} {status value : Word} (hf : ∀ l, l.memWf → (f l).memWf) :
        memoriesWf (((((s.addCtx key c.launch .rod group 0 none ar).modLaunch c.launch f).acquireMem key .dev).spawnReply c.key d next
          status value)) :=
      spawnReply_memoriesWf (acquireMem_memoriesWf (modLaunch_memoriesWf (addCtx_memoriesWf h) hf) _ _)
    exact ite_memoriesWf (deliver_memoriesWf (hs fun _ hl => hl)) (hs fun _ hl => hl)
  · exact spawnReply_memoriesWf h

theorem execSpawnMessage_outcomeWf {core : CoreId} (h : memoriesWf s) : outcomeWf (execSpawnMessage core s) := by
  unfold execSpawnMessage
  split
  · exact h
  · dsimp only
    split
    · exact h
    · split
      · exact answerSpawn_memoriesWf h
      · exact h

theorem execWaitfree_outcomeWf {d : Reg} {a b : Fin 64} (h : memoriesWf s) : outcomeWf (execWaitfree d a b s) :=
  withIssue_outcomeWf h fun _ _ =>
    guarded_memWf h (ite_memWf h (ite_memWf h (modCtx_memoriesWf (checkpoint_memoriesWf h _) _ _)))

theorem memberOp_outcomeWf {d : Reg} {a : SPair} {refusal : Word} {f : GroupCell → Nat → Option GroupCell}
    {gid : DWord → DWord → DWord} (h : memoriesWf s) : outcomeWf (s.memberOp d a refusal f gid) := by
  refine withIssue_outcomeWf h fun iss c => guarded_memWf h ?_
  dsimp only
  split
  · exact h
  · exact parkPages_memoriesWf h
  · next p _ =>
    have hs := release_memoriesWf (k := c.key) (sc := cellScope (c.arch.spair a) p)
      (checkpoint_memoriesWf (flushStreams_memoriesWf (k := c.key) h) c.key)
    exact checkpoint_memoriesWf (modCtx_memoriesWf (acquireMem_memoriesWf (updateCell_memoriesWf hs) _ _) _ _) _

theorem exitLeaves_memoriesWf {k : CtxKey} {m : BitVec 64} : ∀ {n : Nat} {s : State}, memoriesWf s → memoriesWf (s.exitLeaves k m n).1
  | 0, _, h => h
  | n + 1, s, h => by
    unfold State.exitLeaves
    split
    · exact h
    · dsimp only
      split
      · exact h
      · split
        · exact h
        · exact exitLeaves_memoriesWf (modCtx_memoriesWf h _ _)
        · exact exitLeaves_memoriesWf (modCtx_memoriesWf
            (acquireMem_memoriesWf (updateCell_memoriesWf (releaseMem_memoriesWf h _ _)) _ _) _ _)

theorem exitLanes_memoriesWf {k : CtxKey} {m : BitVec 64} (h : memoriesWf s) : memoriesWf (s.exitLanes k m) := by
  have hs := exitLeaves_memoriesWf (k := k) (m := m) (n := 64) (release_memoriesWf (k := k) (sc := .dev) h)
  unfold State.exitLanes
  split
  · next e => rw [e] at hs; exact parkPages_memoriesWf hs
  · next e => rw [e] at hs; exact endLanes_memoriesWf hs

theorem execExit64_outcomeWf (h : memoriesWf s) : outcomeWf (execExit64 s) := by
  refine withIssueIf_outcomeWf h fun iss c => ?_
  split
  · exact h
  · exact exitLanes_memoriesWf h

/-! ### Migration -/

theorem goAway_memoriesWf {k : CtxKey} (h : memoriesWf s) : memoriesWf (s.goAway k) := modCtx_memoriesWf (release_memoriesWf h) _ _

theorem comeHome_memoriesWf {k : CtxKey} (h : memoriesWf s) : memoriesWf (s.comeHome k) := by
  have hs := fun f => acquireMem_memoriesWf (modCtx_memoriesWf (release_memoriesWf (k := k) (sc := .dev) h) k f) k .dev
  unfold State.comeHome
  dsimp only
  split
  · exact ite_memoriesWf (hs _) (moveWindow_memoriesWf (hs _))
  · exact hs _

theorem migrateOp_outcomeWf {home : Bool} {d : Reg} (h : memoriesWf s) : outcomeWf (s.migrateOp home d) := by
  refine withIssue_outcomeWf h fun iss c => ite_memWf h (guarded_memWf h (ite_memWf ?_ (ite_memWf h ?_)))
  · exact ite_memWf (comeHome_memoriesWf h) (modCtx_memoriesWf (checkpoint_memoriesWf (flushStreams_memoriesWf h) _) _ _)
  · have hs := modCtx_memoriesWf (release_memoriesWf (k := c.key) (sc := .dev) h) c.key
    exact ite_memWf (hs _) (ite_memWf (hs _) (goAway_memoriesWf h))

/-! ### Gang calls -/

theorem gcallOp_outcomeWf {a : Operand} {nm : Names} {tgt : Issue → Arch → DWord} (h : memoriesWf s) : outcomeWf (s.gcallOp a nm tgt) := by
  refine withIssue_outcomeWf h fun iss c => ite_memWf h (guarded_memWf h (withStreams_memWf h fun pops _ ar => ?_))
  have hs := release_memoriesWf (k := c.key) (sc := .frm) h
  dsimp only
  split
  · exact h
  · refine ite_memWf h (ite_memWf ?_ ?_)
    · exact checkpoint_memoriesWf (modCtx_memoriesWf (checkpoint_memoriesWf (flushStreams_memoriesWf h) _) _ _) _
    · split
      · next ht => exact modCtx_memoriesWf (rdvJoin_memoriesWf hs ht) _ _
      · exact ite_memWf hs (checkpoint_memoriesWf (modCtx_memoriesWf hs _ _) _)

theorem returnLane_memoriesWf {gang : Ctx} {i : Nat} (h : memoriesWf s) : memoriesWf (s.returnLane gang i) := by
  unfold State.returnLane
  split
  · exact h
  · split
    · exact h
    · split
      · exact checkpoint_memoriesWf (acquireMem_memoriesWf (setCtx_memoriesWf h _) _ _) _
      · exact h

theorem execGret_outcomeWf (h : memoriesWf s) : outcomeWf (execGret s) := by
  refine withIssue_outcomeWf h fun iss c => ?_
  split
  · exact h
  · exact endLanes_memoriesWf (foldl_memoriesWf (fun _ => returnLane_memoriesWf) (release_memoriesWf h))
  · exact h

theorem wakeGrows_memoriesWf {r : Region} (h : memoriesWf s) : memoriesWf (s.wakeGrows r) := by
  refine foldl_memoriesWf (fun c hs => ?_) h
  split
  · exact ite_memoriesWf hs hs
  · exact hs

theorem growOp_outcomeWf {d : Reg} {b : Src} (h : memoriesWf s) : outcomeWf (s.growOp d b) := by
  refine withIssue_outcomeWf h fun iss c => ite_memWf h (guarded_memWf h ?_)
  dsimp only
  split
  · exact h
  · exact ite_memWf h (ite_memWf h (ite_memWf h (ite_memoriesWf h h)))

theorem shrinkOp_outcomeWf {b : Src} (h : memoriesWf s) : outcomeWf (s.shrinkOp b) :=
  withIssue_outcomeWf h fun _ _ => ite_memWf h (guarded_memWf h (ite_memWf h
    (modRegion_memoriesWf (setCtx_memoriesWf h _) _ _ _ _ fun _ hr => hr)))

theorem execRendezvousDeadline_outcomeWf {frame entry : Nat} (h : memoriesWf s) : outcomeWf (execRendezvousDeadline frame entry s) :=
  ite_outcomeWf h h

theorem placeGang_memoriesWf {e : RdvEntry} {r : Region} {slot : Fin 32} (h : memoriesWf s) : memoriesWf (s.placeGang e r slot) := by
  unfold State.placeGang
  extract_lets callers key s₁ s₂ s₃
  have hs : memoriesWf s₃ := acquireMem_memoriesWf (s := s₂) h _ _
  split
  · exact hs
  · exact deliver_memoriesWf hs

theorem execGangPlacement_outcomeWf {frame entry : Nat} (h : memoriesWf s) : outcomeWf (execGangPlacement frame entry s) := by
  unfold execGangPlacement
  split
  · exact h
  · dsimp only
    split
    · exact ite_outcomeWf (placeGang_memoriesWf h) h
    · exact h

theorem execContextFree_outcomeWf {key : CtxKey} (h : memoriesWf s) : outcomeWf (execContextFree key s) := by
  unfold execContextFree
  split
  · exact h
  · refine ite_outcomeWf (freeRegions_memoriesWf ?_) h
    have hs {t : State} {core : CoreId} {launch : Word} {c : Prop} [Decidable c] (ht : memoriesWf t) :
        memoriesWf (if c then (t.contextFree core).freeLeaf launch core else t) :=
      ite_memoriesWf (freeLeaf_memoriesWf (contextFree_memoriesWf ht)) ht
    split
    · exact ite_memoriesWf (hs h) (wakeGrows_memoriesWf (hs h))
    · exact hs h

theorem execDrainComplete_outcomeWf {core : CoreId} {launch : Word} {w : Nat} (h : memoriesWf s) :
    outcomeWf (execDrainComplete core launch w s) := by
  unfold execDrainComplete
  split
  · exact h
  · exact ite_outcomeWf h (wakeGrows_memoriesWf (modRegion_memoriesWf h _ _ _ _ fun _ hr => hr))

end Sys2Proof.Machine
end

section
namespace Sys2Proof.Machine
variable {s : State}

/-! ### Operand buffers and accumulator tiles -/

theorem keepTurn_memoriesWf {k : CtxKey} {u : Uses} (h : memoriesWf s) : memoriesWf (s.keepTurn k u) := by
  unfold State.keepTurn
  split
  · exact h
  · exact ite_memoriesWf (ite_memoriesWf h h) (endTurn_memoriesWf h)

theorem keepTurn_memWf {k : CtxKey} {u : Uses} : ∀ {e : Eff}, e.memWf → (e.keepTurn k u).memWf
  | .done _, h => keepTurn_memoriesWf h
  | .trap _ _, h => h

theorem matrixOp_outcomeWf {nm : Names} {typeOk whole : Bool} {u : Uses} {body : Issue → Ctx → Region → Eff} (h : memoriesWf s)
    (hb : ∀ iss c r, (body iss c r).memWf) : outcomeWf (s.matrixOp nm typeOk whole u body) := by
  refine withIssue_outcomeWf h fun iss c => ite_memWf h (guarded_memWf h ?_)
  split
  · exact keepTurn_memWf (hb _ _ _)
  · exact h

/-- A change of a region's operand buffer that keeps its form keeps the form. -/
theorem modObuf_memoriesWf {c : Ctx} {g : Region → Vector ObsRecord 16} {f : Region → Mem} (h : memoriesWf s)
    (hf : ∀ r, r.obuf.wf = true → (f r).wf = true) :
    memoriesWf (s.modOwnRegion c fun r => { r with obs := g r, obuf := f r }) :=
  modRegion_memoriesWf h _ _ _ _ fun r ⟨hscr, hacc, hobuf⟩ => ⟨hscr, hacc, hf r hobuf⟩

theorem obresOp_outcomeWf {d : Reg} {n : Fin 16} {b : Src} (h : memoriesWf s) : outcomeWf (s.obresOp d n b) := by
  refine matrixOp_outcomeWf h fun iss c r => ite_memWf h (ite_memWf h ?_)
  split
  · exact h
  · split
    · exact h
    · refine modCtx_memoriesWf (modObuf_memoriesWf ?_ fun _ hm => Mem.wf_putBytes _ _ _ hm) _ _
      exact h

theorem execObrel_outcomeWf {n : Fin 16} (h : memoriesWf s) : outcomeWf (execObrel n s) := by
  refine matrixOp_outcomeWf h fun iss c r => ite_memWf h (modCtx_memoriesWf (modObuf_memoriesWf h fun q hq => ?_) _ _)
  split
  · exact Mem.wf_filterAddr _ _ hq
  · exact hq

theorem fillAll_memoriesWf {c : Ctx} {sc : Scope} {n : Nat} {ps : List (DWord × Place)} (h : memoriesWf s) :
    memoriesWf (s.fillAll c sc n ps) :=
  foldl_memoriesWf (fun _ => noteLoad_memoriesWf) h

/-- A fold whose steps keep a memory's form keeps it. -/
theorem foldl_wf {α : Type} {f : Mem → α → Mem} (hf : ∀ m x, m.wf = true → (f m x).wf = true) {xs : List α} {m : Mem} (h : m.wf = true) :
    (xs.foldl f m).wf = true :=
  List.foldlRecOn xs f h fun m hm x _ => hf m x hm

theorem putLine_wf {o : ObsRecord} {l : Nat} {bs : List Byte} {m : Mem} (h : m.wf = true) : (o.putLine l bs m).wf = true := by
  unfold ObsRecord.putLine
  split
  · exact foldl_wf (fun m _ hm => Mem.wf_putBytes _ _ _ (Mem.wf_putBytes _ m _ hm)) h
  · exact Mem.wf_putBytes _ _ _ h

/-- The lines that OBLD.S fetched are put into the buffer with its form kept. -/
theorem fetchLines_wf {c : Ctx} {o : ObsRecord} {va vs ba bs : DWord} : ∀ {n l : Nat} {m : Mem}, m.wf = true →
    ((s.fetchLines c o va vs ba bs l n).2 m).wf = true
  | 0, _, _, h => h
  | n + 1, l, m, h => by
    have ih {m : Mem} (hm : m.wf = true) := fetchLines_wf (c := c) (o := o) (va := va) (vs := vs) (ba := ba) (bs := bs) (n := n)
      (l := l + 1) hm
    unfold State.fetchLines
    dsimp only
    split
    · split <;> exact h
    · exact h
    · split <;> exact h
    · exact h
    · split
      · exact ih (Mem.wf_putBytes _ _ _ (putLine_wf h))
      · exact h

theorem execObldS_outcomeWf {d : Reg} {n : Fin 16} {a : SPair} (h : memoriesWf s) : outcomeWf (execObldS d n a s) := by
  refine matrixOp_outcomeWf h fun iss c r => ite_memWf h (ite_memWf h (andThen_memWf h fun x => ?_))
  have hs := noteDesc_memoriesWf (c := c) (va := c.arch.spair a) (n := 4) h
  split
  · exact h
  · refine ite_memWf h ?_
    dsimp only
    split
    · exact parkPages_memoriesWf hs
    · exact modObuf_memoriesWf hs fun _ hm => Mem.wf_putBytes _ _ _ hm
    · next e =>
      refine modCtx_memoriesWf (modObuf_memoriesWf (fillAll_memoriesWf hs) fun q hq => ?_) _ _
      exact (congrArg (fun x => (x.2 q.obuf).wf) e).symm.trans (fetchLines_wf hq)

theorem putLines_memoriesWf {c : Ctx} {o : ObsRecord} {ls : List (Nat × List Byte)} (h : memoriesWf s) :
    memoriesWf (s.modOwnRegion c fun r => { r with obuf := ls.foldl (fun m l => o.putLine l.1 l.2 m) r.obuf }) :=
  modObuf_memoriesWf h fun _ hm => foldl_wf (fun _ _ => putLine_wf) hm

theorem execObldV_outcomeWf {d : Reg} {n : Fin 16} {a : VPair} (h : memoriesWf s) : outcomeWf (execObldV d n a s) := by
  refine matrixOp_outcomeWf h fun iss c r => ite_memWf h (ite_memWf h (ite_memWf h (ite_memWf h ?_)))
  dsimp only
  split
  · exact parkPages_memoriesWf h
  · split
    · exact modCtx_memoriesWf (putLines_memoriesWf (fillAll_memoriesWf h)) _ _
    · exact modCtx_memoriesWf (putLines_memoriesWf (fillAll_memoriesWf h)) _ _

theorem setTile_memWf {r : Region} {t i j : Nat} {x : Word} (h : r.memWf) : (r.setTile t i j x).memWf := by
  obtain ⟨hscr, hacc, hobuf⟩ := h
  exact ⟨hscr, Mem.wf_write _ _ _ _ hacc, hobuf⟩

theorem tileOp_outcomeWf {nm : Names} {typeOk whole : Bool} {t : BitVec 8} {body : Issue → Ctx → Region → Eff} (h : memoriesWf s)
    (hb : ∀ iss c r, (body iss c r).memWf) : outcomeWf (s.tileOp nm typeOk whole t body) :=
  matrixOp_outcomeWf h fun iss c r => ite_memWf h (ite_memWf h (hb iss c r))

theorem modAcc_memoriesWf {c : Ctx} {f : Region → Mem} (h : memoriesWf s) (hf : ∀ r, r.acc.wf = true → (f r).wf = true) :
    memoriesWf (s.modOwnRegion c fun r => { r with acc := f r }) :=
  modRegion_memoriesWf h _ _ _ _ fun r ⟨hscr, hacc, hobuf⟩ => ⟨hscr, hf r hacc, hobuf⟩

theorem execAccz_outcomeWf {t : BitVec 8} (h : memoriesWf s) : outcomeWf (execAccz t s) :=
  tileOp_outcomeWf h fun _ _ _ => modCtx_memoriesWf (modAcc_memoriesWf h fun _ hm => Mem.wf_filterAddr _ _ hm) _ _

theorem tileMemOp_outcomeWf {store : Bool} {t : BitVec 8} {a : SPair} {b : Src} (h : memoriesWf s) :
    outcomeWf (s.tileMemOp store t a b) := by
  refine tileOp_outcomeWf h fun iss c r => ite_memWf h ?_
  dsimp only
  split
  · exact parkPages_memoriesWf h
  · have hword {s : State} {va : DWord} {p : Place} {x : BitVec 128} {i j : Nat} {y : Word} (hs : memoriesWf s) :
        memoriesWf (if store then s.performStore c va p 4 x .frm false
          else (s.noteLoad c va p 4 .frm).modOwnRegion c fun r => r.setTile t.toNat i j y) :=
      ite_memoriesWf (performStore_memoriesWf hs) (modRegion_memoriesWf (noteLoad_memoriesWf hs) _ _ _ _ fun _ => setTile_memWf)
    split
    · exact foldl_memoriesWf (fun _ => hword) h
    · exact modCtx_memoriesWf (foldl_memoriesWf (fun _ => hword) h) _ _

theorem accrdOp_outcomeWf {d : Reg} {t : BitVec 8} {b : Src} (h : memoriesWf s) : outcomeWf (s.accrdOp d t b) :=
  tileOp_outcomeWf h fun _ _ _ => h

/-! ### Matrix operations and rounds -/

theorem sumTerms_memWf {r : Region} {o : MatrixOp} {top : Bool} {lo hi : Nat} (h : r.memWf) : (r.sumTerms o top lo hi).memWf :=
  List.foldlRecOn (motive := Region.memWf) _ _ h fun _ hq _ _ => setTile_memWf hq

theorem sumOp_memoriesWf {o : MatrixOp} {hi : Nat} (h : memoriesWf s) : memoriesWf (s.sumOp o hi) :=
  modRegion_memoriesWf h _ _ _ _ fun _ => sumTerms_memWf

theorem mmaOp_outcomeWf {sparse : Bool} {cv : Option (Fin 8)} {t : BitVec 8} {ab : ObsPair} {b : Src} (h : memoriesWf s) :
    outcomeWf (s.mmaOp sparse cv t ab b) := by
  refine matrixOp_outcomeWf h fun iss c r => ite_memWf h (ite_memWf h (ite_memWf h (ite_memWf h ?_)))
  dsimp only
  split
  · exact h
  · refine ite_memWf h (runRound_memoriesWf (modCtx_memoriesWf (modCvg_memoriesWf ?_) _ _))
    exact h

theorem signOp_outcomeWf {d : Reg} {n : Fin 8} {b : Src} (h : memoriesWf s) : outcomeWf (s.signOp d n b) :=
  matrixOp_outcomeWf h fun _ _ _ => ite_memWf h (ite_memWf h (ite_memWf h
    (runRound_memoriesWf (modCvg_memoriesWf (modCtx_memoriesWf h _ _)))))

theorem removeOp_memoriesWf {o : MatrixOp} (h : memoriesWf s) : memoriesWf (s.removeOp o) := h

theorem completeOp_memoriesWf {o : MatrixOp} (h : memoriesWf s) : memoriesWf (s.completeOp o) := by
  have hs : memoriesWf (o.members.foldl (fun s m => s.matrixDone m.1 m.2) (((s.sumOp o o.k).matrixDone o.key o.next).removeOp o)) :=
    foldl_memoriesWf (fun _ hs => modCtx_memoriesWf hs _ _) (removeOp_memoriesWf (modCtx_memoriesWf (sumOp_memoriesWf h) _ _))
  unfold State.completeOp
  dsimp only
  split
  · exact hs
  · exact runRound_memoriesWf (modCvg_memoriesWf hs)

theorem recordProgress_memoriesWf {o : MatrixOp} {kdone : Nat} {ks : List CtxKey} (h : memoriesWf s) :
    memoriesWf (ks.foldl (fun s k => s.recordProgress o kdone k) (s.sumOp o kdone)) :=
  foldl_memoriesWf (fun _ hs => modCtx_memoriesWf hs _ _) (sumOp_memoriesWf h)

theorem stopOp_memoriesWf {o : MatrixOp} (h : memoriesWf s) : memoriesWf (s.stopOp o) := by
  unfold State.stopOp
  refine ite_memoriesWf (completeOp_memoriesWf h) ?_
  extract_lets keys s₁ s₂
  have h₁ : memoriesWf s₁ :=
    ite_memoriesWf (recordProgress_memoriesWf h) (foldl_memoriesWf (fun _ hs => modCtx_memoriesWf hs _ _) h)
  have h₂ : memoriesWf s₂ := removeOp_memoriesWf h₁
  clear_value s₂
  split
  · exact h₂
  · exact modCvg_memoriesWf h₂

theorem columnFault_memoriesWf {k : CtxKey} (h : memoriesWf s) : memoriesWf (s.columnFault k) := by
  unfold State.columnFault
  split
  · exact h
  · exact ite_memoriesWf h (deliver_memoriesWf (modCtx_memoriesWf h _ _))

theorem fenceBeam_memoriesWf {core : CoreId} (h : memoriesWf s) : memoriesWf (s.fenceBeam core) := by
  refine foldl_memoriesWf (fun _ => columnFault_memoriesWf) (wakeObuf_memoriesWf (foldl_memoriesWf (fun o hs => ?_) h))
  split
  · exact modCvg_memoriesWf hs
  · exact hs

theorem fenceColumn_memoriesWf {o : MatrixOp} {kdone column tick : Nat} (h : memoriesWf s) :
    memoriesWf (s.fenceColumn o kdone column tick) := by
  refine fenceBeam_memoriesWf ?_
  exact recordProgress_memoriesWf h

theorem execMatrixOperationComplete_outcomeWf {core : CoreId} {residue : Residue} (h : memoriesWf s) :
    outcomeWf (execMatrixOperationComplete core residue s) := by
  unfold execMatrixOperationComplete
  split
  · exact h
  · split
    · exact h
    · refine ite_outcomeWf h ?_
      split
      · exact h
      · exact ite_outcomeWf (completeOp_memoriesWf h) h

end Sys2Proof.Machine
end

section
namespace Sys2Proof.Machine
variable {s : State}

/-! ### Traps, interrupts and services -/

theorem unpark_memoriesWf {c : Ctx} (h : memoriesWf s) : memoriesWf (s.unpark c) := by
  unfold State.unpark
  split
  · exact stopOp_memoriesWf h
  · exact modCtx_memoriesWf (endTurn_memoriesWf h) _ _

theorem execUserInterrupt_outcomeWf {key : CtxKey} (h : memoriesWf s) : outcomeWf (execUserInterrupt key s) := by
  unfold execUserInterrupt
  split
  · exact h
  · refine ite_outcomeWf ?_ h
    have hs := fun c => checkpoint_memoriesWf (unpark_memoriesWf (c := c) h) key
    dsimp only
    split
    · exact hs _
    · exact ite_outcomeWf (setCtx_memoriesWf (hs _) _) (hs _)

theorem execTrap64_outcomeWf {n : BitVec 8} (h : memoriesWf s) : outcomeWf (execTrap64 n s) := withIssue_outcomeWf h fun _ _ => h

theorem execEret_outcomeWf (h : memoriesWf s) : outcomeWf (execEret s) :=
  withIssue_outcomeWf h fun _ _ => ite_memWf h (ite_memWf h h)

theorem execUimask_outcomeWf {d : Reg} {a b : UniformOp} (h : memoriesWf s) : outcomeWf (execUimask d a b s) :=
  withIssue_outcomeWf h fun _ _ => ite_memWf h (simple_memWf h)

theorem creditTimer_memoriesWf {launch : Word} {w : Nat} (h : memoriesWf s) : memoriesWf (s.creditTimer launch w) :=
  modLaunch_memoriesWf h fun _ hl => hl

theorem execPulse_outcomeWf (h : memoriesWf s) : outcomeWf (execPulse s) :=
  withIssueQuiet_outcomeWf h fun _ _ => modCtx_memoriesWf (foldl_memoriesWf (fun _ => creditTimer_memoriesWf) h) _ _

theorem execCkpt64_outcomeWf (h : memoriesWf s) : outcomeWf (execCkpt64 s) :=
  withIssueQuiet_outcomeWf h fun _ _ => modCtx_memoriesWf (release_memoriesWf h) _ _

theorem svcOp_outcomeWf {d : Quad} {a : SPair} {b : Src} {n : BitVec 8} (h : memoriesWf s) : outcomeWf (s.svcOp d a b n) :=
  withIssue_outcomeWf h fun _ _ => guarded_memWf h (requestSlot_memoriesWf (modCtx_memoriesWf (release_memoriesWf h) _ _))

theorem execTrapSlotGrant_outcomeWf {board : Nat} (h : memoriesWf s) : outcomeWf (execTrapSlotGrant board s) := by
  unfold execTrapSlotGrant
  dsimp only
  split
  · exact h
  · exact ite_outcomeWf (granted_memoriesWf h) h

theorem serviceResume_memoriesWf {c : Ctx} (h : memoriesWf s) : memoriesWf (s.serviceResume c) :=
  ite_memoriesWf (comeHome_memoriesWf h) h

theorem serviceRetire_memoriesWf {c : Ctx} (h : memoriesWf s) : memoriesWf (s.serviceRetire c) := by
  have hs := exitLeaves_memoriesWf (k := c.key) (m := c.arch.sysSet) (n := 64) (release_memoriesWf (k := c.key) (sc := .dev) h)
  unfold State.serviceRetire
  split
  · next e => rw [e] at hs; exact askPage_memoriesWf hs
  · next e => rw [e] at hs; exact endLanes_memoriesWf hs

theorem execSystemServiceComplete_outcomeWf {key : CtxKey} {choice : ServiceChoice} (h : memoriesWf s) :
    outcomeWf (execSystemServiceComplete key choice s) := by
  unfold execSystemServiceComplete
  split
  · exact h
  · refine ite_outcomeWf ?_ h
    cases choice with
    | resume => exact serviceResume_memoriesWf h
    | retire => exact serviceRetire_memoriesWf h
    | abort => exact abortLaunch_memoriesWf h

theorem svcReply_memoriesWf {k : CtxKey} {value : DWord} {status : Word} (h : memoriesWf s) : memoriesWf (s.svcReply k value status) := by
  refine checkpoint_memoriesWf (acquireMem_memoriesWf ?_ k .dev) k
  exact h

theorem serve_outcomeWf {key : CtxKey} {ok : BitVec 8 → Bool} {f : Ctx → DWord → Word → State} (h : memoriesWf s)
    (hf : ∀ c a b, memoriesWf (f c a b)) : outcomeWf (s.serve key ok f) := by
  unfold State.serve
  split
  · exact h
  · split
    · exact ite_outcomeWf (hf _ _ _) h
    · exact h

theorem zeroDev_memoriesWf {off n : Nat} (h : memoriesWf s) : memoriesWf (s.zeroDev off n) := by
  obtain ⟨hdev, hrest⟩ := h
  exact ⟨Mem.wf_filterAddr (fun a => !inRange a off n) _ hdev, hrest⟩

theorem serveAlloc_memoriesWf {key : CtxKey} {choice : Option (Nat × Nat)} {c : Ctx} {a : DWord} {b : Word} (h : memoriesWf s) :
    memoriesWf (s.serveAlloc key choice c a b) := by
  unfold State.serveAlloc
  dsimp only
  split
  · exact h
  · refine ite_memoriesWf (svcReply_memoriesWf h) (ite_memoriesWf (svcReply_memoriesWf h) ?_)
    split
    · exact svcReply_memoriesWf h
    · exact ite_memoriesWf (svcReply_memoriesWf (modLaunch_memoriesWf (zeroDev_memoriesWf h) fun _ hl => hl)) h

theorem serveFree_memoriesWf {key : CtxKey} {c : Ctx} {a : DWord} {b : Word} (h : memoriesWf s) : memoriesWf (s.serveFree key c a b) :=
  ite_memoriesWf (svcReply_memoriesWf h) (svcReply_memoriesWf (modLaunch_memoriesWf h fun _ hl => hl))

theorem servePost_memoriesWf {key : CtxKey} {c : Ctx} {a : DWord} {b : Word} (h : memoriesWf s) : memoriesWf (s.servePost key c a b) := by
  unfold State.servePost
  refine ite_memoriesWf (svcReply_memoriesWf h) ?_
  split
  · exact svcReply_memoriesWf h
  · exact svcReply_memoriesWf (modCtx_memoriesWf h _ _)

theorem completeService_memoriesWf {key : CtxKey} (h : memoriesWf s) : memoriesWf (s.completeService key) := by
  unfold State.completeService
  split
  · exact h
  · split
    · exact h
    · exact ite_memoriesWf (serveAlloc_memoriesWf h)
        (ite_memoriesWf (serveFree_memoriesWf h) (ite_memoriesWf (servePost_memoriesWf h) (svcReply_memoriesWf h)))

/-! ### Queues and launches -/

theorem queueWrite_outcomeWf {port : Fin 2} {q : Fin 16} {f : Queue → Queue} (h : memoriesWf s) : outcomeWf (s.queueWrite port q f) :=
  ite_memoriesWf h h

theorem execRingEntryRead_outcomeWf {port : Fin 2} {q : Fin 16} {failed : Bool} (h : memoriesWf s) :
    outcomeWf (execRingEntryRead port q failed s) :=
  ite_outcomeWf (ite_outcomeWf h h) h

theorem noteMap_memoriesWf {a : Accessor} : ∀ {n : Nat} {va : DWord} {s : State}, memoriesWf s → memoriesWf (s.noteMap a va n)
  | 0, _, _, h => h
  | n + 1, va, s, h => by
    unfold State.noteMap
    refine noteMap_memoriesWf ?_
    split
    · exact noteRead_memoriesWf h
    · exact h

theorem dropRejected_memoriesWf {order : Nat} (h : memoriesWf s) : memoriesWf (s.dropRejected order) := ite_memoriesWf h h

theorem acceptPacket_memoriesWf {p : Pending} {map : List CoreId} (h : memoriesWf s) : memoriesWf (s.acceptPacket p map) := by
  refine pushStamp_memoriesWf ?_
  exact ite_memoriesWf (c := p.source.isDevice = true) h h

theorem execLaunchCheck_outcomeWf {order : Nat} (h : memoriesWf s) : outcomeWf (execLaunchCheck order s) := by
  unfold execLaunchCheck
  split
  · exact h
  · refine ite_outcomeWf (dropRejected_memoriesWf h) (ite_outcomeWf h ?_)
    split
    · exact askPage_memoriesWf h
    · exact dropRejected_memoriesWf (pushStamp_memoriesWf h)
    · exact acceptPacket_memoriesWf (noteMap_memoriesWf h)

/-- A window that is added with its bytes in form keeps the form. -/
theorem addWindow_memoriesWf {w : Window} (h : memoriesWf s) (hw : w.bytes.wf = true) :
    memoriesWf { s with windows := s.windows ++ [w] } := by
  obtain ⟨hdev, hhost, hdom, hreg, hwin, hsaved⟩ := h
  refine ⟨hdev, hhost, hdom, hreg, fun v hv => ?_, hsaved⟩
  rcases List.mem_append.1 hv with hv | hv
  · exact hwin v hv
  · exact List.mem_singleton.1 hv ▸ hw

/-- Regions that are added with their memories in form keep the form. -/
theorem addRegions_memoriesWf {rs : List Region} (h : memoriesWf s) (hrs : ∀ r ∈ rs, Region.memWf r) :
    memoriesWf { s with regions := s.regions ++ rs } := by
  obtain ⟨hdev, hhost, hdom, hreg, hwin, hsaved⟩ := h
  refine ⟨hdev, hhost, hdom, fun r hr => ?_, hwin, hsaved⟩
  rcases List.mem_append.1 hr with hr | hr
  · exact hreg r hr
  · exact hrs r hr

theorem freshRegion_memWf {core : CoreId} {launch : Word} {w : Nat} {pw : Word} : ∀ r ∈ [freshRegion core launch w pw], Region.memWf r := by
  intro r hr
  exact List.mem_singleton.1 hr ▸ ⟨rfl, rfl, rfl⟩

theorem openWindow_memoriesWf {launch : Word} {core : CoreId} {pw : Word} {tbase : DWord} (h : memoriesWf s) :
    memoriesWf (s.openWindow launch core pw tbase) :=
  requestFill_memoriesWf (addWindow_memoriesWf h rfl)

theorem startCtx_memoriesWf {key : CtxKey} {launch : Word} {kind : CtxKind} {w index : Nat} {pair : Option (Fin 32)} {ar : Arch}
    (h : memoriesWf s) : memoriesWf (s.startCtx key launch kind w index pair ar) :=
  acquireMem_memoriesWf (addCtx_memoriesWf h) _ _

theorem startThreads_memoriesWf {o : CodeObject} {pkt : BitVec 1536} {launch : Word} {core : CoreId} {w : Nat} :
    ∀ {n i : Nat} {s : State}, memoriesWf s → memoriesWf (s.startThreads o pkt launch core w i n)
  | 0, _, _, h => h
  | n + 1, i, s, h => by
    unfold State.startThreads
    split
    · exact h
    · exact startThreads_memoriesWf (startCtx_memoriesWf h)

theorem startGangs_memoriesWf {o : CodeObject} {pkt : BitVec 1536} {launch : Word} {core : CoreId} {w : Nat} :
    ∀ {n i : Nat} {s : State}, memoriesWf s → memoriesWf (s.startGangs o pkt launch core w i n)
  | 0, _, _, h => h
  | n + 1, i, s, h => by
    unfold State.startGangs
    dsimp only
    split
    · exact startGangs_memoriesWf (startCtx_memoriesWf h)
    · exact ite_memoriesWf h (startGangs_memoriesWf (startCtx_memoriesWf h))
    · exact h

theorem placeGroup_memoriesWf {o : CodeObject} {pkt : BitVec 1536} {launch : Word} {core : CoreId} {w : Nat} (h : memoriesWf s) :
    memoriesWf (s.placeGroup o pkt launch core w) :=
  have hs := addRegions_memoriesWf h freshRegion_memWf
  ite_memoriesWf (startGangs_memoriesWf hs) (startThreads_memoriesWf hs)

theorem placeGroups_memoriesWf {o : CodeObject} {pkt : BitVec 1536} {launch : Word} :
    ∀ {cs : List CoreId} {w : Nat} {s : State}, memoriesWf s → memoriesWf (s.placeGroups o pkt launch w cs)
  | [], _, _, h => h
  | c :: cs, w, s, h => by
    unfold State.placeGroups
    exact placeGroups_memoriesWf (placeGroup_memoriesWf h)

theorem openDemand_memoriesWf {o : CodeObject} {pkt : BitVec 1536} {launch : Word} {d : Demand} (h : memoriesWf s) :
    memoriesWf (s.openDemand o pkt launch d) :=
  ite_memoriesWf (addRegions_memoriesWf (openWindow_memoriesWf h) freshRegion_memWf) (openWindow_memoriesWf h)

/-- A new launch has nothing saved: it keeps the form. -/
theorem addLaunch_memoriesWf {l : Launch} {ps : List Pending} (h : memoriesWf s) (hl : l.savedRegs = []) :
    memoriesWf { s with pending := ps, launches := s.launches ++ [l] } := by
  obtain ⟨hdev, hhost, hdom, hreg, hwin, hsaved⟩ := h
  refine ⟨hdev, hhost, hdom, hreg, hwin, fun m hm => ?_⟩
  rcases List.mem_append.1 hm with hm | hm
  · exact hsaved m hm
  · simp [List.mem_singleton.1 hm, hl]

theorem dispatchLaunch_memoriesWf {p : Pending} {o : CodeObject} (h : memoriesWf s) : memoriesWf (s.dispatchLaunch p o) :=
  pushStamp_memoriesWf (placeGroups_memoriesWf (foldl_memoriesWf (fun _ => openDemand_memoriesWf) (addLaunch_memoriesWf h rfl)))

theorem finishLaunch_memoriesWf {l : Launch} {state : Nat} {code : BitVec 8} (h : memoriesWf s) :
    memoriesWf (s.finishLaunch l state code) :=
  pushStamp_memoriesWf
    (memoriesWf_of_subset h rfl rfl rfl List.filter_sublist.subset List.filter_sublist.subset List.filter_sublist.subset)

theorem execLaunchDone_outcomeWf {n : Word} (h : memoriesWf s) : outcomeWf (execLaunchDone n s) := by
  unfold execLaunchDone
  split
  · exact h
  · exact ite_outcomeWf (finishLaunch_memoriesWf h) h

theorem killLaunch_memoriesWf {n : Word} {code : Code} (h : memoriesWf s) : memoriesWf (s.killLaunch n code) := by
  unfold State.killLaunch
  split
  · exact pushStamp_memoriesWf h
  · exact abortLaunch_memoriesWf h

/-! ### Tags and MWAIT -/

theorem modUid_memoriesWf {uid : Nat} {f : Ctx → Ctx} (h : memoriesWf s) : memoriesWf (s.modUid uid f) := by
  obtain ⟨hdev, hhost, hdom, hreg, hwin, hsaved⟩ := h
  refine ⟨hdev, hhost, hdom, hreg, hwin, fun l hl => ?_⟩
  obtain ⟨m, hm, rfl⟩ := List.mem_map.1 hl
  exact hsaved m hm

theorem modTag_memoriesWf {uid : Nat} {t : Fin 64} {f : Tag → Tag} (h : memoriesWf s) : memoriesWf (s.modTag uid t f) := modUid_memoriesWf h

theorem enterJob_memoriesWf {c : Ctx} {card : BitVec 2048} {t : Fin 64} (h : memoriesWf s) : memoriesWf (s.enterJob c card t) :=
  modTag_memoriesWf h

theorem submitOp_outcomeWf {collOk : BitVec 2048 → Bool} {kinds : List Nat} {sc : Scope} {d : Reg} {a : SPair} {t : Fin 64}
    (h : memoriesWf s) : outcomeWf (s.submitOp collOk kinds sc d a t) := by
  refine withIssue_outcomeWf h fun iss c => guarded_memWf h (andThen_memWf h fun _ => andThen_memWf (release_memoriesWf h) fun x => ?_)
  have hs := noteDesc_memoriesWf (c := c) (va := c.arch.spair a) (n := 32) (release_memoriesWf (k := c.key) (sc := sc) h)
  exact checkpoint_memoriesWf (modCtx_memoriesWf (ite_memoriesWf (enterJob_memoriesWf hs) hs) _ _) _

theorem parkAt_memoriesWf {k : CtxKey} {w : Wait} (h : memoriesWf s) : memoriesWf (s.parkAt k w) :=
  modCtx_memoriesWf (checkpoint_memoriesWf (flushStreams_memoriesWf h) _) _ _

theorem tagOp_outcomeWf {d : Reg} {a : SPair} {f : Arch → DWord → Option (Word × Bool)} (h : memoriesWf s) : outcomeWf (s.tagOp d a f) := by
  refine withIssue_outcomeWf h fun iss c => guarded_memWf h ?_
  split
  · exact parkAt_memoriesWf h
  · exact modCtx_memoriesWf (ite_memoriesWf (acquireMem_memoriesWf h _ _) h) _ _

theorem mwaitRead_memoriesWf {c : Ctx} {exec : BitVec 64} {va x next : DWord} {p : Place} {d : Pair} {sc : Scope} {deadline : Option Nat}
    (h : memoriesWf s) : memoriesWf (s.mwaitRead c exec va p d x sc deadline next) :=
  have hs := acquireMem_memoriesWf (noteLoad_memoriesWf h) c.key sc
  ite_memoriesWf (modCtx_memoriesWf hs _ _) (modCtx_memoriesWf hs _ _)

theorem mwaitPage_memoriesWf {k : CtxKey} {w : PageWait} {va x next : DWord} {d : Pair} {sc : Scope} {deadline : Option Nat}
    (h : memoriesWf s) : memoriesWf (s.mwaitPage k w va d x sc deadline next) :=
  modCtx_memoriesWf (askPage_memoriesWf h) _ _

theorem execMwait_outcomeWf {sc : Scope} {limit : Fin 41} {d : Pair} {a b : SPair} (h : memoriesWf s) :
    outcomeWf (execMwait sc limit d a b s) := by
  refine withIssue_outcomeWf h fun iss c => guarded_memWf h ?_
  have hs := checkpoint_memoriesWf (flushStreams_memoriesWf (k := c.key) h) c.key
  dsimp only
  split
  · exact h
  · exact mwaitPage_memoriesWf hs
  · exact mwaitRead_memoriesWf hs

theorem mwaitAgain_memoriesWf {k : CtxKey} {may : Ctx → Option Place → Option Nat → Nat → Bool} (h : memoriesWf s) :
    memoriesWf (s.mwaitAgain k may) := by
  unfold State.mwaitAgain
  split
  · exact h
  · split
    · refine ite_memoriesWf ?_ h
      split
      · exact ite_memoriesWf (unlessStruck_memoriesWf h (mwaitRead_memoriesWf h)) (mwaitRead_memoriesWf h)
      · exact mwaitPage_memoriesWf h
      · exact deliver_memoriesWf h
    · exact h

end Sys2Proof.Machine
end

section
namespace Sys2Proof.Machine
variable {s : State}

/-! ### Jobs -/

/-- The end of a job's run has the form. -/
def JobEnd.memWf : JobEnd → Prop
  | .done r => memoriesWf r.s
  | .stop r _ => memoriesWf r.s
  | .wait _ => True

theorem ite_jobWf {c : Prop} [Decidable c] {a b : JobEnd} (ha : a.memWf) (hb : b.memWf) : (if c then a else b).memWf := by
  split
  · exact ha
  · exact hb

section
variable {r : JobRun} {j : Job}

theorem recordJob_memoriesWf {va : DWord} (h : memoriesWf s) : memoriesWf (s.recordJob j va) := by
  unfold State.recordJob
  split
  · exact recordMemue_memoriesWf h
  · exact h

theorem jobStore_memoriesWf {p : Place} {bs : List Byte} (h : memoriesWf s) : memoriesWf (s.jobStore j p bs) :=
  homeWrite_memoriesWf (snoopLine_memoriesWf h p) _ p bs

theorem nearStore_memoriesWf {p : Place} {bs : List Byte} (h : memoriesWf s) : memoriesWf (s.nearStore j p bs) := by
  unfold State.nearStore
  split
  · refine noteWrite_memoriesWf (putHomes_memoriesWf bs _ ?_) _
    exact h
  · exact jobStore_memoriesWf h

theorem place_memWf {va : DWord} {n align : Nat} {k : AccessKind} {go : JobRun → Place → JobEnd} (h : memoriesWf r.s)
    (hgo : ∀ r p, memoriesWf r.s → (go r p).memWf) : (r.place j va n align k go).memWf := by
  unfold JobRun.place
  split
  · refine ite_jobWf h (hgo _ _ ?_)
    split
    · exact h
    · exact noteRead_memoriesWf h
  · show memoriesWf (JobRun.s (if _ then _ else _))
    split
    · exact recordJob_memoriesWf h
    · exact h
  · trivial

theorem read_memWf {va : Int} {n align : Nat} {go : JobRun → Place → Nat → JobEnd} (h : memoriesWf r.s)
    (hgo : ∀ r p x, memoriesWf r.s → (go r p x).memWf) : (r.read j va n align go).memWf :=
  ite_jobWf h (place_memWf h fun _ _ hr => hgo _ _ _ hr)

theorem write_memWf {va : Int} {align : Nat} {bs : List Byte} {go : JobRun → JobEnd} (h : memoriesWf r.s)
    (hgo : ∀ r, memoriesWf r.s → (go r).memWf) : (r.write j va align bs go).memWf :=
  ite_jobWf h (place_memWf h fun _ _ hr => hgo _ (jobStore_memoriesWf hr))

theorem add_memWf {va : Int} {float refused : Bool} {x : Word} {go : JobRun → JobEnd} (h : memoriesWf r.s)
    (hgo : ∀ r, memoriesWf r.s → (go r).memWf) : (r.add j va float refused x go).memWf :=
  ite_jobWf h (place_memWf h fun _ _ hr => ite_jobWf hr (hgo _ (nearStore_memoriesWf hr)))

theorem jobLoop_memWf {f : Nat → JobRun → JobEnd} (hf : ∀ i r, memoriesWf r.s → (f i r).memWf) :
    ∀ {n i : Nat} {r : JobRun}, memoriesWf r.s → (jobLoop f n i r).memWf
  | 0, _, _, h => h
  | n + 1, i, r, h => by
    have hr := hf i r h
    unfold jobLoop
    split
    · next e => rw [e] at hr; exact jobLoop_memWf hf hr
    · exact hr

theorem jobReadAll_memWf {m align : Nat} {go : JobRun → List Nat → JobEnd} (hgo : ∀ r xs, memoriesWf r.s → (go r xs).memWf) :
    ∀ {n : Nat} {va : Int} {xs : List Nat} {r : JobRun}, memoriesWf r.s → (jobReadAll j va m align xs go n r).memWf
  | 0, _, _, _, h => hgo _ _ h
  | _ + 1, _, _, _, h => read_memWf h fun _ _ _ hr => jobReadAll_memWf hgo hr

theorem jobWriteAll_memWf : ∀ {xs : List Byte} {va : Int} {r : JobRun}, memoriesWf r.s → (jobWriteAll j va xs r).memWf
  | [], _, _, h => h
  | _ :: _, _, _, h => write_memWf h fun _ hr => jobWriteAll_memWf hr

theorem jobLinear_memWf (h : memoriesWf r.s) : (jobLinear j r).memWf := jobReadAll_memWf (fun _ _ hr => jobWriteAll_memWf hr) h

theorem jobNarrow_memWf (h : memoriesWf r.s) : (jobNarrow j r).memWf :=
  ite_jobWf h (jobReadAll_memWf (fun _ _ hr => jobWriteAll_memWf hr) h)

theorem affineElem_memWf {before : State} {e : Nat} (h : memoriesWf r.s) : (affineElem j before e r).memWf := by
  unfold affineElem
  refine read_memWf h fun _ _ _ hr => write_memWf hr fun _ hr => ?_
  exact hr

theorem dealElem_memWf {e : Nat} (h : memoriesWf r.s) : (dealElem j e r).memWf := by
  unfold dealElem
  refine read_memWf h fun _ _ _ hr => write_memWf hr fun _ hr => ?_
  exact hr

theorem windowElem_memWf {o : Nat} (h : memoriesWf r.s) : (windowElem j o r).memWf := by
  have put {past : Bool} {r : JobRun} {x : Nat} (hr : memoriesWf r.s) :
      (r.write j (dstAddr j.card + (o * cardBytes j.card : Nat)) (cardBytes j.card) (leBytes x (cardBytes j.card))
        fun r => .done { r with past := r.past || past }).memWf :=
    write_memWf hr fun _ hr => hr
  exact ite_jobWf (put h) (ite_jobWf (put h) (read_memWf h fun _ _ _ hr => put hr))

theorem index_memWf {e : Nat} {go : JobRun → Int → JobEnd} (h : memoriesWf r.s) (hgo : ∀ r i, memoriesWf r.s → (go r i).memWf) :
    (r.index j e go).memWf :=
  ite_jobWf (read_memWf h fun _ _ _ hr => hgo _ _ hr) (read_memWf h fun _ _ _ hr => hgo _ _ hr)

theorem gatherElem_memWf {errors : JobErrors} {e : Nat} (h : memoriesWf r.s) : (gatherElem j errors e r).memWf := by
  unfold gatherElem
  refine index_memWf h fun _ _ hr => ite_jobWf (recordJob_memoriesWf hr) (read_memWf hr fun _ _ _ hr => ite_jobWf ?_ ?_)
  · exact write_memWf hr fun _ hr => hr
  · exact add_memWf hr fun _ hr => hr

theorem gatherStep_memWf {errors : JobErrors} {e : Nat} (h : memoriesWf r.s) : (gatherStep j errors e r).memWf := by
  have hr := gatherElem_memWf (j := j) (errors := errors) (e := e) h
  unfold gatherStep
  split
  · next e => rw [e] at hr; exact hr
  · exact hr

theorem jobGather_memWf {errors : JobErrors} (h : memoriesWf r.s) : (jobGather j errors r).memWf := by
  have hr := jobLoop_memWf (fun i r hr => gatherStep_memWf (j := j) (errors := errors) (e := i) hr) (n := cardLen j.card) (i := 0) h
  unfold jobGather
  refine ite_jobWf h ?_
  split
  · next e => rw [e] at hr; exact ite_jobWf hr hr
  · exact hr

theorem runJob_memWf {errors : JobErrors} (h : memoriesWf r.s) : (runJob j errors r).memWf := by
  have fail {e : JobEnd} (he : e.memWf) :
      (if errors.bad.isEmpty then e else .stop { r with s := r.s.recordJob j (cardSrc j.card) } .memue).memWf :=
    ite_jobWf he (recordJob_memoriesWf h)
  refine ite_jobWf h ?_
  dsimp only
  split
  · exact fail (jobLinear_memWf h)
  · exact fail (jobLoop_memWf (fun _ _ => affineElem_memWf) h)
  · exact fail (jobLoop_memWf (fun _ _ => dealElem_memWf) h)
  · exact fail (jobLoop_memWf (fun _ _ => windowElem_memWf) h)
  · exact fail (jobNarrow_memWf h)
  · exact jobGather_memWf h

theorem jobBitmap_memWf {bits : List Bool} (h : memoriesWf r.s) : (jobBitmap j bits r).memWf := ite_jobWf h (jobWriteAll_memWf h)

theorem jobStamp_memWf {code : Option Code} (h : memoriesWf r.s) : (jobStamp j code r).memWf :=
  ite_jobWf h (place_memWf h fun _ _ hr => jobStore_memoriesWf hr)

theorem finishTag_memoriesWf {w : Word} (h : memoriesWf s) : memoriesWf (s.finishTag j w) := modUid_memoriesWf (modTag_memoriesWf h)

theorem waitJob_memoriesWf {w : PageWait} {n : Nat} {f : Job → Job} (h : memoriesWf s) : memoriesWf ((s.askPage w).modJob n f) :=
  askPage_memoriesWf (w := w) h

end

theorem endJob_memoriesWf {j : Job} {e : JobEnd} (h : memoriesWf s) (he : e.memWf) : memoriesWf (s.endJob j e) := by
  unfold State.endJob
  extract_lets gs close afterBits tail
  have hclose {r : JobRun} {b : Bool} {code : Option Code} (hr : memoriesWf r.s) : memoriesWf (close r b code) :=
    freeWritten_memoriesWf (finishTag_memoriesWf (s := { r.s with jobs := _ }) hr)
  have hafter {r : JobRun} {code : Option Code} (hr : memoriesWf r.s) : memoriesWf (afterBits r code) := by
    have hstamp := jobStamp_memWf (j := j) (code := code) hr
    unfold afterBits
    split
    · next e => rw [e] at hstamp; exact hclose hstamp
    · next e => rw [e] at hstamp; exact hclose hstamp
    · exact waitJob_memoriesWf h
  have htail {r : JobRun} {code : Option Code} (hr : memoriesWf r.s) : memoriesWf (tail r code) := by
    unfold tail
    extract_lets bits
    have hmap : JobEnd.memWf (if gs then jobBitmap j bits r else .done r) := ite_jobWf (jobBitmap_memWf hr) hr
    split
    · next e => rw [e] at hmap; exact hafter hmap
    · next e => rw [e] at hmap; exact hafter hmap
    · exact waitJob_memoriesWf h
  cases e with
  | done r => exact htail he
  | stop r c => exact htail he
  | wait w => exact waitJob_memoriesWf h

end Sys2Proof.Machine
end

section
namespace Sys2Proof.Machine
variable {s : State}

/-! ### The events of jobs -/

theorem endCoded_memoriesWf {j : Job} {code : Code} {b : Bool} (h : memoriesWf s) : memoriesWf (s.endCoded j code b) := by
  unfold State.endCoded
  refine ite_memoriesWf ?_ (endJob_memoriesWf h h)
  dsimp only
  have hw {bs : List Byte} {n : Nat} : (jobWriteAll j (dstAddr j.card) bs (JobRun.start { s with freeCtr := n })).memWf :=
    jobWriteAll_memWf h
  split
  · next e => exact endJob_memoriesWf h (e ▸ hw :)
  · next e => exact endJob_memoriesWf h (e ▸ hw :)
  · exact endJob_memoriesWf h trivial

theorem execJobDispatch_outcomeWf {n : Nat} (h : memoriesWf s) : outcomeWf (execJobDispatch n s) := by
  unfold execJobDispatch
  split
  · exact h
  · exact ite_outcomeWf (modTag_memoriesWf h) h

theorem execJobComplete_outcomeWf {n : Nat} {errors : JobErrors} (h : memoriesWf s) : outcomeWf (execJobComplete n errors s) := by
  unfold execJobComplete
  split
  · exact h
  · refine ite_outcomeWf h ?_
    split
    · exact h
    · exact endCoded_memoriesWf h
    · exact ite_outcomeWf (endJob_memoriesWf h (runJob_memWf h)) h

theorem endJobs_memoriesWf {js : List Job} {code : Code} (h : memoriesWf s) : memoriesWf (s.endJobs js code) := by
  refine foldl_memoriesWf (fun _ hs => endJob_memoriesWf hs ?_) h
  exact hs

/-! ### Verdicts and threshold cells -/

theorem verdictOp_outcomeWf {d : Reg} {a : SvReg} {f : Word → Word} (h : memoriesWf s) : outcomeWf (s.verdictOp d a f) :=
  withIssue_outcomeWf h fun _ _ => simple_memWf h

theorem endLanewise_memWf {iss : Issue} {c : Ctx} {once : Bool} {fs : List LaneFault} {write : Arch → Arch} (h : memoriesWf s) :
    (s.endLanewise iss c once fs write).memWf := by
  cases fs with
  | nil => exact modCtx_memoriesWf h _ _
  | cons f fs => exact ite_memWf h (modCtx_memoriesWf h _ _)

/-- Committing the pushes of an instruction that wrote its results lane by lane, when no lane faulted, keeps the form. -/
theorem commitLanewise_memWf {k : CtxKey} {pushes : List Push} : ∀ {e : Eff}, e.memWf → Eff.memWf (match e with
      | .done s => .done (match s.ctx? k with
        | some c => s.commit c c.arch pushes
        | none => s)
      | e => e)
  | .trap _ _, h => h
  | .done s, h => by
    show memoriesWf (match s.ctx? k with
      | some c => s.commit c c.arch pushes
      | none => s)
    split
    · exact commit_memoriesWf h
    · exact h

theorem execVhdr_outcomeWf {ty : VerdictTy} {d : Reg} {a : Pair} (h : memoriesWf s) : outcomeWf (execVhdr ty d a s) := by
  refine withIssue_outcomeWf h fun iss c => guarded_memWf h ?_
  dsimp only
  split
  · exact parkPages_memoriesWf h
  · exact withStreams_memWf h fun _ _ _ => ite_memWf h (commitLanewise_memWf (endLanewise_memWf (fillAll_memoriesWf h)))

theorem recordVdot_memoriesWf {k : CtxKey} {r : Option VdotRecord} (h : memoriesWf s) : memoriesWf (s.recordVdot k r) :=
  modCtx_memoriesWf h _ _

theorem keepVdot_memoriesWf {k : CtxKey} {iss : Issue} {lanes : List VdotLane} (h : memoriesWf s) : memoriesWf (s.keepVdot k iss lanes) :=
  modCtx_memoriesWf (recordVdot_memoriesWf h) _ _

/-- What the reads of an issue of VDOT leave has the form. -/
theorem vdotReads_memoriesWf {c : Ctx} {sc : Scope} {n : Nat} {ps : List (DWord × Place)} {ws : List PageWait} (h : memoriesWf s) :
    memoriesWf (ws.foldl State.askPage (s.fillAll c sc n ps)) :=
  foldl_memoriesWf (fun _ => askPage_memoriesWf) (fillAll_memoriesWf h)

theorem execVdot_outcomeWf {m : VdotMode} {slot : Fin 8} {d : Reg} {a : Pair} {b cc : SPair} (h : memoriesWf s) :
    outcomeWf (execVdot m slot d a b cc s) := by
  refine withIssue_outcomeWf h fun iss c => guarded_memWf h (ite_memWf h (ite_memWf h ?_))
  dsimp only
  split
  · exact recordVdot_memoriesWf (vdotReads_memoriesWf h)
  · exact parkPages_memoriesWf (keepVdot_memoriesWf (vdotReads_memoriesWf h))
  · refine ite_memWf (settle_memoriesWf (keepVdot_memoriesWf (vdotReads_memoriesWf h))) ?_
    exact withStreams_memWf h fun _ _ _ => ite_memWf h
      (commitLanewise_memWf (endLanewise_memWf (recordVdot_memoriesWf (vdotReads_memoriesWf h))))

theorem execThsBind_outcomeWf {n : Fin 8} {a : SPair} (h : memoriesWf s) : outcomeWf (execThsBind n a s) := by
  refine withIssue_outcomeWf h fun iss c => guarded_memWf h (ite_memWf (setCtx_memoriesWf h _) ?_)
  split
  · exact h
  · exact parkPages_memoriesWf h
  · exact setCtx_memoriesWf (noteLoad_memoriesWf h) _

theorem raiseAll_memoriesWf {c : Ctx} {va : DWord} {p : Place} {y : Nat → Word} :
    ∀ {is : List Nat} {s : State}, memoriesWf s → memoriesWf (s.raiseAll c va p y is).1
  | [], _, h => h
  | i :: is, s, h => by
    have hs : memoriesWf ((s.noteRead p 8).syncHome c va p) := syncHome_memoriesWf (noteRead_memoriesWf h)
    unfold State.raiseAll
    exact raiseAll_memoriesWf (modCtx_memoriesWf (ite_memoriesWf hs (storeBytes_memoriesWf hs _ _ _ _ _ _)) _ _)

/-- The checkpoint after the raises of an instruction, when no lane faulted, keeps the form. -/
theorem raisedLanes_memWf {k : CtxKey} : ∀ {e : Eff}, e.memWf → Eff.memWf (match e with
      | .done s => .done (s.checkpoint k)
      | e => e)
  | .trap _ _, h => h
  | .done _, h => checkpoint_memoriesWf h k

theorem raiseOp_outcomeWf {d : Pair} {n : Fin 8} {b : Src} (h : memoriesWf s) : outcomeWf (s.raiseOp d n b) := by
  refine withIssue_outcomeWf h fun iss c => guarded_memWf h ?_
  cases c.arch.thsCell n with
  | none => exact h
  | some va =>
    refine withStreams_memWf h fun pops pushes ar => ite_memWf (endLanewise_memWf h) ?_
    have hs {p : Place} {is : List Nat} {y : Nat → Word} :
        memoriesWf ((((s.notePopped c ar).release c.key .dev).checkpoint c.key).raiseAll c va p y is).1 :=
      raiseAll_memoriesWf (checkpoint_memoriesWf (release_memoriesWf (notePopped_memoriesWf h)) _)
    dsimp only
    split
    · exact parkPages_memoriesWf h
    · exact endLanewise_memWf h
    · exact raisedLanes_memWf (endLanewise_memWf hs)

theorem execThsRead_outcomeWf {d : Pair} {n : Fin 8} (h : memoriesWf s) : outcomeWf (execThsRead d n s) := by
  refine withIssue_outcomeWf h fun iss c => guarded_memWf h ?_
  split
  · exact h
  · dsimp only
    split
    · exact h
    · exact parkPages_memoriesWf h
    · exact modCtx_memoriesWf (acquireMem_memoriesWf (noteLoad_memoriesWf h) _ _) _ _

/-! ### Barriers and cross-lane operations -/

theorem logArrival_memoriesWf {c : Ctx} {record : List Byte} (h : memoriesWf s) : memoriesWf (s.logArrival c record) := by
  unfold State.logArrival
  split
  · exact h
  · exact ite_memoriesWf (homeWrite_memoriesWf (homeWrite_memoriesWf h _ _ _) _ _ _)
      (releaseMem_memoriesWf (homeWrite_memoriesWf (homeWrite_memoriesWf h _ _ _) _ _ _) _ _)

theorem barWait_memoriesWf {iss : Issue} {k : CtxKey} {sc : Scope} {d : Reg} {p : Place} {phase : Word} (h : memoriesWf s) :
    memoriesWf (s.barWait iss k sc d p phase) :=
  ite_memoriesWf (checkpoint_memoriesWf (modCtx_memoriesWf h _ _) _)
    (checkpoint_memoriesWf (modCtx_memoriesWf (acquireMem_memoriesWf h _ _) _ _) _)

theorem arrive_memWf {sc : Scope} {d : Reg} {iss : Issue} {c : Ctx} {addr : DWord} {p : Place} (h : memoriesWf s) :
    (execBar64.arrive sc d s iss c addr p).memWf := by
  have hs {f : GroupCell → Option GroupCell} : memoriesWf (((s.release c.key sc).checkpoint c.key).updateCell c addr p f).1 :=
    updateCell_memoriesWf (checkpoint_memoriesWf (release_memoriesWf h) _)
  refine ite_memWf (barWait_memoriesWf (logArrival_memoriesWf ?_)) (checkpoint_memoriesWf (modCtx_memoriesWf hs _ _) _)
  exact ite_memoriesWf (registerReleaser_memoriesWf hs _ _ _) hs

theorem execBar64_outcomeWf {sc : Scope} {d : Reg} {a : SPair} (h : memoriesWf s) : outcomeWf (execBar64 sc d a s) := by
  refine withIssue_outcomeWf h fun iss c => guarded_memWf h ?_
  dsimp only
  split
  · exact h
  · exact parkPages_memoriesWf h
  · split
    · exact ite_memWf (barWait_memoriesWf h) (arrive_memWf h)
    · exact arrive_memWf h

theorem crossOp_outcomeWf {nm : Names} {d a : Reg} {mask : Option (Fin 64)} {ty : RedTy} {whole : Bool}
    {effect : BitVec 64 → List (Nat × Word) → Arch → Arch} (h : memoriesWf s) : outcomeWf (s.crossOp nm d mask a ty whole effect) := by
  refine withIssue_outcomeWf h fun iss c => guarded_memWf h (withStreams_memWf h fun pops pushes ar => ?_)
  dsimp only
  split
  · exact h
  · exact ite_memWf h (commit_memoriesWf h)

theorem execShfl_outcomeWf {var : ShflVar} {d a : Reg} {b : Operand} (h : memoriesWf s) : outcomeWf (execShfl var d a b s) :=
  withIssue_outcomeWf h fun _ _ => simple_memWf h

theorem sortOp_outcomeWf {desc : Bool} {mask : Option (Fin 64)} {d : Pair} {src : List VPair} (h : memoriesWf s) :
    outcomeWf (s.sortOp desc mask d src) :=
  withIssue_outcomeWf h fun _ _ => simple_memWf h

/-! ### Collectives -/

theorem noteJobReads_memoriesWf {j : Job} {n : Nat} : ∀ {m : Nat} {va : Int} {s : State}, memoriesWf s →
    memoriesWf (s.noteJobReads j va n m)
  | 0, _, _, h => h
  | m + 1, va, s, h => by
    unfold State.noteJobReads
    split
    · exact noteJobReads_memoriesWf (noteRead_memoriesWf h)
    · exact h

theorem noteRanks_memoriesWf {js : List Job} (h : memoriesWf s) : memoriesWf (s.noteRanks js) :=
  foldl_memoriesWf (fun _ hs => noteJobReads_memoriesWf (noteJobReads_memoriesWf hs)) h

theorem rankStops_memoriesWf {e : Job × Option Code × Option PageWait} (h : memoriesWf s) : memoriesWf (s.rankStops e) := by
  unfold State.rankStops
  split
  · exact endJob_memoriesWf h (ite_memoriesWf (recordJob_memoriesWf h) h)
  · exact waitJob_memoriesWf h
  · exact h

theorem endMismatch_memoriesWf {key left : Nat} {js : List Job} (h : memoriesWf s) : memoriesWf (s.endMismatch key js left) :=
  endJobs_memoriesWf (s := { s with mismatched := _ }) h

theorem jobWriteVals_memWf {j : Job} {n : Nat} : ∀ {xs : List Nat} {va : Int} {r : JobRun}, memoriesWf r.s →
    (jobWriteVals j va n xs r).memWf
  | [], _, _, h => h
  | _ :: _, _, _, h => write_memWf h fun _ hr => jobWriteVals_memWf hr

theorem writeRanks_memWf {all : List (List Nat)} : ∀ {qs : List Rank} {ends : List (Job × Option Code)} {r : JobRun}, memoriesWf r.s →
    (writeRanks all qs ends r).1.memWf
  | [], _, _, h => h
  | q :: qs, ends, r, h => by
    have hw := jobWriteVals_memWf (j := q.job) (n := cardBytes q.job.card) (xs := collResult q.job.card all)
      (va := dstAddr q.job.card) h
    unfold writeRanks
    dsimp only
    split
    · next e => exact writeRanks_memWf (e ▸ hw :)
    · next e => exact writeRanks_memWf (e ▸ hw :)
    · trivial

/-- Ending the ranks of a collective, each with its code or none, keeps the form. -/
theorem endRanks_memoriesWf {ends : List (Job × Option Code)} (h : memoriesWf s) :
    memoriesWf (ends.foldl (fun s e => s.endJob e.1 (match e.2 with
      | some c => .stop (JobRun.start s) c
      | none => .done (JobRun.start s))) s) := by
  refine foldl_memoriesWf (fun e hs => endJob_memoriesWf hs ?_) h
  split <;> exact hs

theorem execCollectiveMatch_outcomeWf {n : Nat} {peers : List Peer} (h : memoriesWf s) : outcomeWf (execCollectiveMatch n peers s) := by
  unfold execCollectiveMatch
  split
  · exact h
  · refine ite_outcomeWf h (ite_outcomeWf (endMismatch_memoriesWf h) ?_)
    split
    · exact rankStops_memoriesWf h
    · refine ite_outcomeWf h (ite_outcomeWf (endMismatch_memoriesWf h) (ite_outcomeWf h ?_))
      dsimp only
      split
      · exact rankStops_memoriesWf (noteRanks_memoriesWf h)
      · have hw {all : List (List Nat)} {qs : List Rank} {js : List Job} :=
          writeRanks_memWf (all := all) (qs := qs) (ends := []) (r := JobRun.start (s.noteRanks js)) (noteRanks_memoriesWf h)
        split
        · next e => exact endRanks_memoriesWf (e ▸ hw :)
        · exact waitJob_memoriesWf (noteRanks_memoriesWf h)
        · exact noteRanks_memoriesWf h

end Sys2Proof.Machine
end

section
namespace Sys2Proof.Machine
variable {s : State}

/-! ### Translation -/

theorem settlePage_memoriesWf {w : PageWait} {code : Option Code} (h : memoriesWf s) : memoriesWf (s.settlePage w code) := by
  refine foldl_memoriesWf (fun o hs => ?_) ?_
  · split
    · exact pumpStamp_memoriesWf hs
    · exact hs
  · exact h

theorem requestPage_memoriesWf {w : PageWait} (h : memoriesWf s) : memoriesWf (s.requestPage w) :=
  ite_memoriesWf (ite_memoriesWf h h) (settlePage_memoriesWf h)

theorem cacheTranslation_memoriesWf {die : Fin 4} {pasid : BitVec 20} {page base log2 : Nat} {write : Bool} (h : memoriesWf s) :
    memoriesWf (s.cacheTranslation die pasid page base log2 write) := by
  refine foldl_memoriesWf (fun c hs => ite_memoriesWf ?_ ?_) ?_
  · exact hs
  · exact hs
  · exact h

theorem holdPage_memoriesWf {w : PageWait} {e : TlbEntry} (h : memoriesWf s) : memoriesWf (s.holdPage w e) := h

theorem execAtsCompletion_outcomeWf {die : Fin 4} {pasid : BitVec 20} {page : Nat} {ans : AtsAnswer} (h : memoriesWf s) :
    outcomeWf (execAtsCompletion die pasid page ans s) := by
  unfold execAtsCompletion
  refine ite_outcomeWf h ?_
  cases ans with
  | refused => exact foldl_memoriesWf (s := { s with ats := _ }) (fun _ => requestPage_memoriesWf) h
  | granted base log2 write =>
    refine ite_outcomeWf (foldl_memoriesWf (fun w hs => ite_memoriesWf (settlePage_memoriesWf (holdPage_memoriesWf hs))
      (requestPage_memoriesWf hs)) ?_) h
    exact cacheTranslation_memoriesWf (s := { s with ats := _ }) h

theorem execPriResponse_outcomeWf {die : Fin 4} {pasid : BitVec 20} {page : Nat} {ans : PriAnswer} (h : memoriesWf s) :
    outcomeWf (execPriResponse die pasid page ans s) := by
  have settled {p : List PageWait} {ws : List PageWait} {code : Option Code} :
      memoriesWf (ws.foldl (fun s w => s.settlePage w code) { s with pri := p }) :=
    foldl_memoriesWf (fun _ => settlePage_memoriesWf) h
  unfold execPriResponse
  refine ite_outcomeWf h ?_
  cases ans with
  | success => exact settled
  | absent => exact settled
  | present => exact settled
  | failure => exact settled (code := some .notmapped)

theorem dropRange_memoriesWf {i : Invalidation} (h : memoriesWf s) : memoriesWf (s.dropRange i) :=
  writeBackAll_memoriesWf _ (foldl_memoriesWf (fun _ hs => checkpoint_memoriesWf (flushStreams_memoriesWf hs) _) h)

theorem settleInvals_memoriesWf (h : memoriesWf s) : memoriesWf s.settleInvals := by
  refine foldl_memoriesWf (fun i hs => ?_) h
  exact dropRange_memoriesWf (i := i) hs

theorem execAtsInvalidation_outcomeWf {pasid : BitVec 20} {page pages : Nat} (h : memoriesWf s) :
    outcomeWf (execAtsInvalidation pasid page pages s) := by
  refine settleInvals_memoriesWf ?_
  exact dropRange_memoriesWf (i := s.invalidation pasid page pages) h

/-! ### Errors of storage and replies -/

theorem execScrubPass_outcomeWf {stack : Fin 12} {corrected : List Nat} (h : memoriesWf s) : outcomeWf (execScrubPass stack corrected s) :=
  foldl_memoriesWf (s := { s with flaws := _ }) (fun x hs => countCorrected_memoriesWf hs x) h

theorem killPasid_memoriesWf {pasid : BitVec 20} {code : Code} (h : memoriesWf s) : memoriesWf (s.killPasid pasid code) :=
  foldl_memoriesWf (fun _ => killLaunch_memoriesWf) h

theorem recordBank_memoriesWf {bank : Nat} (h : memoriesWf s) : memoriesWf (s.recordBank bank) := h

theorem loseLine_memoriesWf {l : CacheLine} (h : memoriesWf s) : memoriesWf (s.loseLine l) := h

theorem setReports_memoriesWf {rs : List Report} (h : memoriesWf s) : memoriesWf { s with reports := rs } := h

theorem execMachineCheck_outcomeWf {u : CacheUnit} {pasid : BitVec 20} {line : Nat} (h : memoriesWf s) :
    outcomeWf (execMachineCheck u pasid line s) := by
  cases u with
  | frame frame =>
    unfold execMachineCheck
    dsimp only
    split
    · exact ite_outcomeWf h (killPasid_memoriesWf (recordBank_memoriesWf (loseLine_memoriesWf h)))
    · split
      · exact h
      · refine ite_outcomeWf (killPasid_memoriesWf (recordBank_memoriesWf (setReports_memoriesWf (putHomes_memoriesWf _ _ ?_)))) h
        exact h
  | slice =>
    unfold execMachineCheck
    dsimp only
    split
    · exact h
    · refine ite_outcomeWf ?_ h
      split
      · refine killPasid_memoriesWf (recordBank_memoriesWf (setReports_memoriesWf (putHomes_memoriesWf _ _ ?_)))
        exact h
      · refine recordBank_memoriesWf (setReports_memoriesWf (putHomes_memoriesWf _ _ ?_))
        exact h

theorem execMemoryReply_outcomeWf {key : CtxKey} {errors : List Nat} {corrected : List Slice} (h : memoriesWf s) :
    outcomeWf (execMemoryReply key errors corrected s) := by
  unfold execMemoryReply
  split
  · exact h
  · split
    · refine ite_outcomeWf h (ite_outcomeWf h (settleInvals_memoriesWf (freeWritten_memoriesWf ?_)))
      exact foldl_memoriesWf (fun x hs => countCorrected_memoriesWf hs x) (landReply_memoriesWf h)
    · exact h

theorem hostAtomic_memoriesWf {pasid : BitVec 20} {op : AtomicOp} {n pa : Nat} {x : Access} (h : memoriesWf s) :
    memoriesWf (s.hostAtomic pasid op n pa x).1 := by
  unfold State.hostAtomic
  dsimp only
  split
  · exact homeWrite_memoriesWf (snoopLine_memoriesWf h _) _ _ _
  · exact h

theorem execHostAtomicCompletion_outcomeWf {key : CtxKey} {lane : Nat} {ok : Bool} (h : memoriesWf s) :
    outcomeWf (execHostAtomicCompletion key lane ok s) := by
  unfold execHostAtomicCompletion
  split
  · exact h
  · split
    · split
      · refine ite_outcomeWf h ?_
        dsimp only
        split
        · exact modCtx_memoriesWf (hostAtomic_memoriesWf (relBefore_memoriesWf h)) _ _
        · exact h
      · exact h
    · exact h

/-! ### Accesses from outside the package -/

theorem outsideAccess_memoriesWf {req : OutsideReq} (h : memoriesWf s) : memoriesWf (s.outsideAccess req).1 := by
  unfold State.outsideAccess
  dsimp only
  split
  · exact h
  · split
    · exact enterL2_memoriesWf h _ _ _
    · split
      · exact h
      · exact homeWrite_memoriesWf h _ _ _

theorem answerOutside_memoriesWf {req : OutsideReq} (h : memoriesWf s) : memoriesWf (s.answerOutside req) := outsideAccess_memoriesWf h

theorem queueSet_outcomeWf {port : Fin 2} {q : Fin 16} {off : Nat} {v : DWord} (h : memoriesWf s) :
    outcomeWf (s.queueSet port q off v) := by
  unfold State.queueSet
  split
  · exact queueWrite_outcomeWf h
  · exact ite_outcomeWf (queueWrite_outcomeWf h) (ite_outcomeWf (queueWrite_outcomeWf h) (queueWrite_outcomeWf h))
  · exact queueWrite_outcomeWf h
  · exact queueWrite_outcomeWf h
  · exact h

theorem barWrite_outcomeWf {port : Fin 2} {off n : Nat} {x : DWord} (h : memoriesWf s) : outcomeWf (s.barWrite port off n x) := by
  unfold State.barWrite
  split
  · exact queueSet_outcomeWf h
  · exact h

theorem serveOutside_memoriesWf {event : Instr} {req : OutsideReq} (h : memoriesWf s) : memoriesWf (s.serveOutside event req) :=
  ite_memoriesWf h (answerOutside_memoriesWf h)

theorem execHostMemoryRequest_outcomeWf {port : Fin 2} {req : OutsideReq} (h : memoriesWf s) :
    outcomeWf (execHostMemoryRequest port req s) := by
  unfold execHostMemoryRequest
  refine ite_outcomeWf h ?_
  split
  · exact h
  · exact barWrite_outcomeWf h
  · exact h
  · exact ite_memoriesWf (serveOutside_memoriesWf h) h

theorem remoteWrite_memoriesWf {pkg off n : Nat} {x : BitVec 128} (h : memoriesWf s) : memoriesWf (s.remoteWrite pkg off n x) :=
  ite_memoriesWf h (homeWrite_memoriesWf h _ _ _)

theorem execDomainRequest_outcomeWf {pkg : Nat} {pasid : BitVec 20} {req : OutsideReq} (h : memoriesWf s) :
    outcomeWf (execDomainRequest pkg pasid req s) := by
  unfold execDomainRequest
  refine ite_outcomeWf h ?_
  split
  · exact remoteWrite_memoriesWf h
  · exact ite_outcomeWf h (ite_outcomeWf (serveOutside_memoriesWf h) h)

/-- A change of host memory that keeps its form keeps the form. -/
theorem setHost_memoriesWf {m : Mem} (h : memoriesWf s) (hm : m.wf = true) : memoriesWf { s with host := m } := by
  obtain ⟨hdev, hhost, hrest⟩ := h
  exact ⟨hdev, hm, hrest⟩

theorem execSnoop_outcomeWf {line : Nat} {bytes : List (Nat × Byte)} (h : memoriesWf s) : outcomeWf (execSnoop line bytes s) := by
  obtain ⟨_, hhost, _⟩ := id h
  have hs := setHost_memoriesWf h (foldl_wf (xs := bytes)
    (f := fun m x => m.put (128 * line + x.1 % 128) x.2) (fun m _ hm => Mem.wf_put m _ _ hm) hhost)
  exact ite_outcomeWf (noteWrite_memoriesWf (snoopLine_memoriesWf hs _) _) hs

/-! ### Links -/

theorem dropLink_memoriesWf {port : Fin 2} (h : memoriesWf s) : memoriesWf (s.dropLink port) := h

theorem execHostLinkDown_outcomeWf {port : Fin 2} (h : memoriesWf s) : outcomeWf (execHostLinkDown port s) :=
  ite_memoriesWf h (dropLink_memoriesWf h)

theorem losePeers_memoriesWf {before : List Nat} (h : memoriesWf s) : memoriesWf (s.losePeers before) := by
  refine foldl_memoriesWf (fun _ hs => ?_) h
  exact hs

theorem execLinkFailure_outcomeWf {port : Fin 72} (h : memoriesWf s) : outcomeWf (execLinkFailure port s) :=
  ite_outcomeWf h (losePeers_memoriesWf (s := { s with ysl := _, reports := _ }) h)

theorem execLinkTraining_outcomeWf {link : TrainedLink} {cxl ats pri : Bool} (h : memoriesWf s) :
    outcomeWf (execLinkTraining link cxl ats pri s) := by
  unfold execLinkTraining
  refine ite_outcomeWf h ?_
  cases link with
  | host port => exact ite_outcomeWf h (ite_outcomeWf h h)
  | ysl port peers => exact ite_outcomeWf (losePeers_memoriesWf (s := { s with ysl := _, reports := _ }) h) h

end Sys2Proof.Machine
end

section
namespace Sys2Proof.Machine
variable {s : State}

/-! ### Pre-emption -/

theorem withdraw_memoriesWf {c : Ctx} {n : Fin 8} (h : memoriesWf s) : memoriesWf (s.withdraw c n) := modCvg_memoriesWf h

theorem freeSlot_memoriesWf {k : CtxKey} (h : memoriesWf s) : memoriesWf (s.freeSlot k) := h

theorem takePoint_memoriesWf {k : CtxKey} (h : memoriesWf s) : memoriesWf (s.takePoint k) := by
  have hs : memoriesWf (s.endTurn k) := endTurn_memoriesWf h
  unfold State.takePoint
  dsimp only
  split
  · exact hs
  · split
    · exact ite_memoriesWf hs (modCtx_memoriesWf hs _ _)
    · exact freeSlot_memoriesWf hs
    · exact modCtx_memoriesWf (freeSlot_memoriesWf hs) _ _
    · exact hs
    · split
      · exact stopOp_memoriesWf hs
      · exact hs
    · split
      · exact stopOp_memoriesWf hs
      · exact modCtx_memoriesWf (withdraw_memoriesWf hs) _ _
    · exact ite_memoriesWf (completeService_memoriesWf hs) (modCtx_memoriesWf (freeSlot_memoriesWf hs) _ _)
    · exact modCtx_memoriesWf (freeSlot_memoriesWf hs) _ _
    · exact modCtx_memoriesWf (freeSlot_memoriesWf hs) _ _
    · exact modCtx_memoriesWf hs _ _
    · exact hs

theorem landAll_memoriesWf {n : Word} (h : memoriesWf s) : memoriesWf (s.landAll n) := by
  refine foldl_memoriesWf (fun c hs => ?_) (foldl_memoriesWf (fun c hs => checkpoint_memoriesWf hs _) h)
  split
  · exact hs
  · split
    · exact ite_memoriesWf hs (ite_memoriesWf (unlessStruck_memoriesWf hs (landReply_memoriesWf hs)) (landReply_memoriesWf hs))
    · exact hs

theorem stopTimers_memoriesWf {n : Word} (h : memoriesWf s) : memoriesWf (s.stopTimers n) := modLaunch_memoriesWf h fun _ hl => hl

/-- Launches whose saved regions are all in form take the place of the launches with the form kept. -/
theorem setLaunches_memoriesWf {ls : List Launch} (h : memoriesWf s) (hls : ∀ l ∈ ls, l.memWf) : memoriesWf { s with launches := ls } := by
  obtain ⟨hdev, hhost, hdom, hreg, hwin, hsaved⟩ := h
  exact ⟨hdev, hhost, hdom, hreg, hwin, hls⟩

theorem memWf_of_mem_launches {l : Launch} (h : memoriesWf s) (hl : l ∈ s.launches) : l.memWf := by
  obtain ⟨hdev, hhost, hdom, hreg, hwin, hsaved⟩ := h
  exact hsaved l hl

theorem memWf_of_launch? {n : Word} {l : Launch} (h : memoriesWf s) (hl : s.launch? n = some l) : l.memWf :=
  memWf_of_mem_launches h (List.mem_of_find?_eq_some hl)

theorem memWf_of_mem_regions {r : Region} (h : memoriesWf s) (hr : r ∈ s.regions) : r.memWf := by
  obtain ⟨hdev, hhost, hdom, hreg, hwin, hsaved⟩ := h
  exact hreg r hr

theorem retimed_memoriesWf {t : State} (h : memoriesWf t) : memoriesWf (t.retimed s) := by
  refine setLaunches_memoriesWf h fun l hl => ?_
  obtain ⟨m, hm, rfl⟩ := List.mem_map.1 hl
  have hsaved : m.memWf := memWf_of_mem_launches h hm
  split <;> exact hsaved

theorem writeSaveArea_memoriesWf {n : Word} {why : Nat} {cs : List Ctx} (h : memoriesWf s) : memoriesWf (s.writeSaveArea n why cs) := h

theorem saveLaunch_memoriesWf {n : Word} {why : Nat} (h : memoriesWf s) : memoriesWf (s.saveLaunch n why) := by
  unfold State.saveLaunch
  extract_lets keys s₁ s₂ idle s₃ s₄ cs s₅ s₆
  have h₂ : memoriesWf s₂ := foldl_memoriesWf (fun _ => takePoint_memoriesWf) (stopTimers_memoriesWf h)
  have h₃ : memoriesWf s₃ := foldl_memoriesWf (fun _ => freeEntry_memoriesWf) h₂
  have h₄ : memoriesWf s₄ := foldl_memoriesWf (fun _ => release_memoriesWf) h₃
  have h₅ : memoriesWf s₅ := writeSaveArea_memoriesWf h₄
  have h₆ : memoriesWf s₆ :=
    modLaunch_memoriesWf h₅ fun _ _ r hr => memWf_of_mem_regions h₅ (List.mem_of_mem_filter hr)
  exact memoriesWf_of_subset h₆ rfl rfl rfl List.filter_sublist.subset List.filter_sublist.subset (List.Subset.refl _)

theorem preempt_memoriesWf {n : Word} {why : Nat} (h : memoriesWf s) : memoriesWf (s.preempt n why) :=
  have hs := landAll_memoriesWf (n := n) (modLaunch_memoriesWf (n := n) (f := fun l => { l with halt := some why }) h fun _ hl => hl)
  ite_memoriesWf (saveLaunch_memoriesWf hs) hs

/-- A change of every region that keeps its memories' form keeps the form. -/
theorem mapRegions_memoriesWf {f : Region → Region} (h : memoriesWf s) (hf : ∀ r, r.memWf → (f r).memWf) :
    memoriesWf { s with regions := s.regions.map f } := by
  obtain ⟨hdev, hhost, hdom, hreg, hwin, hsaved⟩ := h
  refine ⟨hdev, hhost, hdom, fun r hr => ?_, hwin, hsaved⟩
  obtain ⟨q, hq, rfl⟩ := List.mem_map.1 hr
  exact hf q (hreg q hq)

theorem stopAborted_memoriesWf {n : Word} (h : memoriesWf s) : memoriesWf (s.stopAborted n) := by
  unfold State.stopAborted
  extract_lets s₁ cs atStop keys s₂ s₃ s₄ s₅ now s₆
  have h₁ : memoriesWf s₁ := landAll_memoriesWf h
  have h₂ : memoriesWf s₂ := foldl_memoriesWf (fun _ => takePoint_memoriesWf) h₁
  have h₃ : memoriesWf s₃ := foldl_memoriesWf (fun _ hs => modCtx_memoriesWf hs _ _) h₂
  have h₄ : memoriesWf s₄ := mapRegions_memoriesWf h₃ fun r hr => by split <;> exact hr
  have h₅ : memoriesWf s₅ := foldl_memoriesWf (fun _ hs => releaseMem_memoriesWf hs _ _) h₄
  have h₆ : memoriesWf s₆ := ite_memoriesWf h₅ (writeSaveArea_memoriesWf h₅)
  exact ite_memoriesWf h₁ (modLaunch_memoriesWf (foldl_memoriesWf (fun _ => drain_memoriesWf) h₆) fun _ hl => hl)

theorem execAbortComplete_outcomeWf {n : Word} (h : memoriesWf s) : outcomeWf (execAbortComplete n s) := by
  unfold execAbortComplete
  split
  · exact h
  · split
    · exact ite_outcomeWf (stopAborted_memoriesWf h) (ite_outcomeWf (finishLaunch_memoriesWf h) h)
    · exact h

theorem execPreemption_outcomeWf {n : Word} (h : memoriesWf s) : outcomeWf (execPreemption n s) := by
  unfold execPreemption
  split
  · exact h
  · exact ite_outcomeWf (preempt_memoriesWf h) h

theorem execLaunchDispatch_outcomeWf {order : Nat} (h : memoriesWf s) : outcomeWf (execLaunchDispatch order s) := by
  unfold execLaunchDispatch
  split
  · exact h
  · split
    · exact h
    · exact ite_outcomeWf (dispatchLaunch_memoriesWf h) h

theorem moved_memWf {l : Launch} {moves : List (CoreId × CoreId)} (h : l.memWf) : (l.moved moves).memWf := by
  intro r hr
  obtain ⟨q, hq, rfl⟩ := List.mem_map.1 hr
  exact h q hq

theorem restoreCtx_memoriesWf {c : Ctx} (h : memoriesWf s) : memoriesWf (s.restoreCtx c) := by
  unfold State.restoreCtx
  dsimp only
  split
  · exact h
  · next i _ =>
    have hs {cs : List Ctx} : memoriesWf (State.acquireMem { s with ctxs := cs } ⟨c.key.core, i⟩ .dev) :=
      acquireMem_memoriesWf (s := { s with ctxs := cs }) h _ _
    exact ite_memoriesWf (requestSlot_memoriesWf hs) hs

theorem restoreLaunch_memoriesWf {l : Launch} (h : memoriesWf s) (hl : l.memWf) : memoriesWf (s.restoreLaunch l) := by
  refine foldl_memoriesWf (fun _ => restoreCtx_memoriesWf) (foldl_memoriesWf (fun _ => openWindow_memoriesWf) ?_)
  exact modLaunch_memoriesWf (addRegions_memoriesWf h hl) fun _ _ r hr => absurd hr List.not_mem_nil

theorem execRestore_outcomeWf {n : Word} {moves : List (CoreId × CoreId)} (h : memoriesWf s) : outcomeWf (execRestore n moves s) := by
  unfold execRestore
  split
  · exact h
  · next hl => exact ite_outcomeWf (restoreLaunch_memoriesWf h (moved_memWf (memWf_of_launch? h hl))) h

theorem execWatchdogFire_outcomeWf {n : Word} (h : memoriesWf s) : outcomeWf (execWatchdogFire n s) := by
  have hs : memoriesWf (s.preempt n 2) := preempt_memoriesWf h
  unfold execWatchdogFire
  split
  · exact h
  · refine ite_outcomeWf (ite_outcomeWf (abortLaunch_memoriesWf ?_) hs) h
    exact hs

theorem execCheckpointCountExpiry_outcomeWf {key : CtxKey} (h : memoriesWf s) : outcomeWf (execCheckpointCountExpiry key s) := by
  unfold execCheckpointCountExpiry
  split
  · exact h
  · exact ite_memoriesWf (checkpoint_memoriesWf h _) h

/-! ### Self-tests -/

theorem fenceCores_memoriesWf {cs : List CoreId} (h : memoriesWf s) : memoriesWf (s.fenceCores cs) := by
  refine foldl_memoriesWf (fun _ ht => unlessStruck_memoriesWf ht ht) ?_
  exact h

theorem leaveEntry_memoriesWf {uid : Nat} (h : memoriesWf s) : memoriesWf (s.leaveEntry uid) := by
  refine foldl_memoriesWf (fun _ hs => ite_memoriesWf (freeEntry_memoriesWf hs) ?_) h
  exact hs

theorem backToCheckpoint_memoriesWf {k : CtxKey} (h : memoriesWf s) : memoriesWf (s.backToCheckpoint k) := by
  unfold State.backToCheckpoint
  dsimp only
  split
  · exact h
  · refine ite_memoriesWf h (modCtx_memoriesWf (leaveEntry_memoriesWf ?_) _ _)
    exact h

theorem moveAway_memoriesWf {core : CoreId} {k : CtxKey} (h : memoriesWf s) : memoriesWf (s.moveAway core k) :=
  modCtx_memoriesWf (release_memoriesWf h) _ _

theorem abortLaunches_memoriesWf {ns : List Word} {code : Code} (h : memoriesWf s) :
    memoriesWf (ns.foldl (fun s n => s.abortLaunch n code) s) :=
  foldl_memoriesWf (fun _ => abortLaunch_memoriesWf) h

theorem failPair_memoriesWf {t : SelfTest} {core : CoreId} {choice : FaultAction} (h : memoriesWf s) :
    memoriesWf (s.failPair t core choice) := by
  unfold State.failPair
  extract_lets r keys ns s₁ s₂ retire
  have hs : memoriesWf s₂ := fenceCores_memoriesWf (foldl_memoriesWf (fun _ => backToCheckpoint_memoriesWf) (setReports_memoriesWf h))
  have hretire : memoriesWf (retire s₂) := foldl_memoriesWf (fun _ ht => modCtx_memoriesWf ht _ _) hs
  split
  · exact hs
  · exact hretire
  · exact ite_memoriesWf (foldl_memoriesWf (fun _ => moveAway_memoriesWf) hs) hretire
  · exact abortLaunches_memoriesWf hs

theorem passPair_memoriesWf {t : SelfTest} (h : memoriesWf s) : memoriesWf (s.passPair t) := by
  unfold State.passPair
  split
  · exact modCtx_memoriesWf h _ _
  · exact h

theorem endColumn_memoriesWf {t : SelfTest} {core : CoreId} {passed : Bool} {choice : FaultAction} (h : memoriesWf s) :
    memoriesWf (s.endColumn t core passed choice) := by
  unfold State.endColumn
  extract_lets held b r s₁
  clear_value held
  refine ite_memoriesWf ?_ ?_
  · cases held <;> exact h
  · have hs : memoriesWf s₁ := by
      unfold s₁
      split
      · exact fenceColumn_memoriesWf h
      · exact fenceBeam_memoriesWf (setReports_memoriesWf h)
    split
    · exact fenceCores_memoriesWf hs
    · exact abortLaunches_memoriesWf hs
    · exact hs

theorem endStorage_memoriesWf {t : SelfTest} {x : Slice} {passed : Bool} (h : memoriesWf s) : memoriesWf (s.endStorage t x passed) :=
  ite_memoriesWf h h

theorem execSelfTestComplete_outcomeWf {n : Nat} {passed : Bool} {choice : FaultAction} (h : memoriesWf s) :
    outcomeWf (execSelfTestComplete n passed choice s) := by
  have hs {ts : List SelfTest} : memoriesWf { s with tests := ts } := h
  unfold execSelfTestComplete
  split
  · exact h
  · refine ite_outcomeWf h ?_
    dsimp only
    split
    · exact ite_memoriesWf (passPair_memoriesWf hs) (failPair_memoriesWf hs)
    · exact endColumn_memoriesWf hs
    · exact endStorage_memoriesWf hs

theorem execFencedSliceClear_outcomeWf {x : Slice} (h : memoriesWf s) : outcomeWf (execFencedSliceClear x s) := ite_outcomeWf h h

end Sys2Proof.Machine
end

section
namespace Sys2Proof.Machine
variable {s : State}

/-! ### Special registers -/

theorem promaOp_outcomeWf {d : Reg} {a b : Src} (h : memoriesWf s) : outcomeWf (s.promaOp d a b) :=
  withIssue_outcomeWf h fun _ _ => simple_memWf h

theorem execPromv_outcomeWf {d : Reg} {a : SaOp} (h : memoriesWf s) : outcomeWf (execPromv d a s) :=
  withIssue_outcomeWf h fun _ _ => simple_memWf h

theorem demOp_outcomeWf {check : Bool} {d : Reg} {a : Fin 64} (h : memoriesWf s) : outcomeWf (s.demOp check d a) :=
  withIssue_outcomeWf h fun _ _ => simple_memWf h

theorem execMovxr_outcomeWf {x : XReg} {d : Reg} (h : memoriesWf s) : outcomeWf (execMovxr x d s) :=
  withIssue_outcomeWf h fun _ _ => simple_memWf h

theorem modPerm_memoriesWf {c : Ctx} {v : DWord} (h : memoriesWf s) :
    memoriesWf (s.modRegion c.key.core c.launch c.group fun g => { g with perm := v }) :=
  modRegion_memoriesWf h _ _ _ _ fun _ hr => hr

theorem execMovxw_outcomeWf {x : XReg} {a : SvReg} (h : memoriesWf s) : outcomeWf (execMovxw x a s) := by
  refine withIssue_outcomeWf h fun iss c => ?_
  dsimp only
  split
  · refine guarded_memWf h ?_
    split
    · exact h
    · exact ite_memoriesWf (setCtx_memoriesWf h _) (moveWindow_memoriesWf (setCtx_memoriesWf h _))
  · exact guarded_memWf h (modPerm_memoriesWf (setCtx_memoriesWf h _))
  · exact simple_memWf h

/-! ### Fetching and fills -/

theorem fetchText_memoriesWf {c : Ctx} {pc : DWord} {n : Nat} (h : memoriesWf s) : memoriesWf (s.fetchText c pc n) :=
  loadFill_memoriesWf (loadFill_memoriesWf (noteRead_memoriesWf h))

theorem armCores_memoriesWf (h : memoriesWf s) : memoriesWf s.armCores := h

theorem takeCmp_memoriesWf {n : Word} {cmp : Fin 8} (h : memoriesWf s) : memoriesWf (s.takeCmp n cmp) := h

theorem debugStop_memoriesWf {k : CtxKey} {d : DebugStop} (h : memoriesWf s) : memoriesWf (s.debugStop k d) :=
  retimed_memoriesWf (requestSlot_memoriesWf (modCtx_memoriesWf (checkpoint_memoriesWf h _) _ _))

theorem noteIssue_memoriesWf {k : CtxKey} (h : memoriesWf s) : memoriesWf (s.noteIssue k) := h

theorem execDebugStop_outcomeWf {key : CtxKey} (h : memoriesWf s) : outcomeWf (execDebugStop key s) := by
  unfold execDebugStop
  split
  · split
    · exact debugStop_memoriesWf (setCtx_memoriesWf h _)
    · exact h
  · exact h

theorem execInstructionFetch_outcomeWf {key : CtxKey} (h : memoriesWf s) : outcomeWf (execInstructionFetch key s) := by
  unfold execInstructionFetch
  split
  · exact h
  · dsimp only
    split
    · exact deliver_memoriesWf (setCtx_memoriesWf h _)
    · split
      · exact h
      · next c set look _ =>
        have hs : memoriesWf ((s.setCtx c).noteIssue key) := noteIssue_memoriesWf (setCtx_memoriesWf h c)
        cases look with
        | fault code pc => exact deliver_memoriesWf hs
        | overlay pc =>
          exact ite_outcomeWf (deliver_memoriesWf hs) (modCtx_memoriesWf (checkpoint_memoriesWf (endTurn_memoriesWf hs) _) _ _)
        | words pc ws =>
          have hfetch : memoriesWf (if c.away || c.arch.overlay then ((s.setCtx c).noteIssue key).fetchText c pc (4 * ws.length)
              else (s.setCtx c).noteIssue key) :=
            ite_memoriesWf (fetchText_memoriesWf hs) hs
          exact ite_outcomeWf hs hfetch

theorem leaveFill_memoriesWf {f : Fill} {launch : Word} {core : CoreId} (h : memoriesWf s) : memoriesWf (s.leaveFill f launch core) := h

theorem wakeFill_memoriesWf {launch : Word} {core : CoreId} (h : memoriesWf s) : memoriesWf (s.wakeFill launch core) :=
  ite_memoriesWf h h

theorem fillFailed_memoriesWf {cs : List Ctx} (h : memoriesWf s) : memoriesWf (s.fillFailed cs) :=
  foldl_memoriesWf (fun _ hs => ite_memoriesWf hs (deliver_memoriesWf (setCtx_memoriesWf hs _))) h

theorem failFill_memoriesWf {f : Fill} {launch : Word} {core : CoreId} (h : memoriesWf s) : memoriesWf (s.failFill f launch core) := by
  refine wakeFill_memoriesWf (fillFailed_memoriesWf (modWindow_memoriesWf h fun w hw => ?_))
  split <;> exact hw

theorem execTextFillComplete_outcomeWf {launch : Word} {core : CoreId} {error : Bool} (h : memoriesWf s) :
    outcomeWf (execTextFillComplete launch core error s) := by
  unfold execTextFillComplete
  split
  · exact h
  · refine ite_outcomeWf h (ite_outcomeWf ?_ (wakeFill_memoriesWf (modWindow_memoriesWf ?_ fun w hw => ?_)))
    · exact foldl_memoriesWf (s := { s with fills := _ }) (fun _ => failFill_memoriesWf) h
    · exact leaveFill_memoriesWf (ite_memoriesWf h (noteRead_memoriesWf h))
    · split
      · exact windowText_wf
      · exact hw

/-! ### The debugger -/

theorem execBkpt_outcomeWf {n : BitVec 8} (h : memoriesWf s) : outcomeWf (execBkpt n s) :=
  withIssue_outcomeWf h fun _ _ => ite_memWf (debugStop_memoriesWf h) h

theorem execDebugResume_outcomeWf {key : CtxKey} (h : memoriesWf s) : outcomeWf (execDebugResume key s) := by
  unfold execDebugResume
  split
  · exact h
  · split
    · exact retimed_memoriesWf (setCtx_memoriesWf (freeSlot_memoriesWf h) _)
    · exact h

theorem debugWrite_memoriesWf {c : Ctx} {f : ContextReg} {v : DWord} (h : memoriesWf s) : memoriesWf (s.debugWrite c f v) := by
  unfold State.debugWrite
  split
  · exact ite_memoriesWf h (ite_memoriesWf (modCtx_memoriesWf h _ _) (requestFill_memoriesWf (modCtx_memoriesWf h _ _)))
  · exact modPerm_memoriesWf h
  · exact endTurn_memoriesWf h
  · exact h

theorem execRegisterWrite_outcomeWf {target : RegTarget} {v : DWord} (h : memoriesWf s) : outcomeWf (execRegisterWrite target v s) := by
  cases target with
  | comparator n cmp reg => exact takeCmp_memoriesWf (modLaunch_memoriesWf h fun _ hl => hl)
  | ridx n =>
    show memoriesWf _
    split
    · exact homeWrite_memoriesWf h _ _ _
    · exact h
  | context key f =>
    unfold execRegisterWrite
    dsimp only
    split
    · exact h
    · split
      · exact debugWrite_memoriesWf (modCtx_memoriesWf h _ _)
      · exact h

theorem execDebuggerAttach_outcomeWf {n : Word} (h : memoriesWf s) : outcomeWf (execDebuggerAttach n s) :=
  modLaunch_memoriesWf h fun _ hl => hl

theorem execDebuggerDetach_outcomeWf {n : Word} (h : memoriesWf s) : outcomeWf (execDebuggerDetach n s) :=
  armCores_memoriesWf (modLaunch_memoriesWf h fun _ hl => hl)

theorem execBarrierLoggingEnable_outcomeWf {n : Word} {base nent : Nat} (h : memoriesWf s) :
    outcomeWf (execBarrierLoggingEnable n base nent s) :=
  ite_outcomeWf (modLaunch_memoriesWf (homeWrite_memoriesWf h _ _ _) fun _ hl => hl) h

end Sys2Proof.Machine
end

section
namespace Sys2Proof.Machine
variable {s : State}

/-! ### The code heap -/

theorem execUnload_outcomeWf {addr : DWord} (h : memoriesWf s) : outcomeWf (execUnload addr s) := by
  unfold execUnload
  refine ite_outcomeWf h ?_
  split
  · exact h
  · exact ite_outcomeWf h h

theorem stopMatrix_memoriesWf {o : CodeObject} (h : memoriesWf s) : memoriesWf (s.stopMatrix o) := by
  refine foldl_memoriesWf (fun c hs => ite_memoriesWf ?_ hs) h
  split
  · exact stopOp_memoriesWf hs
  · exact hs

theorem launchMapPcs_memWf {l : Launch} {f : DWord → DWord} {obj : Nat} (h : l.memWf) : (l.mapPcs f obj).memWf := by
  intro r hr
  obtain ⟨q, hq, rfl⟩ := List.mem_map.1 hr
  exact h q hq

/-- A change of device memory that keeps its form keeps the form. -/
theorem setDev_memoriesWf {m : Mem} (h : memoriesWf s) (hm : m.wf = true) : memoriesWf { s with dev := m } := by
  obtain ⟨hdev, hrest⟩ := h
  exact ⟨hm, hrest⟩

/-- Bytes that are put into device memory keep the form. -/
theorem putDev_memoriesWf {a : Nat} {bs : List Byte} (h : memoriesWf s) : memoriesWf { s with dev := s.dev.putBytes a bs } := by
  obtain ⟨hdev, _⟩ := id h
  exact setDev_memoriesWf h (Mem.wf_putBytes _ _ _ hdev)

/-- A change of every window that keeps its bytes' form keeps the form. -/
theorem mapWindows_memoriesWf {f : Window → Window} (h : memoriesWf s) (hf : ∀ w, w.bytes.wf = true → (f w).bytes.wf = true) :
    memoriesWf { s with windows := s.windows.map f } := by
  obtain ⟨hdev, hhost, hdom, hreg, hwin, hsaved⟩ := h
  refine ⟨hdev, hhost, hdom, hreg, fun w hw => ?_, hsaved⟩
  obtain ⟨v, hv, rfl⟩ := List.mem_map.1 hw
  exact hf v (hwin v hv)

/-- A change of every launch that keeps what it has saved in form keeps the form. -/
theorem mapLaunches_memoriesWf {f : Launch → Launch} (h : memoriesWf s) (hf : ∀ l, l.memWf → (f l).memWf) :
    memoriesWf { s with launches := s.launches.map f } := by
  refine setLaunches_memoriesWf h fun l hl => ?_
  obtain ⟨m, hm, rfl⟩ := List.mem_map.1 hl
  exact hf m (memWf_of_mem_launches h hm)

theorem moveObject_memoriesWf {o : CodeObject} {target : Nat} (h : memoriesWf s) : memoriesWf (s.moveObject o target) := by
  unfold State.moveObject
  extract_lets mine f wins s₁
  have hregions : memoriesWf { s with
      dev := s.dev.putBytes (s.heapOffset target) (s.heapBytes o.addr o.size)
      regions := s.regions.map fun r => if mine r.launch then r.mapPcs f else r } :=
    mapRegions_memoriesWf (putDev_memoriesWf h) fun r hr => by split <;> exact hr
  have hwindows := mapWindows_memoriesWf (f := fun w => if mine w.launch then { w with tbase := f w.tbase } else w) hregions
    fun w hw => by split <;> exact hw
  have hlaunches := mapLaunches_memoriesWf
    (f := fun l => if l.obj == o.addr then (l.mapCmps f).mapPcs f target else l.mapCmps f) hwindows
    fun l hl => by
      split
      · exact launchMapPcs_memWf (l := l.mapCmps f) hl
      · exact hl
  have hs : memoriesWf s₁ := hlaunches
  exact armCores_memoriesWf (foldl_memoriesWf (fun _ => requestFill_memoriesWf) hs)

/-- A move of a compaction keeps the form. -/
theorem compactionMove_memoriesWf {o : CodeObject} {target : Nat} (h : memoriesWf s) : memoriesWf ((s.stopMatrix o).moveObject o target) :=
  moveObject_memoriesWf (stopMatrix_memoriesWf h)

theorem execCodeHeapCompaction_outcomeWf {object target : Nat} (h : memoriesWf s) : outcomeWf (execCodeHeapCompaction object target s) := by
  unfold execCodeHeapCompaction
  split
  · exact h
  · exact ite_memoriesWf (compactionMove_memoriesWf h) h

theorem packOne_memoriesWf {up : Bool} {t : State} (h : memoriesWf s) (ht : s.packOne up = some t) : memoriesWf t := by
  obtain ⟨o, ho, hmove⟩ := List.exists_of_findSome?_eq_some ht
  obtain ⟨a, ha, rfl⟩ := Option.map_eq_some_iff.1 hmove
  exact compactionMove_memoriesWf h

theorem pack_memoriesWf {up : Bool} {size : Nat} {t : State} : ∀ {n : Nat} {s : State}, memoriesWf s → s.pack up size n = some t →
    memoriesWf t
  | 0, _, _, ht => by simp [State.pack] at ht
  | n + 1, s, h, ht => by
    unfold State.pack at ht
    split at ht
    · simp at ht
    · next hs =>
      split at ht
      · exact Option.some.inj ht ▸ packOne_memoriesWf h hs
      · exact pack_memoriesWf (packOne_memoriesWf h hs) ht

theorem compact_memoriesWf {size : Nat} {t : State} : ∀ {n : Nat} {s : State}, memoriesWf s → State.compact size n s = some t →
    memoriesWf t
  | 0, s, h, ht => by
    unfold State.compact at ht
    split at ht
    · exact Option.some.inj ht ▸ h
    · simp at ht
  | n + 1, s, h, ht => by
    unfold State.compact at ht
    split at ht
    · exact Option.some.inj ht ▸ h
    · obtain ⟨o, ho, htargets⟩ := List.exists_of_findSome?_eq_some ht
      obtain ⟨a, ha, hmove⟩ := List.exists_of_findSome?_eq_some htargets
      split at hmove
      · exact compact_memoriesWf (compactionMove_memoriesWf h) hmove
      · simp at hmove

theorem makeRoom_memoriesWf {size : Nat} (h : memoriesWf s) : memoriesWf (s.makeRoom size) := by
  unfold State.makeRoom
  refine ite_memoriesWf h ?_
  split
  · next ht => exact pack_memoriesWf h ht
  · split
    · next ht => exact pack_memoriesWf h ht
    · cases hfound : (List.range (Config.forwardMax + 1)).findSome? fun n => State.compact size n s with
      | none => exact h
      | some t =>
        obtain ⟨n, hn, ht⟩ := List.exists_of_findSome?_eq_some hfound
        exact compact_memoriesWf h ht

theorem execLoad_outcomeWf {image : List Byte} {place : Nat} (h : memoriesWf s) : outcomeWf (execLoad image place s) := by
  unfold execLoad
  extract_lets answer room
  have hroom : memoriesWf room := ite_memoriesWf h (makeRoom_memoriesWf h)
  refine ite_outcomeWf h (ite_outcomeWf h ?_)
  split
  · exact hroom
  · next a _ => exact putDev_memoriesWf (a := room.heapOffset a) (bs := image) hroom

/-! ### The package -/

theorem keepOver_memoriesWf {r : State} (h : memoriesWf s) (hr : memoriesWf r) : memoriesWf (s.keepOver r) := by
  obtain ⟨hdev, hhost, hdom, hreg, hwin, hsaved⟩ := h
  obtain ⟨hdev', hhost', hdom', hreg', hwin', hsaved'⟩ := hr
  exact ⟨hdev', foldl_wf (fun m _ hm => Mem.wf_putBytes _ m _ hm) hhost, hdom, hreg', hwin', hsaved'⟩

theorem execPackageReset_outcomeWf {image0 image1 : List Byte} {fuses : Fuses} {policy keys : List Byte} (h : memoriesWf s) :
    outcomeWf (execPackageReset image0 image1 fuses policy keys s) :=
  have hs : memoriesWf (s.keepOver State.reset) := keepOver_memoriesWf h reset_memoriesWf
  ite_outcomeWf hs hs

theorem spdmAnswer_memoriesWf {req answer : List Byte} (h : memoriesWf s) : memoriesWf (s.spdmAnswer req answer) := h

theorem spdmServe_outcomeWf {req answer : List Byte} {needs able : Bool} (h : memoriesWf s) :
    outcomeWf (s.spdmServe req needs able answer) :=
  ite_outcomeWf h (ite_outcomeWf (spdmAnswer_memoriesWf h) (ite_outcomeWf (spdmAnswer_memoriesWf h) (spdmAnswer_memoriesWf h)))

theorem execGetVersion_outcomeWf {req : List Byte} (h : memoriesWf s) : outcomeWf (execGetVersion req s) := ite_outcomeWf h h

theorem execNegotiateAlgorithms_outcomeWf {head fixed ext : List Byte} (h : memoriesWf s) :
    outcomeWf (execNegotiateAlgorithms head fixed ext s) :=
  ite_outcomeWf h (ite_outcomeWf h h)

theorem execChallenge_outcomeWf {req : List Byte} (h : memoriesWf s) : outcomeWf (execChallenge req s) :=
  spdmServe_outcomeWf (s := { s with freeCtr := _ }) h

theorem execGetMeasurements_outcomeWf {req : List Byte} (h : memoriesWf s) : outcomeWf (execGetMeasurements req s) :=
  spdmServe_outcomeWf (s := { s with freeCtr := _ }) h

theorem execPolicyWrite_outcomeWf {w : PolicyWrite} (h : memoriesWf s) : outcomeWf (execPolicyWrite w s) :=
  retimed_memoriesWf (t := { s with policy := _ }) h

theorem execPowerTargetWrite_outcomeWf {watts : Nat} (h : memoriesWf s) : outcomeWf (execPowerTargetWrite watts s) := h

theorem trip_memoriesWf {cause : TripCause} (h : memoriesWf s) : memoriesWf (s.trip cause) :=
  have hs : memoriesWf (s.keepOver State.reset) := keepOver_memoriesWf h reset_memoriesWf
  hs

theorem execTrip_outcomeWf {r : TripReading} (h : memoriesWf s) : outcomeWf (execTrip r s) := ite_memoriesWf h (trip_memoriesWf h)

theorem execPowerMeasurement_outcomeWf {m : Measured} (h : memoriesWf s) : outcomeWf (execPowerMeasurement m s) :=
  ite_outcomeWf h (ite_outcomeWf (trip_memoriesWf h) h)

theorem execClamp_outcomeWf {sensor : Sensor} {reading : Nat} (h : memoriesWf s) : outcomeWf (execClamp sensor reading s) :=
  ite_outcomeWf h (ite_outcomeWf (trip_memoriesWf (s := { s with power := _ }) h) h)

theorem execSamplingPulse_outcomeWf (h : memoriesWf s) : outcomeWf (execSamplingPulse s) := ite_memoriesWf h h

end Sys2Proof.Machine
end

section
namespace Sys2Proof.Machine
variable {s : State}

/-! ### Register, control and stream instructions -/

theorem intOp_outcomeWf {readsD : Bool} {d : Reg} {a b e : Src} {ty : RType} {aff : AReg → AReg → AReg → AReg}
    {f : Word → Word → Word → Word → Word} (h : memoriesWf s) : outcomeWf (s.intOp readsD d a b e ty aff f) :=
  withIssue_outcomeWf h fun _ _ => simple_memWf h

theorem maskOp_outcomeWf {d : Reg} {a b : Src} {p : Word → Word → Bool} (h : memoriesWf s) : outcomeWf (s.maskOp d a b p) :=
  withIssue_outcomeWf h fun _ _ => simple_memWf h

theorem control_outcomeWf {kind : LastBranch} {nm : Names} {whole : Bool} {body : Issue → Arch → Arch} (h : memoriesWf s) :
    outcomeWf (s.control kind nm whole body) :=
  withIssueIf_outcomeWf h fun _ _ => operate_memWf h

theorem brmOp_outcomeWf {t : MaskTest} {a : Fin 64} {disp : DWord} (h : memoriesWf s) : outcomeWf (s.brmOp t a disp) :=
  withIssueQuiet_outcomeWf h fun _ _ => operate_memWf h

theorem nopOp_outcomeWf (h : memoriesWf s) : outcomeWf s.nopOp := withIssueQuiet_outcomeWf h fun _ _ => simple_memWf h

theorem meetOp_outcomeWf {disp : DWord} (h : memoriesWf s) : outcomeWf (s.meetOp disp) :=
  withIssue_outcomeWf h fun _ _ => simple_memWf h

theorem floatOp_outcomeWf {readsD : Bool} {d : Reg} {a b e : Src} {fs : List Src}
    {f : Arch → Word → Word → Word → Word → Word × Word} (h : memoriesWf s) : outcomeWf (s.floatOp readsD d a b e fs f) :=
  withIssue_outcomeWf h fun _ _ => operate_memWf h

theorem floatOp1_outcomeWf {d : Reg} {a : Src} {f : Rm → Word → Word × Word} (h : memoriesWf s) : outcomeWf (s.floatOp1 d a f) :=
  floatOp_outcomeWf h

theorem floatOp2_outcomeWf {d : Reg} {a b : Src} {f : Rm → Word → Word → Word × Word} (h : memoriesWf s) :
    outcomeWf (s.floatOp2 d a b f) :=
  floatOp_outcomeWf h

theorem fcmpmOp_outcomeWf {cond : FCond} {d : Reg} {a b : Src} (h : memoriesWf s) : outcomeWf (s.fcmpmOp cond d a b) :=
  withIssue_outcomeWf h fun _ _ => operate_memWf h

theorem prefetchOp_outcomeWf {f : AddrForm} (h : memoriesWf s) : outcomeWf (s.prefetchOp f) :=
  withIssueIf_outcomeWf h fun _ _ => simple_memWf h

theorem execIterInit_outcomeWf {slot : Fin 2} {d : Reg} {a : SPair} (h : memoriesWf s) : outcomeWf (execIterInit slot d a s) :=
  withIssue_outcomeWf h fun _ _ => ite_memWf h (guarded_memWf h (andThen_memWf h fun _ => commit_memoriesWf (noteDesc_memoriesWf h)))

theorem iterate_memWf {iss : Issue} {c : Ctx} {slot : Fin 2} {l : Nat} {body taken empty : DWord} (h : memoriesWf s) :
    (s.iterate iss c slot l body taken empty).memWf := by
  refine guarded_memWf h (ite_memWf (withStreams_memWf h fun _ _ _ => ite_memWf h (commit_memoriesWf h)) ?_)
  split
  · exact h
  · exact parkPages_memoriesWf h
  · exact modCtx_memoriesWf (parkReply_memoriesWf (checkpoint_memoriesWf (flushStreams_memoriesWf h) _)) _ _

theorem iterNextOp_outcomeWf {slot : Fin 2} {disp : DWord} (h : memoriesWf s) : outcomeWf (s.iterNextOp slot disp) :=
  withIssue_outcomeWf h fun _ _ => ite_memWf h (ite_memWf h (iterate_memWf h))

theorem execIterStep_outcomeWf {slot : Fin 2} (h : memoriesWf s) : outcomeWf (execIterStep slot s) :=
  withIssue_outcomeWf h fun _ _ => ite_memWf h (ite_memWf h (iterate_memWf h))

theorem execStrmOpen_outcomeWf {d : Reg} {a : SPair} {st : Fin 8} (h : memoriesWf s) : outcomeWf (execStrmOpen d a st s) :=
  withIssue_outcomeWf h fun _ _ => ite_memWf h (guarded_memWf h (andThen_memWf h fun _ =>
    modCtx_memoriesWf (flushStreams_memoriesWf (noteDesc_memoriesWf h)) _ _))

theorem execStrmClose_outcomeWf {st : Fin 8} (h : memoriesWf s) : outcomeWf (execStrmClose st s) :=
  withIssueIf_outcomeWf h fun _ _ => ite_memWf h (modCtx_memoriesWf (flushStreams_memoriesWf h) _ _)

theorem execFence_outcomeWf {sc : Scope} (h : memoriesWf s) : outcomeWf (execFence sc s) :=
  withIssueQuiet_outcomeWf h fun _ _ => modCtx_memoriesWf (acquireMem_memoriesWf (release_memoriesWf h) _ _) _ _

theorem touch_memoriesWf {k : CtxKey} {m : BitVec 64} (h : memoriesWf s) : memoriesWf (s.touch k m) := modCtx_memoriesWf h _ _

theorem setHostLines_memoriesWf {ls : List HostLine} (h : memoriesWf s) : memoriesWf { s with hostLines := ls } := h

theorem flushLine_memoriesWf {c : Ctx} {inv : Bool} {va : DWord} (h : memoriesWf s) : memoriesWf (s.flushLine c inv va) := by
  unfold State.flushLine
  split
  · exact h
  · extract_lets pasid s₁
    have hs : memoriesWf s₁ := by
      unfold s₁
      split
      · exact h
      · exact setHostLines_memoriesWf (ite_memoriesWf (touch_memoriesWf h) h)
    clear_value s₁
    split
    · exact hs
    · have hback (l : CacheLine) : memoriesWf (if l.dirty == 0 then s₁
          else (s₁.writeBack l).touch c.key (touchedBits (domainAperture va) l.place)) :=
        ite_memoriesWf hs (touch_memoriesWf (writeBack_memoriesWf hs l))
      exact ite_memoriesWf (hback _) (hback _)

theorem execCfl_outcomeWf {inv : Bool} {a : Pair} {b : Operand} (h : memoriesWf s) : outcomeWf (execCfl inv a b s) :=
  withIssueIf_outcomeWf h fun _ _ => guarded_memWf h (withStreams_memWf h fun _ _ _ => ite_memWf (accessTrap_memWf h)
    (accessTrap_memWf (modCtx_memoriesWf (foldl_memoriesWf (fun _ => flushLine_memoriesWf)
      (flushStreams_memoriesWf (notePopped_memoriesWf h))) _ _)))

theorem execTagclr_outcomeWf {a : SPair} (h : memoriesWf s) : outcomeWf (execTagclr a s) :=
  withIssue_outcomeWf h fun _ _ => guarded_memWf h (setCtx_memoriesWf h _)

theorem execJobst_outcomeWf {d : Reg} {tag : Fin 64} (h : memoriesWf s) : outcomeWf (execJobst d tag s) :=
  withIssue_outcomeWf h fun _ _ => simple_memWf h

theorem execYield_outcomeWf (h : memoriesWf s) : outcomeWf (execYield s) :=
  withIssueQuiet_outcomeWf h fun _ _ => setCtx_memoriesWf h _

theorem execHostkill_outcomeWf {n : Word} (h : memoriesWf s) : outcomeWf (execHostkill n s) := killLaunch_memoriesWf h

theorem execAtomicWidthReport_outcomeWf {port : Fin 2} {bit : Fin 7} (h : memoriesWf s) : outcomeWf (execAtomicWidthReport port bit s) := h

end Sys2Proof.Machine
end

section
namespace Sys2Proof.Machine
variable {s : State}

/-! ### Every instruction and event -/

theorem exec_outcomeWf (i : Instr) (h : memoriesWf s) : outcomeWf (exec i s) := by
  cases i <;> dsimp only [exec]
  case linkTraining => exact execLinkTraining_outcomeWf h
  case packageReset => exact execPackageReset_outcomeWf h
  case getVersion => exact execGetVersion_outcomeWf h
  case getCapabilities | getDigests | getCertificate => exact spdmServe_outcomeWf h
  case negotiateAlgorithms => exact execNegotiateAlgorithms_outcomeWf h
  case challenge => exact execChallenge_outcomeWf h
  case getMeasurements => exact execGetMeasurements_outcomeWf h
  case powerTargetWrite => exact execPowerTargetWrite_outcomeWf h
  case powerMeasurement => exact execPowerMeasurement_outcomeWf h
  case trip => exact execTrip_outcomeWf h
  case load => exact execLoad_outcomeWf h
  case unload => exact execUnload_outcomeWf h
  case codeHeapCompaction => exact execCodeHeapCompaction_outcomeWf h
  case lqbaseWrite | lqctlEnable | lqctlDisable | lqctlResize | lqtailWrite | lqstatClear => exact queueWrite_outcomeWf h
  case ringEntryRead => exact execRingEntryRead_outcomeWf h
  case launchCheck => exact execLaunchCheck_outcomeWf h
  case launchDispatch => exact execLaunchDispatch_outcomeWf h
  case launchDone => exact execLaunchDone_outcomeWf h
  case hostMemoryRequest => exact execHostMemoryRequest_outcomeWf h
  case atsCompletion => exact execAtsCompletion_outcomeWf h
  case priResponse => exact execPriResponse_outcomeWf h
  case atsInvalidation => exact execAtsInvalidation_outcomeWf h
  case hostAtomicCompletion => exact execHostAtomicCompletion_outcomeWf h
  case memoryReply => exact execMemoryReply_outcomeWf h
  case machineCheck => exact execMachineCheck_outcomeWf h
  case scrubPass => exact execScrubPass_outcomeWf h
  case selfTestComplete => exact execSelfTestComplete_outcomeWf h
  case linkFailure => exact execLinkFailure_outcomeWf h
  case textFillComplete => exact execTextFillComplete_outcomeWf h
  case instructionFetch => exact execInstructionFetch_outcomeWf h
  case spawnMessage => exact execSpawnMessage_outcomeWf h
  case contextFree => exact execContextFree_outcomeWf h
  case drainComplete => exact execDrainComplete_outcomeWf h
  case rendezvousDeadline => exact execRendezvousDeadline_outcomeWf h
  case gangPlacement => exact execGangPlacement_outcomeWf h
  case jobDispatch => exact execJobDispatch_outcomeWf h
  case jobComplete => exact execJobComplete_outcomeWf h
  case collectiveMatch => exact execCollectiveMatch_outcomeWf h
  case matrixOperationComplete => exact execMatrixOperationComplete_outcomeWf h
  case userInterrupt => exact execUserInterrupt_outcomeWf h
  case trapSlotGrant => exact execTrapSlotGrant_outcomeWf h
  case systemServiceComplete => exact execSystemServiceComplete_outcomeWf h
  case hostkill => exact execHostkill_outcomeWf h
  case abortComplete => exact execAbortComplete_outcomeWf h
  case preemption => exact execPreemption_outcomeWf h
  case restore => exact execRestore_outcomeWf h
  case watchdogFire => exact execWatchdogFire_outcomeWf h
  case checkpointCountExpiry => exact execCheckpointCountExpiry_outcomeWf h
  case debugStop => exact execDebugStop_outcomeWf h
  case debugResume => exact execDebugResume_outcomeWf h
  case samplingPulse => exact execSamplingPulse_outcomeWf h
  case registerWrite => exact execRegisterWrite_outcomeWf h
  case atomicWidthReport => exact execAtomicWidthReport_outcomeWf h
  case snoop => exact execSnoop_outcomeWf h
  case hostLinkDown => exact execHostLinkDown_outcomeWf h
  case domainRequest => exact execDomainRequest_outcomeWf h
  case clamp => exact execClamp_outcomeWf h
  case debuggerAttach => exact execDebuggerAttach_outcomeWf h
  case debuggerDetach => exact execDebuggerDetach_outcomeWf h
  case fencedSliceClear => exact execFencedSliceClear_outcomeWf h
  case policyWrite => exact execPolicyWrite_outcomeWf h
  case barrierLoggingEnable => exact execBarrierLoggingEnable_outcomeWf h
  case nopCompact | nop64 => exact nopOp_outcomeWf h
  case brCompact | brzCompact | brnzCompact | callCompact | retCompact | br64 | br96 | brz64 | brz96 | brnz64 | brnz96 | call64 | call96
    | calli | ret64 | jmpi => exact control_outcomeWf h
  case addCompact | subCompact | mulCompact | mulhiCompact | mulhuCompact | absCompact | minCompact | maxCompact | minuCompact
    | maxuCompact | andCompact | orCompact | xorCompact | andnCompact | shlCompact | shrCompact | sarCompact | rolCompact | clzCompact
    | ctzCompact | popcCompact | brevCompact | mskbCompact | sextCompact | movCompact | add64 | add96 | sub64 | sub96 | mul64 | mul96
    | mulhi64 | mulhi96 | mulhu64 | mulhu96 | mad64 | mad96 | abs64 | min64 | min96 | max64 | max96 | minu64 | minu96 | maxu64 | maxu96
    | and64 | and96 | or64 | or96 | xor64 | xor96 | andn64 | andn96 | shl64 | shl96 | shr64 | shr96 | sar64 | sar96 | rol64 | rol96
    | clz64 | ctz64 | popc64 | brev64 | bfx64 | bfx96 | bfi64 | bfi96 | addc64 | addc96 | subc64 | subc96 | sext64 | sext96 | mov64
    | sel64 | sel96 | cmp64 | cmp96 | mskb64 | mskb96 => exact intOp_outcomeWf h
  case faddCompact | fsubCompact | fmulCompact | fminCompact | fmaxCompact | fadd64 | fadd96 | fsub64 | fsub96 | fmul64 | fmul96 | fmin64
    | fmin96 | fmax64 | fmax96 | fcmp64 | fcmp96 | fdiv64 | fdiv96 => exact floatOp2_outcomeWf h
  case cmpm64 | cmpm96 => exact maskOp_outcomeWf h
  case brm64 | brm96 => exact brmOp_outcomeWf h
  case iterInit => exact execIterInit_outcomeWf h
  case iterNext64 | iterNext96 => exact iterNextOp_outcomeWf h
  case iterStep => exact execIterStep_outcomeWf h
  case ffma64 | ffma96 | i2f | fcvt | f4xp64 | f4xp96 | f4xu64 | f4xu96 | hadd264 | hadd296 | hmul264 | hmul296
    | hfma264 | hfma296 | fkey => exact floatOp_outcomeWf h
  case fcmpm64 | fcmpm96 => exact fcmpmOp_outcomeWf h
  case fclass | frcp | frsq | fsqrt | fexp2 | flog2 | frnd | f2i | scle => exact floatOp1_outcomeWf h
  case proma64 | proma96 => exact promaOp_outcomeWf h
  case promv => exact execPromv_outcomeWf h
  case demf | demc => exact demOp_outcomeWf h
  case movxr => exact execMovxr_outcomeWf h
  case movxw => exact execMovxw_outcomeWf h
  case meet64 | meet96 => exact meetOp_outcomeWf h
  case ld64 | ld96 | ldl64 | ldl96 => exact loadOp_outcomeWf h
  case st64 | st96 | stl64 | stl96 => exact storeOp_outcomeWf h
  case pfch64 | pfch96 => exact prefetchOp_outcomeWf h
  case aadd64 | aadd96 | afadd64 | afadd96 | amin64 | amin96 | amax64 | amax96 | aand64 | aand96 | aor64 | aor96 | axor64 | axor96
    | axch64 | axch96 | acas64 | acas96 => exact atomicOp_outcomeWf h
  case strmOpen => exact execStrmOpen_outcomeWf h
  case strmClose => exact execStrmClose_outcomeWf h
  case fence => exact execFence_outcomeWf h
  case cfl => exact execCfl_outcomeWf h
  case copy | gath | scat | coll => exact submitOp_outcomeWf h
  case waitany | waitall | ffr => exact tagOp_outcomeWf h
  case tagclr => exact execTagclr_outcomeWf h
  case mwait => exact execMwait_outcomeWf h
  case jobst => exact execJobst_outcomeWf h
  case gcall64 | gcall96 | gcallI => exact gcallOp_outcomeWf h
  case gret => exact execGret_outcomeWf h
  case grow64 | grow96 => exact growOp_outcomeWf h
  case shrink64 | shrink96 => exact shrinkOp_outcomeWf h
  case obres64 | obres96 => exact obresOp_outcomeWf h
  case obrel => exact execObrel_outcomeWf h
  case obldS => exact execObldS_outcomeWf h
  case obldV => exact execObldV_outcomeWf h
  case mma64 | mma96 | mmas64 | mmas96 => exact mmaOp_outcomeWf h
  case accz => exact execAccz_outcomeWf h
  case accld64 | accld96 | accst64 | accst96 => exact tileMemOp_outcomeWf h
  case accrd64 | accrd96 => exact accrdOp_outcomeWf h
  case sign64 | sign96 => exact signOp_outcomeWf h
  case vdot => exact execVdot_outcomeWf h
  case vtest | vkey => exact verdictOp_outcomeWf h
  case vhdr => exact execVhdr_outcomeWf h
  case thsBind => exact execThsBind_outcomeWf h
  case thsRaise64 | thsRaise96 => exact raiseOp_outcomeWf h
  case thsRead => exact execThsRead_outcomeWf h
  case bar64 => exact execBar64_outcomeWf h
  case reduce | scan => exact crossOp_outcomeWf h
  case shfl => exact execShfl_outcomeWf h
  case bsort | bmerge => exact sortOp_outcomeWf h
  case trap64 => exact execTrap64_outcomeWf h
  case eret => exact execEret_outcomeWf h
  case uimask => exact execUimask_outcomeWf h
  case pulse => exact execPulse_outcomeWf h
  case svc64 | svc96 => exact svcOp_outcomeWf h
  case ckpt64 => exact execCkpt64_outcomeWf h
  case bkpt => exact execBkpt_outcomeWf h
  case launch => exact execLaunch_outcomeWf h
  case spawn => exact execSpawn_outcomeWf h
  case waitfree => exact execWaitfree_outcomeWf h
  case join | leave => exact memberOp_outcomeWf h
  case exit64 => exact execExit64_outcomeWf h
  case migrateRk | migrateHm => exact migrateOp_outcomeWf h
  case yield => exact execYield_outcomeWf h
  case alloc => exact serve_outcomeWf h fun _ _ _ => serveAlloc_memoriesWf h
  case free => exact serve_outcomeWf h fun _ _ _ => serveFree_memoriesWf h
  case post => exact serve_outcomeWf h fun _ _ _ => servePost_memoriesWf h
  case nosvc => exact serve_outcomeWf h fun _ _ _ => svcReply_memoriesWf h
  case mwaitWake | mwaitLimitExpiry | mwaitPoll => exact mwaitAgain_memoriesWf h
  case requestCollectorFlush => exact h

/-! ### A step -/

theorem noteRounds_memoriesWf (h : memoriesWf s) : memoriesWf s.noteRounds := by
  refine ite_memoriesWf h (foldl_memoriesWf (fun core hs => ?_) h)
  split
  · exact hs
  · exact hs

theorem pass_memoriesWf (h : memoriesWf s) : memoriesWf s.pass :=
  armCores_memoriesWf (settleInvals_memoriesWf (foldl_memoriesWf (fun _ => performOldest_memoriesWf) (ite_memoriesWf h h)))

theorem newCycle_memoriesWf (h : memoriesWf s) : memoriesWf s.newCycle := by
  refine ite_memoriesWf ?_ h
  exact noteRounds_memoriesWf (pass_memoriesWf (s := { s with tick := s.tick + 1 }) h)

theorem illegal_outcomeWf (h : memoriesWf s) : outcomeWf s.illegal := by
  unfold State.illegal
  split
  · trivial
  · exact deliver_memoriesWf h

theorem runWords_outcomeWf {ws : List Word} (h : memoriesWf s) : outcomeWf (s.runWords ws) := by
  unfold State.runWords
  split
  · exact exec_outcomeWf _ h
  · exact illegal_outcomeWf h

theorem step_outcomeWf (h : memoriesWf s) : outcomeWf (step s) := by
  unfold step
  split
  · exact newCycle_memoriesWf h
  · next i rest _ =>
    have hexec : outcomeWf (exec i { s with agenda := rest, issue := none, fetched := none }) := exec_outcomeWf i h
    split
    · next t e =>
      have ht : memoriesWf t := hexec.next e
      split
      · exact ht
      · exact runWords_outcomeWf (s := { t with fetched := none }) ht
    · trivial
    · trivial

/-- Settles O7, from the lemma that each instruction, event and cycle keeps the form. -/
theorem stepsKeepMemoryForm : Obligations.StepsKeepMemoryForm := by
  unfold Obligations.StepsKeepMemoryForm
  exact fun _ _ h e => (step_outcomeWf h).next e

end Sys2Proof.Machine
end

section
namespace Sys2Proof.Machine
variable {s : State}

/-!
# Gyhouc's services and the package as a whole

One lemma says what each service and package event comes to in each of its cases; the statements on the code heap, on policy, power
and reset, and on attestation are read off these.
-/

/-! ### Loading and unloading (R31, R32, R440) -/

/-- The state once Gyhouc has put an image at a heap address and answered (R31). -/
def State.loaded (s : State) (image : List Byte) (a : Nat) : State :=
  { s with
    dev := s.dev.putBytes (s.heapOffset a) image,
    objects := s.objects ++ [objectAt image a],
    reports := s.reports ++ [Report.loadStatus 0 a] }

theorem execLoad_of_bad_image {image : List Byte} {place : Nat} (hb : s.boot = .running) (hbad : s.loadStatus image ≠ 0) :
    execLoad image place s = .next { s with reports := s.reports ++ [Report.loadStatus (s.loadStatus image) 0] } := by
  simp only [execLoad, hb, bne_iff_ne.2 hbad]
  rfl

theorem execLoad_of_place {image : List Byte} {place a : Nat} (hb : s.boot = .running) (hok : s.loadStatus image = 0)
    (ha : s.loadPlace image.length place = some a) : execLoad image place s = .next (s.loaded image a) := by
  simp [execLoad, hb, hok, ha, State.loaded]

theorem execLoad_of_room_made {image : List Byte} {place a : Nat} (hb : s.boot = .running) (hok : s.loadStatus image = 0)
    (hfull : s.loadPlace image.length place = none) (ha : (s.makeRoom image.length).loadPlace image.length place = some a) :
    execLoad image place s = .next ((s.makeRoom image.length).loaded image a) := by
  simp [execLoad, hb, hok, hfull, ha, State.loaded]

theorem execLoad_of_no_room {image : List Byte} {place : Nat} {u : State} (hu : u = s.makeRoom image.length) (hb : s.boot = .running)
    (hok : s.loadStatus image = 0) (hfull : s.loadPlace image.length place = none) (hnone : u.loadPlace image.length place = none) :
    execLoad image place s = .next { u with reports := u.reports ++ [Report.loadStatus 0x0B 0] } := by
  subst hu
  simp [execLoad, hb, hok, hfull, hnone]

/-- A place with room for an object is page-aligned and clear of every object but the one named (R31). -/
theorem State.heapRoom_clear {but a size : Nat} (h : s.heapRoom but a size = true) :
    4096 ∣ a ∧ ∀ o ∈ s.objects, o.addr ≠ but → a + size ≤ o.addr ∨ o.addr + o.size ≤ a := by
  simp only [State.heapRoom, Bool.and_eq_true, beq_iff_eq, decide_eq_true_eq, List.all_eq_true, Bool.or_eq_true] at h
  obtain ⟨⟨⟨haligned, -⟩, -⟩, hclear⟩ := h
  refine ⟨Nat.dvd_of_mod_eq_zero haligned, fun o ho hne => ?_⟩
  have hapart := (hclear o ho).resolve_left hne
  simp only [rangesMeet, Bool.not_eq_true', Bool.and_eq_false_iff, decide_eq_false_iff_not] at hapart
  omega

theorem State.heapRoom_of_loadPlace {size choice a : Nat} (h : s.loadPlace size choice = some a) : s.heapRoom 0 a size = true :=
  List.find?_some (p := fun a => s.heapRoom 0 a size) h

theorem execUnload_of_no_object {addr : DWord} (hb : s.boot = .running)
    (hnone : s.objects.find? (fun o => o.addr == addr.toNat) = none) :
    execUnload addr s = .next { s with reports := s.reports ++ [Report.unloadStatus 0x0D] } := by
  simp only [execUnload, hb, hnone]
  rfl

theorem execUnload_of_busy {addr : DWord} {o : CodeObject} (hb : s.boot = .running)
    (ho : s.objects.find? (fun o => o.addr == addr.toNat) = some o) (hbusy : s.objectBusy o = true) :
    execUnload addr s = .next { s with reports := s.reports ++ [Report.unloadStatus 0x0C] } := by
  simp only [execUnload, hb, ho, hbusy]
  rfl

theorem execUnload_of_idle {addr : DWord} {o : CodeObject} (hb : s.boot = .running)
    (ho : s.objects.find? (fun o => o.addr == addr.toNat) = some o) (hidle : s.objectBusy o = false) :
    ∃ t, execUnload addr s = .next t ∧ t.objects = (s.objects.filter fun x => x.addr != addr.toNat) ∧
      t.reports = s.reports ++ [Report.unloadStatus 0] := by
  have haddr : o.addr = addr.toNat := by simpa using List.find?_some ho
  simp only [execUnload, hb, ho, hidle]
  exact ⟨_, rfl, by simp [haddr], rfl⟩

/-! ### What the stop of a matrix operation leaves alone (R333, R34) -/

/-- Two states have the same device memory, the same place of the code heap in it, and the same objects loaded. -/
def State.sameHeap (s t : State) : Prop := t.dev = s.dev ∧ t.codeHeap = s.codeHeap ∧ t.objects = s.objects

section
variable {r : State}

theorem foldl_sameHeap {α : Type} {f : State → α → State} {xs : List α} (hf : ∀ {s} x, r.sameHeap s → r.sameHeap (f s x))
    (h : r.sameHeap s) : r.sameHeap (xs.foldl f s) :=
  List.foldlRecOn (motive := r.sameHeap) xs f h fun _ hs x _ => hf x hs

theorem ite_sameHeap {c : Prop} [Decidable c] {a b : State} (ha : r.sameHeap a) (hb : r.sameHeap b) :
    r.sameHeap (if c then a else b) := by
  split
  · exact ha
  · exact hb

theorem modCtx_sameHeap {k : CtxKey} {f : Ctx → Ctx} (h : r.sameHeap s) : r.sameHeap (s.modCtx k f) := h

theorem modRegion_sameHeap {core : CoreId} {launch : Word} {w : Nat} {f : Region → Region} (h : r.sameHeap s) :
    r.sameHeap (s.modRegion core launch w f) := h

theorem setOps_sameHeap {core : CoreId} {ops : List MatrixOp} (h : r.sameHeap s) : r.sameHeap (s.setOps core ops) := h

theorem wakeObuf_sameHeap {core : CoreId} (h : r.sameHeap s) : r.sameHeap (s.wakeObuf core) := h

theorem roundMember_sameHeap {p o : MatrixOp} {done : Bool} (h : r.sameHeap s) : r.sameHeap (s.roundMember p done o) :=
  ite_sameHeap h (ite_sameHeap h h)

theorem runRound_sameHeap {core : CoreId} {launch : Word} {w : Nat} {n : Fin 8} (h : r.sameHeap s) :
    r.sameHeap (s.runRound core launch w n) := by
  have hparked (fenced : Prop) [Decidable fenced] (os : List MatrixOp) :
      r.sameHeap (if fenced then os.foldl (fun (s : State) o => s.modCtx o.key fun c => { c with st := .parked (.roundBad .mmaerr) }) s else s) :=
    ite_sameHeap (foldl_sameHeap (fun _ => modCtx_sameHeap) h) h
  unfold State.runRound
  split
  · exact h
  · dsimp only
    split
    · exact h
    · refine ite_sameHeap (wakeObuf_sameHeap (modRegion_sameHeap ?_)) h
      split
      · refine foldl_sameHeap (fun _ => roundMember_sameHeap) ?_
        split
        · exact modCtx_sameHeap (setOps_sameHeap (hparked _ _))
        · exact hparked _ _
      · split
        · exact modCtx_sameHeap (setOps_sameHeap (hparked _ _))
        · exact hparked _ _

theorem completeOp_sameHeap {o : MatrixOp} (h : r.sameHeap s) : r.sameHeap (s.completeOp o) := by
  have hdone : r.sameHeap (o.members.foldl (fun s m => s.matrixDone m.1 m.2) (((s.sumOp o o.k).matrixDone o.key o.next).removeOp o)) :=
    foldl_sameHeap (fun _ => modCtx_sameHeap) (wakeObuf_sameHeap (setOps_sameHeap (modCtx_sameHeap (modRegion_sameHeap h))))
  unfold State.completeOp
  dsimp only
  split
  · exact hdone
  · exact runRound_sameHeap (modRegion_sameHeap hdone)

theorem stopOp_sameHeap {o : MatrixOp} (h : r.sameHeap s) : r.sameHeap (s.stopOp o) := by
  unfold State.stopOp
  refine ite_sameHeap (completeOp_sameHeap h) ?_
  extract_lets keys s₁ s₂
  have h₁ : r.sameHeap s₁ :=
    ite_sameHeap (foldl_sameHeap (fun _ => modCtx_sameHeap) (modRegion_sameHeap h)) (foldl_sameHeap (fun _ => modCtx_sameHeap) h)
  have h₂ : r.sameHeap s₂ := wakeObuf_sameHeap (setOps_sameHeap h₁)
  clear_value s₂
  split
  · exact h₂
  · exact modRegion_sameHeap h₂

end

/-- Stopping the matrix operations of an object's gangs changes nothing of the code heap. -/
theorem stopMatrix_sameHeap (s : State) (o : CodeObject) : s.sameHeap (s.stopMatrix o) := by
  refine foldl_sameHeap (fun c hs => ite_sameHeap ?_ hs) ⟨rfl, rfl, rfl⟩
  split
  · exact stopOp_sameHeap hs
  · exact hs

/-- With no matrix operation in any engine there is nothing to stop. -/
theorem stopMatrix_of_no_ops (o : CodeObject) (hidle : ∀ b ∈ s.beams, b.ops = []) : s.stopMatrix o = s := by
  have hops (core : CoreId) : (s.beam core).ops = [] := by
    unfold State.beam
    cases hfind : s.beams.find? fun b => b.core == core with
    | none => rfl
    | some b => exact hidle b (List.mem_of_find?_eq_some hfind)
  refine List.foldlRecOn (motive := fun t => t = s) s.ctxs _ rfl fun t ht c _ => ?_
  subst ht
  simp [State.opOf, hops]

/-! ### Moving an object (R34–R36) -/

/-- Requesting fills and arming the cores keeps whatever windows, fills and comparators do not show in. -/
theorem requestFills_keep {α : Type} (g : State → α) (hg : ∀ s ws fs cs, g { s with windows := ws, fills := fs, cmps := cs } = g s)
    (f : Window → DWord) (ws : List Window) (s : State) :
    g (ws.foldl (fun (s : State) w => s.requestFill w.launch w.core (f w)) s).armCores = g s := by
  have hfill (s : State) (launch : Word) (core : CoreId) (tbase : DWord) : g (s.requestFill launch core tbase) = g s := by
    unfold State.requestFill
    split
    · rfl
    · dsimp only
      split <;> exact hg s _ _ _
  exact (hg _ _ _ _).trans
    (List.foldlRecOn (motive := fun t => g t = g s) ws _ rfl fun t ht w _ => (hfill t _ _ _).trans ht)

theorem moveObject_dev (s : State) (o : CodeObject) (target : Nat) :
    (s.moveObject o target).dev = s.dev.putBytes (s.heapOffset target) (s.heapBytes o.addr o.size) :=
  requestFills_keep (·.dev) (fun _ _ _ _ => rfl) _ _ _

theorem moveObject_objects (s : State) (o : CodeObject) (target : Nat) :
    (s.moveObject o target).objects = s.objects.map fun x => if x.addr == o.addr then { x with addr := target } else x :=
  requestFills_keep (·.objects) (fun _ _ _ _ => rfl) _ _ _

theorem forward_mem_moveObject (s : State) (o : CodeObject) (target : Nat) (d : Fin 4) :
    ⟨d, target, o.text, o.textSize, target + o.textOff⟩ ∈ (s.moveObject o target).forwards := by
  unfold State.moveObject
  rw [requestFills_keep (·.forwards) (fun _ _ _ _ => rfl)]
  exact List.mem_append_right _ (List.mem_map.2 ⟨d, List.mem_finRange d, rfl⟩)

/-- A context of a launch of the moved object has every PC that it saves moved (R34). -/
theorem ctx?_moveObject {o : CodeObject} {k : CtxKey} {c : Ctx} {l : Launch} (target : Nat) (hc : s.ctx? k = some c)
    (hl : s.launch? c.launch = some l) (ho : l.obj = o.addr) :
    (s.moveObject o target).ctx? k = some (c.mapPcs (movedTo o.text o.textSize (target + o.textOff))) := by
  unfold State.moveObject
  rw [requestFills_keep (·.ctx? k) (fun _ _ _ _ => rfl)]
  refine (find_map_key _ (fun c : Ctx => c.key) k (fun x => by split <;> rfl) s.ctxs).trans ?_
  rw [show s.ctxs.find? (fun x => x.key == k) = some c from hc]
  simp [hl, ho]

theorem lane_mapPcs_pc {ar : Arch} {n : Nat} (f : DWord → DWord) (hlive : (ar.lane n).live = true) :
    ((ar.mapPcs f).lane n).pc = f (ar.lane n).pc := by
  by_cases hn : n < ar.lanes.length
  · simp [Arch.lane, Arch.mapPcs, hn]
  · simp [Arch.lane, hn, Lane.dead] at hlive

theorem Mem.getElem?_bytes (m : Mem) : ∀ (n a i : Nat), i < n → (m.bytes a n)[i]? = some (m.get (a + i))
  | n + 1, a, 0, _ => rfl
  | n + 1, a, i + 1, h => by
    have ih := Mem.getElem?_bytes m n (a + 1) i (Nat.lt_of_succ_lt_succ h)
    rwa [Nat.add_right_comm] at ih

/-- The bytes of a moved object stand at its new place (R34). -/
theorem moveObject_get {o : CodeObject} {target i : Nat} (hwf : s.dev.wf = true) (hi : i < o.size) :
    (s.moveObject o target).dev.get (s.heapOffset target + i) = s.dev.get (s.heapOffset o.addr + i) := by
  rw [moveObject_dev]
  exact Mem.get_putBytes_in _ _ _ _ _ hwf (Mem.getElem?_bytes s.dev o.size _ i hi)

theorem execCodeHeapCompaction_of_mayMove {o : CodeObject} {target : Nat} (ho : s.objects.find? (fun x => x.addr == o.addr) = some o)
    (hmay : s.mayMove o target = true) :
    execCodeHeapCompaction o.addr target s = .next ((s.stopMatrix o).moveObject o target) := by
  simp [execCodeHeapCompaction, ho, hmay]

/-- A compaction copies the object to its new place, and the heap then holds it there (R34). -/
theorem compactionMove_object {o : CodeObject} {target : Nat} (ho : s.objects.find? (fun x => x.addr == o.addr) = some o)
    (hwf : s.dev.wf = true) :
    { o with addr := target } ∈ ((s.stopMatrix o).moveObject o target).objects ∧
    ∀ i, i < o.size → ((s.stopMatrix o).moveObject o target).dev.get (s.heapOffset target + i) = s.dev.get (s.heapOffset o.addr + i) := by
  obtain ⟨hdev, hheap, hobjects⟩ := stopMatrix_sameHeap s o
  have hoff (va : Nat) : (s.stopMatrix o).heapOffset va = s.heapOffset va := by simp only [State.heapOffset, hheap]
  refine ⟨?_, fun i hi => ?_⟩
  · rw [moveObject_objects, hobjects]
    exact List.mem_map.2 ⟨o, List.mem_of_find?_eq_some ho, by simp⟩
  · have hmoved := moveObject_get (s := s.stopMatrix o) (o := o) (target := target) (hdev ▸ hwf) hi
    rwa [hoff, hoff, hdev] at hmoved

theorem codeHeapServes_holds : codeHeapServes := by
  refine ⟨fun s image place hb hwf => ⟨execLoad_of_bad_image hb, fun a hok ha => ?_, fun u hok hfull hu => ⟨fun a ha => ?_, ?_⟩⟩,
    fun s addr hb => ⟨fun o ho => ⟨execUnload_of_idle hb ho, execUnload_of_busy hb ho⟩, execUnload_of_no_object hb⟩,
    fun s o target ho hmay hwf => ?_⟩
  · obtain ⟨hdev, -⟩ := hwf
    obtain ⟨haligned, hclear⟩ := State.heapRoom_clear (State.heapRoom_of_loadPlace ha)
    exact ⟨_, execLoad_of_place hb hok ha, rfl, rfl, haligned, hclear, fun i x hx => Mem.get_putBytes_in image _ _ i x hdev hx⟩
  · subst hu
    exact ⟨_, execLoad_of_room_made hb hok hfull ha, rfl, rfl⟩
  · exact execLoad_of_no_room hu hb hok hfull
  · obtain ⟨hdev, -⟩ := hwf
    obtain ⟨hmem, hget⟩ := compactionMove_object ho hdev
    refine ⟨_, execCodeHeapCompaction_of_mayMove ho hmay, hmem, forward_mem_moveObject _ o target, hget, fun hidle k c l hc hl hobj _ => ?_⟩
    rw [stopMatrix_of_no_ops o hidle]
    exact ⟨_, ctx?_moveObject target hc hl hobj, fun n hlive => lane_mapPcs_pc _ hlive⟩

end Sys2Proof.Machine
end

section
namespace Sys2Proof.Machine
open Rules
variable {s : State}

/-! ### Policy (R405, R439) -/

/-- No timer stops or starts between two states that hold the same timers. -/
theorem retimed_of_same_hold {t : State} (h : ∀ n, t.timersHeld n = s.timersHeld n) : t.retimed s = t := by
  unfold State.retimed
  simp [h]

theorem next_retimed {t : State} (h : ∀ n, t.timersHeld n = s.timersHeld n) :
    (.next (t.retimed s) : Host.Outcome State Fault Refusal) = .next t := by
  rw [retimed_of_same_hold h]

theorem execPolicyWrite_target (s : State) (k : ClampKind) (n : Nat) :
    execPolicyWrite (.target k n) s = .next { s with policy := { s.policy with
      targets := s.policy.targets.set (clampIndex k) (clampTo (targetLimits k).1 (targetLimits k).2 n) } } :=
  next_retimed fun _ => rfl

theorem targetLimits_eq (k : ClampKind) : targetLimits k = ((tripLimits k).1, if k = .heat then 200 else (tripLimits k).2) := by
  cases k <;> rfl

/-! ### Power, clamps and trips (R406, R434–R436) -/

/-- Beyond its trip point is outside the values between which a quantity trips nothing (R435). -/
theorem beyondTrip_clampTrip_iff (k : ClampKind) (x : Nat) :
    beyondTrip (clampTrip k) x = true ↔ x < (tripLimits k).1 ∨ (tripLimits k).2 < x := by
  cases k <;> simp [beyondTrip, clampTrip, tripLimits]

theorem beyondClamp_iff (k : ClampKind) (x : Nat) : beyondClamp k x = true ↔ x < (clampLimits k).1 ∨ (clampLimits k).2 < x := by
  cases k <;> simp [beyondClamp, clampLimits]

/-- What a trip takes down, what it keeps, and what it records (R436). -/
theorem trip_takes_down (s : State) (cause : TripCause) :
    (s.trip cause).boot = .off ∧ (s.trip cause).ctxs = [] ∧ (s.trip cause).launches = [] ∧ (s.trip cause).dev = [] ∧
    (∀ p : Fin 2, (s.trip cause).ports[p].mode = .down ∧ (s.trip cause).ports[p].queues = s.ports[p].queues) ∧
    (s.trip cause).fenced = s.fenced ∧ (s.trip cause).policy = s.policy ∧ (s.trip cause).measure = s.measure ∧
    (s.trip cause).flash = s.flash ++ [(cause, s.tick)] ∧ .flash cause s.tick ∈ (s.trip cause).reports := by
  refine ⟨rfl, rfl, rfl, rfl, fun p => ?_, rfl, rfl, rfl, rfl, ?_⟩
  · simp [State.trip]
  · simp [State.trip]

theorem execTrip_within {cause : TripCause} {x : Nat} (h : beyondTrip cause x = false) : execTrip ⟨cause, x⟩ s = .next s := by
  simp [execTrip, h]

theorem execTrip_beyond {cause : TripCause} {x : Nat} (hon : s.boot ≠ .off) (h : beyondTrip cause x = true) :
    execTrip ⟨cause, x⟩ s = .next (s.trip cause) := by
  simp [execTrip, h, hon]

/-- The package's samples of the last millisecond once a measurement has joined them (R434). -/
def State.samplesWith (s : State) (m : Measured) : List Nat := (m.package :: s.power.samples).take 100

/-- The state after a measurement that trips nothing: it throttles where the average is above the clamp, where the input is above its
limit, and where it did and no average has come below the clamp (R434, R435). -/
def State.measured (s : State) (m : Measured) : State :=
  let xs := s.samplesWith m
  { s with power := { s.power with
      samples := xs, measured := m,
      throttle := decide ((xs.length = 100 ∧ 2800 * 1000 * 100 < xs.sum) ∨ 3000 * 1000 < m.input ∨
        (s.power.throttle = true ∧ xs.length = 100 ∧ 2800 * 1000 * 100 ≤ xs.sum)) } }

/-- The model's test of what throttles, over the count and the sum of the samples, is that of `State.measured`. -/
theorem throttle_test_eq (throttle : Bool) (n sum input : Nat) :
    (n == 100 && decide (2800 * 1000 * 100 < sum) || decide (3000000 < input) ||
      throttle && !(!n == 100 || decide (sum < 2800 * 1000 * 100))) =
    decide ((n = 100 ∧ 2800 * 1000 * 100 < sum) ∨ 3000 * 1000 < input ∨ (throttle = true ∧ n = 100 ∧ 2800 * 1000 * 100 ≤ sum)) := by
  rw [Bool.eq_iff_iff]
  simp [or_assoc]

/-- A measurement trips where the average of a whole millisecond is above the trip point, and else is taken in. -/
theorem execPowerMeasurement_eq (m : Measured) (hon : s.boot ≠ .off) :
    execPowerMeasurement m s = if (s.samplesWith m).length = 100 ∧ 3100 * 1000 * 100 < (s.samplesWith m).sum then .next (s.trip .power)
      else .next (s.measured m) := by
  have hxs : (m.package :: s.power.samples).take powerWindow = s.samplesWith m := rfl
  simp only [execPowerMeasurement, State.measured, hxs, ← List.sum_eq_foldl]
  unfold powerWindow
  rw [throttle_test_eq]
  simp [hon]

/-! ### Sensors (R435, R436) -/

/-- The state after a sensor's reading that trips nothing: the reading is its latest, and the sensor is clamped where the reading is
beyond its clamp. -/
def State.sensed (s : State) (sensor : Sensor) (x : Nat) : State :=
  let rest := s.power.clamps.filter fun k => k != sensor
  { s with power := { s.power with
      readings := (sensor, x) :: s.power.readings.filter fun r => r.1 != sensor,
      clamps := if beyondClamp (sensorKind sensor) x then sensor :: rest else rest } }

theorem execClamp_within {sensor : Sensor} {x : Nat} (hon : s.boot ≠ .off)
    (h : beyondTrip (clampTrip (sensorKind sensor)) x = false) : execClamp sensor x s = .next (s.sensed sensor x) := by
  simp [execClamp, State.sensed, hon, h]

theorem execClamp_beyond {sensor : Sensor} {x : Nat} (hon : s.boot ≠ .off)
    (h : beyondTrip (clampTrip (sensorKind sensor)) x = true) : ∃ t, execClamp sensor x s = .next t ∧ t.boot = .off := by
  simp only [execClamp, h]
  simp [hon, trip_takes_down]

theorem mem_sensed_readings (s : State) (sensor : Sensor) (x : Nat) (r : Sensor × Nat) :
    r ∈ (s.sensed sensor x).power.readings ↔ r = (sensor, x) ∨ r ∈ s.power.readings ∧ r.1 ≠ sensor := by
  simp [State.sensed]

theorem mem_sensed_clamps (s : State) (sensor : Sensor) (x : Nat) (j : Sensor) :
    j ∈ (s.sensed sensor x).power.clamps ↔
      (j = sensor ∧ beyondClamp (sensorKind sensor) x = true) ∨ j ≠ sensor ∧ j ∈ s.power.clamps := by
  by_cases hclamp : beyondClamp (sensorKind sensor) x = true
  · simp only [State.sensed, hclamp]
    by_cases hj : j = sensor <;> simp [hj]
  · simp [State.sensed, hclamp, and_comm]

theorem throttled_iff (s : State) : s.throttled = true ↔ s.power.throttle = true ∨ ∃ j, j ∈ s.power.clamps := by
  simp only [State.throttled, Bool.or_eq_true, Bool.not_eq_true', List.isEmpty_eq_false_iff_exists_mem]

/-! ### Reset (R407) -/

theorem bootAccepts_iff (f : Fuses) (image : List Byte) : bootAccepts f image = true ↔
    (∃ i : Fin 4, f.revoked.getLsbD i.val = false ∧ f.slots[i] = Config.shake256 (leBytes (Config.imageKey image).toNat 64)) ∧
    Config.slhVerify (Config.imageKey image) (Config.shake256 (Config.imageBody image)) (Config.imageSig image) = true ∧
    f.rollback ≤ Config.imageVersion image := by
  simp [bootAccepts, and_assoc]

theorem execPackageReset_accepted {i0 i1 : List Byte} {fuses : Fuses} {policy keys : List Byte} (h0 : bootAccepts fuses i0 = true)
    (h1 : bootAccepts fuses i1 = true) (heq : i0 = i1) :
    ∃ t, execPackageReset i0 i1 fuses policy keys s = .next t ∧ t.boot = .running ∧ t.ctxs = [] ∧ t.launches = [] ∧ t.dev = [] ∧
      t.nextNum = 1 ∧ t.fenced = s.fenced ∧ ∀ p : Fin 2, t.ports[p].hcap = 0x000003F8 ∧ t.ports[p].mode = .down := by
  subst heq
  simp only [execPackageReset, h0, beq_self_eq_true, Bool.and_self]
  refine ⟨_, rfl, rfl, rfl, rfl, rfl, rfl, rfl, fun p => ?_⟩
  simp [State.keepOver, State.reset, Port.reset]

theorem execPackageReset_refused {i0 i1 : List Byte} {fuses : Fuses} {policy keys : List Byte}
    (h : bootAccepts fuses i0 = false ∨ bootAccepts fuses i1 = false ∨ i0 ≠ i1) :
    ∃ t, execPackageReset i0 i1 fuses policy keys s = .next t ∧ t.boot = .recovery ∧ t.ctxs = [] := by
  have hno : (bootAccepts fuses i0 && bootAccepts fuses i1 && i0 == i1) = false := by
    simpa [or_assoc, imp_iff_not_or] using h
  simp only [execPackageReset, hno]
  exact ⟨_, rfl, rfl, rfl⟩

theorem packageManaged_holds : packageManaged := by
  refine ⟨fun s n k => ⟨rfl, next_retimed fun _ => rfl, next_retimed fun _ => rfl, next_retimed fun _ => rfl, _, execPolicyWrite_target s k n, ?_⟩,
    fun s m xs hon hxs => ?_, fun s sensor kind x hon hkind => ?_,
    fun s cause x hon => ⟨execTrip_within, fun h => ⟨_, execTrip_beyond hon h, trip_takes_down s cause⟩⟩, bootAccepts_iff,
    fun s i0 i1 fuses policy keys => ⟨execPackageReset_accepted, execPackageReset_refused⟩⟩
  · simp [targetLimits_eq, clampTo]
  · subst hxs
    rw [show exec (.powerMeasurement m) s = _ from execPowerMeasurement_eq m hon]
    refine ⟨fun hsum hwhole => ⟨_, if_pos ⟨hwhole, hsum⟩, rfl⟩, fun hwithin => ⟨s.measured m, if_neg ?_, rfl, rfl, rfl, rfl, decide_eq_true_iff⟩⟩
    rintro ⟨hwhole, hsum⟩
    exact hwithin.elim (Nat.not_le.2 hsum) (Nat.ne_of_lt · hwhole)
  · subst hkind
    refine ⟨fun hout => execClamp_beyond hon ((beyondTrip_clampTrip_iff _ x).2 hout), fun hlo hhi => ?_⟩
    have hin : beyondTrip (clampTrip (sensorKind sensor)) x = false := by
      rw [Bool.eq_false_iff, ne_eq, beyondTrip_clampTrip_iff]
      omega
    refine ⟨_, execClamp_within hon hin, rfl, mem_sensed_readings s sensor x, ?_, fun j hj => ?_, throttled_iff _⟩
    · simp [mem_sensed_clamps, beyondClamp_iff]
    · simp [mem_sensed_clamps, hj]

end Sys2Proof.Machine
end

section
namespace Sys2Proof.Machine
variable {s : State}

/-! ### Attestation (R409) -/

/-- A request that needs nothing that is not negotiated is answered, with an error where the device is not able to (R409). -/
theorem spdmServe_of_ready {req answer : List Byte} {needs able : Bool} (hon : s.boot ≠ .off)
    (hneeds : needs = true → s.spdm.negotiated = true) :
    s.spdmServe req needs able answer = .next (s.spdmAnswer req (if able then answer else spdmError 0x07)) := by
  have hready : (needs && !s.spdm.negotiated) = false := by
    cases needs with
    | false => rfl
    | true => simp [hneeds rfl]
  cases able <;> simp [State.spdmServe, hon, hready]

theorem spdmServe_of_able {req answer : List Byte} {needs able : Bool} (hon : s.boot ≠ .off)
    (hneeds : needs = true → s.spdm.negotiated = true) (hable : able = true) :
    s.spdmServe req needs able answer = .next (s.spdmAnswer req answer) := by
  rw [spdmServe_of_ready hon hneeds, if_pos hable]

theorem spdmServe_of_unable {req answer : List Byte} {needs able : Bool} (hon : s.boot ≠ .off)
    (hneeds : needs = true → s.spdm.negotiated = true) (hable : able = false) :
    s.spdmServe req needs able answer = .next (s.spdmAnswer req (spdmError 0x07)) := by
  rw [spdmServe_of_ready hon hneeds, if_neg (by simp [hable])]

/-- An answer that begins with the version and a code is the answer of that code (R409). -/
theorem spdmAnswer_answered (s : State) (req : List Byte) {answer : List Byte} {code : Byte} (h : answer.take 2 = [0x13, code]) :
    spdmAnswered s (s.spdmAnswer req answer) req code := ⟨answer, rfl, h, rfl⟩

theorem execGetVersion_answers {req : List Byte} (hon : s.boot ≠ .off) : ∃ t, execGetVersion req s = .next t ∧
    spdmAnswered { s with spdm := ⟨false, false, false, []⟩ } t req 0x04 :=
  ⟨_, if_neg (by simpa using hon), spdmAnswer_answered _ req rfl⟩

/-- Algorithms that the device has are negotiated (R409). -/
theorem execNegotiateAlgorithms_selects {head fixed ext req : List Byte} {sign hash : Bool} (hon : s.boot ≠ .off)
    (hreq : req = head ++ fixed ++ ext) (hsign : sign = (extAlgorithms req).1.contains Config.spdmSignId.toNat)
    (hhash : hash = (extAlgorithms req).2.contains Config.spdmHashId.toNat) (hany : sign = true ∨ hash = true) :
    ∃ t, execNegotiateAlgorithms head fixed ext s = .next t ∧ spdmAnswered s t req 0x63 ∧ t.spdm.negotiated = true ∧
      t.spdm.sign = sign ∧ t.spdm.hash = hash := by
  have hsome : (!hash && !sign) = false := by
    rcases hany with h | h <;> simp [h]
  simp only [execNegotiateAlgorithms, ← hreq, ← hsign, ← hhash, hsome]
  exact ⟨_, if_neg (by simpa using hon), ⟨_, rfl, rfl, rfl⟩, rfl, rfl, rfl⟩

theorem execNegotiateAlgorithms_rejects {head fixed ext req : List Byte} (hon : s.boot ≠ .off) (hreq : req = head ++ fixed ++ ext)
    (hsign : (extAlgorithms req).1.contains Config.spdmSignId.toNat = false)
    (hhash : (extAlgorithms req).2.contains Config.spdmHashId.toNat = false) :
    execNegotiateAlgorithms head fixed ext s = .next (s.spdmAnswer req (spdmError 0x07)) := by
  simp only [execNegotiateAlgorithms, ← hreq, hsign, hhash]
  exact if_neg (by simpa using hon)

theorem execGetCertificate_answers {head fixed req : List Byte} (hon : s.boot ≠ .off) (hneg : s.spdm.negotiated = true)
    (hreq : req = head ++ fixed) (hslot : imgField req 2 1 % 16 = 0) (hoff : imgField req 4 2 ≤ Config.certChain.length) :
    ∃ t, execGetCertificate head fixed s = .next t ∧ spdmAnswered s t req 0x02 := by
  subst hreq
  refine ⟨_, spdmServe_of_able hon (fun _ => hneg) rfl, spdmAnswer_answered s _ ?_⟩
  rw [if_pos (by simp [hslot, hoff])]
  rfl

/-- A challenge is answered with the device's signature over the transcript, the request and the answer (R409). -/
theorem execChallenge_signs {req : List Byte} (hon : s.boot ≠ .off) (hneg : s.spdm.negotiated = true) (hsign : s.spdm.sign = true)
    (hhash : s.spdm.hash = true) :
    ∃ t body, execChallenge req s = .next t ∧ spdmAnswered s t req 0x03 ∧
      t.reports = s.reports ++ [.spdm (body ++ Config.slhSign (s.spdm.transcript ++ req ++ body))] :=
  ⟨_, _, spdmServe_of_able hon (fun _ => hneg) (by simp [hsign, hhash]), ⟨_, rfl, rfl, rfl⟩, rfl⟩

theorem execGetMeasurements_unsigned {req : List Byte} (hon : s.boot ≠ .off) (hneg : s.spdm.negotiated = true)
    (hasked : imgField req 2 1 % 2 = 0) : ∃ t, execGetMeasurements req s = .next t ∧ spdmAnswered s t req 0x60 := by
  simp only [execGetMeasurements, hasked]
  exact ⟨_, spdmServe_of_able hon (fun _ => hneg) rfl, ⟨_, rfl, rfl, rfl⟩⟩

/-- Measurements that are asked for signed are, over the transcript, the request and the answer (R409). -/
theorem execGetMeasurements_signed {req : List Byte} (hon : s.boot ≠ .off) (hneg : s.spdm.negotiated = true) (hsign : s.spdm.sign = true)
    (hasked : imgField req 2 1 % 2 = 1) :
    ∃ t body, execGetMeasurements req s = .next t ∧ spdmAnswered s t req 0x60 ∧
      t.reports = s.reports ++ [.spdm (body ++ Config.slhSign (s.spdm.transcript ++ req ++ body))] := by
  simp only [execGetMeasurements, hasked]
  exact ⟨_, _, spdmServe_of_able hon (fun _ => hneg) hsign, ⟨_, rfl, rfl, rfl⟩, rfl⟩

theorem execGetMeasurements_unable {req : List Byte} (hon : s.boot ≠ .off) (hneg : s.spdm.negotiated = true)
    (hsign : s.spdm.sign = false) (hasked : imgField req 2 1 % 2 = 1) :
    ∃ t, execGetMeasurements req s = .next t ∧ spdmAnswered s t req 0x7F := by
  simp only [execGetMeasurements, hasked]
  exact ⟨_, spdmServe_of_unable hon (fun _ => hneg) hsign, ⟨_, rfl, rfl, rfl⟩⟩

theorem attests_holds : attests := by
  refine fun s req head fixed ext hon => ⟨execGetVersion_answers hon,
    ⟨_, spdmServe_of_able hon nofun rfl, spdmAnswer_answered s req rfl⟩,
    fun sign hash hreq hsign hhash => ⟨execNegotiateAlgorithms_selects hon hreq hsign hhash, fun hno hno' => ?_⟩,
    fun hneg => ⟨fun hhash => ⟨_, spdmServe_of_able hon (fun _ => hneg) hhash, spdmAnswer_answered s req rfl⟩,
      execGetCertificate_answers hon hneg, execChallenge_signs hon hneg, execGetMeasurements_unable hon hneg,
      execGetMeasurements_unsigned hon hneg, execGetMeasurements_signed hon hneg⟩⟩
  exact ⟨_, execNegotiateAlgorithms_rejects hon hreq (hsign ▸ hno) (hhash ▸ hno'), spdmAnswer_answered s req rfl, rfl⟩

/-- Settles O60, from what the code heap's services, the package's management and the SPDM requests come to, case by case. -/
theorem packageServices : Obligations.PackageServices := by
  unfold Obligations.PackageServices
  exact ⟨codeHeapServes_holds, packageManaged_holds, attests_holds⟩

end Sys2Proof.Machine
end

section
namespace Sys2Proof.Machine
variable {s : State}

/-! ## What leaves the host ports as they are -/

/-- What an instruction's body comes to leaves the ports of its state. -/
def Eff.state : Eff → State
  | .done s => s
  | .trap s _ => s

/-- An outcome keeps the host ports of the state that it starts from, when its next state has them. -/
def keepsPorts (s : State) : Host.Outcome State Fault Refusal → Prop
  | .next t => t.ports = s.ports
  | .fault _ => True
  | .refused _ => True

@[simp] theorem Eff.state_done : (Eff.done s).state = s := rfl

@[simp] theorem Eff.state_trap {t : Trap} : (Eff.trap s t).state = s := rfl

@[simp] theorem Eff.state_ite {c : Prop} [Decidable c] {a b : Eff} :
    (if c then a else b).state = if c then a.state else b.state := apply_ite ..

@[simp] theorem ite_ports {c : Prop} [Decidable c] {a b : State} :
    (if c then a else b).ports = if c then a.ports else b.ports := apply_ite ..

@[simp] theorem keepsPorts_next {t : State} : keepsPorts s (.next t) ↔ t.ports = s.ports := Iff.rfl

@[simp] theorem keepsPorts_fault {f : Fault} : keepsPorts s (.fault f) := trivial

@[simp] theorem keepsPorts_refused {r : Refusal} : keepsPorts s (.refused r) := trivial

@[simp] theorem keepsPorts_ite {c : Prop} [Decidable c] {a b : Host.Outcome State Fault Refusal} :
    keepsPorts s (if c then a else b) ↔ if c then keepsPorts s a else keepsPorts s b := by split <;> rfl

@[simp] theorem foldl_ports {α : Type} {f : State → α → State} (hf : ∀ s x, (f s x).ports = s.ports) {xs : List α} :
    (xs.foldl f s).ports = s.ports :=
  List.foldlRecOn (motive := fun t => t.ports = s.ports) xs f rfl fun t ht x _ => (hf t x).trans ht

@[simp] theorem foldl_modCtx_ports {α : Type} {k : α → CtxKey} {f : α → Ctx → Ctx} {xs : List α} :
    (xs.foldl (fun s x => State.modCtx s (k x) (f x)) s).ports = s.ports :=
  foldl_ports fun _ _ => State.modCtx_ports ..

@[simp] theorem touch_ports {k : CtxKey} {m : BitVec 64} : (s.touch k m).ports = s.ports := rfl

@[simp] theorem modLaunch_ports {n : Word} {f : Launch → Launch} : (s.modLaunch n f).ports = s.ports := rfl

@[simp] theorem modRegion_ports {c : CoreId} {n : Word} {w : Nat} {f : Region → Region} : (s.modRegion c n w f).ports = s.ports := rfl

@[simp] theorem modOwnRegion_ports {c : Ctx} {f : Region → Region} : (s.modOwnRegion c f).ports = s.ports := rfl

@[simp] theorem modWindow_ports {n : Word} {c : CoreId} {f : Window → Window} : (s.modWindow n c f).ports = s.ports := rfl

@[simp] theorem modStamp_ports {n : Nat} {f : Stamp → Stamp} : (s.modStamp n f).ports = s.ports := rfl

@[simp] theorem modPending_ports {n : Nat} {f : Pending → Pending} : (s.modPending n f).ports = s.ports := rfl

@[simp] theorem modJob_ports {n : Nat} {f : Job → Job} : (s.modJob n f).ports = s.ports := rfl

@[simp] theorem modUid_ports {n : Nat} {f : Ctx → Ctx} : (s.modUid n f).ports = s.ports := rfl

@[simp] theorem parkGate_ports {k : CtxKey} : (s.parkGate k).ports = s.ports := rfl

@[simp] theorem wakeGates_ports {c : CoreId} : (s.wakeGates c).ports = s.ports := rfl

@[simp] theorem wakeObuf_ports {c : CoreId} : (s.wakeObuf c).ports = s.ports := rfl

@[simp] theorem setReckoner_ports {r : Reckoner} : (s.setReckoner r).ports = s.ports := rfl

@[simp] theorem freeSlot_ports {k : CtxKey} : (s.freeSlot k).ports = s.ports := rfl

@[simp] theorem setBeam_ports {b : Beam} : (s.setBeam b).ports = s.ports := rfl

@[simp] theorem setOps_ports {c : CoreId} {os : List MatrixOp} : (s.setOps c os).ports = s.ports := rfl

@[simp] theorem matrixDone_ports {k : CtxKey} {x : DWord} : (s.matrixDone k x).ports = s.ports := by
  unfold State.matrixDone; exact State.modCtx_ports ..

@[simp] theorem endGrow_ports {k : CtxKey} {b : Bool} : (s.endGrow k b).ports = s.ports := rfl

@[simp] theorem rollBack_ports {k : CtxKey} : (s.rollBack k).ports = s.ports := rfl

@[simp] theorem settle_ports {k : CtxKey} : (s.settle k).ports = s.ports := rfl

@[simp] theorem enterTlb_ports {e : TlbEntry} : (s.enterTlb e).ports = s.ports := rfl

@[simp] theorem loseReplies_ports {c : Code} {f : Ctx → Request → Access → Bool} : (s.loseReplies c f).ports = s.ports := rfl

@[simp] theorem returnSlice_ports {x : Slice} : (s.returnSlice x).ports = s.ports := rfl

@[simp] theorem remapRow_ports {r : Nat} : (s.remapRow r).ports = s.ports := by
  unfold State.remapRow
  split
  · rfl
  · split <;> rfl

@[simp] theorem guarded_ports {iss : Issue} {c : Ctx} {nm : Names} {t w : Bool} {go : Eff} (hgo : go.state.ports = s.ports) :
    (s.guarded iss c nm t w go).state.ports = s.ports := by
  simp [State.guarded, faultAt, hgo]

@[simp] theorem loseLine_ports {l : CacheLine} : (s.loseLine l).ports = s.ports := rfl

theorem Eff.ite_ports {c : Prop} [Decidable c] {a b : Eff} (ha : a.state.ports = s.ports) (hb : b.state.ports = s.ports) :
    (if c then a else b).state.ports = s.ports := by
  split
  · exact ha
  · exact hb

@[simp] theorem faultAt_state {iss : Issue} {c : Code} : (faultAt s iss c).state = s := rfl

@[simp] theorem trapHere_state {iss : Issue} {c : Ctx} {x : Code} {n : BitVec 8} : (trapHere s iss c x n).state = s := rfl

@[simp] theorem parkObuf_ports {c : Ctx} : (s.parkObuf c).state.ports = s.ports := rfl

@[simp] theorem noteWrite_ports (p : Place) : (s.noteWrite p).ports = s.ports := rfl

@[simp] theorem putHome_ports (x : Byte) (p : Place) : (s.putHome x p).ports = s.ports := by
  unfold State.putHome
  split <;> simp

@[simp] theorem putHomes_ports : ∀ (bs : List Byte) (s : State) (p : Place), (s.putHomes p bs).ports = s.ports
  | [], _, _ => rfl
  | _ :: bs, s, p => by simp [State.putHomes, putHomes_ports bs]

@[simp] theorem writeLineBytes_ports (l : CacheLine) : ∀ (n i : Nat) (s : State), (s.writeLineBytes l i n).ports = s.ports
  | 0, _, _ => rfl
  | n + 1, i, s => by simp [State.writeLineBytes, writeLineBytes_ports l n]

@[simp] theorem enterL2_ports (pasid : Option (BitVec 20)) (w : Bool) (p : Place) : (s.enterL2 pasid w p).ports = s.ports := by
  dsimp only [State.enterL2]
  (repeat' split) <;> simp

@[simp] theorem homeWrite_ports (pasid : Option (BitVec 20)) (p : Place) (bs : List Byte) :
    (s.homeWrite pasid p bs).ports = s.ports := by simp [State.homeWrite]

@[simp] theorem countCorrected_ports (x : Slice) : (s.countCorrected x).ports = s.ports := by
  unfold State.countCorrected
  (repeat' split) <;> simp

@[simp] theorem countFlaws_ports (fs : List Flaw) : (s.countFlaws fs).ports = s.ports := by simp [State.countFlaws]

@[simp] theorem noteLine_ports (frame : Nat) (pasid : BitVec 20) (va n : Nat) :
    (s.noteLine frame pasid va n).ports = s.ports := by simp [State.noteLine]

@[simp] theorem writeBack_ports (l : CacheLine) : (s.writeBack l).ports = s.ports := by simp [State.writeBack]

@[simp] theorem writeBackAll_ports : ∀ (ls : List CacheLine) (s : State), (s.writeBackAll ls).ports = s.ports
  | [], _ => rfl
  | _ :: ls, s => by simp [State.writeBackAll, writeBackAll_ports ls]

@[simp] theorem roomFor_ports (f line : Nat) : (s.roomFor f line).ports = s.ports := by
  dsimp only [State.roomFor]
  (repeat' split) <;> simp

@[simp] theorem fillLine_ports (f : Nat) (pasid : BitVec 20) (va : Nat) (p : Place) :
    (s.fillLine f pasid va p).ports = s.ports := by simp [State.fillLine]

@[simp] theorem takeLine_ports (f : Nat) (pasid : BitVec 20) (va pa : Nat) (own write : Bool) :
    (s.takeLine f pasid va pa own write).ports = s.ports := by simp [State.takeLine]

@[simp] theorem snoopLine_ports (p : Place) : (s.snoopLine p).ports = s.ports := by
  unfold State.snoopLine
  split <;> simp

@[simp] theorem storeBytes_ports (f : Option Nat) (pasid : BitVec 20) (va : Nat) (p : Place) (sc : Scope) (bs : List Byte) :
    (s.storeBytes f pasid va p sc bs).ports = s.ports := by
  unfold State.storeBytes
  (repeat' split) <;> simp

@[simp] theorem releaseMem_ports (k : CtxKey) (sc : Scope) : (s.releaseMem k sc).ports = s.ports := by
  unfold State.releaseMem
  (repeat' split) <;> simp

@[simp] theorem acquireMem_ports (k : CtxKey) (sc : Scope) : (s.acquireMem k sc).ports = s.ports := by
  unfold State.acquireMem
  (repeat' split) <;> simp

@[simp] theorem promote_ports (p : Place) : (s.promote p).ports = s.ports := by
  unfold State.promote
  split <;> simp

@[simp] theorem registerReleaser_ports (f : Option Nat) (d : Bool) (p : Place) : (s.registerReleaser f d p).ports = s.ports := by
  unfold State.registerReleaser
  split <;> simp

@[simp] theorem performGates_ports (k : CtxKey) : ∀ (gs : List GatedStore) (s : State), (s.performGates k gs).ports = s.ports
  | [], _ => rfl
  | g :: gs, s => by
    rw [State.performGates, performGates_ports k gs]
    (repeat' split) <;> simp

@[simp] theorem checkpoint_ports (k : CtxKey) : (s.checkpoint k).ports = s.ports := by
  unfold State.checkpoint
  split <;> simp

/-! ### Reads, stores and pushes -/

@[simp] theorem noteRead_ports {p : Place} {n : Nat} : (s.noteRead p n).ports = s.ports := by simp [State.noteRead]

@[simp] theorem recordMemue_ports {tid : DWord} {p : Place} : (s.recordMemue tid p).ports = s.ports := by
  unfold State.recordMemue
  split <;> simp

@[simp] theorem performStore_ports {c : Ctx} {va : DWord} {p : Place} {n : Nat} {x : BitVec 128} {sc : Scope} {rel : Bool} :
    (s.performStore c va p n x sc rel).ports = s.ports := by simp [State.performStore]

@[simp] theorem performPushes_ports (k : CtxKey) : ∀ (xs : List Pushed) (s : State), (s.performPushes k xs).ports = s.ports
  | [], _ => rfl
  | x :: xs, s => by
    unfold State.performPushes
    split <;> simp [performPushes_ports k xs]

@[simp] theorem flushStreams_ports {k : CtxKey} : (s.flushStreams k).ports = s.ports := by
  unfold State.flushStreams
  split <;> simp

@[simp] theorem performOldest_ports {k : CtxKey} : (s.performOldest k).ports = s.ports := by
  unfold State.performOldest
  split <;> simp

@[simp] theorem drainPushes_ports (k : CtxKey) : ∀ (n : Nat) (s : State), (s.drainPushes k n).ports = s.ports
  | 0, _ => rfl
  | n + 1, s => by
    unfold State.drainPushes
    split <;> simp [drainPushes_ports k n]

@[simp] theorem spill_ports {k : CtxKey} {n : Nat} : (s.spill k n).ports = s.ports := by simp [State.spill]

@[simp] theorem release_ports {k : CtxKey} {sc : Scope} : (s.release k sc).ports = s.ports := by simp [State.release]

@[simp] theorem loadFill_ports {c : Ctx} {va : DWord} {p : Place} {sc : Scope} : (s.loadFill c va p sc).ports = s.ports := by
  unfold State.loadFill
  split <;> simp

@[simp] theorem noteLoad_ports {c : Ctx} {va : DWord} {p : Place} {n : Nat} {sc : Scope} : (s.noteLoad c va p n sc).ports = s.ports := by
  unfold State.noteLoad
  split <;> simp

@[simp] theorem syncHome_ports {c : Ctx} {va : DWord} {p : Place} : (s.syncHome c va p).ports = s.ports := by
  unfold State.syncHome
  (repeat' split) <;> simp

@[simp] theorem notePopped_ports {c : Ctx} {ar : Arch} : (s.notePopped c ar).ports = s.ports := by
  refine foldl_ports fun s i => ?_
  (repeat' split) <;> simp

@[simp] theorem commit_ports {c : Ctx} {ar : Arch} {ps : List Push} : (s.commit c ar ps).ports = s.ports := by simp [State.commit]

/-! ### Page requests, trap slots and rendezvous entries -/

@[simp] theorem askPage_ports {w : PageWait} : (s.askPage w).ports = s.ports := by simp [State.askPage]

@[simp] theorem parkPages_ports {k : CtxKey} {ws : List PageWait} : (s.parkPages k ws).ports = s.ports := by simp [State.parkPages]

@[simp] theorem granted_ports {k : CtxKey} {u : SlotUse} : (s.granted k u).ports = s.ports := by
  unfold State.granted
  (repeat' split) <;> simp

@[simp] theorem requestSlot_ports {k : CtxKey} {u : SlotUse} : (s.requestSlot k u).ports = s.ports := by simp [State.requestSlot]

theorem rdvJoin_ports {t : State} {frame uid timeout : Nat} {launch key : Word} {leaf : DWord}
    (ht : s.rdvJoin frame uid launch leaf key timeout = some t) : t.ports = s.ports := by
  unfold State.rdvJoin at ht
  dsimp only at ht
  split at ht
  · exact Option.some.inj ht ▸ rfl
  · split at ht
    · simp at ht
    · exact Option.some.inj ht ▸ rfl

@[simp] theorem retryLookups_ports {frame : Nat} : (s.retryLookups frame).ports = s.ports := by
  refine foldl_ports fun s c => ?_
  split
  · split
    · rfl
    · split
      · rfl
      · next ht => simpa using rdvJoin_ports ht
  · rfl

@[simp] theorem freeEntry_ports {frame num : Nat} : (s.freeEntry frame num).ports = s.ports := by simp [State.freeEntry]

/-! ### Matrix operations, rounds and the end of lanes -/

@[simp] theorem endTurn_ports {k : CtxKey} : (s.endTurn k).ports = s.ports := by simp [State.endTurn]

@[simp] theorem roundMember_ports {p o : MatrixOp} {done : Bool} : (s.roundMember p done o).ports = s.ports := by simp [State.roundMember]

@[simp] theorem runRound_ports {core : CoreId} {launch : Word} {w : Nat} {n : Fin 8} : (s.runRound core launch w n).ports = s.ports := by
  unfold State.runRound
  split
  · rfl
  · dsimp only
    split
    · rfl
    · split
      · rw [wakeObuf_ports, modRegion_ports]
        split
        · rw [foldl_ports fun _ _ => roundMember_ports]
          split <;> simp
        · split <;> simp
      · rfl

@[simp] theorem runRounds_ports {core : CoreId} {launch : Word} {w : Nat} :
    (s.runRounds core launch w).ports = s.ports := by simp [State.runRounds]

@[simp] theorem leaveRounds_ports {c : Ctx} : (s.leaveRounds c).ports = s.ports := by simp [State.leaveRounds]

@[simp] theorem drain_ports {k : CtxKey} : (s.drain k).ports = s.ports := by
  dsimp only [State.drain]
  (repeat' split) <;> simp

@[simp] theorem endLanes_ports {k : CtxKey} {m : BitVec 64} : (s.endLanes k m).ports = s.ports := by
  dsimp only [State.endLanes]
  (repeat' split) <;> simp

/-! ### Exceptions -/

@[simp] theorem abortLaunch_ports {n : Word} {code : Code} : (s.abortLaunch n code).ports = s.ports := by
  unfold State.abortLaunch
  (repeat' split) <;> simp

@[simp] theorem deliverTo_ports {k : CtxKey} {code : Code} {addr epc : DWord} {elane : Word} {set : BitVec 64} :
    (s.deliverTo k code addr elane epc set).ports = s.ports := by
  dsimp only [State.deliverTo]
  (repeat' split) <;> simp

@[simp] theorem faultCaller_ports {e : RdvEntry} {f : LaneFault} {pc : DWord} {u : Nat} : (s.faultCaller e f pc u).ports = s.ports := by
  unfold State.faultCaller
  split <;> simp

@[simp] theorem retireCalled_ports {c : Ctx} {e : RdvEntry} {fs : List LaneFault} {pc : DWord} :
    (s.retireCalled c e fs pc).ports = s.ports := by
  refine (foldl_ports fun s f => ?_).trans endLanes_ports
  split <;> simp

@[simp] theorem recordErrors_ports {k : CtxKey} {fs : List LaneFault} : (s.recordErrors k fs).ports = s.ports := by
  refine foldl_ports fun s f => ?_
  split <;> simp

@[simp] theorem deliver_ports {k : CtxKey} {t : Trap} : (s.deliver k t).ports = s.ports := by
  dsimp only [State.deliver]
  (repeat' split) <;> simp

@[simp] theorem retire_ports {k : CtxKey} : (s.retire k).ports = s.ports := by
  unfold State.retire
  split <;> simp

@[simp] theorem unlessStruck_ports {k : CtxKey} {t : State} (ht : t.ports = s.ports) : (s.unlessStruck k t).ports = s.ports := by
  simp [State.unlessStruck, ht]

/-! ### The frame of an instruction -/

@[simp] theorem finish_ports (k : CtxKey) : ∀ e : Eff, keepsPorts s (finish k e) ↔ e.state.ports = s.ports
  | .done _ => by simp
  | .trap _ _ => by simp

theorem withIssueIf_ports {p : Ctx → Bool} {f : Issue → Ctx → Eff} (hf : ∀ iss c, (f iss c).state.ports = s.ports) :
    keepsPorts s (s.withIssueIf p f) := by
  unfold State.withIssueIf
  (repeat' split) <;> simp [hf]

theorem withIssue_ports {f : Issue → Ctx → Eff} (hf : ∀ iss c, (f iss c).state.ports = s.ports) : keepsPorts s (s.withIssue f) :=
  withIssueIf_ports hf

@[simp] theorem accessTrap_ports {c : Ctx} {once : Bool} {fs : List LaneFault} {epc : DWord} :
    (accessTrap s c once fs epc).state.ports = s.ports := by
  unfold accessTrap
  split <;> simp

@[simp] theorem operate_ports {iss : Issue} {c : Ctx} {nm : Names} {typeOk whole : Bool} {body : Arch → Body} :
    (s.operate iss c nm typeOk whole body).state.ports = s.ports := by
  refine guarded_ports ?_
  (repeat' split) <;> simp

@[simp] theorem simple_ports {iss : Issue} {c : Ctx} {nm : Names} {typeOk whole : Bool} {body : Arch → Arch} :
    (s.simple iss c nm typeOk whole body).state.ports = s.ports := by simp [State.simple]

@[simp] theorem withStreams_ports {iss : Issue} {c : Ctx} {nm : Names} {go : List Pop → List Push → Arch → Eff}
    (hgo : ∀ pops pushes ar, (go pops pushes ar).state.ports = s.ports) : (s.withStreams iss c nm go).state.ports = s.ports := by
  unfold State.withStreams
  (repeat' split) <;> simp [hgo]

@[simp] theorem andThen_ports {α : Type} {x : Checked α} {iss : Issue} {c : Ctx} {go : α → Eff} {t : State} (ht : t.ports = s.ports)
    (hgo : ∀ v, (go v).state.ports = s.ports) : (x.andThen t iss c go).state.ports = s.ports := by
  unfold Checked.andThen
  split <;> simp [hgo, ht]

/-! ### Memory requests and their replies -/

@[simp] theorem relBefore_ports {k : CtxKey} {o : MemOrder} {sc : Scope} : (s.relBefore k o sc).ports = s.ports := by simp [State.relBefore]

@[simp] theorem acqAfter_ports {k : CtxKey} {o : MemOrder} {sc : Scope} : (s.acqAfter k o sc).ports = s.ports := by simp [State.acqAfter]

@[simp] theorem noteRelease_ports {c : Ctx} {o : MemOrder} {sc : Scope} {va : DWord} {p : Place} :
    (s.noteRelease c o sc va p).ports = s.ports := by simp [State.noteRelease]

@[simp] theorem storeAll_ports {c : Ctx} {n : Nat} {o : MemOrder} {sc : Scope} :
    ∀ (xs : List Access) (s : State), (s.storeAll c n o sc xs).ports = s.ports
  | [], _ => rfl
  | x :: xs, s => by simp [State.storeAll, storeAll_ports xs]

@[simp] theorem atomicAt_ports {c : Ctx} {op : AtomicOp} {n : Nat} {x : Access} : (s.atomicAt c op n x).1.ports = s.ports := by
  dsimp only [State.atomicAt]
  (repeat' split) <;> simp

@[simp] theorem parkReply_ports {k : CtxKey} {r : Request} : (s.parkReply k r).ports = s.ports := by simp [State.parkReply]

@[simp] theorem loadOp_ports {prm : Bool} {ord : MemOrder} {sc : Scope} {sz : Size} {d : Reg} {f : AddrForm} :
    keepsPorts s (s.loadOp prm ord sc sz d f) := by
  refine withIssue_ports fun iss c => guarded_ports (withStreams_ports fun pops pushes ar => ?_)
  (repeat' split) <;> simp

@[simp] theorem storeOp_ports {ord : MemOrder} {sc : Scope} {sz : Size} {d : Reg} {f : AddrForm} :
    keepsPorts s (s.storeOp ord sc sz d f) := by
  refine withIssue_ports fun iss c => Eff.ite_ports rfl (guarded_ports (withStreams_ports fun pops pushes ar => ?_))
  (repeat' split) <;> simp

@[simp] theorem atomicOp_ports {op : AtomicOp} {ord : MemOrder} {sc : Scope} {sz : Size} {d : Reg} {f : AddrForm} {x : Operand}
    {q : Option Operand} :
    keepsPorts s (s.atomicOp op ord sc sz d f x q) := by
  refine withIssue_ports fun iss c => guarded_ports (withStreams_ports fun pops pushes ar => Eff.ite_ports rfl ?_)
  split <;> simp

@[simp] theorem noteDesc_ports {c : Ctx} : ∀ (n : Nat) (va : DWord) (s : State), (s.noteDesc c va n).ports = s.ports
  | 0, _, _ => rfl
  | n + 1, va, s => by
    unfold State.noteDesc
    split <;> simp [noteDesc_ports n]

@[simp] theorem completeRequest_ports {k : CtxKey} {r : Request} {write : Arch → Arch} {fs : List LaneFault} :
    (s.completeRequest k r write fs).ports = s.ports := by
  unfold State.completeRequest
  (repeat' split) <;> simp

@[simp] theorem landLoad_ports {k : CtxKey} {c : Ctx} {r : Request} {d : Reg} {prm : Bool} {errors : List Nat} :
    (s.landLoad k c r d prm errors).ports = s.ports := by simp [State.landLoad]

@[simp] theorem landStore_ports {k : CtxKey} {c : Ctx} {r : Request} : (s.landStore k c r).ports = s.ports := by simp [State.landStore]

@[simp] theorem atomicAll_ports {k : CtxKey} {c : Ctx} {op : AtomicOp} {n : Nat} {errors : List Nat} :
    ∀ (xs : List Access) (s : State), (s.atomicAll k c op n errors xs).1.ports = s.ports
  | [], _ => rfl
  | x :: xs, s => by
    unfold State.atomicAll
    (repeat' split) <;> simp [atomicAll_ports xs]

@[simp] theorem landAtomic_ports {k : CtxKey} {c : Ctx} {r : Request} {op : AtomicOp} {d : Reg} {errors : List Nat} :
    (s.landAtomic k c r op d errors).ports = s.ports := by simp [State.landAtomic]

@[simp] theorem landClaim_ports {k : CtxKey} {c : Ctx} {r : Request} {slot : Fin 2} {body taken empty : DWord} {errors : List Nat} :
    (s.landClaim k c r slot body taken empty errors).ports = s.ports := by
  dsimp only [State.landClaim]
  (repeat' split) <;> simp

@[simp] theorem landReply_ports {c : Ctx} {r : Request} {errors : List Nat} : (s.landReply c r errors).ports = s.ports := by
  unfold State.landReply
  (repeat' split) <;> simp

/-! ### Text windows -/

@[simp] theorem requestFill_ports {launch : Word} {core : CoreId} {tbase : DWord} : (s.requestFill launch core tbase).ports = s.ports := by
  unfold State.requestFill
  split <;> simp

@[simp] theorem moveWindow_ports {k : CtxKey} {launch : Word} {core : CoreId} {tbase : DWord} :
    (s.moveWindow k launch core tbase).ports = s.ports := by simp [State.moveWindow]

/-! ### Stamps -/

@[simp] theorem stampNotify_ports {t : Stamp} {w : StampWrite} : (s.stampNotify t w).ports = s.ports := by simp [State.stampNotify]

theorem ports_of_ite {c : Prop} [Decidable c] {a b : State} (ha : a.ports = s.ports) (hb : b.ports = s.ports) :
    (if c then a else b).ports = s.ports := by
  split
  · exact ha
  · exact hb

@[simp] theorem pumpStamp_ports {order : Nat} : ∀ (ws : List StampWrite) (s : State), (s.pumpStamp order ws).ports = s.ports
  | [], _ => rfl
  | w :: ws, s => by
    have next {u : State} {f : Stamp → Stamp} {x : Stamp} (hu : u.ports = s.ports) :
        ((((u.modStamp order f).stampNotify x w)).pumpStamp order ws).ports = s.ports := by
      simp [pumpStamp_ports ws, hu]
    unfold State.pumpStamp
    split
    · rfl
    · refine ports_of_ite (pumpStamp_ports ws s) (ports_of_ite (next rfl) ?_)
      dsimp only
      split
      · simp
      · exact next rfl
      · exact ports_of_ite (next rfl) (ports_of_ite (next recordMemue_ports) (ports_of_ite (next rfl)
          (next ((homeWrite_ports ..).trans (snoopLine_ports ..)))))

@[simp] theorem pushStamp_ports {order state : Nat} {code : BitVec 8} {num : Word} :
    (s.pushStamp order state code num).ports = s.ports := by
  unfold State.pushStamp
  split <;> simp

/-! ### Regions and contexts that come and go -/

@[simp] theorem freeRegions_ports {launch : Word} {core : CoreId} :
    (s.freeRegions launch core).ports = s.ports := by simp [State.freeRegions]

@[simp] theorem freeWritten_ports {launch : Word} : (s.freeWritten launch).ports = s.ports := by simp [State.freeWritten]

@[simp] theorem freeLeaf_ports {launch : Word} {core : CoreId} : (s.freeLeaf launch core).ports = s.ports := by simp [State.freeLeaf]

@[simp] theorem contextFree_ports {core : CoreId} : (s.contextFree core).ports = s.ports :=
  foldl_ports fun _ _ => unlessStruck_ports rfl

@[simp] theorem updateCell_ports {c : Ctx} {va : DWord} {p : Place} {f : GroupCell → Option GroupCell} :
    (s.updateCell c va p f).1.ports = s.ports := by
  dsimp only [State.updateCell]
  (repeat' split) <;> simp

@[simp] theorem addCtx_ports {key : CtxKey} {launch : Word} {kind : CtxKind} {group index : Nat} {pair : Option (Fin 32)} {ar : Arch} :
    (s.addCtx key launch kind group index pair ar).ports = s.ports := rfl

/-! ### LAUNCH, SPAWN, WAITFREE, JOIN, LEAVE and EXIT -/

@[simp] theorem execLaunch_ports {d : Pair} {a : SPair} : keepsPorts s (execLaunch d a s) := by
  refine withIssue_ports fun iss c => guarded_ports (andThen_ports rfl fun _ => andThen_ports (by simp) fun x => ?_)
  simp [State.enterPending]

@[simp] theorem spawnReply_ports {k : CtxKey} {d : Pair} {next : DWord} {status value : Word} :
    (s.spawnReply k d next status value).ports = s.ports := by simp [State.spawnReply]

@[simp] theorem execSpawn_ports {d : Pair} {a : Fin 64} {b e : SPair} : keepsPorts s (execSpawn d a b e s) := by
  refine withIssue_ports fun iss c => ?_
  simp

@[simp] theorem answerSpawn_ports {c : Ctx} {t : CoreId} {pc args next : DWord} {d : Pair} :
    (s.answerSpawn c t pc args d next).ports = s.ports := by
  dsimp only [State.answerSpawn]
  (repeat' split) <;> simp

@[simp] theorem execSpawnMessage_ports {core : CoreId} : keepsPorts s (execSpawnMessage core s) := by
  unfold execSpawnMessage
  split
  · rfl
  · dsimp only
    split
    · rfl
    · split <;> simp

@[simp] theorem execWaitfree_ports {d : Reg} {a b : Fin 64} : keepsPorts s (execWaitfree d a b s) := by
  refine withIssue_ports fun iss c => ?_
  simp

@[simp] theorem memberOp_ports {d : Reg} {a : SPair} {refusal : Word} {f : GroupCell → Nat → Option GroupCell}
    {gid : DWord → DWord → DWord} : keepsPorts s (s.memberOp d a refusal f gid) := by
  refine withIssue_ports fun iss c => guarded_ports ?_
  dsimp only
  split <;> simp

@[simp] theorem exitLeaves_ports {k : CtxKey} {m : BitVec 64} : ∀ (n : Nat) (s : State), (s.exitLeaves k m n).1.ports = s.ports
  | 0, _ => rfl
  | n + 1, s => by
    unfold State.exitLeaves
    split
    · rfl
    · dsimp only
      split
      · rfl
      · split <;> simp [exitLeaves_ports n]

@[simp] theorem exitLanes_ports {k : CtxKey} {m : BitVec 64} : (s.exitLanes k m).ports = s.ports := by
  have hs := exitLeaves_ports (k := k) (m := m) 64 (s.release k .dev)
  unfold State.exitLanes
  split
  · next e => rw [e] at hs; simpa using hs
  · next e => rw [e] at hs; simpa using hs

@[simp] theorem execExit64_ports  : keepsPorts s (execExit64 s) := by
  refine withIssueIf_ports fun iss c => ?_
  split <;> simp

/-! ### Migration -/

@[simp] theorem goAway_ports {k : CtxKey} : (s.goAway k).ports = s.ports := by simp [State.goAway]

@[simp] theorem comeHome_ports {k : CtxKey} : (s.comeHome k).ports = s.ports := by
  dsimp only [State.comeHome]
  (repeat' split) <;> simp

@[simp] theorem migrateOp_ports {home : Bool} {d : Reg} : keepsPorts s (s.migrateOp home d) := by
  refine withIssue_ports fun iss c => ?_
  simp

/-! ### Gang calls -/

@[simp] theorem gcallOp_ports {a : Operand} {nm : Names} {tgt : Issue → Arch → DWord} : keepsPorts s (s.gcallOp a nm tgt) := by
  refine withIssue_ports fun iss c => Eff.ite_ports rfl (guarded_ports (withStreams_ports fun pops _ ar => ?_))
  dsimp only
  split
  · rfl
  · refine Eff.ite_ports rfl (Eff.ite_ports (by simp) ?_)
    split
    · next ht => simpa using rdvJoin_ports ht
    · simp

@[simp] theorem returnLane_ports {gang : Ctx} {i : Nat} : (s.returnLane gang i).ports = s.ports := by
  unfold State.returnLane
  (repeat' split) <;> simp

@[simp] theorem execGret_ports  : keepsPorts s (execGret s) := by
  refine withIssue_ports fun iss c => ?_
  split <;> simp

@[simp] theorem wakeGrows_ports {r : Region} : (s.wakeGrows r).ports = s.ports := by
  refine foldl_ports fun s c => ?_
  split <;> simp

@[simp] theorem growOp_ports {d : Reg} {b : Src} : keepsPorts s (s.growOp d b) := by
  refine withIssue_ports fun iss c => Eff.ite_ports rfl (guarded_ports ?_)
  (repeat' split) <;> simp

@[simp] theorem shrinkOp_ports {b : Src} : keepsPorts s (s.shrinkOp b) := by
  refine withIssue_ports fun iss c => Eff.ite_ports rfl (guarded_ports ?_)
  simp

@[simp] theorem execRendezvousDeadline_ports {frame entry : Nat} :
    keepsPorts s (execRendezvousDeadline frame entry s) := by simp [execRendezvousDeadline]

@[simp] theorem placeGang_ports {e : RdvEntry} {r : Region} {slot : Fin 32} : (s.placeGang e r slot).ports = s.ports := by
  dsimp only [State.placeGang]
  (repeat' split) <;> simp

@[simp] theorem execGangPlacement_ports {frame entry : Nat} : keepsPorts s (execGangPlacement frame entry s) := by
  unfold execGangPlacement
  split
  · rfl
  · dsimp only
    split <;> simp

@[simp] theorem execContextFree_ports {key : CtxKey} : keepsPorts s (execContextFree key s) := by
  unfold execContextFree
  split
  · rfl
  · rw [keepsPorts_ite]
    split
    · dsimp only
      split <;> simp
    · rfl

@[simp] theorem execDrainComplete_ports {core : CoreId} {launch : Word} {w : Nat} : keepsPorts s (execDrainComplete core launch w s) := by
  unfold execDrainComplete
  split <;> simp

/-! ### Operand buffers and accumulator tiles -/

@[simp] theorem keepTurn_ports {k : CtxKey} {u : Uses} : (s.keepTurn k u).ports = s.ports := by
  unfold State.keepTurn
  split <;> simp

@[simp] theorem Eff.keepTurn_ports {k : CtxKey} {u : Uses} : ∀ e : Eff, (e.keepTurn k u).state.ports = e.state.ports
  | .done _ => by simp [Eff.keepTurn]
  | .trap _ _ => rfl

theorem matrixOp_ports {nm : Names} {typeOk whole : Bool} {u : Uses} {body : Issue → Ctx → Region → Eff}
    (hb : ∀ iss c r, (body iss c r).state.ports = s.ports) : keepsPorts s (s.matrixOp nm typeOk whole u body) := by
  refine withIssue_ports fun iss c => Eff.ite_ports rfl (guarded_ports ?_)
  split
  · simp [hb]
  · rfl

@[simp] theorem obresOp_ports {d : Reg} {n : Fin 16} {b : Src} : keepsPorts s (s.obresOp d n b) := by
  refine matrixOp_ports fun iss c r => Eff.ite_ports rfl (Eff.ite_ports rfl ?_)
  split
  · rfl
  · split <;> rfl

@[simp] theorem execObrel_ports {n : Fin 16} : keepsPorts s (execObrel n s) := by
  refine matrixOp_ports fun iss c r => ?_
  simp

@[simp] theorem fillAll_ports {c : Ctx} {sc : Scope} {n : Nat} {ps : List (DWord × Place)} :
    (s.fillAll c sc n ps).ports = s.ports := by simp [State.fillAll]

@[simp] theorem execObldS_ports {d : Reg} {n : Fin 16} {a : SPair} : keepsPorts s (execObldS d n a s) := by
  refine matrixOp_ports fun iss c r => Eff.ite_ports rfl (Eff.ite_ports rfl (andThen_ports rfl fun x => ?_))
  split
  · rfl
  · refine Eff.ite_ports rfl ?_
    dsimp only
    split <;> simp

@[simp] theorem putLines_ports {c : Ctx} {o : ObsRecord} {ls : List (Nat × List Byte)} :
    (s.modOwnRegion c fun r => { r with obuf := ls.foldl (fun m l => o.putLine l.1 l.2 m) r.obuf }).ports = s.ports := rfl

@[simp] theorem execObldV_ports {d : Reg} {n : Fin 16} {a : VPair} : keepsPorts s (execObldV d n a s) := by
  refine matrixOp_ports fun iss c r => Eff.ite_ports rfl (Eff.ite_ports rfl (Eff.ite_ports rfl (Eff.ite_ports rfl ?_)))
  dsimp only
  split
  · simp
  · split <;> simp

theorem tileOp_ports {nm : Names} {typeOk whole : Bool} {t : BitVec 8} {body : Issue → Ctx → Region → Eff}
    (hb : ∀ iss c r, (body iss c r).state.ports = s.ports) : keepsPorts s (s.tileOp nm typeOk whole t body) :=
  matrixOp_ports fun iss c r => Eff.ite_ports rfl (Eff.ite_ports rfl (hb iss c r))

@[simp] theorem execAccz_ports {t : BitVec 8} : keepsPorts s (execAccz t s) := by
  refine tileOp_ports fun iss c r => ?_
  simp

@[simp] theorem tileMemOp_ports {store : Bool} {t : BitVec 8} {a : SPair} {b : Src} : keepsPorts s (s.tileMemOp store t a b) := by
  refine tileOp_ports fun iss c r => Eff.ite_ports rfl ?_
  dsimp only
  split
  · simp
  · split <;> simp

@[simp] theorem accrdOp_ports {d : Reg} {t : BitVec 8} {b : Src} : keepsPorts s (s.accrdOp d t b) := by
  refine tileOp_ports fun iss c r => ?_
  simp

/-! ### Matrix operations and rounds -/

@[simp] theorem sumOp_ports {o : MatrixOp} {hi : Nat} : (s.sumOp o hi).ports = s.ports := rfl

@[simp] theorem mmaOp_ports {sparse : Bool} {cv : Option (Fin 8)} {t : BitVec 8} {ab : ObsPair} {b : Src} :
    keepsPorts s (s.mmaOp sparse cv t ab b) := by
  refine matrixOp_ports fun iss c r => Eff.ite_ports rfl (Eff.ite_ports rfl (Eff.ite_ports rfl (Eff.ite_ports rfl ?_)))
  dsimp only
  split <;> simp

@[simp] theorem signOp_ports {d : Reg} {n : Fin 8} {b : Src} : keepsPorts s (s.signOp d n b) := by
  refine matrixOp_ports fun iss c r => ?_
  simp

@[simp] theorem removeOp_ports {o : MatrixOp} : (s.removeOp o).ports = s.ports := rfl

@[simp] theorem completeOp_ports {o : MatrixOp} : (s.completeOp o).ports = s.ports := by
  unfold State.completeOp
  dsimp only
  split <;> simp

@[simp] theorem recordProgress_ports {o : MatrixOp} {kdone : Nat} {ks : List CtxKey} :
    (ks.foldl (fun s k => s.recordProgress o kdone k) (s.sumOp o kdone)).ports = s.ports := by
  simp [State.recordProgress]

@[simp] theorem stopOp_ports {o : MatrixOp} : (s.stopOp o).ports = s.ports := by
  unfold State.stopOp
  dsimp only
  split
  · simp
  · split <;> simp

@[simp] theorem columnFault_ports {k : CtxKey} : (s.columnFault k).ports = s.ports := by
  unfold State.columnFault
  split <;> simp

@[simp] theorem fenceBeam_ports {core : CoreId} : (s.fenceBeam core).ports = s.ports := by
  refine (foldl_ports fun _ _ => columnFault_ports).trans ((foldl_ports fun s o => ?_).trans rfl)
  split <;> rfl

@[simp] theorem fenceColumn_ports {o : MatrixOp} {kdone column tick : Nat} :
    (s.fenceColumn o kdone column tick).ports = s.ports := by simp [State.fenceColumn]

@[simp] theorem execMatrixOperationComplete_ports {core : CoreId} {residue : Residue} :
    keepsPorts s (execMatrixOperationComplete core residue s) := by
  unfold execMatrixOperationComplete
  (repeat' split) <;> simp

/-! ### Traps, interrupts and services -/

@[simp] theorem unpark_ports {c : Ctx} : (s.unpark c).ports = s.ports := by
  unfold State.unpark
  split <;> simp

@[simp] theorem execUserInterrupt_ports {key : CtxKey} : keepsPorts s (execUserInterrupt key s) := by
  unfold execUserInterrupt
  split
  · rfl
  · rw [keepsPorts_ite]
    dsimp only
    split
    · split <;> simp
    · rfl

@[simp] theorem execTrap64_ports {n : BitVec 8} : keepsPorts s (execTrap64 n s) := by
  refine withIssue_ports fun iss c => ?_
  simp

@[simp] theorem execEret_ports  : keepsPorts s (execEret s) := by
  refine withIssue_ports fun iss c => ?_
  simp

@[simp] theorem execUimask_ports {d : Reg} {a b : UniformOp} : keepsPorts s (execUimask d a b s) := by
  refine withIssue_ports fun iss c => ?_
  simp

@[simp] theorem creditTimer_ports {launch : Word} {w : Nat} : (s.creditTimer launch w).ports = s.ports := by
  simp [State.creditTimer]

@[simp] theorem execPulse_ports  : keepsPorts s (execPulse s) := by
  refine withIssueIf_ports fun iss c => ?_
  simp

@[simp] theorem execCkpt64_ports  : keepsPorts s (execCkpt64 s) := by
  refine withIssueIf_ports fun iss c => ?_
  simp

@[simp] theorem svcOp_ports {d : Quad} {a : SPair} {b : Src} {n : BitVec 8} : keepsPorts s (s.svcOp d a b n) := by
  refine withIssue_ports fun iss c => ?_
  simp

@[simp] theorem execTrapSlotGrant_ports {board : Nat} : keepsPorts s (execTrapSlotGrant board s) := by
  unfold execTrapSlotGrant
  dsimp only
  split <;> simp

@[simp] theorem serviceResume_ports {c : Ctx} : (s.serviceResume c).ports = s.ports := by simp [State.serviceResume]

@[simp] theorem serviceRetire_ports {c : Ctx} : (s.serviceRetire c).ports = s.ports := by
  have hs := exitLeaves_ports (k := c.key) (m := c.arch.sysSet) 64 (s.release c.key .dev)
  unfold State.serviceRetire
  split
  · next e => rw [e] at hs; simpa using hs
  · next e => rw [e] at hs; simpa using hs

@[simp] theorem execSystemServiceComplete_ports {key : CtxKey} {choice : ServiceChoice} :
    keepsPorts s (execSystemServiceComplete key choice s) := by
  unfold execSystemServiceComplete
  (repeat' split) <;> simp

@[simp] theorem svcReply_ports {k : CtxKey} {value : DWord} {status : Word} :
    (s.svcReply k value status).ports = s.ports := by simp [State.svcReply]

theorem serve_ports {key : CtxKey} {ok : BitVec 8 → Bool} {f : Ctx → DWord → Word → State} (hf : ∀ c a b, (f c a b).ports = s.ports) :
    keepsPorts s (s.serve key ok f) := by
  unfold State.serve
  (repeat' split) <;> simp [hf]

@[simp] theorem zeroDev_ports {off n : Nat} : (s.zeroDev off n).ports = s.ports := rfl

@[simp] theorem serveAlloc_ports {key : CtxKey} {choice : Option (Nat × Nat)} {c : Ctx} {a : DWord} {b : Word} :
    (s.serveAlloc key choice c a b).ports = s.ports := by
  unfold State.serveAlloc
  (repeat' split) <;> simp

@[simp] theorem serveFree_ports {key : CtxKey} {c : Ctx} {a : DWord} {b : Word} :
    (s.serveFree key c a b).ports = s.ports := by simp [State.serveFree]

@[simp] theorem servePost_ports {key : CtxKey} {c : Ctx} {a : DWord} {b : Word} : (s.servePost key c a b).ports = s.ports := by
  unfold State.servePost
  (repeat' split) <;> simp

@[simp] theorem completeService_ports {key : CtxKey} : (s.completeService key).ports = s.ports := by
  unfold State.completeService
  (repeat' split) <;> simp

/-! ### Queues and launches -/

@[simp] theorem noteMap_ports {a : Accessor} : ∀ (n : Nat) (va : DWord) (s : State), (s.noteMap a va n).ports = s.ports
  | 0, _, _ => rfl
  | n + 1, va, s => by
    unfold State.noteMap
    split <;> simp [noteMap_ports n]

@[simp] theorem dropRejected_ports {order : Nat} : (s.dropRejected order).ports = s.ports := by simp [State.dropRejected]

@[simp] theorem acceptPacket_ports {p : Pending} {map : List CoreId} :
    (s.acceptPacket p map).ports = s.ports := by simp [State.acceptPacket]

@[simp] theorem execLaunchCheck_ports {order : Nat} : keepsPorts s (execLaunchCheck order s) := by
  unfold execLaunchCheck
  (repeat' split) <;> simp

@[simp] theorem openWindow_ports {launch : Word} {core : CoreId} {pw : Word} {tbase : DWord} :
    (s.openWindow launch core pw tbase).ports = s.ports := by simp [State.openWindow]

@[simp] theorem startCtx_ports {key : CtxKey} {launch : Word} {kind : CtxKind} {w index : Nat} {pair : Option (Fin 32)} {ar : Arch} :
    (s.startCtx key launch kind w index pair ar).ports = s.ports := by simp [State.startCtx]

@[simp] theorem startThreads_ports {o : CodeObject} {pkt : BitVec 1536} {launch : Word} {core : CoreId} {w : Nat} :
    ∀ (n i : Nat) (s : State), (s.startThreads o pkt launch core w i n).ports = s.ports
  | 0, _, _ => rfl
  | n + 1, i, s => by
    unfold State.startThreads
    split <;> simp [startThreads_ports n]

@[simp] theorem startGangs_ports {o : CodeObject} {pkt : BitVec 1536} {launch : Word} {core : CoreId} {w : Nat} :
    ∀ (n i : Nat) (s : State), (s.startGangs o pkt launch core w i n).ports = s.ports
  | 0, _, _ => rfl
  | n + 1, i, s => by
    unfold State.startGangs
    (repeat' split) <;> simp [startGangs_ports n]

@[simp] theorem placeGroup_ports {o : CodeObject} {pkt : BitVec 1536} {launch : Word} {core : CoreId} {w : Nat} :
    (s.placeGroup o pkt launch core w).ports = s.ports := by simp [State.placeGroup]

@[simp] theorem placeGroups_ports {o : CodeObject} {pkt : BitVec 1536} {launch : Word} :
    ∀ (cs : List CoreId) (w : Nat) (s : State), (s.placeGroups o pkt launch w cs).ports = s.ports
  | [], _, _ => rfl
  | c :: cs, w, s => by simp [State.placeGroups, placeGroups_ports cs]

@[simp] theorem openDemand_ports {o : CodeObject} {pkt : BitVec 1536} {launch : Word} {d : Demand} :
    (s.openDemand o pkt launch d).ports = s.ports := by simp [State.openDemand]

@[simp] theorem dispatchLaunch_ports {p : Pending} {o : CodeObject} :
    (s.dispatchLaunch p o).ports = s.ports := by simp [State.dispatchLaunch]

@[simp] theorem finishLaunch_ports {l : Launch} {state : Nat} {code : BitVec 8} :
    (s.finishLaunch l state code).ports = s.ports := by simp [State.finishLaunch]

@[simp] theorem execLaunchDone_ports {n : Word} : keepsPorts s (execLaunchDone n s) := by
  unfold execLaunchDone
  split <;> simp

@[simp] theorem killLaunch_ports {n : Word} {code : Code} : (s.killLaunch n code).ports = s.ports := by
  unfold State.killLaunch
  split <;> simp

/-! ### Tags and MWAIT -/

@[simp] theorem modTag_ports {uid : Nat} {t : Fin 64} {f : Tag → Tag} : (s.modTag uid t f).ports = s.ports := rfl

@[simp] theorem enterJob_ports {c : Ctx} {card : BitVec 2048} {t : Fin 64} : (s.enterJob c card t).ports = s.ports := rfl

@[simp] theorem submitOp_ports {collOk : BitVec 2048 → Bool} {kinds : List Nat} {sc : Scope} {d : Reg} {a : SPair} {t : Fin 64} :
    keepsPorts s (s.submitOp collOk kinds sc d a t) := by
  refine withIssue_ports fun iss c => guarded_ports (andThen_ports rfl fun _ => andThen_ports (by simp) fun x => ?_)
  simp

@[simp] theorem parkAt_ports {k : CtxKey} {w : Wait} : (s.parkAt k w).ports = s.ports := by simp [State.parkAt]

@[simp] theorem tagOp_ports {d : Reg} {a : SPair} {f : Arch → DWord → Option (Word × Bool)} : keepsPorts s (s.tagOp d a f) := by
  refine withIssue_ports fun iss c => guarded_ports ?_
  (repeat' split) <;> simp

@[simp] theorem mwaitRead_ports {c : Ctx} {exec : BitVec 64} {va x next : DWord} {p : Place} {d : Pair} {sc : Scope}
    {deadline : Option Nat} :
    (s.mwaitRead c exec va p d x sc deadline next).ports = s.ports := by simp [State.mwaitRead]

@[simp] theorem mwaitPage_ports {k : CtxKey} {w : PageWait} {va x next : DWord} {d : Pair} {sc : Scope} {deadline : Option Nat} :
    (s.mwaitPage k w va d x sc deadline next).ports = s.ports := by simp [State.mwaitPage]

@[simp] theorem execMwait_ports {sc : Scope} {limit : Fin 41} {d : Pair} {a b : SPair} : keepsPorts s (execMwait sc limit d a b s) := by
  refine withIssue_ports fun iss c => guarded_ports ?_
  dsimp only
  split <;> simp

@[simp] theorem mwaitAgain_ports {k : CtxKey} {may : Ctx → Option Place → Option Nat → Nat → Bool} :
    (s.mwaitAgain k may).ports = s.ports := by
  unfold State.mwaitAgain
  (repeat' split) <;> simp

/-! ### Verdicts and threshold cells -/

@[simp] theorem verdictOp_ports {d : Reg} {a : SvReg} {f : Word → Word} : keepsPorts s (s.verdictOp d a f) := by
  refine withIssue_ports fun iss c => guarded_ports ?_
  (repeat' split) <;> simp

@[simp] theorem endLanewise_ports {iss : Issue} {c : Ctx} {once : Bool} {fs : List LaneFault} {write : Arch → Arch} :
    (s.endLanewise iss c once fs write).state.ports = s.ports := by
  unfold State.endLanewise
  split <;> simp

theorem commitLanewise_ports {k : CtxKey} {pushes : List Push} : ∀ {e : Eff}, e.state.ports = s.ports →
    (Eff.state (match e with
      | .done s => .done (match s.ctx? k with
        | some c => s.commit c c.arch pushes
        | none => s)
      | e => e)).ports = s.ports
  | .trap _ _, h => h
  | .done t, h => by
    refine Eq.trans ?_ h
    dsimp only [Eff.state]
    split <;> simp

@[simp] theorem execVhdr_ports {ty : VerdictTy} {d : Reg} {a : Pair} : keepsPorts s (execVhdr ty d a s) := by
  refine withIssue_ports fun iss c => guarded_ports ?_
  dsimp only
  split
  · exact parkPages_ports
  · exact withStreams_ports fun _ _ _ => Eff.ite_ports rfl (commitLanewise_ports (by simp))

@[simp] theorem recordVdot_ports {k : CtxKey} {r : Option VdotRecord} : (s.recordVdot k r).ports = s.ports := rfl

@[simp] theorem keepVdot_ports {k : CtxKey} {iss : Issue} {lanes : List VdotLane} : (s.keepVdot k iss lanes).ports = s.ports := rfl

@[simp] theorem execVdot_ports {m : VdotMode} {slot : Fin 8} {d : Reg} {a : Pair} {b cc : SPair} :
    keepsPorts s (execVdot m slot d a b cc s) := by
  refine withIssue_ports fun iss c => guarded_ports (Eff.ite_ports rfl (Eff.ite_ports rfl ?_))
  dsimp only
  split
  · simp
  · simp
  · exact Eff.ite_ports (by simp) (withStreams_ports fun _ _ _ => Eff.ite_ports rfl (commitLanewise_ports (by simp)))

@[simp] theorem execThsBind_ports {n : Fin 8} {a : SPair} : keepsPorts s (execThsBind n a s) := by
  refine withIssue_ports fun iss c => guarded_ports (Eff.ite_ports rfl ?_)
  split <;> simp

@[simp] theorem raiseAll_ports {c : Ctx} {va : DWord} {p : Place} {y : Nat → Word} :
    ∀ (is : List Nat) (s : State), (s.raiseAll c va p y is).1.ports = s.ports
  | [], _ => rfl
  | i :: is, s => by simp [State.raiseAll, raiseAll_ports is]

theorem raisedLanes_ports {k : CtxKey} : ∀ {e : Eff}, e.state.ports = s.ports →
    (Eff.state (match e with
      | .done s => .done (s.checkpoint k)
      | e => e)).ports = s.ports
  | .trap _ _, h => h
  | .done _, h => by simpa using h

@[simp] theorem raiseOp_ports {d : Pair} {n : Fin 8} {b : Src} : keepsPorts s (s.raiseOp d n b) := by
  refine withIssue_ports fun iss c => guarded_ports ?_
  split
  · rfl
  · refine withStreams_ports fun pops pushes ar => Eff.ite_ports (by simp) ?_
    dsimp only
    split
    · simp
    · simp
    · exact raisedLanes_ports (by simp)

@[simp] theorem execThsRead_ports {d : Pair} {n : Fin 8} : keepsPorts s (execThsRead d n s) := by
  refine withIssue_ports fun iss c => guarded_ports ?_
  (repeat' split) <;> simp

/-! ### Barriers and cross-lane operations -/

@[simp] theorem logArrival_ports {c : Ctx} {record : List Byte} : (s.logArrival c record).ports = s.ports := by
  unfold State.logArrival
  split <;> simp

@[simp] theorem barWait_ports {iss : Issue} {k : CtxKey} {sc : Scope} {d : Reg} {p : Place} {phase : Word} :
    (s.barWait iss k sc d p phase).ports = s.ports := by simp [State.barWait]

@[simp] theorem arrive_ports {sc : Scope} {d : Reg} {iss : Issue} {c : Ctx} {addr : DWord} {p : Place} :
    (execBar64.arrive sc d s iss c addr p).state.ports = s.ports := by
  refine Eff.ite_ports ?_ (by simp)
  simp

@[simp] theorem execBar64_ports {sc : Scope} {d : Reg} {a : SPair} : keepsPorts s (execBar64 sc d a s) := by
  refine withIssue_ports fun iss c => guarded_ports ?_
  dsimp only
  split
  · rfl
  · simp
  · split
    · exact Eff.ite_ports (by simp) arrive_ports
    · exact arrive_ports

@[simp] theorem crossOp_ports {nm : Names} {d a : Reg} {mask : Option (Fin 64)} {ty : RedTy} {whole : Bool} {effect : BitVec 64 → List
    (Nat × Word) → Arch → Arch} :
    keepsPorts s (s.crossOp nm d mask a ty whole effect) := by
  refine withIssue_ports fun iss c => guarded_ports (withStreams_ports fun pops pushes ar => ?_)
  dsimp only
  split <;> simp

@[simp] theorem execShfl_ports {var : ShflVar} {d a : Reg} {b : Operand} : keepsPorts s (execShfl var d a b s) := by
  refine withIssue_ports fun iss c => ?_
  simp

@[simp] theorem sortOp_ports {desc : Bool} {mask : Option (Fin 64)} {d : Pair} {src : List VPair} :
    keepsPorts s (s.sortOp desc mask d src) := by
  refine withIssue_ports fun iss c => ?_
  simp

/-! ### Collectives -/

@[simp] theorem noteJobReads_ports {j : Job} {n : Nat} : ∀ (m : Nat) (va : Int) (s : State), (s.noteJobReads j va n m).ports = s.ports
  | 0, _, _ => rfl
  | m + 1, va, s => by
    unfold State.noteJobReads
    split <;> simp [noteJobReads_ports m]

@[simp] theorem noteRanks_ports {js : List Job} : (s.noteRanks js).ports = s.ports := by simp [State.noteRanks]

/-! ### Translation -/

@[simp] theorem settlePage_ports {w : PageWait} {code : Option Code} : (s.settlePage w code).ports = s.ports := by
  refine foldl_ports fun s o => ?_
  split <;> simp

@[simp] theorem requestPage_ports {w : PageWait} : (s.requestPage w).ports = s.ports := by simp [State.requestPage]

@[simp] theorem cacheTranslation_ports {die : Fin 4} {pasid : BitVec 20} {page base log2 : Nat} {write : Bool} :
    (s.cacheTranslation die pasid page base log2 write).ports = s.ports := by simp [State.cacheTranslation]

@[simp] theorem holdPage_ports {w : PageWait} {e : TlbEntry} : (s.holdPage w e).ports = s.ports := rfl

@[simp] theorem execAtsCompletion_ports {die : Fin 4} {pasid : BitVec 20} {page : Nat} {ans : AtsAnswer} :
    keepsPorts s (execAtsCompletion die pasid page ans s) := by
  unfold execAtsCompletion
  split <;> simp

@[simp] theorem execPriResponse_ports {die : Fin 4} {pasid : BitVec 20} {page : Nat} {ans : PriAnswer} :
    keepsPorts s (execPriResponse die pasid page ans s) := by
  unfold execPriResponse
  split <;> simp

@[simp] theorem dropRange_ports {i : Invalidation} : (s.dropRange i).ports = s.ports := by simp [State.dropRange]

@[simp] theorem settleInvals_ports  : s.settleInvals.ports = s.ports := by simp [State.settleInvals]

@[simp] theorem execAtsInvalidation_ports {pasid : BitVec 20} {page pages : Nat} :
    keepsPorts s (execAtsInvalidation pasid page pages s) := by simp [execAtsInvalidation]

/-! ### Errors of storage and replies -/

@[simp] theorem execScrubPass_ports {stack : Fin 12} {corrected : List Nat} :
    keepsPorts s (execScrubPass stack corrected s) := by simp [execScrubPass]

@[simp] theorem killPasid_ports {pasid : BitVec 20} {code : Code} : (s.killPasid pasid code).ports = s.ports := by simp [State.killPasid]

@[simp] theorem recordBank_ports {bank : Nat} : (s.recordBank bank).ports = s.ports := rfl

@[simp] theorem execMachineCheck_ports {u : CacheUnit} {pasid : BitVec 20} {line : Nat} :
    keepsPorts s (execMachineCheck u pasid line s) := by
  unfold execMachineCheck
  (repeat' split) <;> simp

@[simp] theorem execMemoryReply_ports {key : CtxKey} {errors : List Nat} {corrected : List Slice} :
    keepsPorts s (execMemoryReply key errors corrected s) := by
  unfold execMemoryReply
  (repeat' split) <;> simp

@[simp] theorem hostAtomic_ports {pasid : BitVec 20} {op : AtomicOp} {n pa : Nat} {x : Access} :
    (s.hostAtomic pasid op n pa x).1.ports = s.ports := by
  dsimp only [State.hostAtomic]
  (repeat' split) <;> simp

/-! ### Accesses from outside the package -/

@[simp] theorem outsideAccess_ports {req : OutsideReq} : (s.outsideAccess req).1.ports = s.ports := by
  dsimp only [State.outsideAccess]
  (repeat' split) <;> simp

@[simp] theorem answerOutside_ports {req : OutsideReq} : (s.answerOutside req).ports = s.ports := by simp [State.answerOutside]

@[simp] theorem serveOutside_ports {event : Instr} {req : OutsideReq} :
    (s.serveOutside event req).ports = s.ports := by simp [State.serveOutside]

@[simp] theorem remoteWrite_ports {pkg off n : Nat} {x : BitVec 128} :
    (s.remoteWrite pkg off n x).ports = s.ports := by simp [State.remoteWrite]

@[simp] theorem execDomainRequest_ports {pkg : Nat} {pasid : BitVec 20} {req : OutsideReq} :
    keepsPorts s (execDomainRequest pkg pasid req s) := by
  unfold execDomainRequest
  (repeat' split) <;> simp

@[simp] theorem execSnoop_ports {line : Nat} {bytes : List (Nat × Byte)} : keepsPorts s (execSnoop line bytes s) := by simp [execSnoop]

/-! ### Links -/

@[simp] theorem losePeers_ports {before : List Nat} : (s.losePeers before).ports = s.ports := by simp [State.losePeers]

@[simp] theorem execLinkFailure_ports {port : Fin 72} : keepsPorts s (execLinkFailure port s) := by simp [execLinkFailure]

/-! ### Pre-emption -/

@[simp] theorem withdraw_ports {c : Ctx} {n : Fin 8} : (s.withdraw c n).ports = s.ports := rfl

@[simp] theorem takePoint_ports {k : CtxKey} : (s.takePoint k).ports = s.ports := by
  dsimp only [State.takePoint]
  (repeat' split) <;> simp

@[simp] theorem landAll_ports {n : Word} : (s.landAll n).ports = s.ports := by
  refine (foldl_ports fun s c => ?_).trans (foldl_ports fun _ (c : Ctx) => checkpoint_ports c.key)
  split
  · rfl
  · split <;> simp

@[simp] theorem stopTimers_ports {n : Word} : (s.stopTimers n).ports = s.ports := rfl

@[simp] theorem retimed_ports {t : State} : (t.retimed s).ports = t.ports := rfl

@[simp] theorem writeSaveArea_ports {n : Word} {why : Nat} {cs : List Ctx} : (s.writeSaveArea n why cs).ports = s.ports := rfl

@[simp] theorem saveLaunch_ports {n : Word} {why : Nat} : (s.saveLaunch n why).ports = s.ports := by simp [State.saveLaunch]

@[simp] theorem preempt_ports {n : Word} {why : Nat} : (s.preempt n why).ports = s.ports := by simp [State.preempt]

@[simp] theorem stopAborted_ports {n : Word} : (s.stopAborted n).ports = s.ports := by simp [State.stopAborted]

@[simp] theorem execAbortComplete_ports {n : Word} : keepsPorts s (execAbortComplete n s) := by
  unfold execAbortComplete
  (repeat' split) <;> simp

@[simp] theorem execPreemption_ports {n : Word} : keepsPorts s (execPreemption n s) := by
  unfold execPreemption
  split <;> simp

@[simp] theorem execLaunchDispatch_ports {order : Nat} : keepsPorts s (execLaunchDispatch order s) := by
  unfold execLaunchDispatch
  (repeat' split) <;> simp

@[simp] theorem restoreCtx_ports {c : Ctx} : (s.restoreCtx c).ports = s.ports := by
  dsimp only [State.restoreCtx]
  (repeat' split) <;> simp

@[simp] theorem restoreLaunch_ports {l : Launch} : (s.restoreLaunch l).ports = s.ports := by simp [State.restoreLaunch]

@[simp] theorem execRestore_ports {n : Word} {moves : List (CoreId × CoreId)} : keepsPorts s (execRestore n moves s) := by
  unfold execRestore
  split <;> simp

@[simp] theorem execWatchdogFire_ports {n : Word} : keepsPorts s (execWatchdogFire n s) := by
  unfold execWatchdogFire
  split <;> simp

@[simp] theorem execCheckpointCountExpiry_ports {key : CtxKey} : keepsPorts s (execCheckpointCountExpiry key s) := by
  unfold execCheckpointCountExpiry
  split <;> simp

/-! ### Self-tests -/

@[simp] theorem fenceCores_ports {cs : List CoreId} : (s.fenceCores cs).ports = s.ports := by simp [State.fenceCores]

@[simp] theorem leaveEntry_ports {uid : Nat} : (s.leaveEntry uid).ports = s.ports := by simp [State.leaveEntry]

@[simp] theorem backToCheckpoint_ports {k : CtxKey} : (s.backToCheckpoint k).ports = s.ports := by
  dsimp only [State.backToCheckpoint]
  (repeat' split) <;> simp

@[simp] theorem moveAway_ports {core : CoreId} {k : CtxKey} : (s.moveAway core k).ports = s.ports := by simp [State.moveAway]

@[simp] theorem failPair_ports {t : SelfTest} {core : CoreId} {choice : FaultAction} : (s.failPair t core choice).ports = s.ports := by
  dsimp only [State.failPair]
  (repeat' split) <;> simp

@[simp] theorem passPair_ports {t : SelfTest} : (s.passPair t).ports = s.ports := by
  unfold State.passPair
  split <;> simp

@[simp] theorem endColumn_ports {t : SelfTest} {core : CoreId} {passed : Bool} {choice : FaultAction} :
    (s.endColumn t core passed choice).ports = s.ports := by
  dsimp only [State.endColumn]
  (repeat' split) <;> simp

@[simp] theorem endStorage_ports {t : SelfTest} {x : Slice} {passed : Bool} :
    (s.endStorage t x passed).ports = s.ports := by simp [State.endStorage]

@[simp] theorem execSelfTestComplete_ports {n : Nat} {passed : Bool} {choice : FaultAction} :
    keepsPorts s (execSelfTestComplete n passed choice s) := by
  unfold execSelfTestComplete
  (repeat' split) <;> simp

@[simp] theorem execFencedSliceClear_ports {x : Slice} : keepsPorts s (execFencedSliceClear x s) := by simp [execFencedSliceClear]

/-! ### Special registers -/

@[simp] theorem promaOp_ports {d : Reg} {a b : Src} : keepsPorts s (s.promaOp d a b) := by
  refine withIssue_ports fun iss c => ?_
  simp

@[simp] theorem execPromv_ports {d : Reg} {a : SaOp} : keepsPorts s (execPromv d a s) := by
  refine withIssue_ports fun iss c => ?_
  simp

@[simp] theorem demOp_ports {check : Bool} {d : Reg} {a : Fin 64} : keepsPorts s (s.demOp check d a) := by
  refine withIssue_ports fun iss c => ?_
  simp

@[simp] theorem execMovxr_ports {x : XReg} {d : Reg} : keepsPorts s (execMovxr x d s) := by
  refine withIssue_ports fun iss c => ?_
  simp

@[simp] theorem modPerm_ports {c : Ctx} {v : DWord} :
    (s.modRegion c.key.core c.launch c.group fun g => { g with perm := v }).ports = s.ports := rfl

@[simp] theorem execMovxw_ports {x : XReg} {a : SvReg} : keepsPorts s (execMovxw x a s) := by
  refine withIssue_ports fun iss c => ?_
  dsimp only
  split
  · refine guarded_ports ?_
    split <;> simp
  · exact guarded_ports (by simp)
  · exact simple_ports

/-! ### Fetching and fills -/

@[simp] theorem fetchText_ports {c : Ctx} {pc : DWord} {n : Nat} : (s.fetchText c pc n).ports = s.ports := by simp [State.fetchText]

@[simp] theorem armCores_ports  : s.armCores.ports = s.ports := rfl

@[simp] theorem takeCmp_ports {n : Word} {cmp : Fin 8} : (s.takeCmp n cmp).ports = s.ports := rfl

@[simp] theorem debugStop_ports {k : CtxKey} {d : DebugStop} : (s.debugStop k d).ports = s.ports := by
  simp [State.debugStop]

@[simp] theorem noteIssue_ports {k : CtxKey} : (s.noteIssue k).ports = s.ports := rfl

@[simp] theorem execDebugStop_ports {key : CtxKey} : keepsPorts s (execDebugStop key s) := by
  unfold execDebugStop
  (repeat' split) <;> simp

@[simp] theorem execInstructionFetch_ports {key : CtxKey} : keepsPorts s (execInstructionFetch key s) := by
  unfold execInstructionFetch
  (repeat' split) <;> simp

@[simp] theorem leaveFill_ports {f : Fill} {launch : Word} {core : CoreId} : (s.leaveFill f launch core).ports = s.ports := rfl

@[simp] theorem wakeFill_ports {launch : Word} {core : CoreId} : (s.wakeFill launch core).ports = s.ports := by simp [State.wakeFill]

@[simp] theorem fillFailed_ports {cs : List Ctx} : (s.fillFailed cs).ports = s.ports := by simp [State.fillFailed]

@[simp] theorem failFill_ports {f : Fill} {launch : Word} {core : CoreId} :
    (s.failFill f launch core).ports = s.ports := by simp [State.failFill]

@[simp] theorem execTextFillComplete_ports {launch : Word} {core : CoreId} {error : Bool} :
    keepsPorts s (execTextFillComplete launch core error s) := by
  unfold execTextFillComplete
  split <;> simp

/-! ### The debugger -/

@[simp] theorem execBkpt_ports {n : BitVec 8} : keepsPorts s (execBkpt n s) := by
  refine withIssue_ports fun iss c => ?_
  simp

@[simp] theorem execDebugResume_ports {key : CtxKey} : keepsPorts s (execDebugResume key s) := by
  unfold execDebugResume
  split
  · rfl
  · split <;> simp

@[simp] theorem debugWrite_ports {c : Ctx} {f : ContextReg} {v : DWord} : (s.debugWrite c f v).ports = s.ports := by
  unfold State.debugWrite
  split <;> simp

@[simp] theorem execRegisterWrite_ports {target : RegTarget} {v : DWord} : keepsPorts s (execRegisterWrite target v s) := by
  unfold execRegisterWrite
  (repeat' split) <;> simp

@[simp] theorem execDebuggerAttach_ports {n : Word} : keepsPorts s (execDebuggerAttach n s) := by simp [execDebuggerAttach]

@[simp] theorem execDebuggerDetach_ports {n : Word} : keepsPorts s (execDebuggerDetach n s) := by simp [execDebuggerDetach]

@[simp] theorem execBarrierLoggingEnable_ports {n : Word} {base nent : Nat} :
    keepsPorts s (execBarrierLoggingEnable n base nent s) := by simp [execBarrierLoggingEnable]

/-! ### The code heap -/

@[simp] theorem execUnload_ports {addr : DWord} : keepsPorts s (execUnload addr s) := by
  unfold execUnload
  (repeat' split) <;> simp

@[simp] theorem stopMatrix_ports {o : CodeObject} : (s.stopMatrix o).ports = s.ports := by
  refine foldl_ports fun s c => ?_
  simp only [ite_ports]
  split
  · split <;> simp
  · rfl

@[simp] theorem moveObject_ports {o : CodeObject} {target : Nat} : (s.moveObject o target).ports = s.ports := by simp [State.moveObject]

@[simp] theorem execCodeHeapCompaction_ports {object target : Nat} : keepsPorts s (execCodeHeapCompaction object target s) := by
  unfold execCodeHeapCompaction
  split <;> simp

@[simp] theorem packOne_ports {up : Bool} {t : State} (ht : s.packOne up = some t) : t.ports = s.ports := by
  obtain ⟨o, ho, hmove⟩ := List.exists_of_findSome?_eq_some ht
  obtain ⟨a, ha, rfl⟩ := Option.map_eq_some_iff.1 hmove
  simp

theorem pack_ports {up : Bool} {size : Nat} {t : State} : ∀ {n : Nat} {s : State}, s.pack up size n = some t → t.ports = s.ports
  | 0, _, ht => by simp [State.pack] at ht
  | n + 1, s, ht => by
    unfold State.pack at ht
    split at ht
    · simp at ht
    · next hs =>
      split at ht
      · exact Option.some.inj ht ▸ packOne_ports hs
      · exact (pack_ports ht).trans (packOne_ports hs)

theorem compact_ports {size : Nat} {t : State} : ∀ {n : Nat} {s : State}, State.compact size n s = some t → t.ports = s.ports
  | 0, s, ht => by
    unfold State.compact at ht
    split at ht
    · exact Option.some.inj ht ▸ rfl
    · simp at ht
  | n + 1, s, ht => by
    unfold State.compact at ht
    split at ht
    · exact Option.some.inj ht ▸ rfl
    · obtain ⟨o, ho, htargets⟩ := List.exists_of_findSome?_eq_some ht
      obtain ⟨a, ha, hmove⟩ := List.exists_of_findSome?_eq_some htargets
      split at hmove
      · simpa using compact_ports hmove
      · simp at hmove

@[simp] theorem makeRoom_ports {size : Nat} : (s.makeRoom size).ports = s.ports := by
  unfold State.makeRoom
  rw [ite_ports]
  split
  · rfl
  · split
    · next ht => exact pack_ports ht
    · split
      · next ht => exact pack_ports ht
      · cases hfound : (List.range (Config.forwardMax + 1)).findSome? fun n => State.compact size n s with
        | none => rfl
        | some t =>
          obtain ⟨n, hn, ht⟩ := List.exists_of_findSome?_eq_some hfound
          exact compact_ports ht

@[simp] theorem execLoad_ports {image : List Byte} {place : Nat} : keepsPorts s (execLoad image place s) := by
  unfold execLoad
  extract_lets answer room
  have hroom : room.ports = s.ports := by simp [room]
  simp only [keepsPorts_ite]
  split
  · rfl
  · split
    · rfl
    · split
      · exact hroom
      · exact hroom

/-! ### The package -/

@[simp] theorem spdmAnswer_ports {req answer : List Byte} : (s.spdmAnswer req answer).ports = s.ports := rfl

@[simp] theorem spdmServe_ports {req answer : List Byte} {needs able : Bool} :
    keepsPorts s (s.spdmServe req needs able answer) := by simp [State.spdmServe]

@[simp] theorem execGetVersion_ports {req : List Byte} : keepsPorts s (execGetVersion req s) := by simp [execGetVersion]

@[simp] theorem execNegotiateAlgorithms_ports {head fixed ext : List Byte} :
    keepsPorts s (execNegotiateAlgorithms head fixed ext s) := by simp [execNegotiateAlgorithms]

@[simp] theorem execChallenge_ports {req : List Byte} : keepsPorts s (execChallenge req s) := by
  exact spdmServe_ports (s := { s with freeCtr := _ })

@[simp] theorem execGetMeasurements_ports {req : List Byte} : keepsPorts s (execGetMeasurements req s) := by
  exact spdmServe_ports (s := { s with freeCtr := _ })

@[simp] theorem execPolicyWrite_ports {w : PolicyWrite} : keepsPorts s (execPolicyWrite w s) := by
  exact retimed_ports

@[simp] theorem execPowerTargetWrite_ports {watts : Nat} : keepsPorts s (execPowerTargetWrite watts s) := by simp [execPowerTargetWrite]

@[simp] theorem execSamplingPulse_ports  : keepsPorts s (execSamplingPulse s) := by simp [execSamplingPulse]

/-! ### Register, control and stream instructions -/

@[simp] theorem intOp_ports {readsD : Bool} {d : Reg} {a b e : Src} {ty : RType} {aff : AReg → AReg → AReg → AReg}
    {f : Word → Word → Word → Word → Word} :
    keepsPorts s (s.intOp readsD d a b e ty aff f) := by
  refine withIssue_ports fun iss c => guarded_ports ?_
  (repeat' split) <;> simp

@[simp] theorem maskOp_ports {d : Reg} {a b : Src} {p : Word → Word → Bool} : keepsPorts s (s.maskOp d a b p) := by
  refine withIssue_ports fun iss c => ?_
  simp

@[simp] theorem control_ports {kind : LastBranch} {nm : Names} {whole : Bool} {body : Issue → Arch → Arch} :
    keepsPorts s (s.control kind nm whole body) := by
  refine withIssueIf_ports fun iss c => ?_
  simp

@[simp] theorem brmOp_ports {t : MaskTest} {a : Fin 64} {disp : DWord} : keepsPorts s (s.brmOp t a disp) := by
  refine withIssueIf_ports fun iss c => ?_
  simp

@[simp] theorem nopOp_ports  : keepsPorts s s.nopOp := by
  refine withIssueIf_ports fun iss c => ?_
  simp

@[simp] theorem meetOp_ports {disp : DWord} : keepsPorts s (s.meetOp disp) := by
  refine withIssue_ports fun iss c => ?_
  simp

@[simp] theorem floatOp_ports {readsD : Bool} {d : Reg} {a b e : Src} {fs : List Src} {f : Arch → Word → Word → Word → Word → Word × Word} :
    keepsPorts s (s.floatOp readsD d a b e fs f) := by
  refine withIssue_ports fun iss c => ?_
  simp

@[simp] theorem floatOp1_ports {d : Reg} {a : Src} {f : Rm → Word → Word × Word} :
    keepsPorts s (s.floatOp1 d a f) := by simp [State.floatOp1]

@[simp] theorem floatOp2_ports {d : Reg} {a b : Src} {f : Rm → Word → Word → Word × Word} :
    keepsPorts s (s.floatOp2 d a b f) := by simp [State.floatOp2]

@[simp] theorem fcmpmOp_ports {cond : FCond} {d : Reg} {a b : Src} : keepsPorts s (s.fcmpmOp cond d a b) := by
  refine withIssue_ports fun iss c => ?_
  simp

@[simp] theorem prefetchOp_ports {f : AddrForm} : keepsPorts s (s.prefetchOp f) := by
  refine withIssueIf_ports fun iss c => ?_
  simp

@[simp] theorem execIterInit_ports {slot : Fin 2} {d : Reg} {a : SPair} : keepsPorts s (execIterInit slot d a s) := by
  refine withIssue_ports fun iss c => Eff.ite_ports rfl (guarded_ports (andThen_ports rfl fun _ => ?_))
  simp

@[simp] theorem iterate_ports {iss : Issue} {c : Ctx} {slot : Fin 2} {l : Nat} {body taken empty : DWord} :
    (s.iterate iss c slot l body taken empty).state.ports = s.ports := by
  refine guarded_ports (Eff.ite_ports (withStreams_ports fun _ _ _ => Eff.ite_ports rfl (by simp)) ?_)
  split <;> simp

@[simp] theorem iterNextOp_ports {slot : Fin 2} {disp : DWord} : keepsPorts s (s.iterNextOp slot disp) := by
  refine withIssue_ports fun iss c => ?_
  simp

@[simp] theorem execIterStep_ports {slot : Fin 2} : keepsPorts s (execIterStep slot s) := by
  refine withIssue_ports fun iss c => ?_
  simp

@[simp] theorem execStrmOpen_ports {d : Reg} {a : SPair} {st : Fin 8} : keepsPorts s (execStrmOpen d a st s) := by
  refine withIssue_ports fun iss c => Eff.ite_ports rfl (guarded_ports (andThen_ports rfl fun _ => ?_))
  simp

@[simp] theorem execStrmClose_ports {st : Fin 8} : keepsPorts s (execStrmClose st s) := by
  refine withIssueIf_ports fun iss c => ?_
  simp

@[simp] theorem execFence_ports {sc : Scope} : keepsPorts s (execFence sc s) := by
  refine withIssueIf_ports fun iss c => ?_
  simp

@[simp] theorem flushLine_ports {c : Ctx} {inv : Bool} {va : DWord} : (s.flushLine c inv va).ports = s.ports := by
  dsimp only [State.flushLine]
  (repeat' split) <;> simp

@[simp] theorem execCfl_ports {inv : Bool} {a : Pair} {b : Operand} : keepsPorts s (execCfl inv a b s) := by
  refine withIssueIf_ports fun iss c => guarded_ports (withStreams_ports fun _ _ _ => Eff.ite_ports (by simp) ?_)
  simp

@[simp] theorem execTagclr_ports {a : SPair} : keepsPorts s (execTagclr a s) :=
  withIssue_ports fun iss c => guarded_ports (by simp)

@[simp] theorem execJobst_ports {d : Reg} {tag : Fin 64} : keepsPorts s (execJobst d tag s) := by
  refine withIssue_ports fun iss c => ?_
  simp

@[simp] theorem execYield_ports  : keepsPorts s (execYield s) := by
  refine withIssueIf_ports fun iss c => ?_
  simp

@[simp] theorem execHostkill_ports {n : Word} : keepsPorts s (execHostkill n s) := by simp [execHostkill]

/-! ### A step -/

@[simp] theorem noteRounds_ports  : s.noteRounds.ports = s.ports := by
  unfold State.noteRounds
  rw [ite_ports]
  split
  · rfl
  · refine foldl_ports fun s core => ?_
    split <;> rfl

@[simp] theorem pass_ports  : s.pass.ports = s.ports := by simp [State.pass]

@[simp] theorem newCycle_ports  : s.newCycle.ports = s.ports := by simp [State.newCycle]

@[simp] theorem illegal_ports  : keepsPorts s s.illegal := by
  unfold State.illegal
  split <;> simp

end Sys2Proof.Machine
end

section
namespace Sys2Proof.Machine
variable {s t : State}

/-! ## Every step keeps the host ports lawful -/

/-! ### Changes of a host port -/

/-- A port that R42 allows: the reserved bits of HCAP are 0, and its speed is 0 exactly while the link is down. -/
structure Port.Lawful (p : Port) : Prop where
  reserved : p.hcap &&& 0xFFF0FC00 = 0
  speed : p.hcap.extractLsb' 16 4 = 0 ↔ p.mode = .down

/-- An outcome's next state has lawful ports. -/
def portsOk : Host.Outcome State Fault Refusal → Prop
  | .next t => portsWf t
  | .fault _ => True
  | .refused _ => True

theorem portsWf_of_ports (h : portsWf s) (ht : t.ports = s.ports) : portsWf t := by
  unfold portsWf
  rw [ht]
  exact h

theorem portsOk_of_keepsPorts {x : Host.Outcome State Fault Refusal} (h : portsWf s) (hx : keepsPorts s x) : portsOk x := by
  cases x with
  | next t => exact portsWf_of_ports h hx
  | fault => trivial
  | refused => trivial

theorem ite_portsOk {c : Prop} [Decidable c] {a b : Host.Outcome State Fault Refusal} (ha : portsOk a) (hb : portsOk b) :
    portsOk (if c then a else b) := by
  split
  · exact ha
  · exact hb

theorem ite_portsWf {c : Prop} [Decidable c] {a b : State} (ha : portsWf a) (hb : portsWf b) : portsWf (if c then a else b) := by
  split
  · exact ha
  · exact hb

theorem foldl_portsWf {α : Type} {f : State → α → State} (hf : ∀ {s} x, portsWf s → portsWf (f s x)) {xs : List α} (h : portsWf s) :
    portsWf (xs.foldl f s) :=
  List.foldlRecOn (motive := portsWf) xs f h fun _ ht x _ => hf x ht

theorem portsWf_iff : portsWf s ↔ s.ports[0].Lawful ∧ s.ports[1].Lawful ∧
    (s.ports[0].mode ≠ .down → s.ports[1].mode ≠ .down → s.ports[0].mode = s.ports[1].mode) := by
  constructor
  · rintro ⟨hlaw, hagree⟩
    exact ⟨⟨(hlaw 0).1, (hlaw 0).2⟩, ⟨(hlaw 1).1, (hlaw 1).2⟩, hagree⟩
  · rintro ⟨⟨hres0, hspeed0⟩, ⟨hres1, hspeed1⟩, hagree⟩
    exact ⟨Fin.forall_fin_two.2 ⟨⟨hres0, hspeed0⟩, ⟨hres1, hspeed1⟩⟩, hagree⟩

/-- A port whose other one is down, or in the same mode, may take any lawful content. -/
theorem portsWf_setPort {i : Fin 2} {q : Port} (h : portsWf s) (hq : q.Lawful)
    (hmode : q.mode ≠ .down → s.ports[1 - i].mode ≠ .down → q.mode = s.ports[1 - i].mode) :
    portsWf { s with ports := s.ports.set i q } := by
  obtain ⟨h0, h1, -⟩ := portsWf_iff.1 h
  rw [portsWf_iff]
  match i with
  | 0 => simpa [hq, h1] using hmode
  | 1 => simpa [hq, h0] using fun ho hi => (hmode hi ho).symm

theorem portsWf_setPort_sameMode {i : Fin 2} {q : Port} (h : portsWf s) (hq : q.Lawful) (hmode : q.mode = s.ports[i].mode) :
    portsWf { s with ports := s.ports.set i q } := by
  refine portsWf_setPort h hq fun hi ho => ?_
  obtain ⟨_, hagree⟩ := h
  rw [hmode] at hi ⊢
  match i with
  | 0 => exact hagree hi ho
  | 1 => exact (hagree ho hi).symm

theorem Port.lawful_of_portsWf (h : portsWf s) (i : Fin 2) : s.ports[i].Lawful := by
  obtain ⟨hlaw, -⟩ := h
  obtain ⟨hres, hspeed⟩ := hlaw i
  exact ⟨hres, hspeed⟩

/-- R44: clearing a bit that says which atomics the host takes keeps a port lawful. -/
theorem Port.Lawful.clearBit {p : Port} (h : p.Lawful) {b : Nat} (hb : b ∈ List.range' 3 7) :
    Port.Lawful { p with hcap := p.hcap &&& ~~~(1#32 <<< b) } := by
  obtain ⟨hres, hspeed⟩ := h
  have hkeep : (p.hcap &&& ~~~(1#32 <<< b)).extractLsb' 16 4 = p.hcap.extractLsb' 16 4 := by
    have hmask : ∀ b ∈ List.range' 3 7, (~~~(1#32 <<< b)).extractLsb' 16 4 = 15#4 := by decide
    rw [BitVec.extractLsb'_and, hmask b hb]
    exact BitVec.and_allOnes
  refine ⟨?_, hkeep ▸ hspeed⟩
  change (p.hcap &&& _) &&& _ = _
  rw [BitVec.and_assoc, BitVec.and_comm (~~~_), ← BitVec.and_assoc, hres]
  exact BitVec.zero_and

/-- R39: a link that goes down leaves its port without a speed. -/
theorem Port.Lawful.down {p : Port} (h : p.Lawful) : Port.Lawful { p with mode := .down, hcap := p.hcap &&& 0xFFF0FFFF } := by
  obtain ⟨hres, -⟩ := h
  refine ⟨?_, iff_of_true ?_ rfl⟩
  · change (p.hcap &&& _) &&& _ = _
    rw [BitVec.and_assoc, BitVec.and_comm (0xFFF0FFFF : Word), ← BitVec.and_assoc, hres]
    exact BitVec.zero_and
  · change (p.hcap &&& _).extractLsb' 16 4 = 0
    rw [BitVec.extractLsb'_and]
    exact BitVec.and_zero

/-- R42: training keeps only the bits of the atomics, and sets a speed. -/
theorem Port.Lawful.trained {p : Port} (_ : p.Lawful) {m : LinkMode} (hm : m ≠ .down) {cxl ats pri held : Bool} :
    Port.Lawful { p with mode := m, held := held, hcap := trainedHcap p.hcap cxl ats pri } := by
  have hres : ∀ cxl ats pri : Bool, trainedHcap 0 cxl ats pri &&& 0xFFF0FC00 = 0 := by decide
  have hor : trainedHcap p.hcap cxl ats pri = (p.hcap &&& 0x3F8) ||| trainedHcap 0 cxl ats pri := by
    simp [trainedHcap, BitVec.or_assoc]
  have hspeed : ∀ cxl ats pri : Bool, (trainedHcap 0 cxl ats pri).extractLsb' 16 4 = 6#4 := by decide
  refine ⟨?_, iff_of_false ?_ hm⟩
  · change trainedHcap p.hcap cxl ats pri &&& _ = _
    rw [hor, BitVec.and_comm, BitVec.and_or_distrib_left, BitVec.and_comm _ (trainedHcap ..), hres]
    rw [BitVec.and_comm, BitVec.and_assoc]
    exact (BitVec.or_zero ..).trans BitVec.and_zero
  · change (trainedHcap p.hcap cxl ats pri).extractLsb' 16 4 ≠ 0
    rw [hor, BitVec.extractLsb'_or, hspeed, BitVec.extractLsb'_and]
    have : (0x3F8#32).extractLsb' 16 4 = 0 := by decide
    simp

/-! ### The registers of the launch queues -/

theorem modQueue_portsWf {i : Fin 2} {q : Fin 16} {f : Queue → Queue} (h : portsWf s) : portsWf (s.modQueue i q f) :=
  have hlaw := Port.lawful_of_portsWf h i
  portsWf_setPort_sameMode (q := { s.ports[i] with queues := _ }) h ⟨hlaw.reserved, hlaw.speed⟩ rfl

theorem queueWrite_portsOk {i : Fin 2} {q : Fin 16} {f : Queue → Queue} (h : portsWf s) : portsOk (s.queueWrite i q f) :=
  ite_portsWf (modQueue_portsWf h) h

theorem queueSet_portsOk {i : Fin 2} {q : Fin 16} {off : Nat} {v : DWord} (h : portsWf s) : portsOk (s.queueSet i q off v) := by
  unfold State.queueSet
  split
  · exact queueWrite_portsOk h
  · exact ite_portsOk (queueWrite_portsOk h) (ite_portsOk (queueWrite_portsOk h) (queueWrite_portsOk h))
  · exact queueWrite_portsOk h
  · exact queueWrite_portsOk h
  · exact h

theorem barWrite_portsOk {i : Fin 2} {off n : Nat} {x : DWord} (h : portsWf s) : portsOk (s.barWrite i off n x) := by
  unfold State.barWrite
  split
  · exact queueSet_portsOk h
  · exact h

theorem execHostMemoryRequest_portsOk {i : Fin 2} {req : OutsideReq} (h : portsWf s) : portsOk (execHostMemoryRequest i req s) := by
  unfold execHostMemoryRequest
  refine ite_portsOk h ?_
  split
  · exact h
  · exact barWrite_portsOk h
  · exact h
  · exact ite_portsWf (portsWf_of_ports h serveOutside_ports) h

theorem execRingEntryRead_portsOk {i : Fin 2} {q : Fin 16} {failed : Bool} (h : portsWf s) :
    portsOk (execRingEntryRead i q failed s) := by
  unfold execRingEntryRead
  dsimp only
  refine ite_portsOk (ite_portsOk ?_ ?_) h
  · exact portsWf_of_ports (s := s.modQueue i q fun x => { x with en := false, stat := x.stat ||| 4 }) (modQueue_portsWf h) rfl
  · exact portsWf_of_ports (s := s.modQueue i q fun x => { x with head := (x.head + 1) % 2 ^ x.log2n.toNat }) (modQueue_portsWf h) rfl

/-! ### Links and host atomics -/

theorem execAtomicWidthReport_portsOk {i : Fin 2} {bit : Fin 7} (h : portsWf s) : portsOk (execAtomicWidthReport i bit s) :=
  portsWf_setPort_sameMode h ((Port.lawful_of_portsWf h i).clearBit (by simp [List.mem_range'_1]; omega)) rfl

theorem dropLink_portsWf {i : Fin 2} (h : portsWf s) : portsWf (s.dropLink i) :=
  portsWf_setPort (i := i) h (Port.lawful_of_portsWf h i).down fun hup => absurd rfl hup

theorem execHostLinkDown_portsOk {i : Fin 2} (h : portsWf s) : portsOk (execHostLinkDown i s) := ite_portsWf h (dropLink_portsWf h)

theorem execLinkTraining_portsOk {link : TrainedLink} {cxl ats pri : Bool} (h : portsWf s) :
    portsOk (execLinkTraining link cxl ats pri s) := by
  unfold execLinkTraining
  refine ite_portsOk h ?_
  cases link with
  | host i =>
    have hlaw := Port.lawful_of_portsWf h i
    have hmode : (if cxl then LinkMode.cxl else .pcie) ≠ .down := by cases cxl <;> decide
    dsimp only
    generalize (if cxl then LinkMode.cxl else .pcie) = mode at hmode ⊢
    refine ite_portsOk h ?_
    split
    · exact portsWf_setPort_sameMode (q := { s.ports[i] with held := true }) h ⟨hlaw.reserved, hlaw.speed⟩ rfl
    · next hother =>
      refine portsWf_setPort h (hlaw.trained hmode) fun _ hup => ?_
      rw [Bool.and_eq_true, bne_iff_ne, bne_iff_ne, not_and, not_not] at hother
      exact (hother hup).symm
  | ysl i peers => exact portsOk_of_keepsPorts h (by rw [keepsPorts_ite]; split <;> simp)

theorem hostAtomicBit_mem {op : AtomicOp} {n : Size} {b : Nat} (hb : hostAtomicBit op n = some b) : b ∈ List.range' 3 7 := by
  have hall : ∀ op n, ∀ b ∈ hostAtomicBit op n, b ∈ List.range' 3 7 := by
    intro op n
    cases op <;> cases n <;> simp [hostAtomicBit]
  exact hall op n b hb

theorem execHostAtomicCompletion_portsOk {key : CtxKey} {lane : Nat} {ok : Bool} (h : portsWf s) :
    portsOk (execHostAtomicCompletion key lane ok s) := by
  unfold execHostAtomicCompletion
  split
  · exact h
  · split
    · split
      · refine ite_portsOk h ?_
        dsimp only
        split
        · exact portsWf_of_ports h (by simp)
        · have hlaw (i : Fin 2) := Port.lawful_of_portsWf h i
          refine portsWf_setPort_sameMode h ?_ rfl
          split
          · next hb => exact (hlaw _).clearBit (hostAtomicBit_mem hb)
          · exact ⟨(hlaw _).reserved, (hlaw _).speed⟩
      · exact h
    · exact h

/-! ### Reset and trips -/

theorem keepOver_reset_portsWf : portsWf (s.keepOver State.reset) := by
  refine portsWf_of_ports (s := State.reset) ?_ rfl
  unfold portsWf
  decide

theorem execPackageReset_portsOk {image0 image1 : List Byte} {fuses : Fuses} {policy keys : List Byte} :
    portsOk (execPackageReset image0 image1 fuses policy keys s) :=
  have hs : portsWf (s.keepOver State.reset) := keepOver_reset_portsWf
  ite_portsOk hs hs

theorem trip_portsWf {cause : TripCause} (h : portsWf s) : portsWf (s.trip cause) := by
  obtain ⟨h0, h1, -⟩ := portsWf_iff.1 h
  rw [portsWf_iff]
  simpa [State.trip] using And.intro h0.down h1.down

theorem execTrip_portsOk {r : TripReading} (h : portsWf s) : portsOk (execTrip r s) := ite_portsWf h (trip_portsWf h)

theorem execPowerMeasurement_portsOk {m : Measured} (h : portsWf s) : portsOk (execPowerMeasurement m s) :=
  ite_portsOk h (ite_portsOk (trip_portsWf h) h)

theorem execClamp_portsOk {sensor : Sensor} {reading : Nat} (h : portsWf s) : portsOk (execClamp sensor reading s) :=
  ite_portsOk h (ite_portsOk (trip_portsWf (s := { s with power := _ }) h) h)

/-! ### Jobs -/

/-- A job's run leaves lawful ports, where it ends. -/
def JobEnd.portsOk : JobEnd → Prop
  | .done r => portsWf r.s
  | .stop r _ => portsWf r.s
  | .wait _ => True

theorem JobEnd.portsOk_ite {c : Prop} [Decidable c] {a b : JobEnd} (ha : a.portsOk) (hb : b.portsOk) : (if c then a else b).portsOk := by
  split
  · exact ha
  · exact hb

section
variable {r : JobRun} {j : Job}

@[simp] theorem recordJob_ports {va : DWord} : (s.recordJob j va).ports = s.ports := by
  unfold State.recordJob
  split <;> simp

@[simp] theorem jobStore_ports {p : Place} {bs : List Byte} : (s.jobStore j p bs).ports = s.ports := by simp [State.jobStore]

@[simp] theorem nearStore_ports {p : Place} {bs : List Byte} : (s.nearStore j p bs).ports = s.ports := by
  unfold State.nearStore
  split <;> simp

@[simp] theorem finishTag_ports {w : Word} : (s.finishTag j w).ports = s.ports := by simp [State.finishTag]

theorem recordJob_portsWf {va : DWord} (h : portsWf s) : portsWf (s.recordJob j va) := portsWf_of_ports h recordJob_ports

theorem jobStore_portsWf {p : Place} {bs : List Byte} (h : portsWf s) : portsWf (s.jobStore j p bs) := portsWf_of_ports h jobStore_ports

theorem place_portsOk {va : DWord} {n align : Nat} {k : AccessKind} {go : JobRun → Place → JobEnd} (h : portsWf r.s)
    (hgo : ∀ r p, portsWf r.s → (go r p).portsOk) : (r.place j va n align k go).portsOk := by
  unfold JobRun.place
  split
  · refine JobEnd.portsOk_ite h (hgo _ _ ?_)
    split
    · exact h
    · exact portsWf_of_ports h noteRead_ports
  · show portsWf (JobRun.s (if _ then _ else _))
    split
    · exact recordJob_portsWf h
    · exact h
  · trivial

theorem read_portsOk {va : Int} {n align : Nat} {go : JobRun → Place → Nat → JobEnd} (h : portsWf r.s)
    (hgo : ∀ r p x, portsWf r.s → (go r p x).portsOk) : (r.read j va n align go).portsOk :=
  JobEnd.portsOk_ite h (place_portsOk h fun _ _ hr => hgo _ _ _ hr)

theorem write_portsOk {va : Int} {align : Nat} {bs : List Byte} {go : JobRun → JobEnd} (h : portsWf r.s)
    (hgo : ∀ r, portsWf r.s → (go r).portsOk) : (r.write j va align bs go).portsOk :=
  JobEnd.portsOk_ite h (place_portsOk h fun _ _ hr => hgo _ (jobStore_portsWf hr))

/-- A SCATTER addition that the host refuses clears its bit of HCAP (R44). -/
theorem add_portsOk {va : Int} {float refused : Bool} {x : Word} {go : JobRun → JobEnd} (h : portsWf r.s)
    (hgo : ∀ r, portsWf r.s → (go r).portsOk) : (r.add j va float refused x go).portsOk :=
  JobEnd.portsOk_ite h (place_portsOk h fun _ _ hr => JobEnd.portsOk_ite
    (portsWf_setPort_sameMode hr ((Port.lawful_of_portsWf hr _).clearBit (by decide)) rfl) (hgo _ (portsWf_of_ports hr nearStore_ports)))

theorem jobLoop_portsOk {f : Nat → JobRun → JobEnd} (hf : ∀ i r, portsWf r.s → (f i r).portsOk) :
    ∀ {n i : Nat} {r : JobRun}, portsWf r.s → (jobLoop f n i r).portsOk
  | 0, _, _, h => h
  | n + 1, i, r, h => by
    have hr := hf i r h
    unfold jobLoop
    split
    · next e => rw [e] at hr; exact jobLoop_portsOk hf hr
    · exact hr

theorem jobReadAll_portsOk {m align : Nat} {go : JobRun → List Nat → JobEnd} (hgo : ∀ r xs, portsWf r.s → (go r xs).portsOk) :
    ∀ {n : Nat} {va : Int} {xs : List Nat} {r : JobRun}, portsWf r.s → (jobReadAll j va m align xs go n r).portsOk
  | 0, _, _, _, h => hgo _ _ h
  | _ + 1, _, _, _, h => read_portsOk h fun _ _ _ hr => jobReadAll_portsOk hgo hr

theorem jobWriteAll_portsOk : ∀ {xs : List Byte} {va : Int} {r : JobRun}, portsWf r.s → (jobWriteAll j va xs r).portsOk
  | [], _, _, h => h
  | _ :: _, _, _, h => write_portsOk h fun _ hr => jobWriteAll_portsOk hr

theorem jobLinear_portsOk (h : portsWf r.s) : (jobLinear j r).portsOk :=
  jobReadAll_portsOk (fun _ _ hr => jobWriteAll_portsOk hr) h

theorem jobNarrow_portsOk (h : portsWf r.s) : (jobNarrow j r).portsOk :=
  JobEnd.portsOk_ite h (jobReadAll_portsOk (fun _ _ hr => jobWriteAll_portsOk hr) h)

theorem affineElem_portsOk {before : State} {e : Nat} (h : portsWf r.s) : (affineElem j before e r).portsOk := by
  unfold affineElem
  refine read_portsOk h fun _ _ _ hr => write_portsOk hr fun _ hr => ?_
  exact hr

theorem dealElem_portsOk {e : Nat} (h : portsWf r.s) : (dealElem j e r).portsOk := by
  unfold dealElem
  refine read_portsOk h fun _ _ _ hr => write_portsOk hr fun _ hr => ?_
  exact hr

theorem windowElem_portsOk {o : Nat} (h : portsWf r.s) : (windowElem j o r).portsOk := by
  have put {past : Bool} {r : JobRun} {x : Nat} (hr : portsWf r.s) :
      (r.write j (dstAddr j.card + (o * cardBytes j.card : Nat)) (cardBytes j.card) (leBytes x (cardBytes j.card))
        fun r => .done { r with past := r.past || past }).portsOk :=
    write_portsOk hr fun _ hr => hr
  exact JobEnd.portsOk_ite (put h) (JobEnd.portsOk_ite (put h) (read_portsOk h fun _ _ _ hr => put hr))

theorem index_portsOk {e : Nat} {go : JobRun → Int → JobEnd} (h : portsWf r.s) (hgo : ∀ r i, portsWf r.s → (go r i).portsOk) :
    (r.index j e go).portsOk :=
  JobEnd.portsOk_ite (read_portsOk h fun _ _ _ hr => hgo _ _ hr) (read_portsOk h fun _ _ _ hr => hgo _ _ hr)

theorem gatherElem_portsOk {errors : JobErrors} {e : Nat} (h : portsWf r.s) : (gatherElem j errors e r).portsOk := by
  unfold gatherElem
  refine index_portsOk h fun _ _ hr => JobEnd.portsOk_ite (recordJob_portsWf hr) (read_portsOk hr fun _ _ _ hr =>
    JobEnd.portsOk_ite ?_ ?_)
  · exact write_portsOk hr fun _ hr => hr
  · exact add_portsOk hr fun _ hr => hr

theorem gatherStep_portsOk {errors : JobErrors} {e : Nat} (h : portsWf r.s) : (gatherStep j errors e r).portsOk := by
  have hr := gatherElem_portsOk (j := j) (errors := errors) (e := e) h
  unfold gatherStep
  split
  · next e => rw [e] at hr; exact hr
  · exact hr

theorem jobGather_portsOk {errors : JobErrors} (h : portsWf r.s) : (jobGather j errors r).portsOk := by
  have hr := jobLoop_portsOk (fun i r hr => gatherStep_portsOk (j := j) (errors := errors) (e := i) hr) (n := cardLen j.card) (i := 0) h
  unfold jobGather
  refine JobEnd.portsOk_ite h ?_
  split
  · next e => rw [e] at hr; exact JobEnd.portsOk_ite hr hr
  · exact hr

theorem runJob_portsOk {errors : JobErrors} (h : portsWf r.s) : (runJob j errors r).portsOk := by
  have fail {e : JobEnd} (he : e.portsOk) :
      (if errors.bad.isEmpty then e else .stop { r with s := r.s.recordJob j (cardSrc j.card) } .memue).portsOk :=
    JobEnd.portsOk_ite he (recordJob_portsWf h)
  refine JobEnd.portsOk_ite h ?_
  dsimp only
  split
  · exact fail (jobLinear_portsOk h)
  · exact fail (jobLoop_portsOk (fun _ _ => affineElem_portsOk) h)
  · exact fail (jobLoop_portsOk (fun _ _ => dealElem_portsOk) h)
  · exact fail (jobLoop_portsOk (fun _ _ => windowElem_portsOk) h)
  · exact fail (jobNarrow_portsOk h)
  · exact jobGather_portsOk h

theorem jobBitmap_portsOk {bits : List Bool} (h : portsWf r.s) : (jobBitmap j bits r).portsOk :=
  JobEnd.portsOk_ite h (jobWriteAll_portsOk h)

theorem jobStamp_portsOk {code : Option Code} (h : portsWf r.s) : (jobStamp j code r).portsOk :=
  JobEnd.portsOk_ite h (place_portsOk h fun _ _ hr => jobStore_portsWf hr)

theorem jobWriteVals_portsOk {n : Nat} : ∀ {xs : List Nat} {va : Int} {r : JobRun}, portsWf r.s → (jobWriteVals j va n xs r).portsOk
  | [], _, _, h => h
  | _ :: _, _, _, h => write_portsOk h fun _ hr => jobWriteVals_portsOk hr

end

theorem askPage_modJob_portsWf {w : PageWait} {n : Nat} {f : Job → Job} (h : portsWf s) : portsWf ((s.askPage w).modJob n f) :=
  portsWf_of_ports h (modJob_ports.trans askPage_ports)

theorem endJob_portsWf {j : Job} {e : JobEnd} (h : portsWf s) (he : e.portsOk) : portsWf (s.endJob j e) := by
  unfold State.endJob
  extract_lets gs close afterBits tail
  have hclose {r : JobRun} {b : Bool} {code : Option Code} (hr : portsWf r.s) : portsWf (close r b code) :=
    portsWf_of_ports hr (by simp [close])
  have hafter {r : JobRun} {code : Option Code} (hr : portsWf r.s) : portsWf (afterBits r code) := by
    have hstamp := jobStamp_portsOk (j := j) (code := code) hr
    unfold afterBits
    split
    · next e => rw [e] at hstamp; exact hclose hstamp
    · next e => rw [e] at hstamp; exact hclose hstamp
    · exact askPage_modJob_portsWf h
  have htail {r : JobRun} {code : Option Code} (hr : portsWf r.s) : portsWf (tail r code) := by
    unfold tail
    extract_lets bits
    have hmap : JobEnd.portsOk (if gs then jobBitmap j bits r else .done r) := JobEnd.portsOk_ite (jobBitmap_portsOk hr) hr
    split
    · next e => rw [e] at hmap; exact hafter hmap
    · next e => rw [e] at hmap; exact hafter hmap
    · exact askPage_modJob_portsWf h
  cases e with
  | done r => exact htail he
  | stop r c => exact htail he
  | wait w => exact askPage_modJob_portsWf h

theorem endCoded_portsWf {j : Job} {code : Code} {b : Bool} (h : portsWf s) : portsWf (s.endCoded j code b) := by
  unfold State.endCoded
  refine ite_portsWf ?_ (endJob_portsWf h h)
  dsimp only
  have hw {bs : List Byte} {n : Nat} : (jobWriteAll j (dstAddr j.card) bs (JobRun.start { s with freeCtr := n })).portsOk :=
    jobWriteAll_portsOk h
  split
  · next e => exact endJob_portsWf h (e ▸ hw :)
  · next e => exact endJob_portsWf h (e ▸ hw :)
  · exact endJob_portsWf h trivial

@[simp] theorem execJobDispatch_ports {n : Nat} : keepsPorts s (execJobDispatch n s) := by
  unfold execJobDispatch
  split <;> simp

theorem execJobComplete_portsOk {n : Nat} {errors : JobErrors} (h : portsWf s) : portsOk (execJobComplete n errors s) := by
  unfold execJobComplete
  split
  · exact h
  · refine ite_portsOk h ?_
    split
    · exact h
    · exact endCoded_portsWf h
    · exact ite_portsOk (endJob_portsWf h (runJob_portsOk h)) h

theorem endJobs_portsWf {js : List Job} {code : Code} (h : portsWf s) : portsWf (s.endJobs js code) :=
  foldl_portsWf (fun _ hs => endJob_portsWf hs (e := .stop (JobRun.start _) code) hs) h

/-! ### Collectives -/

theorem rankStops_portsWf {e : Job × Option Code × Option PageWait} (h : portsWf s) : portsWf (s.rankStops e) := by
  unfold State.rankStops
  split
  · exact endJob_portsWf h (ite_portsWf (recordJob_portsWf h) h)
  · exact askPage_modJob_portsWf h
  · exact h

theorem endMismatch_portsWf {key left : Nat} {js : List Job} (h : portsWf s) : portsWf (s.endMismatch key js left) :=
  endJobs_portsWf (s := { s with mismatched := _ }) h

theorem writeRanks_portsOk {all : List (List Nat)} : ∀ {qs : List Rank} {ends : List (Job × Option Code)} {r : JobRun}, portsWf r.s →
    (writeRanks all qs ends r).1.portsOk
  | [], _, _, h => h
  | q :: qs, ends, r, h => by
    have hw := jobWriteVals_portsOk (j := q.job) (n := cardBytes q.job.card) (xs := collResult q.job.card all)
      (va := dstAddr q.job.card) h
    unfold writeRanks
    dsimp only
    split
    · next e => exact writeRanks_portsOk (e ▸ hw :)
    · next e => exact writeRanks_portsOk (e ▸ hw :)
    · trivial

theorem endRanks_portsWf {ends : List (Job × Option Code)} (h : portsWf s) :
    portsWf (ends.foldl (fun s e => s.endJob e.1 (match e.2 with
      | some c => .stop (JobRun.start s) c
      | none => .done (JobRun.start s))) s) := by
  refine foldl_portsWf (fun e hs => endJob_portsWf hs ?_) h
  split <;> exact hs

theorem noteRanks_portsWf {js : List Job} (h : portsWf s) : portsWf (s.noteRanks js) := portsWf_of_ports h noteRanks_ports

theorem execCollectiveMatch_portsOk {n : Nat} {peers : List Peer} (h : portsWf s) : portsOk (execCollectiveMatch n peers s) := by
  unfold execCollectiveMatch
  split
  · exact h
  · refine ite_portsOk h (ite_portsOk (endMismatch_portsWf h) ?_)
    split
    · exact rankStops_portsWf h
    · refine ite_portsOk h (ite_portsOk (endMismatch_portsWf h) (ite_portsOk h ?_))
      dsimp only
      split
      · exact rankStops_portsWf (noteRanks_portsWf h)
      · have hw {all : List (List Nat)} {qs : List Rank} {js : List Job} :=
          writeRanks_portsOk (all := all) (qs := qs) (ends := []) (r := JobRun.start (s.noteRanks js)) (noteRanks_portsWf h)
        split
        · next e => exact endRanks_portsWf (e ▸ hw :)
        · exact askPage_modJob_portsWf (noteRanks_portsWf h)
        · exact noteRanks_portsWf h

/-! ### Every instruction and event -/

/-- The instructions and events that write a host port, one by one; every other one leaves the ports as they are, the forms of one
shared operation by its lemma. -/
theorem exec_portsOk (i : Instr) (h : portsWf s) : portsOk (exec i s) := by
  cases i <;> dsimp only [exec]
  case linkTraining => exact execLinkTraining_portsOk h
  case hostLinkDown => exact execHostLinkDown_portsOk h
  case atomicWidthReport => exact execAtomicWidthReport_portsOk h
  case hostAtomicCompletion => exact execHostAtomicCompletion_portsOk h
  case hostMemoryRequest => exact execHostMemoryRequest_portsOk h
  case ringEntryRead => exact execRingEntryRead_portsOk h
  case lqbaseWrite | lqctlEnable | lqctlDisable | lqctlResize | lqtailWrite | lqstatClear => exact queueWrite_portsOk h
  case packageReset => exact execPackageReset_portsOk
  case trip => exact execTrip_portsOk h
  case powerMeasurement => exact execPowerMeasurement_portsOk h
  case clamp => exact execClamp_portsOk h
  case jobComplete => exact execJobComplete_portsOk h
  case collectiveMatch => exact execCollectiveMatch_portsOk h
  all_goals refine portsOk_of_keepsPorts h ?_
  case getCapabilities | getDigests | getCertificate => exact spdmServe_ports
  case mwaitWake | mwaitLimitExpiry | mwaitPoll => exact mwaitAgain_ports
  case alloc => exact serve_ports fun _ _ _ => serveAlloc_ports
  case free => exact serve_ports fun _ _ _ => serveFree_ports
  case post => exact serve_ports fun _ _ _ => servePost_ports
  case nosvc => exact serve_ports fun _ _ _ => svcReply_ports
  case requestCollectorFlush => rfl
  case nopCompact | nop64 => exact nopOp_ports
  case brCompact | brzCompact | brnzCompact | callCompact | retCompact | br64 | br96 | brz64 | brz96 | brnz64 | brnz96 | call64 | call96
    | calli | ret64 | jmpi => exact control_ports
  case addCompact | subCompact | mulCompact | mulhiCompact | mulhuCompact | absCompact | minCompact | maxCompact | minuCompact
    | maxuCompact | andCompact | orCompact | xorCompact | andnCompact | shlCompact | shrCompact | sarCompact | rolCompact | clzCompact
    | ctzCompact | popcCompact | brevCompact | mskbCompact | sextCompact | movCompact | add64 | add96 | sub64 | sub96 | mul64 | mul96
    | mulhi64 | mulhi96 | mulhu64 | mulhu96 | mad64 | mad96 | abs64 | min64 | min96 | max64 | max96 | minu64 | minu96 | maxu64 | maxu96
    | and64 | and96 | or64 | or96 | xor64 | xor96 | andn64 | andn96 | shl64 | shl96 | shr64 | shr96 | sar64 | sar96 | rol64 | rol96
    | clz64 | ctz64 | popc64 | brev64 | bfx64 | bfx96 | bfi64 | bfi96 | addc64 | addc96 | subc64 | subc96 | sext64 | sext96 | mov64
    | sel64 | sel96 | cmp64 | cmp96 | mskb64 | mskb96 => exact intOp_ports
  case faddCompact | fsubCompact | fmulCompact | fminCompact | fmaxCompact | fadd64 | fadd96 | fsub64 | fsub96 | fmul64 | fmul96 | fmin64
    | fmin96 | fmax64 | fmax96 | fcmp64 | fcmp96 | fdiv64 | fdiv96 => exact floatOp2_ports
  case cmpm64 | cmpm96 => exact maskOp_ports
  case brm64 | brm96 => exact brmOp_ports
  case iterNext64 | iterNext96 => exact iterNextOp_ports
  case ffma64 | ffma96 | i2f | fcvt | f4xp64 | f4xp96 | f4xu64 | f4xu96 | hadd264 | hadd296 | hmul264 | hmul296 | hfma264 | hfma296
    | fkey => exact floatOp_ports
  case fcmpm64 | fcmpm96 => exact fcmpmOp_ports
  case fclass | frcp | frsq | fsqrt | fexp2 | flog2 | frnd | f2i | scle => exact floatOp1_ports
  case proma64 | proma96 => exact promaOp_ports
  case demf | demc => exact demOp_ports
  case meet64 | meet96 => exact meetOp_ports
  case ld64 | ld96 | ldl64 | ldl96 => exact loadOp_ports
  case st64 | st96 | stl64 | stl96 => exact storeOp_ports
  case pfch64 | pfch96 => exact prefetchOp_ports
  case aadd64 | aadd96 | afadd64 | afadd96 | amin64 | amin96 | amax64 | amax96 | aand64 | aand96 | aor64 | aor96 | axor64 | axor96
    | axch64 | axch96 | acas64 | acas96 => exact atomicOp_ports
  case copy | gath | scat | coll => exact submitOp_ports
  case waitany | waitall | ffr => exact tagOp_ports
  case gcall64 | gcall96 | gcallI => exact gcallOp_ports
  case grow64 | grow96 => exact growOp_ports
  case shrink64 | shrink96 => exact shrinkOp_ports
  case obres64 | obres96 => exact obresOp_ports
  case mma64 | mma96 | mmas64 | mmas96 => exact mmaOp_ports
  case accld64 | accld96 | accst64 | accst96 => exact tileMemOp_ports
  case accrd64 | accrd96 => exact accrdOp_ports
  case sign64 | sign96 => exact signOp_ports
  case vtest | vkey => exact verdictOp_ports
  case thsRaise64 | thsRaise96 => exact raiseOp_ports
  case reduce | scan => exact crossOp_ports
  case bsort | bmerge => exact sortOp_ports
  case svc64 | svc96 => exact svcOp_ports
  case join | leave => exact memberOp_ports
  case migrateRk | migrateHm => exact migrateOp_ports
  all_goals simp

/-! ### A step -/

theorem newCycle_portsWf (h : portsWf s) : portsWf s.newCycle := portsWf_of_ports h newCycle_ports

theorem runWords_portsOk {ws : List Word} (h : portsWf s) : portsOk (s.runWords ws) := by
  unfold State.runWords
  split
  · exact exec_portsOk _ h
  · exact portsOk_of_keepsPorts h illegal_ports

theorem step_portsOk (h : portsWf s) : portsOk (step s) := by
  unfold step
  split
  · exact newCycle_portsWf h
  · next i rest _ =>
    have hexec : portsOk (exec i { s with agenda := rest, issue := none, fetched := none }) := exec_portsOk i h
    split
    · next t e =>
      have ht : portsWf t := by rw [e] at hexec; exact hexec
      split
      · exact ht
      · exact runWords_portsOk (s := { t with fetched := none }) ht
    · trivial
    · trivial

/-- Settles O8, from the lemma that each instruction, event and cycle leaves lawful ports. -/
theorem stepsKeepPorts : Obligations.StepsKeepPorts := by
  unfold Obligations.StepsKeepPorts
  intro s t h e
  have ht := step_portsOk h
  rw [e] at ht
  exact ht

end Sys2Proof.Machine
end

section
namespace Sys2Proof.Machine
variable {s : State}

/-! ## The state at reset -/

theorem reset_contextsShaped : contextsShaped State.reset := by simp [contextsShaped, State.reset]

theorem reset_portsWf : portsWf State.reset := by
  unfold portsWf
  decide

/-- Settles O10: the machine right after a reset has empty memories, no context, and its ports as R39, R42 and R48 give them. -/
theorem resetState : Obligations.ResetState := by
  unfold Obligations.ResetState
  exact ⟨reset_memoriesWf, reset_contextsShaped, reset_portsWf, by decide⟩

/-! ## Launch queues -/

section
variable {p : Fin 2} {q : Fin 16} {x : Queue} {f : Queue → Queue} {v : DWord} {n : BitVec 5}

theorem modQueue_eq_queueSet : s.modQueue p q f = queueSet s p q (f s.ports[p].queues[q]) := rfl

theorem queueSet_self : queueSet s p q s.ports[p].queues[q] = s := by
  have hports : s.ports.set p { s.ports[p] with queues := s.ports[p].queues.set q s.ports[p].queues[q] } = s.ports := by
    rw [Fin.getElem_fin s.ports[p].queues, Vector.set_getElem_self]
    exact Vector.set_getElem_self ..
  exact congrArg (fun ps => { s with ports := ps }) hports

/-- While the device runs, a write to a register of a queue sets the queue (R407). -/
theorem queueWrite_of_running (h : s.boot = .running) (hx : x = s.ports[p].queues[q]) :
    s.queueWrite p q f = .next (queueSet s p q (f x)) := by
  subst hx
  simp [State.queueWrite, h, modQueue_eq_queueSet]

theorem queueWrite_of_fixed (h : s.boot = .running) (hx : x = s.ports[p].queues[q]) (hf : f x = x) :
    s.queueWrite p q f = .next s := by
  rw [queueWrite_of_running h hx, hf, hx, queueSet_self]

theorem Queue.resize_eq : x.resize n = { x with log2n := n, head := if n = x.log2n then x.head else 0 } := by
  unfold Queue.resize
  split
  · next e => subst e; simp
  · next e => simp [Ne.symm e]

/-- The offset of a register of a queue in BAR0 (R48). -/
theorem windowReg_of_queue {r : Nat} (hr : r < 0x100) (hr8 : r % 8 = 0) : windowReg (0x10000 + 0x100 * q.val + r) = some (q, r) := by
  have hq : q.val < 16 := q.isLt
  have hin : inRange (0x10000 + 0x100 * q.val + r) 0x10000 0x1000 = true := by
    simp only [inRange, decide_eq_true_eq, Bool.and_eq_true]
    omega
  simp only [windowReg, hin, if_true, Option.some.injEq, Prod.mk.injEq, Fin.ext_iff]
  omega

/-- A write of all 8 bytes of a register leaves nothing of its old value. -/
theorem ofNat_overwrite (old : Nat) : BitVec.ofNat 64 (old - old / 256 ^ 0 % 256 ^ 8 * 256 ^ 0 + v.toNat % 256 ^ 8 * 256 ^ 0) = v := by
  apply BitVec.eq_of_toNat_eq
  have hv := v.isLt
  simp only [BitVec.toNat_ofNat]
  omega

theorem barWrite_of_queue {r : Nat} (hr : r < 0x100) (hr8 : r % 8 = 0) :
    s.barWrite p (0x10000 + 0x100 * q.val + r) 8 v = s.queueSet p q r v := by
  have h8 : (0x10000 + 0x100 * q.val + r) % 8 = 0 := by omega
  unfold State.barWrite
  rw [windowReg_of_queue hr hr8]
  simp only [h8]
  exact congrArg _ (ofNat_overwrite _)

theorem barRead_of_queue {r : Nat} (hr : r < 0x100) (hr8 : r % 8 = 0) :
    s.barRead p (0x10000 + 0x100 * q.val + r) 8 = s.ports[p].queues[q].read r % 2 ^ 64 := by
  have h8 : (0x10000 + 0x100 * q.val + r) % 8 = 0 := by omega
  unfold State.barRead
  rw [windowReg_of_queue hr hr8]
  simp [h8]

/-- The host reaches a port that is up, while the device runs (R39, R407). -/
theorem hostMemoryRequest_of_up (h : s.boot = .running) (hup : s.ports[p].mode ≠ .down) :
    ¬ (s.boot != .running || s.ports[p].mode == .down) = true := by
  simpa [h] using hup

theorem exec_barWrite_of_queue {r : Nat} (h : s.boot = .running) (hup : s.ports[p].mode ≠ .down) (hr : r < 0x100) (hr8 : r % 8 = 0) :
    exec (.hostMemoryRequest p (.barWrite (0x10000 + 0x100 * q.val + r) 8 v)) s = s.queueSet p q r v :=
  (if_neg (hostMemoryRequest_of_up h hup)).trans (barWrite_of_queue hr hr8)

theorem exec_barRead_of_queue {r : Nat} (h : s.boot = .running) (hup : s.ports[p].mode ≠ .down) (hr : r < 0x100) (hr8 : r % 8 = 0) :
    exec (.hostMemoryRequest p (.barRead (0x10000 + 0x100 * q.val + r) 8)) s =
      .next { s with reports := s.reports ++ [.answer 0 (BitVec.ofNat 128 (s.ports[p].queues[q].read r % 2 ^ 64))] } := by
  rw [← barRead_of_queue hr hr8]
  exact if_neg (hostMemoryRequest_of_up h hup)

/-- What the running device answers to a write of each register of a queue, by its offset in BAR0 (R48, R50). -/
theorem exec_barWrite_registers (h : s.boot = .running) (hx : x = s.ports[p].queues[q]) (hup : s.ports[p].mode ≠ .down) :
    exec (.hostMemoryRequest p (.barWrite (0x10000 + 0x100 * q.val) 8 v)) s = exec (.lqbaseWrite p q v) s ∧
    exec (.hostMemoryRequest p (.barWrite (0x10010 + 0x100 * q.val) 8 v)) s = exec (.lqtailWrite p q v) s ∧
    exec (.hostMemoryRequest p (.barWrite (0x10018 + 0x100 * q.val) 8 v)) s = .next s ∧
    exec (.hostMemoryRequest p (.barWrite (0x10020 + 0x100 * q.val) 8 v)) s = exec (.lqstatClear p q v) s ∧
    (v.getLsbD 8 = true →
      exec (.hostMemoryRequest p (.barWrite (0x10008 + 0x100 * q.val) 8 v)) s = exec (.lqctlEnable p q (v.extractLsb' 0 5)) s) ∧
    (v.getLsbD 8 = false → x.en = true →
      exec (.hostMemoryRequest p (.barWrite (0x10008 + 0x100 * q.val) 8 v)) s = exec (.lqctlDisable p q) s) ∧
    (v.getLsbD 8 = false → x.en = false →
      exec (.hostMemoryRequest p (.barWrite (0x10008 + 0x100 * q.val) 8 v)) s = exec (.lqctlResize p q (v.extractLsb' 0 5)) s) := by
  subst hx
  have at_ {r : Nat} (hr : r < 0x100) (hr8 : r % 8 = 0) :
      exec (.hostMemoryRequest p (.barWrite (0x10000 + r + 0x100 * q.val) 8 v)) s = s.queueSet p q r v := by
    rw [Nat.add_right_comm]
    exact exec_barWrite_of_queue h hup hr hr8
  have hctl := at_ (r := 8) (by decide) (by decide)
  have hqueue : s.queueSet p q 8 v =
      if v.getLsbD 8 then execLqctlEnable p q (v.extractLsb' 0 5) s
      else if (s.ports[p].queues[q]).en then execLqctlDisable p q s
      else execLqctlResize p q (v.extractLsb' 0 5) s := rfl
  rw [hqueue] at hctl
  refine ⟨at_ (r := 0) (by decide) (by decide), at_ (r := 0x10) (by decide) (by decide), at_ (r := 0x18) (by decide) (by decide),
    at_ (r := 0x20) (by decide) (by decide), fun h8 => ?_, fun h8 hen => ?_, fun h8 hen => ?_⟩
  · rw [hctl, if_pos h8]
    rfl
  · rw [hctl, if_neg (Bool.eq_false_iff.1 h8), if_pos hen]
    rfl
  · rw [hctl, if_neg (Bool.eq_false_iff.1 h8), if_neg (Bool.eq_false_iff.1 hen)]
    rfl

theorem exec_barRead_registers (h : s.boot = .running) (hx : x = s.ports[p].queues[q]) (hup : s.ports[p].mode ≠ .down) {r y : Nat}
    (hr : (r, y) ∈ [(0, x.base.toNat), (8, x.log2n.toNat + if x.en then 256 else 0), (0x10, x.tail), (0x18, x.head), (0x20, x.stat.toNat)]) :
    exec (.hostMemoryRequest p (.barRead (0x10000 + 0x100 * q.val + r) 8)) s =
      .next { s with reports := s.reports ++ [.answer 0 (BitVec.ofNat 128 (y % 2 ^ 64))] } := by
  subst hx
  have hy : r < 0x100 ∧ r % 8 = 0 ∧ y = s.ports[p].queues[q].read r := by
    simp only [List.mem_cons, Prod.mk.injEq, List.not_mem_nil, or_false] at hr
    obtain ⟨rfl, rfl⟩ | ⟨rfl, rfl⟩ | ⟨rfl, rfl⟩ | ⟨rfl, rfl⟩ | ⟨rfl, rfl⟩ := hr <;> exact ⟨by decide, by decide, rfl⟩
  obtain ⟨hlt, hr8, rfl⟩ := hy
  exact exec_barRead_of_queue h hup hlt hr8

/-- The ring entry at LQHEAD enters the store (R47, R57). -/
theorem exec_ringEntryRead (hx : x = s.ports[p].queues[q]) (hen : x.en = true) (hne : x.head ≠ x.tail) (hroom : s.pending.length < 256)
    (hup : s.ports[p].mode ≠ .down) :
    exec (.ringEntryRead p q false) s =
      .next ((queueSet s p q { x with head := (x.head + 1) % 2 ^ x.log2n.toNat }).enterPending 0
        (BitVec.ofNat 1536 (s.host.read (x.base.toNat + 256 * x.head) 192)) (.host p q)
        (pktPasid (BitVec.ofNat 1536 (s.host.read (x.base.toNat + 256 * x.head) 192)))) := by
  have hready : (x.en && x.head != x.tail && decide (s.pending.length < Config.pendingMax)) = true := by
    simpa [hen, Config.pendingMax, hroom] using hne
  subst hx
  exact (if_pos hready).trans (if_neg (by simpa using hup))

/-- A ring read that fails disables the queue, sets RINGERR and is reported (R49). -/
theorem exec_ringEntryRead_failed (hx : x = s.ports[p].queues[q]) (hen : x.en = true) (hne : x.head ≠ x.tail)
    (hroom : s.pending.length < 256) :
    exec (.ringEntryRead p q true) s = .next { queueSet s p q { x with en := false, stat := x.stat ||| 4 } with
      reports := s.reports ++ [.ringError p q] } := by
  have hready : (x.en && x.head != x.tail && decide (s.pending.length < Config.pendingMax)) = true := by
    simpa [hen, Config.pendingMax, hroom] using hne
  subst hx
  exact (if_pos hready).trans (if_pos rfl)

/-- LQCTL_ENABLE of a queue that is disabled (R48, R50): EN is set where LOG2N and LQBASE are legal, and BADCFG otherwise. -/
theorem exec_lqctlEnable (h : s.boot = .running) (hx : x = s.ports[p].queues[q]) (hen : x.en = false) :
    exec (.lqctlEnable p q n) s = .next (queueSet s p q
      (if 4 ≤ n.toNat ∧ n.toNat ≤ 16 ∧ 256 ∣ x.base.toNat then
        { x with log2n := n, head := if n = x.log2n then x.head else 0, en := true }
      else { x with log2n := n, head := if n = x.log2n then x.head else 0, stat := x.stat ||| 1 })) := by
  have hlegal : (inRange n.toNat 4 13 && x.base.toNat % 256 == 0) = decide (4 ≤ n.toNat ∧ n.toNat ≤ 16 ∧ 256 ∣ x.base.toNat) := by
    rw [Bool.eq_iff_iff]
    simp only [inRange, Bool.and_eq_true, decide_eq_true_eq, beq_iff_eq]
    omega
  refine (queueWrite_of_running h hx).trans ?_
  simp only [hen, Bool.false_eq_true, if_false, Queue.resize_eq, hlegal, decide_eq_true_eq]

end

/-- Settles O52: each register by its own write, and the ring entry by its read. -/
theorem launchQueues : Obligations.LaunchQueues := by
  unfold Obligations.LaunchQueues
  intro s p q x v n h hx
  refine ⟨fun hen => ?_, fun hen => ⟨?_, ?_, ?_⟩, fun hen => ?_, fun hen h4 h16 hbase => ?_, fun hen hbad => ?_, queueWrite_of_running h hx,
    fun hv => ?_, fun hv => ?_, queueWrite_of_running h hx, fun hup => ?_, fun hen hne hroom => ⟨fun hup => ?_, ?_⟩⟩
  · exact (queueWrite_of_running h hx).trans (by simp [hen])
  · exact queueWrite_of_fixed h hx (by simp [hen])
  · exact queueWrite_of_fixed h hx (by simp [hen])
  · exact queueWrite_of_fixed h hx (by simp [hen])
  · exact (queueWrite_of_running h hx).trans (by simp [hen, Queue.resize_eq])
  · rw [exec_lqctlEnable h hx hen, if_pos ⟨h4, h16, hbase⟩]
  · rw [exec_lqctlEnable h hx hen, if_neg hbad]
  · exact (queueWrite_of_running h hx).trans (by simp [hv])
  · exact (queueWrite_of_running h hx).trans (by simp [Nat.not_lt.2 hv])
  · obtain ⟨hbase, htail, hhead, hstat, henable, hdisable, hresize⟩ := exec_barWrite_registers (v := v) h hx hup
    exact ⟨hbase, htail, hhead, hstat, henable, hdisable, hresize, fun r y hr => exec_barRead_registers h hx hup hr⟩
  · exact ⟨_, _, exec_ringEntryRead hx hen hne hroom hup, rfl, rfl, rfl, rfl, rfl, rfl, rfl, rfl⟩
  · exact exec_ringEntryRead_failed hx hen hne hroom

end Sys2Proof.Machine
end

section
namespace Sys2Proof.Machine
variable {a s t : State} {P : CtxKey → Bool}

/-! ## What memory operations leave as it is

Loads, stores, releases and acquires change memory and its caches. Of a context they change only its touched banks, its pushes and its
checkpoints, and they end a wait at a barrier or for room in the gated store buffer. -/

/-- A wait that a write to memory or a checkpoint can end. -/
def CtxState.wakes : CtxState → Bool
  | .parked (.barrier _ _) => true
  | .parked .gate => true
  | _ => false

/-- A context without what memory operations change of it. -/
def Ctx.still (c : Ctx) : Ctx :=
  { c with st := .live, woken := false, ckpt := [], retired := 0, rollbacks := 0, arch := { c.arch with pushes := [], touched := 0 } }

/-- A context after memory operations: as it was, or woken from a wait that they end. A context that the predicate keeps is
the same but for the wait. -/
structure Ctx.Kept (c : Ctx) (P : CtxKey → Bool) (d : Ctx) : Prop where
  still : d.still = c.still
  st : d.st = c.st ∨ c.st.wakes = true ∧ d.st = .live
  whole : P c.key = true → d.arch = c.arch

/-- A region without its scratch. -/
def Region.dry (r : Region) : Region := { r with scratch := [] }

/-- Whether a self-test tests a part of storage. -/
def SelfTest.ofStorage (t : SelfTest) : Bool := match t.target with
  | .storage _ => true
  | _ => false

/-- A state without memory, its caches, its error counts, tests and reports, the translations that are asked for, the contexts, and
the gated stores of contexts that a predicate does not keep. -/
def State.rest (P : CtxKey → Bool) (s : State) : State :=
  { s with
    ctxs := [], regions := s.regions.map Region.dry, dev := [], host := [], dom := [], cache := [], l2 := [],
    hostLines := [], releasers := [], gates := s.gates.filter fun g => P g.key, ecc := [], rowSpares := [],
    tests := s.tests.filter fun t => !t.ofStorage, reports := [], ats := [] }

/-- A state after memory operations alone, none of them by a context that the predicate keeps. A test of storage begins only where
storage has a flaw. -/
structure MemRun (P : CtxKey → Bool) (s t : State) : Prop where
  rest : t.rest P = s.rest P
  tests : s.flaws = [] → t.tests = s.tests
  ctxs : ∃ f : Ctx → Ctx, (∀ c : Ctx, c.Kept P (f c)) ∧ t.ctxs = s.ctxs.map f

theorem Ctx.Kept.rfl {c : Ctx} : c.Kept P c := ⟨Eq.refl _, .inl (Eq.refl _), fun _ => Eq.refl _⟩

theorem Ctx.Kept.key {c d : Ctx} (h : c.Kept P d) : d.key = c.key := (congrArg Ctx.key h.still :)

theorem Ctx.Kept.trans {c d e : Ctx} (h : c.Kept P d) (h' : d.Kept P e) : c.Kept P e := by
  refine ⟨h'.still.trans h.still, ?_, fun hp => (h'.whole (h.key.symm ▸ hp)).trans (h.whole hp)⟩
  rcases h.st with e1 | ⟨hw, e1⟩
  · exact e1 ▸ h'.st
  · rcases h'.st with e2 | ⟨_, e2⟩
    · exact .inr ⟨hw, e2.trans e1⟩
    · exact .inr ⟨hw, e2⟩

theorem MemRun.rfl : MemRun P s s := ⟨Eq.refl _, fun _ => Eq.refl _, id, fun _ => .rfl, (List.map_id _).symm⟩

theorem MemRun.trans (h : MemRun P a s) (h' : MemRun P s t) : MemRun P a t := by
  obtain ⟨hr, ht, f, hf, hc⟩ := h
  obtain ⟨hr', ht', g, hg, hc'⟩ := h'
  have hflaws : s.flaws = a.flaws := (congrArg State.flaws hr :)
  exact ⟨hr'.trans hr, fun e => (ht' (hflaws.trans e)).trans (ht e), g ∘ f, fun c => (hf c).trans (hg _), by rw [hc', hc, List.map_map]⟩

/-- A change of none of the contexts, and of nothing but memory. -/
theorem MemRun.of_ctxs (h : MemRun P a s) (hr : t.rest P = s.rest P) (hc : t.ctxs = s.ctxs) (ht : t.tests = s.tests := by rfl) :
    MemRun P a t :=
  h.trans ⟨hr, fun _ => ht, id, fun _ => .rfl, hc.trans (List.map_id _).symm⟩

theorem MemRun.mapCtxs (h : MemRun P a s) {f : Ctx → Ctx} (hf : ∀ c : Ctx, c.Kept P (f c)) : MemRun P a { s with ctxs := s.ctxs.map f } :=
  h.trans ⟨Eq.refl _, fun _ => Eq.refl _, f, hf, Eq.refl _⟩

theorem MemRun.modCtx (h : MemRun P a s) (k : CtxKey) {f : Ctx → Ctx} (hf : ∀ c : Ctx, c.key = k → c.Kept P (f c)) :
    MemRun P a (s.modCtx k f) :=
  h.mapCtxs fun c => by
    split
    · next e => exact hf c (beq_iff_eq.1 e)
    · exact .rfl

theorem MemRun.ite {c : Prop} [Decidable c] (hs : MemRun P a s) (ht : MemRun P a t) : MemRun P a (if c then s else t) := by
  split
  · exact hs
  · exact ht

theorem MemRun.foldl {α : Type} {f : State → α → State} (hf : ∀ {s} x, MemRun P a s → MemRun P a (f s x)) (xs : List α) (h : MemRun P a s) :
    MemRun P a (xs.foldl f s) :=
  List.foldlRecOn (motive := MemRun P a) xs f h fun _ ht x _ => hf x ht

/-! ### What the relation says of a context and of the state -/

section
variable {c d : Ctx} {P : CtxKey → Bool}

theorem Ctx.Kept.launch (h : c.Kept P d) : d.launch = c.launch := (congrArg Ctx.launch h.still :)
theorem Ctx.Kept.kind (h : c.Kept P d) : d.kind = c.kind := (congrArg Ctx.kind h.still :)
theorem Ctx.Kept.away (h : c.Kept P d) : d.away = c.away := (congrArg Ctx.away h.still :)
theorem Ctx.Kept.refused (h : c.Kept P d) : d.refused = c.refused := (congrArg Ctx.refused h.still :)
theorem Ctx.Kept.arch (h : c.Kept P d) : { d.arch with pushes := [], touched := 0 } = { c.arch with pushes := [], touched := 0 } :=
  (congrArg Ctx.arch h.still :)
theorem Ctx.Kept.arch_s (h : c.Kept P d) : d.arch.s = c.arch.s := (congrArg Arch.s h.arch :)
theorem Ctx.Kept.arch_a (h : c.Kept P d) : d.arch.a = c.arch.a := (congrArg Arch.a h.arch :)
theorem Ctx.Kept.arch_lanes (h : c.Kept P d) : d.arch.lanes = c.arch.lanes := (congrArg Arch.lanes h.arch :)

/-- A context that waits for nothing that memory operations give stays as it stands. -/
theorem Ctx.Kept.st_eq (h : c.Kept P d) (hc : c.st.wakes = false) : d.st = c.st := by
  rcases h.st with e | ⟨hw, _⟩
  · exact e
  · simp [hc] at hw

end

theorem MemRun.ctx? (h : MemRun P a s) {k : CtxKey} {c : Ctx} (hc : a.ctx? k = some c) : ∃ d, s.ctx? k = some d ∧ c.Kept P d := by
  obtain ⟨_, _, f, hf, hctxs⟩ := h
  refine ⟨f c, ?_, hf c⟩
  unfold State.ctx? at hc ⊢
  rw [hctxs, find_map_key f Ctx.key k fun x => (hf x).key, hc]
  rfl

theorem MemRun.flaws (h : MemRun P a s) : s.flaws = a.flaws := (congrArg State.flaws h.rest :)
theorem MemRun.invals (h : MemRun P a s) : s.invals = a.invals := (congrArg State.invals h.rest :)
theorem MemRun.gates (h : MemRun P a s) : (s.gates.filter fun g => P g.key) = a.gates.filter fun g => P g.key := (congrArg State.gates h.rest :)
theorem MemRun.pending (h : MemRun P a s) : s.pending = a.pending := (congrArg State.pending h.rest :)
theorem MemRun.arrivals (h : MemRun P a s) : s.arrivals = a.arrivals := (congrArg State.arrivals h.rest :)
theorem MemRun.nextNum (h : MemRun P a s) : s.nextNum = a.nextNum := (congrArg State.nextNum h.rest :)
theorem MemRun.launches (h : MemRun P a s) : s.launches = a.launches := (congrArg State.launches h.rest :)
theorem MemRun.windows (h : MemRun P a s) : s.windows = a.windows := (congrArg State.windows h.rest :)
theorem MemRun.stamps (h : MemRun P a s) : s.stamps = a.stamps := (congrArg State.stamps h.rest :)
theorem MemRun.tick (h : MemRun P a s) : s.tick = a.tick := (congrArg State.tick h.rest :)
theorem MemRun.tlb (h : MemRun P a s) : s.tlb = a.tlb := (congrArg State.tlb h.rest :)

theorem Ctx.Kept.group {c d : Ctx} (h : c.Kept P d) : d.group = c.group := (congrArg Ctx.group h.still :)

theorem MemRun.pasidOf (h : MemRun P a s) {n : Word} : s.pasidOf n = a.pasidOf n := by simp only [State.pasidOf, State.launch?, h.launches]

theorem MemRun.pktOf (h : MemRun P a s) {n : Word} : s.pktOf n = a.pktOf n := by simp only [State.pktOf, State.launch?, h.launches]

theorem MemRun.inLockstep (h : MemRun P a s) {c d : Ctx} (hk : c.Kept P d) : s.inLockstep d = a.inLockstep c := by
  simp only [State.inLockstep, h.pktOf, hk.launch, hk.kind, hk.away]

theorem MemRun.accessor (h : MemRun P a s) {c d : Ctx} (hk : c.Kept P d) : s.accessor d = a.accessor c := by
  simp only [State.accessor, Ctx.core, h.pasidOf, hk.launch, hk.key, hk.away, hk.group, hk.refused]

theorem MemRun.regions (h : MemRun P a s) : s.regions.map Region.dry = a.regions.map Region.dry := (congrArg State.regions h.rest :)

theorem region?_map_dry {core : CoreId} {l : Word} {w : Nat} :
    (s.region? core l w).map Region.dry = (s.regions.map Region.dry).find? fun r => r.core == core && r.launch == l && r.w == w := by
  rw [List.find?_map]
  rfl

theorem MemRun.region? (h : MemRun P a s) {core : CoreId} {l : Word} {w : Nat} :
    (s.region? core l w).map Region.dry = (a.region? core l w).map Region.dry := by
  rw [region?_map_dry, region?_map_dry, h.regions]

/-- Whether the owning pool refuses a write depends on its regions but for their scratch. -/
theorem MemRun.windowRefused (h : MemRun P a s) {x : Accessor} {va : DWord} {p : Place} : s.windowRefused x va p = a.windowRefused x va p := by
  cases p with
  | scratch core l w o =>
    have hmap {u : State} : ((u.region? core l w).map fun g => !(State.windowAllowed x g)) =
        ((u.region? core l w).map Region.dry).map fun g => !(State.windowAllowed x g) := by
      rw [Option.map_map]
      rfl
    simp only [State.windowRefused, hmap, h.region?]
  | _ => rfl

/-! ### Who the contexts are -/

/-- What a context is, whatever it does. -/
structure Ident where
  key : CtxKey
  uid : Nat
  launch : Word
  group : Nat
  kind : CtxKind
  pair : Option (Fin 32)

def Ctx.ident (c : Ctx) : Ident := ⟨c.key, c.uid, c.launch, c.group, c.kind, c.pair⟩

/-- The contexts of a state, in order. -/
def State.idents (s : State) : List Ident := s.ctxs.map Ctx.ident

theorem Ctx.Kept.ident {c d : Ctx} (h : c.Kept P d) : d.ident = c.ident := (congrArg Ctx.ident h.still :)

theorem idents_mapCtxs {f : Ctx → Ctx} (hf : ∀ c, (f c).ident = c.ident) : { s with ctxs := s.ctxs.map f }.idents = s.idents := by
  simp only [State.idents, List.map_map]
  exact List.map_congr_left fun c _ => hf c

theorem idents_modCtx {k : CtxKey} {f : Ctx → Ctx} (hf : ∀ c, (f c).ident = c.ident) : (s.modCtx k f).idents = s.idents :=
  idents_mapCtxs fun c => by
    split
    · exact hf c
    · rfl

theorem MemRun.idents (h : MemRun P a s) : s.idents = a.idents := by
  obtain ⟨_, _, f, hf, hctxs⟩ := h
  rw [State.idents, hctxs, List.map_map]
  exact List.map_congr_left fun c _ => (hf c).ident

/-! ### Memory and the caches -/

theorem putHome_memRun {x : Byte} (p : Place) (h : MemRun P a s) : MemRun P a (s.putHome x p) := by
  cases p with
  | dev d => exact h.of_ctxs rfl rfl
  | host q => exact h.of_ctxs rfl rfl
  | scratch c l w o =>
    have hdry : (s.modRegion c l w fun r => { r with scratch := r.scratch.put o x }).regions.map Region.dry = s.regions.map Region.dry := by
      refine List.map_map.trans (List.map_congr_left fun r _ => ?_)
      dsimp only [Function.comp]
      split <;> rfl
    exact h.of_ctxs (congrArg (fun rs => { s.rest P with regions := rs }) hdry) rfl
  | dom p d => exact .ite (h.of_ctxs rfl rfl) (h.of_ctxs rfl rfl)

theorem putHomes_memRun : ∀ (bs : List Byte) {p : Place} {s : State}, MemRun P a s → MemRun P a (s.putHomes p bs)
  | [], _, _, h => h
  | _ :: bs, p, _, h => putHomes_memRun bs (putHome_memRun p h)

theorem writeLineBytes_memRun {l : CacheLine} : ∀ (n : Nat) {i : Nat} {s : State}, MemRun P a s → MemRun P a (s.writeLineBytes l i n)
  | 0, _, _, h => h
  | n + 1, _, _, h => writeLineBytes_memRun n (.ite (putHome_memRun _ h) h)

theorem enterL2_memRun {pasid : Option (BitVec 20)} {w : Bool} (p : Place) (h : MemRun P a s) : MemRun P a (s.enterL2 pasid w p) := by
  cases p with
  | dev d =>
    dsimp only [State.enterL2]
    split
    · exact .ite (h.of_ctxs rfl rfl) h
    · exact h.of_ctxs rfl rfl
  | _ => exact h

theorem noteWrite_memRun {p : Place} (h : MemRun P a s) : MemRun P a (s.noteWrite p) :=
  h.mapCtxs fun c => by
    split
    · split
      · exact ⟨rfl, .inl rfl, fun _ => rfl⟩
      · exact .rfl
    · next e =>
      split
      · exact ⟨rfl, .inr ⟨by rw [e]; rfl, rfl⟩, fun _ => rfl⟩
      · exact .rfl
    · exact .rfl

theorem homeWrite_memRun {pasid : Option (BitVec 20)} {p : Place} {bs : List Byte} (h : MemRun P a s) : MemRun P a (s.homeWrite pasid p bs) :=
  noteWrite_memRun (putHomes_memRun bs (enterL2_memRun p h))

theorem remapRow_memRun {r : Nat} (h : MemRun P a s) : MemRun P a (s.remapRow r) := by
  unfold State.remapRow
  refine .ite h ?_
  split
  · exact h.of_ctxs rfl rfl
  · exact h

theorem countCorrected_memRun (hf : a.flaws ≠ []) (x : Slice) (h : MemRun P a s) : MemRun P a (s.countCorrected x) := by
  have hecc {es : List (Slice × Nat × Nat)} : MemRun P a { s with ecc := es } := h.of_ctxs rfl rfl
  have htest {u : State} {d i : Nat} (hu : MemRun P a u) : MemRun P a { u with tests := u.tests ++ [⟨.storage x, none, d, i⟩] } := by
    refine hu.trans ⟨congrArg (fun ts => { u.rest P with tests := ts }) ?_, fun e => absurd (hu.flaws.symm.trans e) hf, id, fun _ => .rfl,
      (List.map_id _).symm⟩
    simp [SelfTest.ofStorage]
  unfold State.countCorrected
  cases x with
  | row r => exact .ite hecc (htest (remapRow_memRun hecc))
  | bank b => exact .ite hecc (htest hecc)

/-- Errors are counted only where storage has a flaw. -/
theorem countFlaws_memRun {p : Flaw → Bool} (h : MemRun P a s) : MemRun P a (s.countFlaws (s.flaws.filter p)) := by
  by_cases hf : a.flaws = []
  · rw [h.flaws.trans hf]
    exact h
  · exact h.foldl (countCorrected_memRun hf) _

theorem noteRead_memRun {p : Place} {n : Nat} (h : MemRun P a s) : MemRun P a (s.noteRead p n) := countFlaws_memRun h

theorem noteLine_memRun {f : Nat} {pasid : BitVec 20} {va n : Nat} (h : MemRun P a s) : MemRun P a (s.noteLine f pasid va n) :=
  .ite h (countFlaws_memRun h)

theorem writeBack_memRun {l : CacheLine} (h : MemRun P a s) : MemRun P a (s.writeBack l) :=
  .ite (h.of_ctxs rfl rfl) ((noteWrite_memRun (writeLineBytes_memRun _ (enterL2_memRun _ (noteLine_memRun h)))).of_ctxs rfl rfl)

theorem writeBackAll_memRun : ∀ (ls : List CacheLine) {s : State}, MemRun P a s → MemRun P a (s.writeBackAll ls)
  | [], _, h => h
  | _ :: ls, _, h => writeBackAll_memRun ls (.ite h (writeBack_memRun h))

theorem roomFor_memRun {f line : Nat} (h : MemRun P a s) : MemRun P a (s.roomFor f line) := by
  unfold State.roomFor
  dsimp only
  refine .ite h ?_
  split
  · exact (MemRun.ite h (writeBack_memRun h)).of_ctxs rfl rfl
  · split
    · exact h.of_ctxs rfl rfl
    · exact h

theorem fillLine_memRun {f : Nat} {pasid : BitVec 20} {va : Nat} {p : Place} (h : MemRun P a s) : MemRun P a (s.fillLine f pasid va p) :=
  .ite h ((enterL2_memRun p (roomFor_memRun h)).of_ctxs rfl rfl)

theorem takeLine_memRun {f : Nat} {pasid : BitVec 20} {va pa : Nat} {own write : Bool} (h : MemRun P a s) :
    MemRun P a (s.takeLine f pasid va pa own write) :=
  .ite ((MemRun.ite h (roomFor_memRun h)).of_ctxs rfl rfl) h

theorem snoopLine_memRun (p : Place) (h : MemRun P a s) : MemRun P a (s.snoopLine p) := by
  cases p with
  | host q => exact h.of_ctxs rfl rfl
  | _ => exact h

theorem storeBytes_memRun {f : Option Nat} {pasid : BitVec 20} {va : Nat} {p : Place} {sc : Scope} {bs : List Byte} (h : MemRun P a s) :
    MemRun P a (s.storeBytes f pasid va p sc bs) := by
  unfold State.storeBytes
  refine .ite (h.of_ctxs rfl rfl) ?_
  split
  · split
    · exact homeWrite_memRun (takeLine_memRun h)
    · exact homeWrite_memRun (snoopLine_memRun p h)
  · refine .ite (noteWrite_memRun ((fillLine_memRun h).of_ctxs rfl rfl)) ((homeWrite_memRun ?_).of_ctxs rfl rfl)
    split
    · exact .ite h (writeBack_memRun h)
    · exact h

theorem registerReleaser_memRun {f : Option Nat} {b : Bool} {p : Place} (h : MemRun P a s) : MemRun P a (s.registerReleaser f b p) := by
  unfold State.registerReleaser
  split
  · exact h.of_ctxs rfl rfl
  · exact h

theorem recordMemue_memRun {tid : DWord} {p : Place} (h : MemRun P a s) : MemRun P a (s.recordMemue tid p) := by
  unfold State.recordMemue
  split
  · exact h.of_ctxs rfl rfl
  · exact h.of_ctxs rfl rfl
  · exact h

theorem askPage_memRun {w : PageWait} (h : MemRun P a s) : MemRun P a (s.askPage w) := .ite h (.ite (h.of_ctxs rfl rfl) (h.of_ctxs rfl rfl))

/-! ### A context's stores, pushes, checkpoints and loads -/

section
variable {k : CtxKey} (hk : P k = false)
include hk

theorem touch_memRun {m : BitVec 64} (h : MemRun P a s) : MemRun P a (s.touch k m) :=
  h.modCtx k fun _ e => ⟨rfl, .inl rfl, fun hp => by simp [e, hk] at hp⟩

theorem releaseMem_memRun {sc : Scope} (h : MemRun P a s) : MemRun P a (s.releaseMem k sc) := by
  unfold State.releaseMem
  split
  · exact h
  · refine .ite h (.modCtx ?_ k fun _ e => ⟨rfl, .inl rfl, fun hp => by simp [e, hk] at hp⟩)
    split
    · exact writeBackAll_memRun _ h
    · exact h

theorem acquireMem_memRun {sc : Scope} (h : MemRun P a s) : MemRun P a (s.acquireMem k sc) := by
  unfold State.acquireMem
  split
  · exact h
  · split
    · exact h
    · exact .ite (touch_memRun hk h) ((touch_memRun hk h).of_ctxs rfl rfl)

omit hk in
/-- A change of the gated stores of contexts that the predicate does not keep. -/
theorem gates_memRun {gs : List GatedStore} (h : MemRun P a s)
    (hg : (gs.filter fun g => P g.key) = s.gates.filter fun g => P g.key) : MemRun P a { s with gates := gs } :=
  h.of_ctxs (congrArg (fun gs => { s.rest P with gates := gs }) hg) rfl

theorem performStore_memRun {c : Ctx} {va : DWord} {p : Place} {n : Nat} {x : BitVec 128} {sc : Scope} {rel : Bool} (hc : c.key = k)
    (h : MemRun P a s) : MemRun P a (s.performStore c va p n x sc rel) :=
  .ite (gates_memRun h (by simp [hc, hk]))
    (.ite (registerReleaser_memRun (touch_memRun (hc.symm ▸ hk) (storeBytes_memRun h))) (touch_memRun (hc.symm ▸ hk) (storeBytes_memRun h)))

theorem performPushes_memRun : ∀ (xs : List Pushed) {s : State}, MemRun P a s → MemRun P a (s.performPushes k xs)
  | [], _, h => h
  | x :: xs, s, h => by
    unfold State.performPushes
    split
    · next hc => exact performPushes_memRun xs (performStore_memRun hk (State.ctx?_key hc) h)
    · exact h

theorem flushStreams_memRun (h : MemRun P a s) : MemRun P a (s.flushStreams k) := by
  unfold State.flushStreams
  split
  · exact (performPushes_memRun hk _ h).modCtx k fun _ e => ⟨rfl, .inl rfl, fun hp => by simp [e, hk] at hp⟩
  · exact h

theorem performOldest_memRun (h : MemRun P a s) : MemRun P a (s.performOldest k) := by
  unfold State.performOldest
  split
  · exact (performPushes_memRun hk _ h).modCtx k fun _ e => ⟨rfl, .inl rfl, fun hp => by simp [e, hk] at hp⟩
  · exact h

theorem drainPushes_memRun : ∀ (n : Nat) {s : State}, MemRun P a s → MemRun P a (s.drainPushes k n)
  | 0, _, h => h
  | n + 1, s, h => by
    unfold State.drainPushes
    split
    · exact h
    · exact .ite (drainPushes_memRun n (performOldest_memRun hk h)) h

theorem performGates_memRun : ∀ (gs : List GatedStore) {s : State}, MemRun P a s → MemRun P a (s.performGates k gs)
  | [], _, h => h
  | g :: gs, s, h => by
    refine performGates_memRun gs (.ite ?_ h)
    split
    · exact .ite (registerReleaser_memRun (touch_memRun hk (storeBytes_memRun h))) (touch_memRun hk (storeBytes_memRun h))
    · exact h

omit hk in
theorem wakeGates_memRun {pair : CoreId} (h : MemRun P a s) : MemRun P a (s.wakeGates pair) :=
  h.mapCtxs fun c => by
    split
    · next e =>
      simp only [Bool.and_eq_true, beq_iff_eq] at e
      exact ⟨rfl, .inr ⟨by rw [e.1]; rfl, rfl⟩, fun _ => rfl⟩
    · exact .rfl

theorem filter_gates_ne {gs : List GatedStore} : ((gs.filter fun g => g.key != k).filter fun g => P g.key) = gs.filter fun g => P g.key := by
  rw [List.filter_filter]
  refine List.filter_congr fun g _ => ?_
  by_cases hg : g.key = k <;> simp [hg, hk]

theorem checkpoint_memRun (h : MemRun P a s) : MemRun P a (s.checkpoint k) := by
  unfold State.checkpoint
  split
  · exact h
  · refine .ite ?_ h
    have hgates : MemRun P a { s.performGates k s.gates with gates := s.gates.filter fun g => g.key != k } :=
      gates_memRun (performGates_memRun hk s.gates h) ((filter_gates_ne hk).trans (performGates_memRun hk s.gates .rfl).gates.symm)
    have hckpt := hgates.modCtx k
      (f := fun c => { c with ckpt := c.arch :: c.ckpt.take 1, retired := 0, rollbacks := 0 }) fun _ _ => ⟨rfl, .inl rfl, fun _ => rfl⟩
    exact .ite (wakeGates_memRun hckpt) hckpt

theorem release_memRun {sc : Scope} (h : MemRun P a s) : MemRun P a (s.release k sc) :=
  releaseMem_memRun hk (checkpoint_memRun hk (flushStreams_memRun hk h))

theorem relBefore_memRun {o : MemOrder} {sc : Scope} (h : MemRun P a s) : MemRun P a (s.relBefore k o sc) :=
  .ite (release_memRun hk h) h

theorem spill_memRun {n : Nat} (h : MemRun P a s) : MemRun P a (s.spill k n) :=
  .ite (checkpoint_memRun hk (flushStreams_memRun hk (checkpoint_memRun hk h))) (drainPushes_memRun hk n h)

end

theorem loadFill_memRun {c : Ctx} {va : DWord} {p : Place} {sc : Scope} (h : MemRun P a s) : MemRun P a (s.loadFill c va p sc) := by
  unfold State.loadFill
  split
  · exact takeLine_memRun h
  · exact .ite h (.ite (fillLine_memRun h) (h.of_ctxs rfl rfl))
  · exact h

theorem noteLoad_memRun {c : Ctx} {va : DWord} {p : Place} {n : Nat} {sc : Scope} (h : MemRun P a s) : MemRun P a (s.noteLoad c va p n sc) := by
  unfold State.noteLoad
  dsimp only
  split
  · exact loadFill_memRun (noteRead_memRun (noteLine_memRun h))
  · exact loadFill_memRun (noteRead_memRun h)

theorem noteDesc_memRun {c : Ctx} : ∀ (n : Nat) {va : DWord} {s : State}, MemRun P a s → MemRun P a (s.noteDesc c va n)
  | 0, _, _, h => h
  | n + 1, va, s, h => by
    unfold State.noteDesc
    split
    · exact noteDesc_memRun n (noteLoad_memRun h)
    · exact noteDesc_memRun n h

/-- Popping the elements of an instruction. -/
theorem notePopped_memRun {c : Ctx} {ar : Arch} (h : MemRun P a s) : MemRun P a (s.notePopped c ar) := by
  unfold State.notePopped
  refine h.foldl (fun {u} i hu => ?_) _
  split
  · refine .ite ?_ hu
    split
    · exact noteLoad_memRun hu
    · exact hu
  · exact hu

end Sys2Proof.Machine
end

section
namespace Sys2Proof.Machine
variable {a s t : State} {P : CtxKey → Bool}

/-! ## Lanes that go on, and s pairs -/

/-- A change of lanes that may be repeated, at each of a list of lanes. -/
theorem Arch.forLanes_modLane_getElem? {f : Lane → Lane} (hf : ∀ l, f (f l) = f l) (n : Nat) : ∀ (ls : List Nat) (ar : Arch),
    (ar.forLanes ls fun ar i => ar.modLane i f).lanes[n]? = if n ∈ ls then ar.lanes[n]?.map f else ar.lanes[n]?
  | [], _ => rfl
  | i :: ls, ar => by
    rw [Arch.forLanes, List.foldl_cons]
    refine (Arch.forLanes_modLane_getElem? hf n ls (ar.modLane i f)).trans ?_
    have hmod : (ar.modLane i f).lanes[n]? = if i = n then ar.lanes[n]?.map f else ar.lanes[n]? := by
      rw [Arch.modLane, List.getElem?_modify]
      split <;> simp
    rw [hmod]
    by_cases hi : i = n
    · subst hi
      cases ar.lanes[i]? <;> simp [hf]
    · simp [hi, Ne.symm hi]

/-- Lanes sent to a PC are where the rules put them. -/
theorem Arch.goto_lanes {ar : Arch} {m : BitVec 64} {pc : DWord} : (ar.goto m pc).lanes = (Rules.pcs ar m fun _ => pc).lanes := by
  refine List.ext_getElem? fun n => ?_
  refine (Arch.forLanes_modLane_getElem? (f := fun l => { l with pc := pc }) (fun _ => rfl) n (lanesOf m) ar).trans ?_
  rw [Rules.pcs, List.getElem?_mapIdx]
  by_cases h : n < 64 ∧ m.getLsbD n = true
  · rw [if_pos (by simpa [lanesOf] using h)]
    cases ar.lanes[n]? <;> simp [h]
  · rw [if_neg (by simpa [lanesOf] using h)]
    cases ar.lanes[n]? <;> simp [h]

theorem nextPc_eq_after {iss : Issue} : iss.pc + BitVec.ofNat 64 iss.len = Rules.after iss := by
  simp [Rules.after, BitVec.ofNat_add]

theorem Arch.advance_lanes {ar : Arch} {iss : Issue} : (ar.advance iss).lanes = (Rules.pcs ar iss.exec fun _ => Rules.after iss).lanes := by
  rw [Arch.advance, Arch.goto_lanes, nextPc_eq_after]

/-- Where lanes are sent depends on the lanes alone. -/
theorem pcs_lanes_congr {ar ar' : Arch} {m : BitVec 64} {f : Nat → DWord} (h : ar.lanes = ar'.lanes) : (Rules.pcs ar m f).lanes = (Rules.pcs ar' m f).lanes := by
  simp [Rules.pcs, h]

theorem Arch.pair_eq_pairAt {ar : Arch} {n : Nat} (p : Pair) : ar.pair n p = Rules.pairAt ar n p := by
  cases p with
  | s k =>
    have hk : 2 * k.val + 1 < 64 := by omega
    have hk' : 2 * k.val < 64 := by omega
    simp [Arch.pair, Arch.regAt, regOfPair, Rules.pairAt, hk, hk']
  | v k =>
    have hk : 2 * k.val + 1 < 64 := by omega
    have hk' : 2 * k.val < 64 := by omega
    simp [Arch.pair, Arch.regAt, regOfPair, Rules.pairAt, hk, hk']

theorem Arch.spair_eq_spairAt {c : Ctx} {p : SPair} : c.arch.spair p = Rules.spairAt c p := Arch.pair_eq_pairAt (.s p.k)

/-- Writing an s pair sets its two registers. -/
theorem Arch.setPair_s {ar : Arch} {n : Nat} {k : Fin 32} {x : DWord} :
    ar.setPair n (.s k) x = { ar with s := (ar.s.set (2 * k.val) (x.extractLsb' 0 32) (by omega)).set (2 * k.val + 1) (x.extractLsb' 32 32) (by omega) } := by
  have hk : 2 * k.val + 1 < 64 := by omega
  have hk' : 2 * k.val < 64 := by omega
  simp [Arch.setPair, regOfPair, Arch.putReg, Arch.setS, hk, hk']

theorem pairAt_setPair_s {ar : Arch} {n m : Nat} {k : Fin 32} {x : DWord} : Rules.pairAt (ar.setPair n (.s k) x) m (.s k) = x := by
  have hsplit : x.extractLsb' 32 32 ++ x.extractLsb' 0 32 = x := by
    ext i hi
    rw [BitVec.getElem_append]
    split
    · simp [BitVec.getLsbD_eq_getElem hi]
    · simp [show 32 + (i - 32) = i by omega, BitVec.getLsbD_eq_getElem hi]
  rw [Arch.setPair_s]
  simpa [Rules.pairAt] using hsplit

/-- A pair of s registers is read from the s file alone. -/
theorem pairAt_s_congr {ar ar' : Arch} {n : Nat} {k : Fin 32} (h : ar.s = ar'.s) : Rules.pairAt ar n (.s k) = Rules.pairAt ar' n (.s k) := by
  simp [Rules.pairAt, h]

/-! ## How an instruction that completes leaves its context -/

theorem ctx?_modCtx_some {k : CtxKey} {f : Ctx → Ctx} {c : Ctx} (hf : ∀ c, (f c).key = c.key) (h : s.ctx? k = some c) :
    (s.modCtx k f).ctx? k = some (f c) := by
  rw [State.ctx?_modCtx_same s k f hf, h]
  rfl

/-- Retiring counts the instruction of a lock-step context (R398), and changes nothing else. -/
theorem ctx?_retire {k : CtxKey} {c : Ctx} (h : s.ctx? k = some c) : ∃ y, (s.retire k).ctx? k = some y ∧ c.Kept P y := by
  obtain rfl : c.key = k := State.ctx?_key h
  unfold State.retire
  rw [h]
  dsimp only
  split
  · exact ⟨_, State.ctx?_setCtx_same (c := { c with retired := c.retired + 1 }) h, rfl, .inl rfl, fun _ => rfl⟩
  · exact ⟨c, h, .rfl⟩

/-- The launches, the store and the next number are as they were when an instruction retires. -/
theorem retire_pending {k : CtxKey} : (s.retire k).pending = s.pending := retire_keeps State.pending (fun _ _ => rfl) s k

theorem retire_nextNum {k : CtxKey} : (s.retire k).nextNum = s.nextNum := retire_keeps State.nextNum (fun _ _ => rfl) s k

/-! ## LAUNCH (R57, R59, R64) -/

theorem pktField_eq_extract {p : BitVec 1536} {off n : Nat} : pktField p off n = (p.extractLsb' (8 * off) (8 * n)).toNat := by
  rw [BitVec.extractLsb'_toNat, Nat.shiftRight_eq_div_pow, pktField, Nat.pow_mul, Nat.pow_mul]

/-- A packet in the store has the launcher's PASID in bits 480 to 511, and its own bits elsewhere (R64). -/
theorem getLsbD_withPasid {p : BitVec 1536} {pasid : BitVec 20} {i : Nat} (hi : i < 1536) :
    (withPasid p pasid).getLsbD i = if 480 ≤ i ∧ i < 512 then pasid.getLsbD (i - 480) else p.getLsbD i := by
  have hmask : ((0xFFFFFFFF : BitVec 1536) <<< 480).getLsbD i = decide (480 ≤ i ∧ i < 512) := by
    rw [BitVec.getLsbD_shiftLeft, show (0xFFFFFFFF : BitVec 1536) = BitVec.ofNat 1536 (2 ^ 32 - 1) from rfl, BitVec.getLsbD_ofNat,
      Nat.testBit_two_pow_sub_one, Bool.eq_iff_iff]
    simp only [Bool.and_eq_true, Bool.not_eq_true', decide_eq_true_eq, decide_eq_false_iff_not]
    omega
  rw [withPasid, BitVec.getLsbD_or, BitVec.getLsbD_and, BitVec.getLsbD_not, hmask, BitVec.getLsbD_shiftLeft, BitVec.getLsbD_setWidth]
  have hw : i - 480 < 1536 := by omega
  have hle : pasid.getLsbD (i - 480) = true → i - 480 < 20 := fun h => BitVec.lt_of_getLsbD h
  by_cases h : 480 ≤ i ∧ i < 512
  · simp [h, hi, hw, Nat.not_lt.2 h.1]
  · by_cases h20 : i < 480
    · simp [h, hi, h20]
    · have hout : pasid.getLsbD (i - 480) = false := by
        rw [← Bool.not_eq_true]
        intro hb
        have := hle hb
        omega
      simp [h, hi, hout]

theorem pktField_withPasid_pasid {p : BitVec 1536} {pasid : BitVec 20} : pktField (withPasid p pasid) 0x3C 4 = pasid.toNat := by
  have h : (withPasid p pasid).extractLsb' (8 * 0x3C) (8 * 4) = pasid.setWidth 32 := by
    refine BitVec.eq_of_getLsbD_eq fun i hi => ?_
    rw [BitVec.getLsbD_extractLsb', getLsbD_withPasid (by omega), if_pos (by omega), BitVec.getLsbD_setWidth, Nat.add_sub_cancel_left]
  rw [pktField_eq_extract, h]
  exact BitVec.toNat_setWidth_of_le (by decide)

theorem pktField_withPasid_other {p : BitVec 1536} {pasid : BitVec 20} {off : Nat} (hoff : off < 192) (h : ¬ (0x3C ≤ off ∧ off < 0x40)) :
    pktField (withPasid p pasid) off 1 = pktField p off 1 := by
  rw [pktField_eq_extract, pktField_eq_extract]
  refine congrArg BitVec.toNat (BitVec.eq_of_getLsbD_eq fun i hi => ?_)
  rw [BitVec.getLsbD_extractLsb', BitVec.getLsbD_extractLsb', getLsbD_withPasid (by omega), if_neg (by omega)]

theorem pktField_ofNat {x off : Nat} (hoff : off < 192) : pktField (BitVec.ofNat 1536 x) off 1 = x / 256 ^ off % 256 := by
  have hpow : (2 : Nat) ^ 1536 = 256 ^ off * 256 ^ (192 - off) := by
    rw [← Nat.pow_add, show 256 = 2 ^ 8 from rfl, ← Nat.pow_mul]
    congr 1
    omega
  rw [pktField, BitVec.toNat_ofNat, hpow, Nat.mod_mul_right_div_self]
  exact Nat.mod_mod_of_dvd _ (Nat.pow_dvd_pow 256 (by omega))

theorem nextNumber_eq {n : Word} : nextNumber n = if n = 0xFFFFFFFF then 1 else n + 1 := by
  unfold nextNumber
  have h : n + 1 = 0 ↔ n = 0xFFFFFFFF := by
    constructor
    · intro h; bv_omega
    · rintro rfl; rfl
  simp only [h]

/-- LAUNCH's answer in its pair, with the checkpoint after it. -/
def State.launchReply (s : State) (k : CtxKey) (d : Pair) (iss : Issue) (x : DWord) : State :=
  (s.modCtx k fun c => { c with arch := (c.arch.setPair 0 d x).advance iss, refused := [] }).checkpoint k

/-- What LAUNCH leaves besides its answer: a packet in the store, or nothing. -/
def State.launchEnter (s : State) (c : Ctx) (tid : DWord) (x : Nat) : State :=
  { s with nextNum := nextNumber s.nextNum }.enterPending s.nextNum (withPasid (BitVec.ofNat 1536 x) (s.pasidOf c.launch))
    (.device tid c.key.core (pktPrio (s.pktOf c.launch))) (s.pasidOf c.launch)

section
variable {iss : Issue} {c : Ctx} {k : Fin 32} {p : SPair} {u x : Nat}

/-- The reads of the packet before LAUNCH's answer, behind its release (R64, R286). -/
def State.launchRead (s : State) (key : CtxKey) (c : Ctx) (p : SPair) : State := (s.release key .dev).noteDesc c (Rules.spairAt c p) 24

theorem launchRead_memRun {key : CtxKey} : MemRun (fun _ => false) s (s.launchRead key c p) := noteDesc_memRun 24 (release_memRun rfl .rfl)

theorem exec_launch (h : Ready s iss c ⟨[], [], [(.s ⟨2 * k.val, by omega⟩, 2), (.s ⟨2 * p.k.val, by omega⟩, 2)]⟩ true true [] [])
    (hu : s.readDesc c (Rules.spairAt c p) 64 0 = .ok u)
    (hx : (s.release iss.key .dev).readPieces c (Rules.spairAt c p) (Rules.spairAt c p) 24 = .ok x) : ∃ tid,
    exec (.launch (.s k) p) s = .next ((if (s.launchRead iss.key c p).deviceRoom then
      ((s.launchRead iss.key c p).launchEnter c tid x).launchReply iss.key (.s k) iss ((s.launchRead iss.key c p).nextNum.setWidth 64 <<< 32)
      else (s.launchRead iss.key c p).launchReply iss.key (.s k) iss 1).retire iss.key) := by
  have hkey : c.key = iss.key := State.ctx?_key h.issuing.ctx
  refine ⟨(c.arch.lane ((lanesOf iss.exec).headD 0)).tid, (withIssue_of_issuing h.issuing _).trans ?_⟩
  rw [← hkey] at hx ⊢
  have hguard := guarded_of (s := s) (iss := iss) (c := c)
    (nm := ⟨[], [], [pairName (.s k), pairName (pairOfS p)]⟩) (typed := pairIsS (.s k)) (whole := true)
  rw [hguard _ h.names rfl h.whole, Arch.spair_eq_spairAt]
  simp only [hu, hx, Checked.andThen]
  split
  · next hroom =>
    rw [State.launchRead, if_pos hroom]
    rfl
  · next hroom =>
    rw [State.launchRead, if_neg hroom]
    rfl

theorem launchEnter_ctx? {tid : DWord} {key : CtxKey} : (s.launchEnter c tid x).ctx? key = s.ctx? key := rfl

/-- Where LAUNCH leaves its thread. -/
theorem launchReply_retire (hc : s.ctx? iss.key = some c) (hst : c.st.wakes = false) {z : DWord} :
    ∃ y, ((s.launchReply iss.key (.s k) iss z).retire iss.key).ctx? iss.key = some y ∧ y.st = c.st ∧ Rules.pairAt y.arch 0 (.s k) = z ∧
      y.arch.a = c.arch.a ∧ y.arch.lanes = (Rules.pcs c.arch iss.exec fun _ => Rules.after iss).lanes := by
  have hmod : (s.modCtx iss.key fun c => { c with arch := (c.arch.setPair 0 (.s k) z).advance iss, refused := [] }).ctx? iss.key =
      some { c with arch := (c.arch.setPair 0 (.s k) z).advance iss, refused := [] } := ctx?_modCtx_some (fun _ => rfl) hc
  obtain ⟨d, hd, hkept⟩ := (checkpoint_memRun (P := fun _ => false) (k := iss.key) rfl .rfl).ctx? hmod
  obtain ⟨y, hy, hkept'⟩ := ctx?_retire (s := s.launchReply iss.key (.s k) iss z) hd
  have hall := hkept.trans hkept'
  refine ⟨y, hy, hall.st_eq hst, ?_, ?_, ?_⟩
  · have hs : y.arch.s = (c.arch.setPair 0 (.s k) z).s := hall.arch_s.trans (Arch.goto_s ..)
    exact (pairAt_s_congr hs).trans pairAt_setPair_s
  · rw [hall.arch_a]
    exact (Arch.goto_a ..).trans (by rw [Arch.setPair_s])
  · rw [hall.arch_lanes]
    exact Arch.advance_lanes.trans (pcs_lanes_congr (by rw [Arch.setPair_s]))

theorem launchReply_pending {z : DWord} {key : CtxKey} : (s.launchReply key (.s k) iss z).pending = s.pending :=
  (checkpoint_memRun (P := fun _ => false) rfl .rfl).pending

theorem launchReply_nextNum {z : DWord} {key : CtxKey} : (s.launchReply key (.s k) iss z).nextNum = s.nextNum :=
  (checkpoint_memRun (P := fun _ => false) rfl .rfl).nextNum

/-- The packet enters behind the others, under the next number and with the launcher's PASID in it (R57, R59, R64). -/
theorem launchEnter_pending (h : MemRun P a s) {tid : DWord} : ∃ q, (s.launchEnter c tid x).pending = a.pending ++ [q] ∧
    q.number = a.nextNum ∧ q.order = a.arrivals ∧ q.checked = false ∧ q.dead = false ∧ q.pasid = a.pasidOf c.launch ∧
    pktField q.pkt 0x3C 4 = (a.pasidOf c.launch).toNat ∧
    (∀ off, off < 192 → ¬ (0x3C ≤ off ∧ off < 0x40) → pktField q.pkt off 1 = x / 256 ^ off % 256) ∧
    ∃ tid, q.source = .device tid c.key.core (pktPrio (a.pktOf c.launch)) := by
  refine ⟨_, congrArg (· ++ _) h.pending, h.nextNum, h.arrivals, rfl, rfl, h.pasidOf, ?_, fun off hoff hne => ?_, ⟨tid, ?_⟩⟩
  · exact pktField_withPasid_pasid.trans (congrArg BitVec.toNat h.pasidOf)
  · exact (pktField_withPasid_other hoff hne).trans (pktField_ofNat hoff)
  · exact congrArg (fun p => Source.device tid c.key.core (pktPrio p)) h.pktOf

theorem launchEnter_nextNum (h : MemRun P a s) {tid : DWord} :
    (s.launchEnter c tid x).nextNum = if a.nextNum = 0xFFFFFFFF then 1 else a.nextNum + 1 :=
  nextNumber_eq.trans (by rw [h.nextNum])

/-- R57: a device LAUNCH finds an entry while fewer than 256 are taken, fewer than 224 of them by device launches. -/
theorem launchRead_deviceRoom : (s.launchRead iss.key c p).deviceRoom = true ↔
    s.pending.length < 256 ∧ (s.pending.filter fun p => p.source.isDevice).length < 224 := by
  simp only [State.deviceRoom, launchRead_memRun.pending, Config.pendingDevice, Config.pendingMax, Bool.and_eq_true, decide_eq_true_eq]
  exact and_comm

end

/-- Settles O48: the release and the reads before LAUNCH's answer keep the store, and the store's room decides which answer it is. -/
theorem launchesEnter : Obligations.LaunchesEnter := by
  unfold Obligations.LaunchesEnter
  intro s iss c k p u x h hu hx
  obtain ⟨tid, hexec⟩ := exec_launch h hu hx
  have hrun : MemRun (fun _ => false) s (s.launchRead iss.key c p) := launchRead_memRun
  obtain ⟨d, hd, hkept⟩ := hrun.ctx? h.issuing.ctx
  have hst : d.st = c.st := hkept.st_eq (by rw [h.issuing.ready]; rfl)
  have hwakes : d.st.wakes = false := by rw [hst, h.issuing.ready]; rfl
  have hlanes := pcs_lanes_congr (m := iss.exec) (f := fun _ => Rules.after iss) hkept.arch_lanes
  by_cases hroom : (s.launchRead iss.key c p).deviceRoom = true
  · rw [if_pos hroom] at hexec
    obtain ⟨y, hy, hyst, hpair, ha, hl⟩ := launchReply_retire (s := (s.launchRead iss.key c p).launchEnter c tid x) (k := k)
      (z := (s.launchRead iss.key c p).nextNum.setWidth 64 <<< 32) (launchEnter_ctx?.trans hd) hwakes
    obtain ⟨hlen, hdev⟩ := launchRead_deviceRoom.1 hroom
    refine ⟨_, y, hexec, hy, hyst.trans hst, ⟨ha.trans hkept.arch_a, hl.trans hlanes⟩,
      fun hfull => (hfull.elim (Nat.not_le.2 hlen) (Nat.not_le.2 hdev)).elim, fun _ _ => ⟨?_, ?_, ?_⟩⟩
    · rw [hpair, hrun.nextNum]
    · rw [retire_nextNum, launchReply_nextNum, launchEnter_nextNum hrun]
    · rw [retire_pending, launchReply_pending]
      exact launchEnter_pending hrun
  · rw [if_neg hroom] at hexec
    obtain ⟨y, hy, hyst, hpair, ha, hl⟩ := launchReply_retire (s := s.launchRead iss.key c p) (k := k) (z := 1) hd hwakes
    have hfull : ¬ (s.pending.length < 256 ∧ (s.pending.filter fun p => p.source.isDevice).length < 224) := mt launchRead_deviceRoom.2 hroom
    refine ⟨_, y, hexec, hy, hyst.trans hst, ⟨ha.trans hkept.arch_a, hl.trans hlanes⟩, fun _ => ⟨hpair, ?_, ?_⟩, fun hlen hdev =>
      absurd ⟨hlen, hdev⟩ hfull⟩
    · rw [retire_pending, launchReply_pending, hrun.pending]
    · rw [retire_nextNum, launchReply_nextNum, hrun.nextNum]

end Sys2Proof.Machine
end

section
namespace Sys2Proof.Machine
open Rules
variable {a s t : State} {P : CtxKey → Bool} {iss : Issue} {c : Ctx}

/-! ## The checks of an atomic, and its request -/

theorem exec_atomic {i : Instr} {f : AtomicForm} (h : atomics i = some f) :
    exec i s = s.atomicOp f.op f.ord f.scope f.size f.d f.addr f.c f.q := by
  unfold atomics at h
  split at h <;> cases h <;> rfl

/-- The types of all the operands of an atomic. -/
def atomicTypes (f : AtomicForm) : List RType := f.addr.types ++ [opType f.c] ++ (f.q.map opType).toList

theorem atomicTypes_uniform {f : AtomicForm} : (atomicTypes f).all (· == .uniform) = f.once := by
  cases hq : f.q <;> simp [atomicTypes, AtomicForm.once, hq, Bool.and_assoc]

theorem spread_atomicTypes {f : AtomicForm} : spread (atomicTypes f) = if f.once then .uniform else .varying := by
  rw [spread, atomicTypes_uniform]

theorem spread_atomicTypes_uniform {f : AtomicForm} : (spread (atomicTypes f) == .uniform) = f.once := by
  rw [spread_atomicTypes]
  cases f.once <;> rfl

theorem partLanes_eq_taking {once : Bool} {m : BitVec 64} (hm : m ≠ 0) : partLanes once m = taking once m := by
  cases once with
  | false => rfl
  | true =>
    have hne : lanesOf m ≠ [] := by
      intro h
      refine hm (BitVec.eq_of_getLsbD_eq fun i hi => ?_)
      have hnot : i ∉ lanesOf m := by simp [h]
      simpa [lanesOf, hi] using hnot
    obtain ⟨n, ns, hns⟩ := List.exists_cons_of_ne_nil hne
    have hfind : (List.range 64).find? (fun i => m.getLsbD i) = some n := by
      rw [← List.head?_filter]
      exact congrArg List.head? hns
    simp [partLanes, taking, hns, lowLane, hfind]

theorem tryLanes_of_passes {ar : Arch} {f : AddrForm} {n : Nat} {k : AccessKind} {sc : Scope} {x y : Nat → BitVec 128} {va : Nat → DWord}
    {pl : Nat → Place} : ∀ {ls : List Nat}, passes s c ar f n k sc ls va pl →
      s.tryLanes c ar f n k sc x y ls = .ready (accesses ls va pl x y) []
  | [], _ => rfl
  | i :: ls, h => by
    rw [State.tryLanes, tryLanes_of_passes fun j hj => h j (List.mem_cons_of_mem _ hj), h i List.mem_cons_self]
    rfl

theorem withStreams_of {nm : Names} {go : List Pop → List Push → Arch → Eff} {pops : List Pop} {ps : List Push}
    (hpop : s.checkPops c (c.streamsIn nm.src) = .ok pops) (hpush : s.checkPushes c (c.streamsIn nm.dst) = .ok ps) :
    s.withStreams iss c nm go = go pops ps (pops.foldl Arch.pop c.arch) := by
  simp only [State.withStreams, hpop, hpush]

/-- The low bits of a value are its remainder. -/
theorem toNat_and_mask {n : Nat} (x : BitVec n) {k : Nat} (hk : k ≤ n) : (x &&& BitVec.ofNat n (2 ^ k - 1)).toNat = x.toNat % 2 ^ k := by
  have hpow : 2 ^ k ≤ 2 ^ n := Nat.pow_le_pow_right (by omega) hk
  have hpos := Nat.two_pow_pos k
  rw [BitVec.toNat_and, BitVec.toNat_ofNat, Nat.mod_eq_of_lt (a := 2 ^ k - 1) (by omega), Nat.and_two_pow_sub_one_eq_mod]

theorem toNat_append_eq {n m : Nat} (x : BitVec n) (y : BitVec m) : (x ++ y).toNat = x.toNat * 2 ^ m + y.toNat := by
  rw [BitVec.toNat_append, ← Nat.shiftLeft_add_eq_or_of_lt y.isLt, Nat.shiftLeft_eq]

theorem foldl_range_two (g : Nat → Nat) : (List.range 2).foldl (fun x i => x + g i) 0 = g 0 + g 1 := by
  simp [List.range_succ]

theorem foldl_range_four (g : Nat → Nat) : (List.range 4).foldl (fun x i => x + g i) 0 = g 0 + g 1 + g 2 + g 3 := by
  simp [List.range_succ]

theorem Arch.data_tuple {ar : Arch} {n m b : Nat} {r : Reg} {sz : Size} (hm : sz.regs = m) (hb : bytesOf sz = b) (h1 : (m == 1) = false) :
    ar.data n (.reg r) sz = BitVec.ofNat 128 (((List.range m).foldl (fun x i => x + (ar.regAt n r i).toNat * 2 ^ (32 * i)) 0) % 2 ^ (8 * b)) := by
  subst hm hb
  simp only [Arch.data, h1, Bool.false_eq_true, if_false]

/-- R229: the value of a data operand, a tuple's lowest register least significant. -/
theorem Arch.data_eq_dataOf {ar : Arch} {n : Nat} {o : Operand} {sz : Size} : ar.data n o sz = dataOf ar n o sz := by
  refine BitVec.eq_of_toNat_eq ?_
  have hbytes : 8 * bytesOf sz ≤ 128 := by cases sz <;> decide
  have hlow {x : Nat} : x % 2 ^ (8 * bytesOf sz) < 2 ^ 128 :=
    Nat.lt_of_lt_of_le (Nat.mod_lt _ (Nat.two_pow_pos _)) (Nat.pow_le_pow_right (by omega) hbytes)
  cases o with
  | imm x => rw [Arch.data, dataOf, toNat_and_mask _ hbytes, BitVec.toNat_ofNat, Nat.mod_eq_of_lt hlow]
  | reg r =>
    cases sz with
    | b8 =>
      have hmask := toNat_and_mask (ar.reg n r) (k := 8) (by decide)
      have hw := BitVec.toNat_setWidth_of_le (b := ar.reg n r &&& 0xFF) (show 32 ≤ 128 by decide)
      rw [Arch.data, BitVec.toNat_ofNat, Nat.mod_eq_of_lt hlow]
      simpa [dataOf, Size.regs, bytesOf] using (hw.trans hmask).symm
    | b16 =>
      have hmask := toNat_and_mask (ar.reg n r) (k := 16) (by decide)
      have hw := BitVec.toNat_setWidth_of_le (b := ar.reg n r &&& 0xFFFF) (show 32 ≤ 128 by decide)
      rw [Arch.data, BitVec.toNat_ofNat, Nat.mod_eq_of_lt hlow]
      simpa [dataOf, Size.regs, bytesOf] using (hw.trans hmask).symm
    | b32 =>
      have h := (ar.reg n r).isLt
      have hw := BitVec.toNat_setWidth_of_le (b := ar.reg n r) (show 32 ≤ 128 by decide)
      rw [Arch.data, BitVec.toNat_ofNat, Nat.mod_eq_of_lt hlow]
      simpa [dataOf, Size.regs, bytesOf, Nat.mod_eq_of_lt h] using hw.symm
    | b64 =>
      have h0 := (ar.regAt n r 0).isLt
      have h1 := (ar.regAt n r 1).isLt
      rw [Arch.data_tuple (m := 2) (b := 8) rfl rfl rfl, dataOf, BitVec.toNat_setWidth_of_le (show 32 + 32 ≤ 128 by decide), toNat_append_eq,
        foldl_range_two, BitVec.toNat_ofNat]
      omega
    | b128 =>
      have h0 := (ar.regAt n r 0).isLt
      have h1 := (ar.regAt n r 1).isLt
      have h2 := (ar.regAt n r 2).isLt
      have h3 := (ar.regAt n r 3).isLt
      rw [Arch.data_tuple (m := 4) (b := 16) rfl rfl rfl, dataOf, toNat_append_eq, toNat_append_eq, toNat_append_eq,
        foldl_range_four, BitVec.toNat_ofNat]
      omega

/-! ## Registers that do not depend on what is still to be stored -/

/-- The architectural state without its pushes and its touched banks. -/
def Arch.quiet (ar : Arch) : Arch := { ar with pushes := [], touched := 0 }

theorem Arch.pop_quiet {ar : Arch} {p : Pop} : (ar.pop p).quiet = ar.quiet.pop p := by
  simp only [Arch.pop]
  rw [show ar.quiet.streams[p.reg] = ar.streams[p.reg] from rfl]
  cases p.elem with
  | none => cases ar.streams[p.reg] <;> rfl
  | some x => cases ar.streams[p.reg] <;> rfl

theorem Arch.putReg_quiet {ar : Arch} {n i : Nat} {r : Reg} {x : Word} : (ar.putReg n r i x).quiet = ar.quiet.putReg n r i x := by
  cases r with
  | s j => simp only [Arch.putReg]; split <;> rfl
  | a j => simp only [Arch.putReg, Arch.setA]; split <;> rfl
  | v j => simp only [Arch.putReg]; split <;> rfl

/-- Steps that commute with leaving the pushes out do so one after another. -/
theorem foldl_quiet {α : Type} {f : Arch → α → Arch} (hf : ∀ ar x, (f ar x).quiet = f ar.quiet x) :
    ∀ (xs : List α) (ar : Arch), (xs.foldl f ar).quiet = xs.foldl f ar.quiet
  | [], _ => rfl
  | x :: xs, ar => (foldl_quiet hf xs (f ar x)).trans (by rw [hf, List.foldl_cons])

theorem Arch.putData_quiet {ar : Arch} {n : Nat} {r : Reg} {sz : Size} {x : BitVec 128} : (ar.putData n r sz x).quiet = ar.quiet.putData n r sz x :=
  foldl_quiet (fun _ _ => Arch.putReg_quiet) _ _

theorem Arch.push_s {ar : Arch} {p : Push} : (ar.push p).s = ar.s := by
  unfold Arch.push
  split <;> rfl

theorem Arch.push_lanes {ar : Arch} {p : Push} : (ar.push p).lanes = ar.lanes := by
  unfold Arch.push
  split <;> rfl

theorem foldl_push_s : ∀ (ps : List Push) (ar : Arch), (ps.foldl Arch.push ar).s = ar.s
  | [], _ => rfl
  | p :: ps, ar => (foldl_push_s ps (ar.push p)).trans Arch.push_s

theorem foldl_push_lanes : ∀ (ps : List Push) (ar : Arch), (ps.foldl Arch.push ar).lanes = ar.lanes
  | [], _ => rfl
  | p :: ps, ar => (foldl_push_lanes ps (ar.push p)).trans Arch.push_lanes

/-! ## Landing a request -/

/-- The registers that a request without faults writes back (R120). -/
def Request.result (r : Request) (write : Arch → Arch) (ar : Arch) : Arch :=
  (r.pushes.foldl Arch.push (write (r.pops.foldl Arch.pop ar))).goto r.exec r.next

/-- The scalar registers and the lanes of the result do not depend on what was still to be stored. -/
theorem Request.result_of_quiet {r : Request} {write : Arch → Arch} (hw : ∀ ar, (write ar).quiet = write ar.quiet) {x y : Arch}
    (h : y.quiet = x.quiet) :
    (r.result write y).s = ((write (r.pops.foldl Arch.pop x)).goto r.exec r.next).s ∧
    (r.result write y).lanes = ((write (r.pops.foldl Arch.pop x)).goto r.exec r.next).lanes := by
  have hquiet {ar : Arch} : (write (r.pops.foldl Arch.pop ar)).quiet = write (r.pops.foldl Arch.pop ar.quiet) := by
    rw [hw, foldl_quiet fun _ _ => Arch.pop_quiet]
  have heq : (write (r.pops.foldl Arch.pop y)).quiet = (write (r.pops.foldl Arch.pop x)).quiet := by
    rw [hquiet, hquiet, h]
  constructor
  · rw [Request.result, Arch.goto_s, Arch.goto_s, foldl_push_s]
    exact (congrArg Arch.s heq :)
  · rw [Request.result, Arch.goto_lanes, Arch.goto_lanes]
    exact pcs_lanes_congr ((foldl_push_lanes _ _).trans (congrArg Arch.lanes heq :))

/-- A context whose request has landed. -/
def Ctx.landed (c : Ctx) (r : Request) (write : Arch → Arch) : Ctx :=
  { c with st := .live, retired := c.retired + 1, arch := r.result write c.arch }

/-- The state in which a request has landed but for the room that its pushes need. -/
def State.landed (s : State) (k : CtxKey) (c : Ctx) (r : Request) (write : Arch → Arch) : State :=
  (s.notePopped c (r.pops.foldl Arch.pop c.arch)).modCtx k fun c => c.landed r write

theorem completeRequest_memRun {k : CtxKey} {r : Request} {write : Arch → Arch} (hk : P k = false) (hc : s.ctx? k = some c) :
    MemRun P (s.landed k c r write) (s.completeRequest k r write []) := by
  simp only [State.completeRequest, hc]
  split
  · exact .rfl
  · exact spill_memRun hk .rfl

theorem landed_rest {k : CtxKey} {r : Request} {write : Arch → Arch} : (s.landed k c r write).rest P = s.rest P :=
  (notePopped_memRun (P := P) (s := s) .rfl).rest

theorem landed_idents {k : CtxKey} {r : Request} {write : Arch → Arch} : (s.landed k c r write).idents = s.idents :=
  (idents_modCtx (f := fun c => c.landed r write) fun _ => rfl).trans (notePopped_memRun (P := fun _ => false) .rfl).idents

theorem landed_ctx? {k : CtxKey} {r : Request} {write : Arch → Arch} (hc : s.ctx? k = some c) :
    ∃ d, c.Kept P d ∧ (s.landed k c r write).ctx? k = some (d.landed r write) := by
  obtain ⟨d, hd, hkept⟩ := (notePopped_memRun (P := P) (c := c) (ar := r.pops.foldl Arch.pop c.arch) .rfl).ctx? hc
  exact ⟨d, hkept, ctx?_modCtx_some (f := fun c => c.landed r write) (fun _ => rfl) hd⟩

/-! ## Atomics in order (R240, R241) -/

theorem syncHome_memRun {va : DWord} {p : Place} (h : MemRun P a s) : MemRun P a (s.syncHome c va p) := by
  unfold State.syncHome
  split
  · exact h
  · exact takeLine_memRun h
  · refine .ite h ?_
    split
    · exact .ite h (writeBack_memRun h)
    · exact h

theorem atomicAt_memRun {op : AtomicOp} {n : Nat} {x : Access} (hk : P c.key = false) (h : MemRun P a s) : MemRun P a (s.atomicAt c op n x).1 := by
  refine touch_memRun hk ?_
  split
  · exact storeBytes_memRun (syncHome_memRun h)
  · exact syncHome_memRun h

theorem inOrder_memRun {op : AtomicOp} {n : Nat} (hk : P c.key = false) : ∀ {xs : List Access} {s : State}, MemRun P a s → MemRun P a (inOrder s c op n xs).1
  | [], _, h => h
  | _ :: xs, _, h => inOrder_memRun hk (xs := xs) (atomicAt_memRun hk h)

theorem inOrder_lanes {op : AtomicOp} {n : Nat} : ∀ {xs : List Access} {s : State}, (inOrder s c op n xs).2.map (·.1) = xs.map (·.lane)
  | [], _ => rfl
  | _ :: _, _ => congrArg (List.cons _) inOrder_lanes

theorem noteRead_of_clean (h : s.flaws = []) {p : Place} {n : Nat} : s.noteRead p n = s := by
  rw [State.noteRead, h]
  rfl

theorem errorAt_of_clean (h : s.flaws = []) {n : Nat} {x : Access} : s.errorAt [] n x = false := by
  simp [State.errorAt, State.flawed, h]

theorem windowRefused_of_not_windowed {x : Access} {y : Accessor} (h : x.windowed = false) : s.windowRefused y x.va x.place = false := by
  unfold State.windowRefused
  split
  · simp [show throughWindow x.va x.place = false from h]
  · rfl

/-- An access that its own step performs, at a place that no pool has to accept. -/
def Access.plain (x : Access) : Prop := x.windowed = false ∧ x.answer = none

theorem atomicAll_of_clean {k : CtxKey} {op : AtomicOp} {n : Nat} : ∀ {xs : List Access} {s : State}, s.flaws = [] → (∀ x ∈ xs, x.plain) →
    s.atomicAll k c op n [] xs = ((inOrder s c op n xs).1, (inOrder s c op n xs).2, [])
  | [], _, _, _ => rfl
  | x :: xs, s, hf, hxs => by
    obtain ⟨hw, ha⟩ := hxs x List.mem_cons_self
    have hnext : (s.atomicAt c op n x).1.flaws = [] := ((atomicAt_memRun (P := fun _ => false) rfl .rfl).flaws).trans hf
    simp only [State.atomicAll, windowRefused_of_not_windowed hw, errorAt_of_clean hf, ha, noteRead_of_clean hf, Bool.false_eq_true, if_false,
      atomicAll_of_clean hnext fun y hy => hxs y (List.mem_cons_of_mem _ hy), inOrder]

theorem noteRelease_memRun {o : MemOrder} {sc : Scope} {va : DWord} {p : Place} (h : MemRun P a s) : MemRun P a (s.noteRelease c o sc va p) :=
  .ite (registerReleaser_memRun h) h

theorem acqAfter_memRun {k : CtxKey} {o : MemOrder} {sc : Scope} (hk : P k = false) (h : MemRun P a s) : MemRun P a (s.acqAfter k o sc) :=
  .ite (acquireMem_memRun hk h) h

/-- What an atomic request does behind its atomics, before it writes back: it registers its releases and acquires. -/
def State.afterAtomics (s : State) (k : CtxKey) (c : Ctx) (r : Request) : State :=
  (r.acc.foldl (fun s x => s.noteRelease c r.ord r.scope x.va x.place) s).acqAfter k r.ord r.scope

theorem afterAtomics_memRun {k : CtxKey} {r : Request} (hk : P k = false) (h : MemRun P a s) : MemRun P a (s.afterAtomics k c r) :=
  acqAfter_memRun hk (h.foldl (fun _ => noteRelease_memRun) _)

/-- What an atomic writes back: the old value of each lane. -/
def writeOld (d : Reg) (sz : Size) (vs : List (Nat × BitVec 128)) (ar : Arch) : Arch := vs.foldl (fun ar v => ar.putData v.1 d sz v.2) ar

/-- The atomics of a request in their order, behind its release, and the old values (R240, R286). -/
def State.atomicsDone (s : State) (k : CtxKey) (c : Ctx) (r : Request) (op : AtomicOp) : State × List (Nat × BitVec 128) :=
  inOrder (s.relBefore k r.ord (accScope r.acc r.scope)) c op (bytesOf r.size) r.acc

theorem atomicsDone_memRun {k : CtxKey} {r : Request} {op : AtomicOp} (hk : P k = false) (hc : c.key = k) :
    MemRun P s (s.atomicsDone k c r op).1 := inOrder_memRun (hc ▸ hk) (relBefore_memRun hk .rfl)

/-- The state in which the reply of an atomic request has landed. -/
def State.atomicLanded (s : State) (k : CtxKey) (c : Ctx) (r : Request) (op : AtomicOp) (d : Reg) : State :=
  (((s.atomicsDone k c r op).1.afterAtomics k c r).completeRequest k r (writeOld d r.size (s.atomicsDone k c r op).2) []).checkpoint k

/-- Landing an atomic that meets no error and no refusal. -/
theorem landAtomic_of_clean {k : CtxKey} {r : Request} {op : AtomicOp} {d : Reg} (hf : s.flaws = []) (hk : P k = false) (hne : r.acc ≠ [])
    (hxs : ∀ x ∈ r.acc, x.plain) (hr : r.faults = []) :
    s.landAtomic k c r op d [] = s.atomicLanded k c r op d := by
  have hdue : (r.acc.any fun x => x.answer.isNone && !s.windowRefused (s.accessor c) x.va x.place && !s.errorAt [] (bytesOf r.size) x) = true := by
    obtain ⟨x, xs, hacc⟩ := List.exists_cons_of_ne_nil hne
    obtain ⟨hw, ha⟩ := hxs x (by simp [hacc])
    simp [hacc, windowRefused_of_not_windowed hw, errorAt_of_clean hf, ha]
  have hf' : (s.relBefore k r.ord (accScope r.acc r.scope)).flaws = [] := (relBefore_memRun hk .rfl).flaws.trans hf
  have hdone {vs : List (Nat × BitVec 128)} (hvs : vs.map (·.1) = r.acc.map (·.lane)) :
      (r.acc.filter fun x => vs.any fun v => v.1 == x.lane) = r.acc := by
    refine List.filter_eq_self.2 fun x hx => ?_
    have hmem : x.lane ∈ vs.map (·.1) := hvs ▸ List.mem_map_of_mem hx
    obtain ⟨v, hv, he⟩ := List.mem_map.1 hmem
    exact List.any_eq_true.2 ⟨v, hv, by simp [he]⟩
  have hempty : r.acc.isEmpty = false := by simpa using hne
  simp only [State.landAtomic, hdue, if_true, atomicAll_of_clean hf' hxs, hdone inOrder_lanes, hempty, Bool.false_eq_true, if_false, hr,
    List.append_nil]
  rfl

/-! ## What a landed request leaves standing -/

/-- Every region of a launch holds a context, or is the leaf region of a frame with one of its threads (R74, R393). -/
def State.occupied (s : State) (n : Word) : Prop :=
  ∀ r ∈ s.regions, r.launch = n → s.residents r ≠ [] ∨
    (r.w = 0xFFFFF ∧ ∃ c ∈ s.ctxs, c.launch = n ∧ c.kind = .rod ∧ frameNo c.key.core = frameNo r.core)

theorem residents_ne_nil {r : Region} :
    s.residents r ≠ [] ↔ ∃ i ∈ s.idents, i.key.core = r.core ∧ i.launch = r.launch ∧ i.group = r.w := by
  simp [State.residents, State.idents, Ctx.ident, List.filter_eq_nil_iff, and_assoc]

/-- Whether a launch's regions are occupied depends on who the contexts are, and on the regions but for their scratch. -/
theorem State.occupied.transport {n : Word} (h : a.occupied n) (hi : s.idents = a.idents)
    (hr : s.regions.map Region.dry = a.regions.map Region.dry) : s.occupied n := by
  intro r hmem hn
  obtain ⟨q, hq, hdry⟩ := List.mem_map.1 (hr ▸ List.mem_map_of_mem hmem : r.dry ∈ a.regions.map Region.dry)
  have hcore : q.core = r.core := (congrArg Region.core hdry :)
  have hlaunch : q.launch = r.launch := (congrArg Region.launch hdry :)
  have hw : q.w = r.w := (congrArg Region.w hdry :)
  rw [residents_ne_nil, hi, ← hcore, ← hlaunch, ← hw, ← residents_ne_nil]
  refine (h q hq (hlaunch.trans hn)).imp_right fun ⟨hleaf, c, hc, hl, hkind, hframe⟩ => ⟨hleaf, ?_⟩
  obtain ⟨d, hd, hident⟩ := List.mem_map.1 (show c.ident ∈ s.idents from hi ▸ List.mem_map_of_mem hc)
  refine ⟨d, hd, (congrArg Ident.launch hident :).trans hl, (congrArg Ident.kind hident :).trans hkind, ?_⟩
  rw [show d.key = c.key from (congrArg Ident.key hident :), hframe, hcore]

theorem freeRegions_of_occupied {n : Word} (h : s.occupied n) {r : Region} (hr : r ∈ s.regions) (hn : r.launch = n) :
    s.freeRegions n r.core = s := by
  have hkept : (s.regions.filter fun q => !(q.core == r.core && q.launch == n && (s.residents q).isEmpty &&
      !(q.w == 0xFFFFF && s.ctxs.any fun c => c.launch == n && c.kind == .rod && frameNo c.key.core == frameNo r.core) && !s.writesInto q)) =
      s.regions := by
    refine List.filter_eq_self.2 fun q hq => ?_
    by_cases hcore : q.core = r.core
    · by_cases hl : q.launch = n
      · rcases h q hq hl with hres | ⟨hw, c, hc, hcl, hk, hf⟩
        · simp [hres]
        · have hany : (s.ctxs.any fun c => c.launch == n && c.kind == .rod && frameNo c.key.core == frameNo r.core) = true :=
            List.any_eq_true.2 ⟨c, hc, by simp [hcl, hk, hf, hcore]⟩
          simp [hw, hany]
      · simp [hl]
    · simp [hcore]
  have hany : (s.regions.any fun q => q.core == r.core && q.launch == n) = true := List.any_eq_true.2 ⟨r, hr, by simp [hn]⟩
  unfold State.freeRegions
  dsimp only
  rw [hkept, if_pos hany]

theorem freeWritten_of_occupied {n : Word} (h : s.occupied n) : s.freeWritten n = s := by
  have hfold : ∀ rs : List Region, (∀ r ∈ rs, r ∈ s.regions ∧ r.launch = n) →
      rs.foldl (fun (s : State) r => s.freeRegions n r.core) s = s := by
    intro rs hrs
    induction rs with
    | nil => rfl
    | cons r rs ih =>
      obtain ⟨hr, hn⟩ := hrs r List.mem_cons_self
      rw [List.foldl_cons, freeRegions_of_occupied h hr hn]
      exact ih fun q hq => hrs q (List.mem_cons_of_mem _ hq)
  exact hfold _ fun r hr => by simpa using List.mem_filter.1 hr

theorem settleInvals_of_none (h : s.invals = []) : s.settleInvals = s := by
  unfold State.settleInvals
  rw [h]
  rfl

/-! ## Sending a request -/

theorem flushStreams_of_none {k : CtxKey} (hc : s.ctx? k = some c) (h : c.arch.pushes = []) : s.flushStreams k = s := by
  simp [State.flushStreams, hc, h]

/-- No push of a context is left once its streams are flushed. -/
theorem flushStreams_pushes {k : CtxKey} (hk : P k = false) (hc : s.ctx? k = some c) :
    ∃ d, (s.flushStreams k).ctx? k = some d ∧ c.Kept P d ∧ d.arch.pushes = [] := by
  cases hp : c.arch.pushes with
  | nil => exact ⟨c, by rwa [flushStreams_of_none hc hp], .rfl, hp⟩
  | cons x xs =>
    obtain ⟨d, hd, hkept⟩ := (performPushes_memRun hk (x :: xs) .rfl).ctx? hc
    refine ⟨{ d with arch := { d.arch with pushes := [] } }, ?_, hkept.trans ⟨rfl, .inl rfl, fun h => ?_⟩, rfl⟩
    · simp only [State.flushStreams, hc, hp, Option.map_some]
      exact ctx?_modCtx_some (f := fun c => { c with arch := { c.arch with pushes := [] } }) (fun _ => rfl) hd
    · simp [State.ctx?_key hd, hk] at h

theorem touch_pushes {k : CtxKey} {m : BitVec 64} (hc : s.ctx? k = some c) :
    ∃ d, (s.touch k m).ctx? k = some d ∧ d.arch.pushes = c.arch.pushes :=
  ⟨_, ctx?_modCtx_some (f := fun c => { c with arch := { c.arch with touched := c.arch.touched ||| m } }) (fun _ => rfl) hc, rfl⟩

/-- The gated stores of a context are none of its pushes. -/
theorem performGates_pushes {k : CtxKey} : ∀ {gs : List GatedStore} {s : State} {c : Ctx}, s.ctx? k = some c →
    ∃ d, (s.performGates k gs).ctx? k = some d ∧ d.arch.pushes = c.arch.pushes
  | [], _, c, hc => ⟨c, hc, rfl⟩
  | g :: gs, s, c, hc => by
    have hstore {f : Option Nat} {pasid : BitVec 20} {m : BitVec 64} {b : Bool} : ∃ d, (if g.rel then
        ((s.storeBytes f pasid g.va.toNat g.place g.scope (leBytes g.x.toNat g.n)).touch k m).registerReleaser f b g.place
        else (s.storeBytes f pasid g.va.toNat g.place g.scope (leBytes g.x.toNat g.n)).touch k m).ctx? k = some d ∧
        d.arch.pushes = c.arch.pushes := by
      obtain ⟨d, hd, hkept⟩ := (storeBytes_memRun (P := fun _ => true) (f := f) (pasid := pasid) (va := g.va.toNat) (p := g.place)
        (sc := g.scope) (bs := leBytes g.x.toNat g.n) .rfl).ctx? hc
      obtain ⟨e, he, hpushes⟩ := touch_pushes (m := m) hd
      have hall : e.arch.pushes = c.arch.pushes := hpushes.trans (congrArg Arch.pushes (hkept.whole rfl))
      split
      · obtain ⟨x, hx, hkept'⟩ := (registerReleaser_memRun (P := fun _ => true) (f := f) (b := b) (p := g.place) .rfl).ctx? he
        exact ⟨x, hx, (congrArg Arch.pushes (hkept'.whole rfl)).trans hall⟩
      · exact ⟨e, he, hall⟩
    rw [State.performGates]
    split
    · rw [hc]
      obtain ⟨d, hd, hpushes⟩ := hstore (f := c.frame?) (pasid := s.pasidOf c.launch) (m := touchedBits (domainAperture g.va) g.place)
        (b := domainAperture g.va)
      obtain ⟨e, he, hpushes'⟩ := performGates_pushes hd
      exact ⟨e, he, hpushes'.trans hpushes⟩
    · exact performGates_pushes hc

/-- A checkpoint performs no push of a write stream. -/
theorem checkpoint_pushes {k : CtxKey} (hc : s.ctx? k = some c) : ∃ d, (s.checkpoint k).ctx? k = some d ∧ d.arch.pushes = c.arch.pushes := by
  unfold State.checkpoint
  rw [hc]
  dsimp only
  split
  · obtain ⟨d, hd, hpushes⟩ := performGates_pushes (gs := s.gates) hc
    have hmod : (State.modCtx { s.performGates k s.gates with gates := s.gates.filter fun g => g.key != k } k fun c =>
        { c with ckpt := c.arch :: c.ckpt.take 1, retired := 0, rollbacks := 0 }).ctx? k =
        some { d with ckpt := d.arch :: d.ckpt.take 1, retired := 0, rollbacks := 0 } := ctx?_modCtx_some (fun _ => rfl) hd
    split
    · obtain ⟨e, he, hkept'⟩ := (wakeGates_memRun (P := fun _ => true) (pair := pairCore k.core) .rfl).ctx? hmod
      exact ⟨e, he, (congrArg Arch.pushes (hkept'.whole rfl)).trans hpushes⟩
    · exact ⟨_, hmod, hpushes⟩
  · exact ⟨c, hc, rfl⟩

/-- A lock-step context's gated stores are performed by its checkpoint. -/
theorem checkpoint_gates {k : CtxKey} (hc : s.ctx? k = some c) (hl : s.inLockstep c = true) (hst : c.st = .live) :
    (s.checkpoint k).gates = s.gates.filter fun g => g.key != k := by
  simp only [State.checkpoint, hc, hl, hst]
  split
  · split <;> rfl
  · contradiction

theorem checkpoint_of_free {k : CtxKey} (hc : s.ctx? k = some c) (hl : s.inLockstep c = false) : s.checkpoint k = s := by
  simp [State.checkpoint, hc, hl]

/-- The state in which a context's atomic request is sent. -/
def State.sent (s : State) (k : CtxKey) (r : Request) : State := ((s.flushStreams k).checkpoint k).parkReply k r

/-- A context whose request is sent. -/
def Ctx.sent (c : Ctx) (r : Request) : Ctx := { c with st := .parked (.reply r), refused := [] }

section
variable {k : CtxKey} {r : Request}

theorem sent_memRun (hk : P k = false) : ∃ u, MemRun P s u ∧ s.sent k r = u.modCtx k fun c => c.sent r :=
  ⟨_, flushStreams_memRun hk (checkpoint_memRun hk (flushStreams_memRun hk .rfl)), rfl⟩

theorem sent_ctx? (hk : P k = false) (hc : s.ctx? k = some c) : ∃ d, c.Kept P d ∧ (s.sent k r).ctx? k = some (d.sent r) := by
  obtain ⟨u, hrun, hsent⟩ := sent_memRun (s := s) (r := r) hk
  obtain ⟨d, hd, hkept⟩ := hrun.ctx? hc
  exact ⟨d, hkept, hsent ▸ ctx?_modCtx_some (f := fun c => c.sent r) (fun _ => rfl) hd⟩

theorem sent_idents (hk : P k = false) : (s.sent k r).idents = s.idents := by
  obtain ⟨u, hrun, hsent⟩ := sent_memRun (s := s) (r := r) hk
  rw [hsent]
  exact (idents_modCtx (f := fun c => c.sent r) fun _ => rfl).trans hrun.idents

theorem sent_rest (hk : P k = false) : (s.sent k r).rest P = s.rest P := by
  obtain ⟨u, hrun, hsent⟩ := sent_memRun (s := s) (r := r) hk
  rw [hsent]
  exact hrun.rest

theorem sent_tests (hk : P k = false) (hf : s.flaws = []) : (s.sent k r).tests = s.tests := by
  obtain ⟨u, hrun, hsent⟩ := sent_memRun (s := s) (r := r) hk
  rw [hsent]
  exact hrun.tests hf

/-- In lock-step no gated store of the sender is left (R397). -/
theorem sent_gates (hc : s.ctx? k = some c) (hl : s.inLockstep c = true) (hst : c.st = .live) :
    (s.sent k r).gates = s.gates.filter fun g => g.key != k := by
  have hk : (fun j => j != k) k = false := by simp
  obtain ⟨d, hd, hkept, hpushes⟩ := flushStreams_pushes (P := fun j => j != k) hk hc
  have hrun : MemRun (fun j => j != k) s (s.flushStreams k) := flushStreams_memRun hk .rfl
  obtain ⟨e, he, hpushes'⟩ := checkpoint_pushes hd
  have hsent : s.sent k r = ((s.flushStreams k).checkpoint k).modCtx k fun c => c.sent r := by
    rw [State.sent, State.parkReply, flushStreams_of_none he (hpushes'.trans hpushes)]
    rfl
  rw [hsent, State.modCtx_gates, checkpoint_gates hd ((hrun.inLockstep hkept).trans hl) ((hkept.st_eq (by rw [hst]; rfl)).trans hst)]
  exact hrun.gates

/-- A sent request leaves its context in lock-step or out of it, as it was. -/
theorem sent_inLockstep {d : Ctx} (hk : P k = false) (hkept : c.Kept P d) :
    (s.sent k r).inLockstep (d.sent r) = s.inLockstep c := by
  obtain ⟨u, hrun, hsent⟩ := sent_memRun (s := s) (r := r) hk
  rw [hsent]
  exact (hrun.inLockstep hkept : u.inLockstep d = _)

/-- Sending a request makes no gate of its pair fuller. -/
theorem sent_gateFull {n : Nat} {d : Ctx} (hk : P k = false) (hc : s.ctx? k = some c) (hst : c.st = .live) (hkept : c.Kept P d)
    (h : s.gateFull c n = false) : (s.sent k r).gateFull (d.sent r) n = false := by
  have hlock : (s.sent k r).inLockstep (d.sent r) = s.inLockstep c := sent_inLockstep hk hkept
  by_cases hl : s.inLockstep c = true
  · have hle : (s.sent k r).pairGates (pairCore c.key.core) ≤ s.pairGates (pairCore c.key.core) := by
      rw [State.pairGates, sent_gates hc hl hst]
      exact (List.filter_sublist.filter _).length_le
    have hkey : (d.sent r).key = c.key := hkept.key
    rw [State.gateFull, hlock, hkey]
    rw [State.gateFull] at h
    simp only [hl, Bool.true_and, Bool.and_eq_false_iff, decide_eq_false_iff_not] at h ⊢
    exact h.imp_right fun h => by omega
  · simp [State.gateFull, hlock, hl]

end

/-! ## An atomic and its reply -/

/-- The places that a push is checked to take are those that their pools accept (R214, R247). -/
theorem checkPushes_accepted : ∀ {is : List (Fin 8)} {ps : List Push}, s.checkPushes c is = .ok ps →
    ∀ p ∈ ps, ∀ x, p.dest = some x → s.windowRefused (s.accessor c) x.1 x.2 = false
  | [], ps, h, p, hp => by
    obtain rfl : [] = ps := by simpa [State.checkPushes] using h
    simp at hp
  | i :: is, ps, h, p, hp => by
    simp only [State.checkPushes] at h
    split at h
    · exact checkPushes_accepted h p hp
    · split at h
      · split at h
        · next qs hqs =>
          cases h
          rcases List.mem_cons.1 hp with rfl | hp
          · intro x hx
            cases hx
          · exact checkPushes_accepted hqs p hp
        · next hqs => exact (hqs _ h).elim
      · split at h
        · next q hq =>
          split at h
          · next qs hqs =>
            cases h
            rcases List.mem_cons.1 hp with rfl | hp
            · intro x hx
              cases hx
              unfold State.resolveWrite at hq
              split at hq
              · split at hq
                · cases hq
                · next hw =>
                  split at hq <;> cases hq
                  exact Bool.not_eq_true _ ▸ hw
              · next hres => exact (hres _ hq).elim
            · exact checkPushes_accepted hqs p hp
          · next hqs => exact (hqs _ h).elim
        · cases h
        · cases h

/-- The request that an atomic sends. -/
def atomicRequest (f : AtomicForm) (iss : Issue) (pops : List Pop) (ps : List Push) (acc : List Access) : Request :=
  ⟨.atomic f.op f.d, f.size, f.ord, f.scope, iss.pc, Rules.after iss, acc, [], pops, ps, iss.exec, f.once⟩

/-- The accesses of an atomic. -/
def atomicAccesses (f : AtomicForm) (iss : Issue) (ar : Arch) (va : Nat → DWord) (pl : Nat → Place) : List Access :=
  accesses (taking f.once iss.exec) va pl (fun n => dataOf ar n f.c f.size) (fun n => (f.q.map fun o => dataOf ar n o f.size).getD 0)

theorem taking_ne_nil {once : Bool} {m : BitVec 64} (hm : m ≠ 0) : taking once m ≠ [] := by
  cases once with
  | true => simp [taking]
  | false =>
    intro h
    refine hm (BitVec.eq_of_getLsbD_eq fun i hi => ?_)
    have hnot : i ∉ taking false m := by simp [h]
    simpa [taking, lanesOf, hi] using hnot

theorem retire_of_parked {k : CtxKey} (hc : s.ctx? k = some c) (hst : c.st ≠ .live) : s.retire k = s := by
  simp [State.retire, hc, hst]

/-- An atomic whose lanes pass their checks sends its request and waits for the reply (R120). -/
theorem exec_atomic_of_passes {i : Instr} {f : AtomicForm} {pops : List Pop} {ps : List Push} {va : Nat → DWord} {pl : Nat → Place}
    (hi : atomics i = some f) (h : Ready s iss c f.names f.typed f.once pops ps)
    (habnd : f.op = .fadd → ∀ n ∈ taking f.once iss.exec, isAbandoned ((pops.foldl Arch.pop c.arch).opWord n f.c) = false)
    (hpass : passes s c (pops.foldl Arch.pop c.arch) f.addr (bytesOf f.size) (.atomic (hostAtomicBit f.op f.size)) f.scope
      (taking f.once iss.exec) va pl) :
    exec i s = .next (s.sent iss.key (atomicRequest f iss pops ps (atomicAccesses f iss (pops.foldl Arch.pop c.arch) va pl))) := by
  have hkey : c.key = iss.key := State.ctx?_key h.issuing.ctx
  have hlanes : partLanes f.once iss.exec = taking f.once iss.exec := partLanes_eq_taking h.issuing.active
  have htyped : (regType f.d == spread (atomicTypes f)) = true := by
    have := h.typed
    rw [spread_atomicTypes]
    exact this
  have hbad : (if f.op == .fadd then (taking f.once iss.exec).filter fun i => isAbandoned ((pops.foldl Arch.pop c.arch).opWord i f.c) else []) =
      [] := by
    split
    · next hop => exact List.filter_eq_nil_iff.2 fun n hn => by simp [habnd (by simpa using hop) n hn]
    · rfl
  have hacc : ∃ x xs, atomicAccesses f iss (pops.foldl Arch.pop c.arch) va pl = x :: xs := by
    obtain ⟨n, ns, hns⟩ := List.exists_cons_of_ne_nil (taking_ne_nil (once := f.once) h.issuing.active)
    exact ⟨_, _, by rw [atomicAccesses, hns]; rfl⟩
  obtain ⟨x, xs, hacc⟩ := hacc
  have htry := tryLanes_of_passes (x := fun n => dataOf (pops.foldl Arch.pop c.arch) n f.c f.size)
    (y := fun n => (f.q.map fun o => dataOf (pops.foldl Arch.pop c.arch) n o f.size).getD 0) hpass
  obtain ⟨d, hkept, hctx⟩ := sent_ctx? (P := fun _ => false)
    (r := atomicRequest f iss pops ps (atomicAccesses f iss (pops.foldl Arch.pop c.arch) va pl)) rfl h.issuing.ctx
  rw [exec_atomic hi, State.atomicOp, withIssue_of_issuing h.issuing]
  change finish iss.key (s.guarded iss c f.names (regType f.d == spread (atomicTypes f)) (spread (atomicTypes f) == .uniform)
    (s.withStreams iss c f.names _)) = _
  rw [spread_atomicTypes_uniform, guarded_of _ h.names htyped h.whole, withStreams_of h.popped h.pushed]
  have honce : (spread (f.addr.types ++ [opType f.c] ++ (f.q.map opType).toList) == .uniform) = f.once := spread_atomicTypes_uniform
  have hall {ls : List Nat} : (ls.filter fun i => !([] : List Nat).contains i) = ls := List.filter_eq_self.2 fun _ _ => rfl
  have hfaults : sortFaults (([] : List LaneFault) ++ []) = [] := by simp [sortFaults]
  simp only [honce, hlanes, hbad, Arch.data_eq_dataOf, hall, htry, List.isEmpty_nil, Bool.not_true, Bool.and_false, Bool.false_eq_true,
    if_false, List.map_nil, hkey]
  rw [show accesses (taking f.once iss.exec) va pl _ _ = x :: xs from hacc]
  simp only [hfaults, finish_done]
  rw [hacc] at hctx ⊢
  have hnext : nextPc iss = Rules.after iss := nextPc_eq_after
  rw [hnext]
  exact congrArg Host.Outcome.next (retire_of_parked hctx (by simp [Ctx.sent]))

/-- An atomic request of a context whose reply lands with nothing to hinder it: each access is performed by the model's own step at a place
that no pool has to accept, none is a PCIe AtomicOp, and its pushes find their pools and their gates ready. -/
structure Unhindered (s : State) (c : Ctx) (r : Request) (op : AtomicOp) (d : Reg) : Prop where
  kind : r.kind = .atomic op d
  plain : ∀ x ∈ r.acc, x.plain
  ne : r.acc ≠ []
  faults : r.faults = []
  performed : ∀ x ∈ r.acc, (∃ a, x.place = .host a) → s.ports[diePort (coreDie c.key.core)].mode = .cxl
  accepted : ∀ p ∈ r.pushes, ∀ x, p.dest = some x → s.windowRefused (s.accessor c) x.1 x.2 = false
  room : s.gateFull c (pushCount r.pushes) = false

section
variable {k : CtxKey} {r : Request} {op : AtomicOp} {d : Reg} {e : Ctx}

/-- The reply of a request that is sent unhindered can land. -/
theorem replyReady_sent (h : Unhindered s c r op d) (hu : Undisturbed s c.launch) (hk : P k = false) (hc : s.ctx? k = some c)
    (hst : c.st = .live) (hkept : c.Kept P e) : (s.sent k r).replyReady (e.sent r) r = true := by
  have hports : (s.sent k r).ports = s.ports := (congrArg State.ports (sent_rest (P := P) (r := r) hk) :)
  have hkey : (e.sent r).key = c.key := hkept.key
  have hhost {x : Access} (hx : x ∈ r.acc) : (s.sent k r).isHostOp (e.sent r) r x = false := by
    have hmode : (∃ a, x.place = .host a) → (s.sent k r).ports[diePort (coreDie (e.sent r).key.core)].mode = .cxl := by
      simpa only [hports, hkey] using h.performed x hx
    rw [State.isHostOp]
    cases hp : x.place with
    | host a =>
      have hcxl := hmode ⟨a, hp⟩
      simp only [hcxl, bne_self_eq_false, Bool.and_false]
    | _ => simp
  have hgates : (s.sent k r).gateFull (e.sent r) ((e.sent r).replyGates r) = false := by
    rw [Ctx.replyGates, h.kind]
    exact sent_gateFull hk hc hst hkept h.room
  have htests : (s.sent k r).tests = [] := (sent_tests hk hu.flaws).trans hu.tests
  simp only [State.replyReady, hgates, State.bankTested, htests, List.any_nil, Bool.not_false, Bool.and_true, List.all_eq_true]
  intro x hx
  simp [hhost hx]

theorem landReply_sent (h : Unhindered s c r op d) (hu : Undisturbed s c.launch) (hk : P k = false) (hc : s.ctx? k = some c)
    (hkept : c.Kept P e) : (s.sent k r).landReply (e.sent r) r [] = (s.sent k r).atomicLanded k (e.sent r) r op d := by
  obtain ⟨u, hrun, hsent⟩ := sent_memRun (s := s) (r := r) hk
  have hkey : (e.sent r).key = k := hkept.key.trans (State.ctx?_key hc)
  have hrefused {va : DWord} {p : Place} :
      (s.sent k r).windowRefused ((s.sent k r).accessor (e.sent r)) va p = s.windowRefused (s.accessor c) va p := by
    rw [← hrun.windowRefused, ← hrun.accessor hkept, hsent]
    rfl
  have hpush : (s.sent k r).pushRefused (e.sent r) r = none := by
    refine List.findSome?_eq_none_iff.2 fun p hp => ?_
    cases hdest : p.dest with
    | none => rfl
    | some x => simp [hrefused, h.accepted p hp x hdest]
  have hflaws : (s.sent k r).flaws = [] := Eq.trans (congrArg State.flaws (sent_rest (P := P) (r := r) hk) :) hu.flaws
  simp only [State.landReply, hpush, h.faults, h.kind]
  rw [hkey]
  exact landAtomic_of_clean hflaws hk h.ne h.plain h.faults

/-- What the landed atomic leaves alone. -/
theorem atomicLanded_rest (hk : P k = false) (hc : s.ctx? k = some c) : (s.atomicLanded k c r op d).rest P = s.rest P ∧
    (s.atomicLanded k c r op d).idents = s.idents := by
  have hz : MemRun P s ((s.atomicsDone k c r op).1.afterAtomics k c r) :=
    afterAtomics_memRun hk (atomicsDone_memRun hk (State.ctx?_key hc))
  obtain ⟨y, hy, _⟩ := hz.ctx? hc
  have hland := checkpoint_memRun hk (completeRequest_memRun
    (r := r) (write := writeOld d r.size (s.atomicsDone k c r op).2) hk hy)
  exact ⟨hland.rest.trans (landed_rest.trans hz.rest), hland.idents.trans (landed_idents.trans hz.idents)⟩

/-- The reply of a request that is sent unhindered lands. -/
theorem exec_memoryReply_sent (h : Unhindered s c r op d) (hu : Undisturbed s c.launch) (hk : P k = false) (hc : s.ctx? k = some c)
    (hst : c.st = .live) (hkept : c.Kept P e) (he : (s.sent k r).ctx? k = some (e.sent r)) :
    exec (.memoryReply k [] []) (s.sent k r) = .next ((s.sent k r).atomicLanded k (e.sent r) r op d) := by
  obtain ⟨hrest, hidents⟩ := atomicLanded_rest (r := r) (op := op) (d := d) hk he
  have hrest := hrest.trans (sent_rest hk)
  have hocc : State.occupied s c.launch := hu.held
  have hfree := freeWritten_of_occupied (hocc.transport (hidents.trans (sent_idents hk)) (congrArg State.regions hrest :))
  have hinvals := settleInvals_of_none (s := (s.sent k r).atomicLanded k (e.sent r) r op d) (Eq.trans (congrArg State.invals hrest :) hu.invals)
  have hlaunch : (e.sent r).launch = c.launch := hkept.launch
  have hst' : (e.sent r).st = .parked (.reply r) := rfl
  have hquiet : (e.sent r).replyCompared r = false := by rw [Ctx.replyCompared, h.kind]
  change execMemoryReply k [] [] (s.sent k r) = _
  simp only [execMemoryReply, he, hst', replyReady_sent h hu hk hc hst hkept, hquiet, Bool.not_true, Bool.false_and, Bool.false_eq_true, if_false,
    List.foldl_nil, landReply_sent h hu hk hc hkept, hlaunch, hfree, hinvals]

end

/-! ### The landed context and the memory -/

/-- What an atomic writes back does not depend on what is still to be stored. -/
theorem writeOld_quiet {d : Reg} {sz : Size} {vs : List (Nat × BitVec 128)} {ar : Arch} :
    (writeOld d sz vs ar).quiet = writeOld d sz vs ar.quiet := foldl_quiet (fun _ _ => Arch.putData_quiet) _ _

theorem atomicLanded_ctx? {k : CtxKey} {r : Request} {op : AtomicOp} {d : Reg} {ar0 : Arch} (hk : P k = false) (hc : s.ctx? k = some c)
    (har : c.arch.quiet = ar0.quiet) :
    ∃ x, (s.atomicLanded k c r op d).ctx? k = some x ∧ x.st = .live ∧
      let ar := (writeOld d r.size (s.atomicsDone k c r op).2
        (r.pops.foldl Arch.pop ar0)).goto r.exec r.next
      x.arch.s = ar.s ∧ x.arch.lanes = ar.lanes := by
  obtain ⟨y, hy, hkept⟩ := (afterAtomics_memRun (c := c) (r := r) (k := k) hk (atomicsDone_memRun (c := c) (r := r) (op := op) hk (State.ctx?_key hc))).ctx? hc
  obtain ⟨z, hkept', hz⟩ := landed_ctx? (r := r) (P := P)
    (write := writeOld d r.size (s.atomicsDone k c r op).2) hy
  obtain ⟨x, hx, hkept''⟩ := (checkpoint_memRun hk (completeRequest_memRun (r := r)
    (write := writeOld d r.size (s.atomicsDone k c r op).2) hk hy)).ctx? hz
  obtain ⟨hs, hl⟩ := Request.result_of_quiet (r := r) (write := writeOld d r.size (s.atomicsDone k c r op).2) (fun _ => writeOld_quiet)
    ((hkept.trans hkept').arch.trans har)
  exact ⟨x, hx, hkept''.st_eq rfl, hkept''.arch_s.trans hs, hkept''.arch_lanes.trans hl⟩

theorem registerReleaser_homeByte {f : Option Nat} {b : Bool} {p q : Place} : (s.registerReleaser f b p).homeByte q = s.homeByte q := by
  unfold State.registerReleaser
  split <;> cases q <;> rfl

theorem foldl_noteRelease_homeByte {o : MemOrder} {sc : Scope} {p : Place} : ∀ (xs : List Access) (s : State),
    (xs.foldl (fun s x => s.noteRelease c o sc x.va x.place) s).homeByte p = s.homeByte p
  | [], _ => rfl
  | x :: xs, s => (foldl_noteRelease_homeByte xs _).trans (by
      unfold State.noteRelease
      split
      · exact registerReleaser_homeByte
      · rfl)

theorem modCtx_homeByte {k : CtxKey} {f : Ctx → Ctx} {p : Place} : (s.modCtx k f).homeByte p = s.homeByte p := by
  cases p <;> rfl

/-- An acquire drops clean lines of the frame, and changes no home (R287). -/
theorem acquireMem_homeByte {k : CtxKey} {sc : Scope} {p : Place} : (s.acquireMem k sc).homeByte p = s.homeByte p := by
  unfold State.acquireMem
  split
  · rfl
  · split
    · rfl
    · split
      · exact modCtx_homeByte
      · cases p <;> rfl

theorem afterAtomics_homeByte {k : CtxKey} {r : Request} {p : Place} : (s.afterAtomics k c r).homeByte p = s.homeByte p := by
  have hacq {u : State} : (u.acqAfter k r.ord r.scope).homeByte p = u.homeByte p := by
    unfold State.acqAfter
    split
    · exact acquireMem_homeByte
    · rfl
  exact hacq.trans (foldl_noteRelease_homeByte _ _)

/-- Where no stream has moved, nothing was popped. -/
theorem notePopped_self : s.notePopped c c.arch = s := by
  have hfold : ∀ is : List (Fin 8), is.foldl (fun (s : State) i =>
      match c.arch.streams[i], c.arch.streams[i] with
      | some x, some y =>
        if x.n < y.n && !strmWrites x.desc then
          match s.resolve (s.accessor c) (strmAddr x.desc x.n) (strmBytes x.desc) (strmBytes x.desc) .load with
          | .ok p => s.noteLoad c (strmAddr x.desc x.n) p (strmBytes x.desc) .dev
          | _ => s
        else s
      | _, _ => s) s = s := by
    intro is
    induction is with
    | nil => rfl
    | cons i is ih =>
      rw [List.foldl_cons]
      refine (congrArg (fun u => is.foldl _ u) ?_).trans ih
      cases c.arch.streams[i] with
      | none => rfl
      | some x => simp
  exact hfold _

/-- An atomic that pops and pushes nothing, out of lock-step, leaves the memory as its atomics left it. -/
theorem atomicLanded_homeByte {k : CtxKey} {r : Request} {op : AtomicOp} {d : Reg} {p : Place} (hk : P k = false) (hc : s.ctx? k = some c)
    (hpops : r.pops = []) (hpushes : r.pushes = []) (hl : s.inLockstep c = false) : (s.atomicLanded k c r op d).homeByte p =
      (s.atomicsDone k c r op).1.homeByte p := by
  have hrun : MemRun P s ((s.atomicsDone k c r op).1.afterAtomics k c r) :=
    afterAtomics_memRun hk (atomicsDone_memRun hk (State.ctx?_key hc))
  obtain ⟨y, hy, hkept⟩ := hrun.ctx? hc
  have hland {write : Arch → Arch} {u : State} (hu : u.ctx? k = some y) :
      u.completeRequest k r write [] = u.modCtx k fun c => c.landed r write := by
    simp only [State.completeRequest, hu, hpushes, List.isEmpty_nil, if_true, hpops, List.foldl_nil, notePopped_self]
    simp only [Ctx.landed, Request.result, hpushes, hpops, List.foldl_nil]
  rw [State.atomicLanded, hland hy]
  rw [checkpoint_of_free (ctx?_modCtx_some (f := fun c => c.landed r _) (fun _ => rfl) hy) ((hrun.inLockstep hkept).trans hl :),
    modCtx_homeByte, afterAtomics_homeByte]

/-- The addresses of an atomic's accesses are those of its lanes. -/
theorem atomicAccesses_scope {f : AtomicForm} {ar : Arch} {va : Nat → DWord} {pl : Nat → Place} {sc : Scope} :
    accScope (atomicAccesses f iss ar va pl) sc = domainScope ((taking f.once iss.exec).map va) sc :=
  congrArg (domainScope · sc) List.map_map

/-- The request of an atomic whose lanes pass their checks, none of them a PCIe AtomicOp or through the local aperture, is unhindered. -/
theorem unhindered_atomicRequest {f : AtomicForm} {pops : List Pop} {ps : List Push} {va : Nat → DWord} {pl : Nat → Place} {ar : Arch}
    (h : Ready s iss c f.names f.typed f.once pops ps)
    (hplaces : ∀ n ∈ taking f.once iss.exec, Access.windowed ⟨n, va n, pl n, 0, 0, none⟩ = false ∧
      ((∃ a, pl n = .host a) → s.ports[diePort (coreDie c.key.core)].mode = .cxl)) :
    Unhindered s c (atomicRequest f iss pops ps (atomicAccesses f iss ar va pl)) f.op f.d := by
  refine ⟨rfl, ?_, ?_, rfl, ?_, checkPushes_accepted h.pushed, h.room⟩
  · intro x hx
    obtain ⟨n, hn, rfl⟩ := List.mem_map.1 hx
    exact ⟨(hplaces n hn).1, rfl⟩
  · exact fun hnil => taking_ne_nil h.issuing.active (List.map_eq_nil_iff.1 hnil)
  · intro x hx
    obtain ⟨n, hn, rfl⟩ := List.mem_map.1 hx
    exact (hplaces n hn).2

/-- Settles O26: the checks pass and the request is sent; its reply finds nothing to hinder it, so every access goes through the model's own
step in lane order. -/
theorem atomicsPerform : Obligations.AtomicsPerform := by
  unfold Obligations.AtomicsPerform
  intro i f s iss c pops ps va pl hi h hu habnd hpass hplaces
  have hexec := exec_atomic_of_passes hi h habnd hpass
  have hun := unhindered_atomicRequest (ar := pops.foldl Arch.pop c.arch) h hplaces
  have hscope : accScope (atomicAccesses f iss (pops.foldl Arch.pop c.arch) va pl) f.scope =
    domainScope ((taking f.once iss.exec).map va) f.scope := atomicAccesses_scope
  obtain ⟨r, hr⟩ : ∃ r, r = atomicRequest f iss pops ps (atomicAccesses f iss (pops.foldl Arch.pop c.arch) va pl) := ⟨_, rfl⟩
  rw [← hr] at hexec hun
  have hk : (fun _ : CtxKey => false) iss.key = false := rfl
  obtain ⟨d, hkept, hd⟩ := sent_ctx? (P := fun _ => false) (r := r) hk h.issuing.ctx
  obtain ⟨x, hx, hlive, hs, hl⟩ := atomicLanded_ctx? (P := fun _ => false) (r := r) (op := f.op) (d := f.d) hk hd hkept.arch
  have hhome := fun p => atomicLanded_homeByte (P := fun _ => false) (r := r) (op := f.op) (d := f.d) (p := p) hk hd
  have hreply := exec_memoryReply_sent hun hu hk h.issuing.ctx h.issuing.ready hkept hd
  subst hr
  simp only [State.atomicsDone, atomicRequest] at hs hl hhome
  rw [hscope] at hs hl hhome
  exact ⟨_, _, _, x, hexec, hd, hreply, hx, hlive, hs, hl,
    fun hpops hps hlock p => hhome p hpops hps ((sent_inLockstep hk hkept).trans hlock)⟩

end Sys2Proof.Machine
end

section
namespace Sys2Proof.Machine
variable {a s t : State} {P : CtxKey → Bool}

/-! ## What the writing of stamps leaves as it is -/

/-- A state without its stamps. -/
def State.bare (s : State) : State := { s with stamps := [] }

theorem MemRun.bare (h : MemRun P s t) : MemRun P s.bare t.bare := by
  obtain ⟨hr, ht, f, hf, hc⟩ := h
  exact ⟨(congrArg State.bare hr :), ht, f, hf, hc⟩

theorem stampNotify_memRun {x : Stamp} {w : StampWrite} (h : MemRun P a s) : MemRun P a (s.stampNotify x w) := .ite (h.of_ctxs rfl rfl) h

/-- The writes of a stamp are memory operations, but for the stamp itself (R60–R63). -/
theorem pumpStamp_memRun {order : Nat} : ∀ (ws : List StampWrite) {s : State}, MemRun P a s.bare → MemRun P a (s.pumpStamp order ws).bare
  | [], _, h => h
  | w :: ws, s, h => by
    have hnext {u : State} {f : Stamp → Stamp} {x : Stamp} (hu : MemRun P s u) :
        MemRun P a (((u.modStamp order f).stampNotify x w).pumpStamp order ws).bare := by
      refine pumpStamp_memRun ws (h.trans (hu.bare.trans ?_))
      exact (stampNotify_memRun (s := u.modStamp order f) .rfl).bare
    unfold State.pumpStamp
    split
    · exact h
    · dsimp only
      split
      · exact pumpStamp_memRun ws h
      · split
        · exact hnext .rfl
        · split
          · exact h.trans (askPage_memRun .rfl).bare
          · exact hnext (MemRun.rfl.of_ctxs rfl rfl)
          · split
            · exact hnext (MemRun.rfl.of_ctxs rfl rfl)
            · split
              · exact hnext ((recordMemue_memRun .rfl).of_ctxs rfl rfl)
              · split
                · exact hnext (MemRun.rfl.of_ctxs rfl rfl)
                · exact hnext (homeWrite_memRun (snoopLine_memRun _ .rfl))

theorem pushStamp_memRun {order state : Nat} {code : BitVec 8} {num : Word} (h : MemRun P a s.bare) :
    MemRun P a (s.pushStamp order state code num).bare := by
  unfold State.pushStamp
  split
  · exact h
  · dsimp only
    split
    · exact pumpStamp_memRun _ h
    · exact h

end Sys2Proof.Machine
end

section
namespace Sys2Proof.Machine
variable {s : State} {P : CtxKey → Bool} {c d : Ctx} {k : CtxKey} {w x : PageWait} {code : Option Code}

/-! ## The outcome of a page (R223) -/

/-- Whether the outcome of a page passes a context by. -/
def Ctx.deaf (c : Ctx) (w : PageWait) : Bool := !(c.waits.contains w) && !c.retries

theorem Ctx.settlePage_of_deaf (h : c.deaf w = true) : c.settlePage w code = c := by
  simp only [Ctx.deaf, Bool.and_eq_true, Bool.not_eq_true'] at h
  simp only [Ctx.settlePage, h.1, h.2, Bool.false_eq_true, if_false]

theorem Ctx.deaf_of_live (h : c.st = .live) : c.deaf w = true := by simp [Ctx.deaf, Ctx.waits, Ctx.retries, h]

theorem Ctx.deaf_of_waits (h : c.st = .parked (.pages [w])) (hne : x ≠ w) : c.deaf x = true := by
  simp [Ctx.deaf, Ctx.waits, Ctx.retries, h, hne]

theorem Ctx.Kept.deaf (h : c.Kept P d) (hw : c.st.wakes = false) : d.deaf x = c.deaf x := by
  simp only [Ctx.deaf, Ctx.waits, Ctx.retries, h.st_eq hw]

/-- A context that waited for one page alone goes on when it has its outcome. -/
theorem Ctx.settlePage_of_waits (h : c.st = .parked (.pages [w])) :
    (c.settlePage w code).st = .live ∧ (c.settlePage w code).arch = c.arch ∧
      (c.settlePage w code).refused = addRefusal w code c.refused := by
  cases code <;> simp [Ctx.settlePage, Ctx.waits, h, addRefusal]

theorem Ctx.settlePage_key : (c.settlePage w code).key = c.key := by
  have hite {b : Bool} {x y : Ctx} (hx : x.key = c.key) (hy : y.key = c.key) : (if b then x else y).key = c.key := by
    split
    · exact hx
    · exact hy
  cases code with
  | none =>
    refine hite ?_ (hite rfl rfl)
    split <;> rfl
  | some x =>
    refine hite ?_ (hite rfl rfl)
    split <;> rfl

/-- The outcome of a page for everything that waits for it but the writes of stamps. -/
def State.settled (s : State) (w : PageWait) (code : Option Code) : State :=
  { s with
    ctxs := s.ctxs.map fun c => c.settlePage w code,
    jobs := s.jobs.map fun j =>
      if j.waits.contains w then { j with waits := j.waits.filter fun x => x != w, refused := addRefusal w code j.refused } else j,
    pending := s.pending.map fun p =>
      if p.waits.contains w then { p with waits := p.waits.filter fun x => x != w, refused := addRefusal w code p.refused } else p,
    stamps := s.stamps.map fun t =>
      if t.waits.contains w then { t with waits := t.waits.filter fun x => x != w, refused := addRefusal w code t.refused } else t }

theorem settlePage_memRun : MemRun P (s.settled w code).bare (s.settlePage w code).bare := by
  have hfold {a : State} : ∀ (os : List Nat) {u : State}, MemRun P a u.bare → MemRun P a (os.foldl (fun s o =>
      match s.stamps.find? fun t => t.order == o with
      | some t => s.pumpStamp o t.queue
      | none => s) u).bare := by
    intro os
    induction os with
    | nil => exact id
    | cons o os ih =>
      intro u hu
      refine ih ?_
      dsimp only
      split
      · exact pumpStamp_memRun _ hu
      · exact hu
  exact hfold _ .rfl

theorem settled_ctx? (hc : s.ctx? k = some c) : (s.settled w code).ctx? k = some (c.settlePage w code) := by
  have h := find_map_key (fun c : Ctx => c.settlePage w code) Ctx.key k (fun _ => Ctx.settlePage_key) s.ctxs
  exact h.trans (by rw [show s.ctxs.find? (fun x => x.key == k) = some c from hc]; rfl)

theorem settlePage_ctx? (hc : s.ctx? k = some c) :
    ∃ y, (s.settlePage w code).ctx? k = some y ∧ (c.settlePage w code).Kept (fun _ => true) y :=
  settlePage_memRun.ctx? (a := (s.settled w code).bare) (settled_ctx? hc)

/-- A step at one page after another, which passes the contexts by that do not listen. -/
structure PageOp (op : State → PageWait → State) : Prop where
  ports : ∀ u x, (op u x).ports = u.ports
  tlb : ∀ u x, (op u x).tlb = u.tlb
  deaf : ∀ {u x k c}, State.ctx? u k = some c → c.deaf x = true → ∃ y, (op u x).ctx? k = some y ∧ c.Kept (fun _ => true) y

theorem settlePage_pageOp : PageOp fun u x => u.settlePage x code where
  ports _ _ := settlePage_ports
  tlb u x := (settlePage_memRun (P := fun _ => true)).tlb
  deaf hc h := by
    obtain ⟨y, hy, hkept⟩ := settlePage_ctx? (w := _) (code := code) hc
    rw [Ctx.settlePage_of_deaf h] at hkept
    exact ⟨y, hy, hkept⟩

theorem requestPage_pageOp : PageOp State.requestPage where
  ports _ _ := requestPage_ports
  tlb u x := by
    unfold State.requestPage
    split
    · split <;> rfl
    · exact settlePage_pageOp.tlb u x
  deaf {u x k c} hc h := by
    unfold State.requestPage
    split
    · exact ⟨c, by split <;> exact hc, .rfl⟩
    · exact settlePage_pageOp.deaf hc h

/-- What a granted page does for everything that waits for it. -/
def State.grantPage (write : Bool) (e : TlbEntry) (s : State) (w : PageWait) : State :=
  if write || !w.write then (s.holdPage w e).settlePage w none else s.requestPage w

theorem grantPage_pageOp {write : Bool} {e : TlbEntry} : PageOp (State.grantPage write e) where
  ports u x := by
    unfold State.grantPage
    split
    · exact settlePage_ports
    · exact requestPage_ports
  tlb u x := by
    unfold State.grantPage
    split
    · exact settlePage_pageOp.tlb (u.holdPage x e) x
    · exact requestPage_pageOp.tlb u x
  deaf {u x k c} hc h := by
    unfold State.grantPage
    split
    · exact settlePage_pageOp.deaf (u := u.holdPage x e) hc h
    · exact requestPage_pageOp.deaf hc h

section
variable {op : State → PageWait → State} (hop : PageOp op)
include hop

theorem PageOp.foldl_ports : ∀ (ws : List PageWait) (s : State), (ws.foldl op s).ports = s.ports
  | [], _ => rfl
  | x :: ws, s => (PageOp.foldl_ports ws (op s x)).trans (hop.ports s x)

theorem PageOp.foldl_tlb : ∀ (ws : List PageWait) (s : State), (ws.foldl op s).tlb = s.tlb
  | [], _ => rfl
  | x :: ws, s => (PageOp.foldl_tlb ws (op s x)).trans (hop.tlb s x)

theorem PageOp.foldl_deaf (hst : c.st.wakes = false) : ∀ (ws : List PageWait) {s : State} {b : Ctx}, (∀ x ∈ ws, c.deaf x = true) →
    c.Kept (fun _ => true) b → s.ctx? k = some b → ∃ y, (ws.foldl op s).ctx? k = some y ∧ c.Kept (fun _ => true) y
  | [], _, b, _, hb, hc => ⟨b, hc, hb⟩
  | x :: ws, s, b, hdeaf, hb, hc => by
    obtain ⟨y, hy, hkept⟩ := hop.deaf hc ((hb.deaf hst).trans (hdeaf x List.mem_cons_self))
    exact PageOp.foldl_deaf hst ws (fun x hx => hdeaf x (List.mem_cons_of_mem _ hx)) (hb.trans hkept) hy

/-- A context that waited for one page alone goes on once the pages that are settled include it. -/
theorem PageOp.foldl_settles {ws : List PageWait} (hc : s.ctx? k = some c) (hst : c.st = .parked (.pages [w])) (hw : w ∈ ws)
    (hat : ∀ u b, u.ports = s.ports → u.ctx? k = some b →
      ∃ y, (op u w).ctx? k = some y ∧ (b.settlePage w code).Kept (fun _ => true) y) :
    ∃ y, (ws.foldl op s).ctx? k = some y ∧ y.st = .live ∧ y.arch = c.arch ∧ y.refused = addRefusal w code c.refused := by
  obtain ⟨xs, ys, rfl, hnot⟩ := List.eq_append_cons_of_mem hw
  have hwakes : c.st.wakes = false := by rw [hst]; rfl
  obtain ⟨b, hb, hkept⟩ := hop.foldl_deaf hwakes xs (fun x hx => Ctx.deaf_of_waits hst fun e => hnot (e ▸ hx)) .rfl hc
  obtain ⟨y, hy, hkept'⟩ := hat _ b (hop.foldl_ports xs s) hb
  obtain ⟨hlive, harch, href⟩ := Ctx.settlePage_of_waits (code := code) ((hkept.st_eq hwakes).trans hst)
  have hlive' : y.st = .live := (hkept'.st_eq (by rw [hlive]; rfl)).trans hlive
  obtain ⟨z, hz, hkept''⟩ := hop.foldl_deaf (by rw [hlive']; rfl) ys (fun _ _ => Ctx.deaf_of_live hlive') .rfl hy
  rw [List.foldl_append, List.foldl_cons]
  refine ⟨z, hz, (hkept''.st_eq (by rw [hlive']; rfl)).trans hlive', ?_, ?_⟩
  · exact (hkept''.whole rfl).trans ((hkept'.whole rfl).trans (harch.trans (hkept.whole rfl)))
  · rw [hkept''.refused, hkept'.refused, href, hkept.refused]

end

/-- With PRI every page that is refused goes to the host (R223). -/
theorem foldl_requestPage_pri : ∀ (ws : List PageWait) {s : State}, (∀ x ∈ ws, s.ports[diePort x.die].hcap.getLsbD 2 = true) →
    ∃ ps, ws.foldl State.requestPage s = { s with pri := ps } ∧ (∀ x ∈ s.pri, x ∈ ps) ∧ ∀ x ∈ ws, x ∈ ps
  | [], s, _ => ⟨s.pri, rfl, fun _ => id, by simp⟩
  | x :: ws, s, h => by
    obtain ⟨qs, hreq, hold, hx⟩ : ∃ qs, s.requestPage x = { s with pri := qs } ∧ (∀ y ∈ s.pri, y ∈ qs) ∧ x ∈ qs := by
      rw [State.requestPage, if_pos (h x List.mem_cons_self)]
      split
      · next hmem => exact ⟨s.pri, rfl, fun _ => id, by simpa using hmem⟩
      · exact ⟨s.pri ++ [x], rfl, fun _ hy => List.mem_append_left _ hy, by simp⟩
    obtain ⟨ps, hps, hold', hws⟩ := foldl_requestPage_pri ws (s := { s with pri := qs }) fun y hy => h y (List.mem_cons_of_mem _ hy)
    refine ⟨ps, ?_, fun y hy => hold' y (hold y hy), fun y hy => ?_⟩
    · rw [List.foldl_cons, hreq, hps]
    · rcases List.mem_cons.1 hy with rfl | hy
      · exact hold' _ hx
      · exact hws y hy

/-! ## Completions of translations, and page responses (R222, R223) -/

theorem PageWait.names_self : w.names w.die w.pasid w.page = true := by simp [PageWait.names]

theorem PageWait.die_of_names {die : Fin 4} {pasid : BitVec 20} {page : Nat} (h : x.names die pasid page = true) : x.die = die := by
  simp only [PageWait.names, Bool.and_eq_true, beq_iff_eq] at h
  exact h.1.1

/-- The page waits that a completion of a translation answers. -/
def State.answeredWaits (s : State) (w : PageWait) : List PageWait :=
  ((s.ats ++ s.allWaits).filter fun x => x.names w.die w.pasid w.page && !(s.pri.contains x)).eraseDups

theorem mem_answeredWaits (hats : w ∈ s.ats) (hpri : w ∉ s.pri) : w ∈ s.answeredWaits w := by
  rw [State.answeredWaits, List.mem_eraseDups, List.mem_filter]
  exact ⟨List.mem_append_left _ hats, by simp [PageWait.names_self, hpri]⟩

/-- A state whose outstanding requests for a page are over. -/
def State.unasked (s : State) (w : PageWait) : State := { s with ats := s.ats.filter fun x => !(x.names w.die w.pasid w.page) }

theorem exec_atsCompletion (hup : s.ports[diePort w.die].mode ≠ .down) (hsent : w ∈ (s.ats.filter fun x => x.die == w.die).take 256)
    {ans : AtsAnswer} : exec (.atsCompletion w.die w.pasid w.page ans) s =
      match ans with
      | .refused => .next (((s.answeredWaits w).filter fun x => !x.quiet || s.allWaits.contains x).foldl State.requestPage (s.unasked w))
      | .granted base log2 write =>
        if [12, 21, 30].contains log2 && base % 2 ^ log2 == 0 then
          .next ((s.answeredWaits w).foldl (State.grantPage write ⟨2, w.die.val, w.pasid, w.page * 4096 / 2 ^ log2, log2, base, write⟩)
            ((s.unasked w).cacheTranslation w.die w.pasid w.page base log2 write))
        else .next s := by
  have hany : (((s.ats.filter fun x => x.die == w.die).take Config.atsMax).any fun x => x.names w.die w.pasid w.page) = true :=
    List.any_eq_true.2 ⟨w, hsent, PageWait.names_self⟩
  change execAtsCompletion w.die w.pasid w.page ans s = _
  have hdown : (s.ports[diePort w.die].mode == .down) = false := by simpa using hup
  simp only [execAtsCompletion, hdown, hany, Bool.not_true, Bool.or_false, Bool.false_eq_true, if_false]
  rfl

theorem mem_enterTlb_self {e : TlbEntry} : e ∈ (s.enterTlb e).tlb := List.mem_cons_self

theorem mem_enterTlb_of_level {e f : TlbEntry} (h : e ∈ s.tlb) (hl : e.level ≠ f.level) : e ∈ (s.enterTlb f).tlb :=
  List.mem_cons_of_mem _ (List.mem_append_right _ (List.mem_filter.2 ⟨h, by simp [hl]⟩))

/-- The die's cache takes a granted translation (R221). -/
theorem mem_cacheTranslation {die : Fin 4} {pasid : BitVec 20} {page base log2 : Nat} {write : Bool} :
    (⟨2, die.val, pasid, page * 4096 / 2 ^ log2, log2, base, write⟩ : TlbEntry) ∈ (s.cacheTranslation die pasid page base log2 write).tlb := by
  unfold State.cacheTranslation
  refine List.foldlRecOn (motive := fun u : State => (⟨2, die.val, pasid, page * 4096 / 2 ^ log2, log2, base, write⟩ : TlbEntry) ∈ u.tlb)
    _ _ mem_enterTlb_self fun u hu c _ => ?_
  dsimp only
  have h1 := mem_enterTlb_of_level (f := ⟨1, boardNo c.key.core, pasid, page * 4096 / 2 ^ log2, log2, base, write⟩) hu (show (2 : Fin 3) ≠ 1 by decide)
  split
  · exact h1
  · exact mem_enterTlb_of_level h1 (show (2 : Fin 3) ≠ 0 by decide)

theorem cacheTranslation_ctxs {die : Fin 4} {pasid : BitVec 20} {page base log2 : Nat} {write : Bool} :
    (s.cacheTranslation die pasid page base log2 write).ctxs = s.ctxs := by
  unfold State.cacheTranslation
  refine List.foldlRecOn (motive := fun u : State => u.ctxs = s.ctxs) _ _ rfl fun u hu c _ => ?_
  dsimp only
  split <;> exact hu

theorem mem_allWaits (hc : s.ctx? k = some c) (hst : c.st = .parked (.pages [w])) : w ∈ s.allWaits := by
  have hmem : c ∈ s.ctxs := List.mem_of_find?_eq_some hc
  simp only [State.allWaits, List.mem_append]
  exact .inl (.inl (.inl (List.mem_flatMap.2 ⟨c, hmem, by simp [Ctx.waits, hst]⟩)))

section
variable (hup : s.ports[diePort w.die].mode ≠ .down) (hc : s.ctx? k = some c) (hst : c.st = .parked (.pages [w])) (hpri : w ∉ s.pri)
  (hsent : w ∈ (s.ats.filter fun x => x.die == w.die).take 256)
include hup hc hst hpri hsent

/-- A granted translation is in the die's cache, and a thread that waited for it alone goes on (R221, R223). -/
theorem exec_atsCompletion_granted {base log2 : Nat} {write : Bool} (hlog : log2 ∈ [12, 21, 30]) (hbase : 2 ^ log2 ∣ base)
    (hwrite : w.write = true → write = true) :
    ∃ t y, exec (.atsCompletion w.die w.pasid w.page (.granted base log2 write)) s = .next t ∧ t.ctx? k = some y ∧ y.st = .live ∧
      y.arch = c.arch ∧ (⟨2, w.die.val, w.pasid, w.page * 4096 / 2 ^ log2, log2, base, write⟩ : TlbEntry) ∈ t.tlb := by
  have hlegal : ([12, 21, 30].contains log2 && base % 2 ^ log2 == 0) = true := by
    simp only [Bool.and_eq_true, beq_iff_eq]
    exact ⟨List.contains_iff_mem.2 hlog, Nat.mod_eq_zero_of_dvd hbase⟩
  have hats : w ∈ s.ats := (List.mem_filter.1 (List.mem_of_mem_take hsent)).1
  have hc' : ((s.unasked w).cacheTranslation w.die w.pasid w.page base log2 write).ctx? k = some c := by
    rw [State.ctx?, cacheTranslation_ctxs]
    exact hc
  have hfits : (write || !w.write) = true := by
    cases hw : w.write
    · simp
    · simp [hwrite hw]
  obtain ⟨y, hy, hlive, harch, _⟩ := (grantPage_pageOp (write := write)
    (e := ⟨2, w.die.val, w.pasid, w.page * 4096 / 2 ^ log2, log2, base, write⟩)).foldl_settles (code := none) hc' hst (mem_answeredWaits hats hpri)
    fun u b _ hb => by
      rw [State.grantPage, if_pos hfits]
      exact settlePage_ctx? hb
  refine ⟨_, y, ?_, hy, hlive, harch, ?_⟩
  · rw [exec_atsCompletion hup hsent]
    exact if_pos hlegal
  · rw [grantPage_pageOp.foldl_tlb]
    exact mem_cacheTranslation

/-- With PRI a refused translation goes to the host as a page request, and its thread waits on (R223). -/
theorem exec_atsCompletion_refused_pri (hbit : s.ports[diePort w.die].hcap.getLsbD 2 = true) :
    ∃ t y, exec (.atsCompletion w.die w.pasid w.page .refused) s = .next t ∧ t.ctx? k = some y ∧ y.st = c.st ∧ w ∈ t.pri := by
  have hats : w ∈ s.ats := (List.mem_filter.1 (List.mem_of_mem_take hsent)).1
  have hall : ∀ x ∈ (s.answeredWaits w).filter fun x => !x.quiet || s.allWaits.contains x,
      (s.unasked w).ports[diePort x.die].hcap.getLsbD 2 = true := by
    intro x hx
    have hmem := (List.mem_filter.1 hx).1
    rw [State.answeredWaits, List.mem_eraseDups, List.mem_filter, Bool.and_eq_true] at hmem
    change s.ports[diePort x.die].hcap.getLsbD 2 = true
    simpa only [PageWait.die_of_names hmem.2.1] using hbit
  obtain ⟨ps, hps, _, hin⟩ := foldl_requestPage_pri _ hall
  refine ⟨_, c, exec_atsCompletion hup hsent, ?_, rfl, ?_⟩
  · rw [hps]
    exact hc
  · rw [hps]
    exact hin w (List.mem_filter.2 ⟨mem_answeredWaits hats hpri, by simp [mem_allWaits hc hst]⟩)

/-- Without PRI the thread of a refused translation goes on with the refusal NOTMAPPED (R40, R223). -/
theorem exec_atsCompletion_refused (hbit : s.ports[diePort w.die].hcap.getLsbD 2 = false) :
    ∃ t y, exec (.atsCompletion w.die w.pasid w.page .refused) s = .next t ∧ t.ctx? k = some y ∧ y.st = .live ∧
      (w, Code.notmapped) ∈ y.refused := by
  have hats : w ∈ s.ats := (List.mem_filter.1 (List.mem_of_mem_take hsent)).1
  have hin : w ∈ (s.answeredWaits w).filter fun x => !x.quiet || s.allWaits.contains x :=
    List.mem_filter.2 ⟨mem_answeredWaits hats hpri, by simp [mem_allWaits hc hst]⟩
  obtain ⟨y, hy, hlive, _, href⟩ := requestPage_pageOp.foldl_settles (s := s.unasked w) (code := some .notmapped) hc hst hin
    fun u b hports hb => by
      have hno : ¬ u.ports[diePort w.die].hcap.getLsbD 2 = true := by
        rw [show u.ports = s.ports from hports]
        exact fun h => Bool.false_ne_true (hbit.symm.trans h)
      rw [State.requestPage, if_neg hno]
      exact settlePage_ctx? hb
  exact ⟨_, y, exec_atsCompletion hup hsent, hy, hlive, by simp [href, addRefusal]⟩

end

/-- The refusal that a page response gives (R223). -/
def priCode : PriAnswer → Option Code
  | .success => none
  | .absent => some .notmapped
  | .present => some .perm
  | .failure => some .notmapped

/-- A page response lets a thread that waited for the page alone go on, with the response's refusal (R223). -/
theorem exec_priResponse {ans : PriAnswer} (hup : s.ports[diePort w.die].mode ≠ .down) (hc : s.ctx? k = some c)
    (hst : c.st = .parked (.pages [w])) (hsent : w ∈ (s.pri.filter fun x => diePort x.die == diePort w.die).take 512) :
    ∃ t y, exec (.priResponse w.die w.pasid w.page ans) s = .next t ∧ t.ctx? k = some y ∧ y.st = .live ∧ y.arch = c.arch ∧
      y.refused = addRefusal w (priCode ans) c.refused := by
  have hin : w ∈ ((s.pri.filter fun x => diePort x.die == diePort w.die).take 512).filter fun x => x.names w.die w.pasid w.page :=
    List.mem_filter.2 ⟨hsent, PageWait.names_self⟩
  have hsome : (((s.pri.filter fun x => diePort x.die == diePort w.die).take Config.priMax).filter
      fun x => x.names w.die w.pasid w.page).isEmpty = false := by
    rw [← Bool.not_eq_true, List.isEmpty_iff]
    exact List.ne_nil_of_mem hin
  have hdown : (s.ports[diePort w.die].mode == .down) = false := by simpa using hup
  have hfold (code : Option Code) := settlePage_pageOp.foldl_settles (code := code) (ws := ((s.pri.filter fun x =>
    diePort x.die == diePort w.die).take 512).filter fun x => x.names w.die w.pasid w.page) (s := { s with pri := s.pri.filter fun x =>
    !((((s.pri.filter fun x => diePort x.die == diePort w.die).take 512).filter fun x => x.names w.die w.pasid w.page).contains x) })
    hc hst hin fun _ _ _ hb => settlePage_ctx? hb
  obtain ⟨y, hy⟩ := hfold (priCode ans)
  change ∃ t y, execPriResponse w.die w.pasid w.page ans s = .next t ∧ _
  simp only [execPriResponse, hdown, hsome, Bool.or_self, Bool.false_eq_true, if_false]
  cases ans with
  | success => exact ⟨_, y, rfl, hy⟩
  | absent => exact ⟨_, y, rfl, hy⟩
  | present => exact ⟨_, y, rfl, hy⟩
  | failure => exact ⟨_, y, rfl, hy⟩

/-! ## Invalidations (R224) -/

section
variable {i j : Invalidation}

theorem dropRange_memRun : MemRun (fun _ => false) s (s.dropRange i) := by
  have hfold : ∀ (ks : List CtxKey) {u : State}, MemRun (fun _ => false) s u →
      MemRun (fun _ => false) s (ks.foldl (fun s k => (s.flushStreams k).checkpoint k) u) := fun ks _ hu =>
    hu.foldl (fun _ h => checkpoint_memRun rfl (flushStreams_memRun rfl h)) ks
  exact (writeBackAll_memRun _ (hfold _ .rfl)).of_ctxs rfl rfl

/-- No line of an invalidated range is left in a frame. -/
theorem dropRange_cache {l : CacheLine} (hl : l ∈ (s.dropRange i).cache) (hp : l.pasid = i.pasid) : i.covers (128 * l.line) = false := by
  have h := (List.mem_filter.1 hl).2
  simpa [hp] using h

/-- The completion of an invalidation. -/
def State.settleInval (s : State) (i : Invalidation) : State :=
  { s.dropRange i with
    invals := (s.dropRange i).invals.filter fun x => x != i,
    reports := (s.dropRange i).reports ++ [Report.invalidated i.pasid i.page i.pages] }

theorem settleInvals_eq : s.settleInvals = (s.invals.filter fun i => s.ctxs.all fun c => !(s.usesPages c i)).foldl State.settleInval s := rfl

theorem foldl_settleInval_tlb : ∀ (is : List Invalidation) {s : State}, (is.foldl State.settleInval s).tlb = s.tlb
  | [], _ => rfl
  | _ :: is, _ => (foldl_settleInval_tlb is).trans dropRange_memRun.tlb

theorem mem_foldl_settleInval_invals : ∀ (is : List Invalidation) {s : State}, i ∈ s.invals → i ∉ is → i ∈ (is.foldl State.settleInval s).invals
  | [], _, h, _ => h
  | j :: is, s, h, hnot => by
    have hne : i ≠ j := fun e => hnot (e ▸ List.mem_cons_self)
    refine mem_foldl_settleInval_invals is (List.mem_filter.2 ⟨?_, by simpa using hne⟩) fun hm => hnot (List.mem_cons_of_mem _ hm)
    rw [dropRange_memRun.invals]
    exact h

theorem usesPages_of_kept {t : State} (h : MemRun P s t) (hk : c.Kept P d) : t.usesPages d i = s.usesPages c i := by
  rcases hk.st with e | ⟨hw, e⟩
  · simp only [State.usesPages, e, hk.launch, h.pasidOf]
  · have hnot (r : Request) : c.st ≠ .parked (.reply r) := by
      intro hr
      rw [hr] at hw
      exact Bool.false_ne_true hw
    have hs : s.usesPages c i = false := by
      unfold State.usesPages
      split
      · next r hr => exact (hnot r hr).elim
      · rfl
    rw [hs]
    simp [State.usesPages, e]

theorem usesPages_retranslate : s.usesPages (c.retranslate j) i = s.usesPages c i := by
  have hst (r : Request) : (c.retranslate j).st = .parked (.reply r) ↔ c.st = .parked (.reply r) := by
    unfold Ctx.retranslate
    split
    · next e =>
      rw [e]
      split <;> simp [e]
    · next e => simp [e]
    · rfl
  have hlaunch : (c.retranslate j).launch = c.launch := by
    unfold Ctx.retranslate
    split
    · split <;> rfl
    · rfl
    · rfl
  unfold State.usesPages
  rw [hlaunch]
  split
  · next r hr => rw [(hst r).1 hr]
  · next hno =>
    split
    · next r hr => exact (hno r ((hst r).2 hr)).elim
    · rfl

/-- The state in which an invalidation is performed but for its completion. -/
def State.invalidated (s : State) (i : Invalidation) : State :=
  { s.dropRange i with
    invals := (s.dropRange i).invals ++ [i],
    tlb := (s.dropRange i).tlb.filter fun e => !(e.meets i),
    jobs := (s.dropRange i).jobs.map fun j => { j with held := j.held.filter fun e => !(e.meets i) },
    ctxs := (s.dropRange i).ctxs.map fun c => if (s.dropRange i).pasidOf c.launch == i.pasid then c.retranslate i else c }

theorem invalidated_tlb : (s.invalidated i).tlb = s.tlb.filter fun e => !(e.meets i) :=
  congrArg (List.filter fun e => !(TlbEntry.meets e i)) dropRange_memRun.tlb

/-- An invalidation leaves each context with the accesses that use its range that it had. -/
theorem invalidated_uses : (s.invalidated i).ctxs.all (fun c => !((s.invalidated i).usesPages c j)) = s.ctxs.all fun c => !(s.usesPages c j) := by
  obtain ⟨f, hf, hctxs⟩ := (dropRange_memRun (s := s) (i := i)).ctxs
  have hctxs' : (s.invalidated i).ctxs = (s.dropRange i).ctxs.map
      fun c => if (s.dropRange i).pasidOf c.launch == i.pasid then c.retranslate i else c := rfl
  rw [hctxs', hctxs, List.map_map, List.all_map]
  congr 1
  funext c
  have huses : (s.invalidated i).usesPages (f c) j = s.usesPages c j :=
    (usesPages_of_kept dropRange_memRun (hf c) : (s.dropRange i).usesPages (f c) j = _)
  simp only [Function.comp]
  split
  · rw [usesPages_retranslate, huses]
  · rw [huses]

end

theorem exec_atsInvalidation {pasid : BitVec 20} {page pages : Nat} :
    exec (.atsInvalidation pasid page pages) s = .next (s.invalidated (s.invalidation pasid page pages)).settleInvals := rfl

/-- No translation of an invalidated range is left in any cache. -/
theorem invalidated_translations {pasid : BitVec 20} {page pages : Nat} {e : TlbEntry}
    (he : e ∈ (s.invalidated (s.invalidation pasid page pages)).settleInvals.tlb) (hp : e.pasid = pasid) :
    (e.page + 1) * 2 ^ e.log2 ≤ 4096 * page ∨ 4096 * (page + pages) ≤ e.page * 2 ^ e.log2 := by
  rw [settleInvals_eq, foldl_settleInval_tlb, invalidated_tlb] at he
  have h := (List.mem_filter.1 he).2
  have hmul : (e.page + 1) * 2 ^ e.log2 = e.page * 2 ^ e.log2 + 2 ^ e.log2 := Nat.succ_mul _ _
  have hclear : rangesMeet (e.page * 2 ^ e.log2) (2 ^ e.log2) (4096 * page) (4096 * pages) = false := by
    simpa [TlbEntry.meets, State.invalidation, hp] using h
  simp only [rangesMeet, ← Bool.not_eq_true, Bool.and_eq_true, decide_eq_true_eq] at hclear
  omega

/-- With no outstanding access in its range an invalidation completes: no line of its range, or of a larger page whose translation it
removed, is left in a frame, and its completion is sent. -/
theorem invalidated_completes {pasid : BitVec 20} {page pages : Nat} {inv : Invalidation} (hinv : inv = s.invalidation pasid page pages)
    (hfree : ∀ c ∈ s.ctxs, s.usesPages c inv = false) :
    (∀ l ∈ (s.invalidated inv).settleInvals.cache, l.pasid = pasid → (128 * l.line < 4096 * page ∨ 4096 * (page + pages) ≤ 128 * l.line) ∧
      ∀ e ∈ s.tlb, e.pasid = pasid → e ∉ (s.invalidated inv).settleInvals.tlb →
        128 * l.line < e.page * 2 ^ e.log2 ∨ (e.page + 1) * 2 ^ e.log2 ≤ 128 * l.line) ∧
    Report.invalidated pasid page pages ∈ (s.invalidated inv).settleInvals.reports := by
  have hdue : ((s.invalidated inv).ctxs.all fun c => !((s.invalidated inv).usesPages c inv)) = true := by
    rw [invalidated_uses]
    simpa using hfree
  obtain ⟨u, hu⟩ : ∃ u : State, (s.invalidated inv).settleInvals = u.settleInval inv := by
    refine ⟨((s.dropRange inv).invals.filter fun i => (s.invalidated inv).ctxs.all fun c =>
      !((s.invalidated inv).usesPages c i)).foldl State.settleInval (s.invalidated inv), settleInvals_eq.trans ?_⟩
    rw [show (s.invalidated inv).invals = (s.dropRange inv).invals ++ [inv] from rfl, List.filter_append, List.filter_cons_of_pos
      (p := fun i => (s.invalidated inv).ctxs.all fun c => !((s.invalidated inv).usesPages c i)) hdue,
      List.filter_nil, List.foldl_append]
    rfl
  have hpasid : inv.pasid = pasid := by rw [hinv]; rfl
  have hpage : inv.page = page := by rw [hinv]; rfl
  have hpages : inv.pages = pages := by rw [hinv]; rfl
  refine ⟨fun l hl hp => ?_, ?_⟩
  · have hout := dropRange_cache (s := u) (by rw [hu] at hl; exact hl) (hp.trans hpasid.symm)
    simp only [Invalidation.covers, Bool.or_eq_false_iff, hpage, hpages] at hout
    obtain ⟨hnarrow, hwide⟩ := hout
    refine ⟨?_, fun e he hep hgone => ?_⟩
    · simp only [inRange, ← Bool.not_eq_true, Bool.and_eq_true, decide_eq_true_eq] at hnarrow
      omega
    · have hmeets : e.meets inv = true := by
        rw [← Bool.not_eq_false]
        intro hno
        refine hgone ?_
        rw [settleInvals_eq, foldl_settleInval_tlb, invalidated_tlb]
        exact List.mem_filter.2 ⟨he, by simp [hno]⟩
      have hmem : (e.page * 2 ^ e.log2, 2 ^ e.log2) ∈ inv.wide := by
        have hm : e.meets ⟨pasid, page, pages, []⟩ = true := by
          rw [hinv] at hmeets
          exact hmeets
        rw [hinv]
        refine List.mem_eraseDups.2 (List.mem_map.2 ⟨e, List.mem_filter.2 ⟨List.mem_append_left _ he, hm⟩, rfl⟩)
      have hr := List.any_eq_false.1 hwide _ hmem
      have hmul : (e.page + 1) * 2 ^ e.log2 = e.page * 2 ^ e.log2 + 2 ^ e.log2 := Nat.succ_mul _ _
      simp only [inRange, Bool.and_eq_true, decide_eq_true_eq] at hr
      omega
  · rw [hu, ← hpasid, ← hpage, ← hpages]
    exact List.mem_append_right _ List.mem_cons_self

/-- With an outstanding access in its range the completion of an invalidation waits. -/
theorem invalidated_waits {inv : Invalidation} (huse : ∃ c ∈ s.ctxs, s.usesPages c inv = true) :
    inv ∈ (s.invalidated inv).settleInvals.invals := by
  rw [settleInvals_eq]
  refine mem_foldl_settleInval_invals _ (List.mem_append_right _ List.mem_cons_self) fun hmem => ?_
  have hall := (List.mem_filter.1 hmem).2
  rw [invalidated_uses] at hall
  obtain ⟨c, hc, hu⟩ := huse
  simpa [hu] using List.all_eq_true.1 hall c hc

/-! ## Host AtomicOps (R43, R44) -/

theorem putHomes_host : ∀ (bs : List Byte) {q : Nat} {s : State}, (s.putHomes (.host q) bs).host = s.host.putBytes q bs
  | [], _, _ => rfl
  | b :: bs, q, s => putHomes_host bs (s := s.putHome b (.host q))

theorem homeWrite_host {pasid : Option (BitVec 20)} {q : Nat} {bs : List Byte} : (s.homeWrite pasid (.host q) bs).host = s.host.putBytes q bs :=
  putHomes_host bs

section
variable {op : AtomicOp} {n pa : Nat} {pasid : BitVec 20} {y : Access}

theorem hostAtomic_memRun : MemRun P s (s.hostAtomic pasid op n pa y).1 := by
  unfold State.hostAtomic
  dsimp only
  split
  · exact homeWrite_memRun (snoopLine_memRun _ .rfl)
  · exact .rfl

theorem hostAtomic_value : (s.hostAtomic pasid op n pa y).2 = BitVec.ofNat 128 (s.host.read pa n) := by
  unfold State.hostAtomic
  dsimp only
  split <;> rfl

theorem hostAtomic_host : (s.hostAtomic pasid op n pa y).1.host =
    match atomicResult afaddWord op n (BitVec.ofNat 128 (s.host.read pa n)) y.x y.y with
    | some v => s.host.write pa n v.toNat
    | none => s.host := by
  unfold State.hostAtomic
  dsimp only
  cases atomicResult afaddWord op n (BitVec.ofNat 128 (s.host.read pa n)) y.x y.y with
  | some v => exact homeWrite_host
  | none => rfl

end

/-- The host AtomicOp of a request's one access, behind the release of its order (R286). -/
def State.hostAnswer (s : State) (k : CtxKey) (c : Ctx) (r : Request) (op : AtomicOp) (pa : Nat) (y : Access) : State × BitVec 128 :=
  (s.relBefore k r.ord (accScope r.acc r.scope)).hostAtomic (s.pasidOf c.launch) op (bytesOf r.size) pa y

/-- A context whose one access has its answer. -/
def Ctx.answered (c : Ctx) (r : Request) (y : Access) (m : BitVec 128) : Ctx :=
  { c with st := .parked (.reply { r with acc := [{ y with answer := some m }] }) }

/-- A context whose one access the host has refused. -/
def Ctx.hostRefused (c : Ctx) (r : Request) (y : Access) : Ctx :=
  { c with st := .parked (.reply { r with acc := [], faults := ⟨y.lane, .hatom, y.va⟩ :: r.faults }) }

/-- A state whose port to the host no longer has the bit of an AtomicOp. -/
def State.withoutAtomic (s : State) (port : Fin 2) (bit : Option Nat) : State :=
  { s with ports := s.ports.set port { s.ports[port] with
      hcap := match bit with
        | some i => s.ports[port].hcap &&& ~~~(1#32 <<< i)
        | none => s.ports[port].hcap } }

section
variable {r : Request} {op : AtomicOp} {d : Reg} {y : Access} {pa : Nat}
  (hc : s.ctx? k = some c) (hst : c.st = .parked (.reply r)) (hkind : r.kind = .atomic op d) (hacc : r.acc = [y]) (hans : y.answer = none)
  (hplace : y.place = .host pa) (hmode : s.ports[diePort (coreDie k.core)].mode ≠ .cxl)
include hc hst hkind hacc hans hplace hmode

/-- What the completion of a host AtomicOp comes to, for the one access of a request. -/
theorem exec_hostAtomicCompletion {ok : Bool} : exec (.hostAtomicCompletion k y.lane ok) s = .next (if ok then
      (s.hostAnswer k c r op pa y).1.modCtx k fun e => e.answered r y (s.hostAnswer k c r op pa y).2
    else (s.withoutAtomic (diePort (coreDie k.core)) (hostAtomicBit op r.size)).modCtx k fun e => e.hostRefused r y) := by
  obtain rfl : c.key = k := State.ctx?_key hc
  change execHostAtomicCompletion c.key y.lane ok s = _
  have hop : s.isHostOp c r y = true := by
    simp only [State.isHostOp, hkind, hplace, Bool.true_and, bne_iff_ne, ne_eq]
    exact hmode
  have hfind : [y].find? (fun x => x.lane == y.lane && x.answer.isNone && s.isHostOp c r x) = some y := by simp [hop, hans]
  have hany : ([y].any fun x => decide (x.lane < y.lane) && x.place == .host pa && x.answer.isNone) = false := by simp
  cases ok with
  | true =>
    simp only [execHostAtomicCompletion, hc, hst, hkind, hacc, hfind, hplace, hany, Bool.false_eq_true, if_false, if_true, List.map_cons, List.map_nil,
      beq_self_eq_true, Ctx.answered, State.hostAnswer]
  | false =>
    simp only [execHostAtomicCompletion, hc, hst, hkind, hacc, hfind, hplace, hany, Bool.false_eq_true, if_false, bne_self_eq_false,
      List.filter_cons, List.filter_nil, Ctx.hostRefused, State.withoutAtomic] <;> rfl

/-- A host AtomicOp that completes has its old value in the request and its new value in host memory, behind its release (R43, R286). -/
theorem hostAtomic_performed {u : State} {z : Ctx} {m : BitVec 128} (hu : u = s.relBefore k r.ord (accScope r.acc r.scope))
    (hz : u.ctx? k = some z) (hm : m = BitVec.ofNat 128 (u.host.read pa (bytesOf r.size))) :
    ∃ t y', exec (.hostAtomicCompletion k y.lane true) s = .next t ∧ t.ctx? k = some y' ∧ y'.arch = z.arch ∧
      y'.st = .parked (.reply { r with acc := [{ y with answer := some m }] }) ∧
      t.host = match atomicResult afaddWord op (bytesOf r.size) m y.x y.y with
        | some v => u.host.write pa (bytesOf r.size) v.toNat
        | none => u.host := by
  subst hu hm
  obtain ⟨x, hx, hkept⟩ := (hostAtomic_memRun (P := fun _ => true) (pasid := s.pasidOf c.launch) (op := op) (n := bytesOf r.size) (pa := pa)
    (y := y)).ctx? hz
  refine ⟨_, _, exec_hostAtomicCompletion hc hst hkind hacc hans hplace hmode,
    ctx?_modCtx_some (f := fun e => e.answered r y (s.hostAnswer k c r op pa y).2) (fun _ => rfl) hx, hkept.whole rfl, ?_, hostAtomic_host⟩
  rw [Ctx.answered, State.hostAnswer, hostAtomic_value]

/-- One that the host refuses faults HATOM in its lane, and clears its bit of HCAP (R44). -/
theorem hostAtomic_refused :
    ∃ t y', exec (.hostAtomicCompletion k y.lane false) s = .next t ∧ t.ctx? k = some y' ∧ y'.arch = c.arch ∧ t.host = s.host ∧
      y'.st = .parked (.reply { r with acc := [], faults := ⟨y.lane, .hatom, y.va⟩ :: r.faults }) ∧
      ∀ i, hostAtomicBit op r.size = some i →
        t.ports[diePort (coreDie k.core)].hcap = s.ports[diePort (coreDie k.core)].hcap &&& ~~~(1#32 <<< i) := by
  refine ⟨_, _, exec_hostAtomicCompletion hc hst hkind hacc hans hplace hmode,
    ctx?_modCtx_some (f := fun e => e.hostRefused r y) (fun _ => rfl) hc, rfl, rfl, rfl, fun i hi => ?_⟩
  simp [State.withoutAtomic, hi]

end

/-- Settles O54: a page's outcome reaches the thread that waits for it alone, an invalidation leaves nothing of its range, and a host
AtomicOp is one step at the host's memory. -/
theorem translationsReturn : Obligations.TranslationsReturn := by
  unfold Obligations.TranslationsReturn
  refine ⟨fun s w k c hup hc hst hpri hsent => ⟨fun base log2 write hlog hbase hwrite => ?_, exec_atsCompletion_refused_pri hup hc hst hpri hsent,
    exec_atsCompletion_refused hup hc hst hpri hsent⟩, fun s w k c ans hup hc hst hsent => ?_, fun s pasid page pages inv hinv => ?_,
    fun s k c r op d x pa m u z hc hst hkind hacc hans hplace hmode hu hz hm =>
      ⟨hostAtomic_performed hc hst hkind hacc hans hplace hmode hu hz hm, hostAtomic_refused hc hst hkind hacc hans hplace hmode⟩⟩
  · obtain ⟨t, y, hexec, hy, hlive, harch, hmem⟩ := exec_atsCompletion_granted hup hc hst hpri hsent hlog hbase hwrite
    exact ⟨t, y, hexec, hy, hlive, harch, _, hmem, rfl, rfl, rfl, rfl, rfl, rfl, rfl⟩
  · obtain ⟨t, y, hexec, hy, hlive, harch, href⟩ := exec_priResponse (ans := ans) hup hc hst hsent
    refine ⟨t, y, hexec, hy, hlive, harch, ?_, ?_, ?_⟩
    · rintro rfl
      exact href
    · rintro (rfl | rfl)
      · exact href
      · exact href
    · rintro rfl
      exact href
  · refine ⟨_, exec_atsInvalidation, fun e he hp => invalidated_translations he hp, fun hfree => ?_, fun huse => ?_⟩
    · rw [← hinv]
      exact invalidated_completes hinv hfree
    · rw [← hinv]
      exact invalidated_waits huse

end Sys2Proof.Machine
end

section
namespace Sys2Proof.Machine
variable {a s t : State} {P : CtxKey → Bool}

/-! ## What a write at a home leaves there -/

/-- A place that is not in a region's scratch. -/
def Place.outside : Place → Bool
  | .scratch _ _ _ _ => false
  | _ => true

/-- The memory in which a place outside the regions has its home. -/
def State.memOf (s : State) : Place → Mem
  | .dev _ => s.dev
  | .host _ => s.host
  | .dom p _ => if p = s.pkg then s.dev else domMem s.dom p
  | .scratch _ _ _ _ => []

theorem homeByte_eq_memOf {p : Place} (h : p.outside = true) : s.homeByte p = (s.memOf p).get p.offset := by
  cases p with
  | scratch => simp [Place.outside] at h
  | dom q d =>
    simp only [State.homeByte, State.memOf, Place.offset]
    split <;> rfl
  | _ => rfl

theorem memOf_plus {p : Place} {n : Nat} : s.memOf (p.plus n) = s.memOf p := by cases p <;> rfl

theorem outside_plus {p : Place} {n : Nat} : (p.plus n).outside = p.outside := by cases p <;> rfl

theorem offset_plus {p : Place} {n : Nat} : (p.plus n).offset = p.offset + n := by cases p <;> rfl

theorem domMem_setDomMem {ds : List (Nat × Mem)} {q : Nat} {m : Mem} : domMem (setDomMem ds q m) q = m := by
  unfold setDomMem
  split
  · next h =>
    induction ds with
    | nil => simp at h
    | cons d ds ih =>
      by_cases hd : d.1 = q
      · simp [domMem, hd]
      · have hany : (ds.any fun x => x.1 == q) = true := by simpa [hd] using h
        have hrest := ih hany
        simp only [domMem, List.map_cons, beq_iff_eq, hd, if_false] at hrest ⊢
        rw [List.find?_cons_of_neg (by simpa using hd)]
        exact hrest
  · simp [domMem]

theorem memOf_putHome {p : Place} {x : Byte} (h : p.outside = true) : (s.putHome x p).memOf p = (s.memOf p).put p.offset x := by
  cases p with
  | scratch => simp [Place.outside] at h
  | dom q d =>
    by_cases hq : q = s.pkg
    · simp [State.putHome, State.memOf, Place.offset, hq]
    · simp [State.putHome, State.memOf, Place.offset, hq, domMem_setDomMem]
  | _ => rfl

theorem memOf_putHomes : ∀ (bs : List Byte) {p : Place} {s : State}, p.outside = true →
    (s.putHomes p bs).memOf p = (s.memOf p).putBytes p.offset bs
  | [], _, _, _ => rfl
  | b :: bs, p, s, h => by
    have hnext := memOf_putHomes bs (p := p.plus 1) (s := s.putHome b p) (outside_plus.trans h)
    rw [memOf_plus, memOf_plus, memOf_putHome h, offset_plus] at hnext
    exact hnext

theorem homeBytes_eq_memOf : ∀ (n : Nat) {p : Place}, p.outside = true → s.homeBytes p n = (s.memOf p).bytes p.offset n
  | 0, _, _ => rfl
  | n + 1, p, h => by
    have hnext := homeBytes_eq_memOf n (p := p.plus 1) (outside_plus.trans h)
    rw [memOf_plus, offset_plus] at hnext
    rw [State.homeBytes, hnext, homeByte_eq_memOf h]
    rfl

theorem Mem.bytes_putBytes {m : Mem} (hm : m.wf = true) {x : Nat} {bs : List Byte} : (m.putBytes x bs).bytes x bs.length = bs := by
  have hbytes : ∀ (n : Nat) (m : Mem) (x : Nat), m.bytes x n = (List.range n).map fun i => m.get (x + i) := by
    intro n
    induction n with
    | zero => exact fun _ _ => rfl
    | succ n ih =>
      intro m x
      rw [List.range_succ_eq_map, List.map_cons, List.map_map, Mem.bytes, ih]
      simp only [Nat.add_zero, List.cons.injEq, true_and]
      refine List.map_congr_left fun i _ => ?_
      simp only [Function.comp]
      congr 1
      omega
  rw [hbytes]
  refine List.ext_getElem (by simp) fun i h1 h2 => ?_
  rw [List.getElem_map, List.getElem_range]
  exact Mem.get_putBytes_in bs m x i bs[i] hm (List.getElem?_eq_getElem h2)

theorem memOf_wf (h : memoriesWf s) {p : Place} (hp : p.outside = true) : (s.memOf p).wf = true := by
  obtain ⟨hdev, hhost, hdom, _, _, _⟩ := h
  cases p with
  | scratch => simp [Place.outside] at hp
  | dom q d =>
    simp only [State.memOf]
    split
    · exact hdev
    · unfold domMem
      cases hf : s.dom.find? fun x => x.1 == q with
      | none => rfl
      | some x => exact hdom x (List.mem_of_find?_eq_some hf)
  | dev => exact hdev
  | host => exact hhost

/-- Bytes that are written at a home outside the regions are there. -/
theorem homeBytes_putHomes (h : memoriesWf s) {p : Place} (hp : p.outside = true) {bs : List Byte} :
    (s.putHomes p bs).homeBytes p bs.length = bs := by
  rw [homeBytes_eq_memOf _ hp, memOf_putHomes _ hp, Mem.bytes_putBytes (memOf_wf h hp)]

/-- A write at a home outside the regions is there (R274). -/
theorem homeBytes_homeWrite {pasid : Option (BitVec 20)} (h : memoriesWf s) {p : Place} (hp : p.outside = true) {bs : List Byte} :
    (s.homeWrite pasid p bs).homeBytes p bs.length = bs := by
  have hnote {u : State} : (u.noteWrite p).homeBytes p bs.length = u.homeBytes p bs.length := by
    rw [homeBytes_eq_memOf _ hp, homeBytes_eq_memOf _ hp]
    cases p <;> rfl
  exact hnote.trans (homeBytes_putHomes (enterL2_memoriesWf h _ _ _) hp)

theorem leBytes_length : ∀ (n x : Nat), (leBytes x n).length = n
  | 0, _ => rfl
  | n + 1, x => congrArg (· + 1) (leBytes_length n (x / 256))

theorem leNat_leBytes : ∀ (n x : Nat), leNat (leBytes x n) = x % 256 ^ n
  | 0, x => by simp [leBytes, leNat, Nat.mod_one]
  | n + 1, x => by
    rw [leBytes, leNat, leNat_leBytes n, BitVec.toNat_ofNat, show 2 ^ 8 = 256 by rfl, Nat.pow_succ', Nat.mod_mul]

theorem leNat_append : ∀ (xs ys : List Byte), leNat (xs ++ ys) = leNat xs + 256 ^ xs.length * leNat ys
  | [], ys => by simp [leNat]
  | x :: xs, ys => by
    rw [List.cons_append, leNat, leNat, leNat_append xs ys, List.length_cons, Nat.pow_succ', Nat.mul_add, Nat.mul_assoc, Nat.add_assoc]

/-! ## Stamps (R60–R63) -/

theorem stampWord_toNat {x : Nat} {code : BitVec 8} {num : Word} {n : Nat} (hx : x < 8) :
    (StampWrite.word ⟨x, code, num, n⟩).toNat = x * 2 ^ 56 + code.toNat * 2 ^ 48 + num.toNat := by
  have hcode := code.isLt
  have hnum := num.isLt
  rw [StampWrite.word, BitVec.toNat_ofNat, Nat.mod_eq_of_lt]
  dsimp only
  omega

/-- The 16 bytes of a stamp write: the status word, then the tick. -/
theorem leNat_stamp {x : Nat} {code : BitVec 8} {num : Word} {n m : Nat} (hx : x < 8) :
    leNat (leBytes (StampWrite.word ⟨x, code, num, m⟩).toNat 8 ++ leBytes n 8) =
      x * 2 ^ 56 + code.toNat * 2 ^ 48 + num.toNat + 2 ^ 64 * (n % 2 ^ 64) := by
  rw [leNat_append, leNat_leBytes, leNat_leBytes, leBytes_length, show 256 ^ 8 = 2 ^ 64 by rfl, Nat.mod_eq_of_lt (BitVec.isLt _),
    stampWord_toNat hx]

/-- What follows a write that was performed: the interrupt, and the stamp as it is kept then. -/
theorem stampNotify_done {x : Stamp} {w : StampWrite} {order : Nat} {f : Stamp → Stamp} :
    ∃ ts, ((s.modStamp order f).stampNotify x w).pumpStamp order [] = { s.stampNotify x w with stamps := ts } := by
  unfold State.stampNotify
  split <;> exact ⟨_, rfl⟩

/-- A state with the one write of a stamp performed (R60). -/
def State.stamped (s : State) (p : Place) (w : StampWrite) : State :=
  (s.snoopLine p).homeWrite none p (leBytes w.word.toNat 8 ++ leBytes w.tick 8)

section
variable {order state : Nat} {code : BitVec 8} {num : Word} {x : Stamp} {p : Place}
  (hfind : s.stamps.find? (fun y => y.order == order) = some x) (hqueue : x.queue = []) (hwaits : x.waits = []) (hdead : x.dead = false)
  (htop : x.top < state)
  (hres : s.resolve (serviceAccessor x.source.die x.launch x.pasid x.refused) (pktStamp x.pkt) 16 16 .store = .ok p)
  (hwin : s.windowRefused (serviceAccessor x.source.die x.launch x.pasid x.refused) (pktStamp x.pkt) p = false)
  (hflaw : s.flawed p 16 = false) (hlink : s.unreachable p = false)
include hfind hqueue hwaits hdead htop hres hwin hflaw hlink

/-- The one write of a stamp that can be written. -/
theorem pushStamp_performed : ∃ ts, s.pushStamp order state code num =
    { (s.stamped p ⟨state, code, num, s.tick⟩).stampNotify x ⟨state, code, num, s.tick⟩ with stamps := ts } := by
  have hle : ¬ state ≤ x.top := by omega
  rw [State.pushStamp, hfind]
  dsimp only
  rw [hwaits, List.isEmpty_nil, if_pos rfl, hqueue, List.nil_append, State.pumpStamp, hfind]
  dsimp only
  rw [if_neg hle, hdead, if_neg Bool.false_ne_true, hres]
  dsimp only
  rw [hwin, if_neg Bool.false_ne_true, hflaw, if_neg Bool.false_ne_true, hlink, if_neg Bool.false_ne_true]
  exact stampNotify_done

end

theorem putHomes_reports : ∀ (bs : List Byte) {p : Place} {s : State}, (s.putHomes p bs).reports = s.reports
  | [], _, _ => rfl
  | b :: bs, p, s => by
    have hput : (s.putHome b p).reports = s.reports := by
      cases p with
      | dom q d =>
        simp only [State.putHome]
        split <;> rfl
      | _ => rfl
    exact (putHomes_reports bs).trans hput

theorem enterL2_reports {pasid : Option (BitVec 20)} {w : Bool} (p : Place) : (s.enterL2 pasid w p).reports = s.reports := by
  cases p with
  | dev d =>
    dsimp only [State.enterL2]
    split
    · split <;> rfl
    · rfl
  | _ => rfl

theorem homeWrite_reports {pasid : Option (BitVec 20)} {p : Place} {bs : List Byte} : (s.homeWrite pasid p bs).reports = s.reports :=
  (putHomes_reports bs).trans (enterL2_reports p)

theorem snoopLine_reports (p : Place) : (s.snoopLine p).reports = s.reports := by cases p <;> rfl

theorem stampNotify_final {x : Stamp} {w : StampWrite} (hfin : 3 ≤ w.state) (hnote : pktNotify x.pkt = true) :
    (s.stampNotify x w).reports = s.reports ++ [.msix (pktMsiv x.pkt)] := by
  simp [State.stampNotify, finalState, hfin, hnote]

theorem memOf_stampNotify {x : Stamp} {w : StampWrite} {p : Place} : (s.stampNotify x w).memOf p = s.memOf p := by
  unfold State.stampNotify
  split <;> cases p <;> rfl

theorem stampsAreWritten_holds : stampsAreWritten := by
  intro s order state code num x p hfind hqueue hwaits hdead htop hstate hres hwin hflaw hlink hplace hwf
  have hp : p.outside = true := by
    cases p with
    | scratch core l w o => exact absurd rfl (hplace core l w o)
    | _ => rfl
  obtain ⟨ts, hpush⟩ := pushStamp_performed (code := code) (num := num) hfind hqueue hwaits hdead htop hres hwin hflaw hlink
  have hmem {u : State} {us : List Stamp} : { u with stamps := us }.memOf p = u.memOf p := by cases p <;> rfl
  rw [hpush]
  refine ⟨?_, fun hfin hnote => ?_⟩
  · rw [homeBytes_eq_memOf _ hp, hmem, memOf_stampNotify, ← homeBytes_eq_memOf _ hp]
    have hwrite := homeBytes_homeWrite (pasid := none) (bs := leBytes (StampWrite.word ⟨state, code, num, s.tick⟩).toNat 8 ++ leBytes s.tick 8)
      (snoopLine_memoriesWf hwf p) hp
    rw [List.length_append, leBytes_length, leBytes_length] at hwrite
    exact (congrArg leNat hwrite).trans (leNat_stamp hstate)
  · calc _ = (s.stamped p ⟨state, code, num, s.tick⟩).reports ++ [.msix (pktMsiv x.pkt)] := stampNotify_final hfin hnote
      _ = s.reports ++ [.msix (pktMsiv x.pkt)] := by rw [State.stamped, homeWrite_reports, snoopLine_reports]

end Sys2Proof.Machine
end

section
namespace Sys2Proof.Machine
variable {a s t : State} {P : CtxKey → Bool}

/-! ## Stamps that become due (R60, R62) -/

/-- A stamp write that becomes due in a state that keeps the stamps and the tick. -/
theorem stampDue_pushStamp {u : State} {order state : Nat} {code : BitVec 8} {num : Word} (hstate : state ≠ 1) (htick : u.tick = s.tick)
    (hstamps : u.stamps = s.stamps) : stampDue s (u.pushStamp order state code num) order state code num :=
  ⟨u, rfl, htick, fun st hfind => ⟨st.launch, hstamps ▸ hfind, fun _ => rfl, fun e => absurd e hstate⟩⟩

/-- The first stamp write of a launch, whose number its stamp takes (R59). -/
theorem stampDue_numbered {u : State} {order : Nat} {code : BitVec 8} {num : Word} (htick : u.tick = s.tick) (hstamps : u.stamps = s.stamps) :
    stampDue s ((u.modStamp order fun x => { x with launch := num }).pushStamp order 1 code num) order 1 code num := by
  refine ⟨_, rfl, htick, fun st hfind => ⟨num, ?_, fun h => absurd rfl h, fun _ => rfl⟩⟩
  have horder : (st.order == order) = true := List.find?_some (p := fun x : Stamp => x.order == order) hfind
  rw [State.modStamp, hstamps, find_map_key (fun x : Stamp => if x.order == order then { x with launch := num } else x) Stamp.order order
    (fun x => by split <;> rfl), hfind, Option.map_some, horder, if_pos rfl]

/-! ## What a stamp write leaves as it is -/

section
variable {order state : Nat} {code : BitVec 8} {num n : Word}

theorem pushStamp_run : MemRun (fun _ => false) s.bare (s.pushStamp order state code num).bare := pushStamp_memRun .rfl

theorem pushStamp_pending : (s.pushStamp order state code num).pending = s.pending := pushStamp_run.pending

theorem pushStamp_nextNum : (s.pushStamp order state code num).nextNum = s.nextNum := pushStamp_run.nextNum

theorem pushStamp_launches : (s.pushStamp order state code num).launches = s.launches := pushStamp_run.launches

theorem pushStamp_launch? : (s.pushStamp order state code num).launch? n = s.launch? n := by simp only [State.launch?, pushStamp_launches]

theorem pushStamp_windows : (s.pushStamp order state code num).windows = s.windows := pushStamp_run.windows

end

/-- Regions that memory operations leave belong to the launches to which the regions belonged. -/
theorem regions_launch_of_dry (h : s.regions.map Region.dry = t.regions.map Region.dry) {n : Word} (ht : ∀ r ∈ t.regions, r.launch ≠ n) :
    ∀ r ∈ s.regions, r.launch ≠ n := by
  intro r hr
  obtain ⟨r', hr', he⟩ := List.mem_map.1 (h ▸ List.mem_map_of_mem hr)
  have hlaunch : r'.launch = r.launch := (congrArg Region.launch he :)
  exact hlaunch ▸ ht r' hr'

/-! ## LAUNCH_CHECK (R55, R59) -/

theorem noteMap_memRun {x : Accessor} : ∀ (n : Nat) {va : DWord} {s : State}, MemRun P a s → MemRun P a (s.noteMap x va n)
  | 0, _, _, h => h
  | n + 1, _, _, h => by
    unfold State.noteMap
    refine noteMap_memRun n ?_
    split
    · exact noteRead_memRun h
    · exact h

/-- The number that a packet is accepted under (R59). -/
def Pending.acceptedAs (p : Pending) (s : State) : Word := if p.source.isDevice then p.number else s.nextNum

/-- An entry that passed its checks. -/
def Pending.accepted (p : Pending) (n : Word) (map : List CoreId) : Pending :=
  { p with number := n, checked := true, map := map, waits := [], refused := [] }

/-- What accepting a packet comes to: the entry and its stamp take the number, and the stamp's first write is due. -/
theorem acceptPacket_eq {p : Pending} {map : List CoreId} : ∃ u : State,
    s.acceptPacket p map = (u.modStamp p.order fun x => { x with launch := p.acceptedAs s }).pushStamp p.order 1 0 (p.acceptedAs s) ∧
    u.pending = (s.pending.map fun x => if x.order == p.order then x.accepted (p.acceptedAs s) map else x) ∧
    u.nextNum = (if p.source.isDevice then s.nextNum else nextNumber s.nextNum) ∧ u.tick = s.tick ∧ u.stamps = s.stamps := by
  unfold State.acceptPacket Pending.acceptedAs
  cases p.source.isDevice <;> exact ⟨_, rfl, rfl, rfl, rfl, rfl⟩

/-- A state in which a packet is rejected with a code, its entry not yet freed. -/
def State.rejected (s : State) (order : Nat) (code : BitVec 8) : State :=
  (s.modPending order fun x => { x with dead := true, waits := [] }).pushStamp order 4 code 0

section
variable {order : Nat} {p : Pending} (hfind : s.pending.find? (fun x => x.order == order) = some p) (hdead : p.dead = false)
  (hchecked : p.checked = false)
include hfind hdead hchecked

theorem launchCheck_accepts {map : List CoreId} (hcheck : s.checkPacket p = .ok map) :
    ∃ t e, exec (.launchCheck order) s = .next t ∧ e ∈ t.pending ∧ e.order = order ∧ e.checked = true ∧ e.map = map ∧ e.pkt = p.pkt ∧
      e.number = p.acceptedAs s ∧
      t.nextNum = (if p.source.isDevice then s.nextNum else if s.nextNum = 0xFFFFFFFF then 1 else s.nextNum + 1) ∧
      stampDue s t order 1 0 e.number := by
  obtain rfl : p.order = order := beq_iff_eq.1 (List.find?_some (p := fun x : Pending => x.order == order) hfind)
  have hrun := noteMap_memRun (P := fun _ => false) (x := p.accessor) (pktNwg p.pkt) (va := pktMap p.pkt) (s := s) .rfl
  have hexec : exec (.launchCheck p.order) s = .next ((s.noteMap p.accessor (pktMap p.pkt) (pktNwg p.pkt)).acceptPacket p map) := by
    change execLaunchCheck p.order s = _
    simp [execLaunchCheck, hfind, hdead, hchecked, hcheck]
  obtain ⟨u, heq, hpending, hnext, htick, hstamps⟩ := acceptPacket_eq (s := s.noteMap p.accessor (pktMap p.pkt) (pktNwg p.pkt)) (p := p) (map := map)
  have hnum : p.acceptedAs (s.noteMap p.accessor (pktMap p.pkt) (pktNwg p.pkt)) = p.acceptedAs s := by
    rw [Pending.acceptedAs, Pending.acceptedAs, hrun.nextNum]
  rw [hnum, hrun.pending] at hpending
  rw [heq, hnum] at hexec
  refine ⟨_, p.accepted (p.acceptedAs s) map, hexec, ?_, rfl, rfl, rfl, rfl, rfl, ?_,
    stampDue_numbered (htick.trans hrun.tick) (hstamps.trans hrun.stamps)⟩
  · rw [pushStamp_pending]
    refine hpending ▸ List.mem_map.2 ⟨p, List.mem_of_find?_eq_some hfind, ?_⟩
    rw [beq_self_eq_true, if_pos rfl]
  · rw [pushStamp_nextNum, ← nextNumber_eq, ← hrun.nextNum]
    exact hnext

theorem launchCheck_rejects {code : BitVec 8} (hcheck : s.checkPacket p = .reject code) :
    ∃ t u, exec (.launchCheck order) s = .next t ∧ t.nextNum = s.nextNum ∧ (∀ e ∈ t.pending, e.order = order → e.dead = true) ∧
      stampDue s u order 4 code 0 ∧ t = { u with pending := t.pending } := by
  have hexec : exec (.launchCheck order) s =
      .next ((s.rejected order code).dropRejected order) := by
    change execLaunchCheck order s = _
    simp [execLaunchCheck, hfind, hdead, hchecked, hcheck, State.rejected]
  have hdrop (u : State) : u.dropRejected order = { u with pending := (u.dropRejected order).pending } := by
    unfold State.dropRejected
    split <;> rfl
  have hsub {u : State} : ∀ e ∈ (u.dropRejected order).pending, e ∈ u.pending := by
    unfold State.dropRejected
    split
    · exact fun _ => id
    · exact fun e he => (List.mem_filter.1 he).1
  refine ⟨_, s.rejected order code, hexec, ?_, fun e he horder => ?_, stampDue_pushStamp (by decide) rfl rfl, hdrop _⟩
  · rw [hdrop]
    exact pushStamp_nextNum
  · have hmem := hsub e he
    rw [State.rejected, pushStamp_pending] at hmem
    obtain ⟨x, _, rfl⟩ := List.mem_map.1 hmem
    by_cases hx : x.order = order
    · rw [if_pos (beq_iff_eq.2 hx)]
    · rw [if_neg (by simpa using hx)] at horder
      exact absurd horder hx

end

/-! ## The ends of a launch (R61, R377) -/

section
variable {n : Word} {l : Launch} {state : Nat} {code : BitVec 8} (hl : s.launch? n = some l)
include hl

theorem number_of_launch? : l.number = n := beq_iff_eq.1 (List.find?_some (p := fun l : Launch => l.number == n) hl)

/-- A launch that ends is gone, with its regions and windows, and its last stamp write is due. -/
theorem finishLaunch_ends (hstate : state ≠ 1) :
    (s.finishLaunch l state code).launch? n = none ∧ (∀ r ∈ (s.finishLaunch l state code).regions, r.launch ≠ n) ∧
      (∀ w ∈ (s.finishLaunch l state code).windows, w.launch ≠ n) ∧ stampDue s (s.finishLaunch l state code) l.order state code n := by
  have hn := number_of_launch? hl
  unfold State.finishLaunch
  dsimp only
  rw [hn]
  refine ⟨?_, ?_, ?_, stampDue_pushStamp hstate rfl rfl⟩
  · rw [pushStamp_launch?]
    simp [State.launch?, List.find?_eq_none]
  · exact regions_launch_of_dry pushStamp_run.regions fun r hr => by simpa using (List.mem_filter.1 hr).2
  · rw [pushStamp_windows]
    exact fun w hw => by simpa using (List.mem_filter.1 hw).2

theorem launchDone_ends (hst : l.st = .running) (hquiet : s.launchQuiet n = true) :
    exec (.launchDone n) s = .next (s.finishLaunch l 3 0) := by
  change execLaunchDone n s = _
  simp [execLaunchDone, hl, hst, hquiet]

theorem abortComplete_ends {code : Code} (hst : l.st = .aborting code) (hhalt : l.halt = none) (hquiet : s.launchQuiet n = true) :
    exec (.abortComplete n) s = .next (s.finishLaunch l 5 code.byte) := by
  change execAbortComplete n s = _
  simp [execAbortComplete, hl, hst, hhalt, hquiet]

end

end Sys2Proof.Machine
end

section
namespace Sys2Proof.Machine
variable {a s t : State} {P : CtxKey → Bool}

/-! ## Slots (R75, R119) -/

/-- The slots that a context holds on a core. -/
def Ident.slotsOn (i : Ident) (core : CoreId) : List (Fin 32) := if i.key.core = core then i.key.slot :: i.pair.toList else []

theorem slotsUsed_eq_idents {core : CoreId} : s.slotsUsed core = s.idents.flatMap fun i => i.slotsOn core := by
  unfold State.slotsUsed State.idents
  rw [List.flatMap_map]
  induction s.ctxs with
  | nil => rfl
  | cons c cs ih =>
    by_cases hc : c.key.core = core
    · simpa [Ctx.ident, Ident.slotsOn, hc] using ih
    · simpa [Ctx.ident, Ident.slotsOn, hc] using ih

/-- A new context takes no more slots than it holds. -/
theorem slotsFree_le_append {core : CoreId} {i : Ident} (h : t.idents = s.idents ++ [i]) :
    (s.slotsFree core).length ≤ (t.slotsFree core).length + (i.slotsOn core).length := by
  have hsplit : t.slotsFree core = (s.slotsFree core).filter fun j => !((i.slotsOn core).contains j) := by
    unfold State.slotsFree
    rw [List.filter_filter]
    refine List.filter_congr fun j _ => ?_
    rw [slotsUsed_eq_idents, slotsUsed_eq_idents, h]
    simp [Bool.and_comm]
  have htaken : ((s.slotsFree core).filter fun j => (i.slotsOn core).contains j).length ≤ (i.slotsOn core).length :=
    (List.subperm_of_subset (((List.nodup_finRange 32).filter _).filter _) fun j hj => by
      simpa using (List.mem_filter.1 hj).2).length_le
  have hsum := List.length_eq_length_filter_add (l := s.slotsFree core) fun j => (i.slotsOn core).contains j
  rw [hsplit]
  omega

/-- A rod with a free slot has a number for its next context. -/
theorem rodNumber_isSome {core : CoreId} (h : s.slotsFree core ≠ []) : ∃ i, s.rodNumber core = some i := by
  obtain ⟨i, hi, hmin⟩ := (s.slotsFree core).toFinset.exists_min_image (s.rotationCount core) (by simpa using h)
  refine Option.isSome_iff_exists.1 (List.find?_isSome.2 ⟨i, by simpa using hi, ?_⟩)
  simpa using hmin

theorem idents_addCtx {key : CtxKey} {launch : Word} {kind : CtxKind} {group index : Nat} {pair : Option (Fin 32)} {ar : Arch} :
    (s.addCtx key launch kind group index pair ar).idents = s.idents ++ [⟨key, s.uids, launch, group, kind, pair⟩] := by
  simp [State.idents, State.addCtx, Ctx.ident]

theorem MemRun.mem_ctxs (h : MemRun P a s) {z : Ctx} (hz : z ∈ a.ctxs) : ∃ d ∈ s.ctxs, z.Kept P d := by
  obtain ⟨_, _, f, hf, hctxs⟩ := h
  exact ⟨f z, hctxs ▸ List.mem_map_of_mem hz, hf z⟩

/-! ## What placing contexts and windows leaves as it is -/

/-- Two states with the same launches, store of pending launches, stamps and tick. -/
structure SameLaunches (s t : State) : Prop where
  launches : t.launches = s.launches
  pending : t.pending = s.pending
  stamps : t.stamps = s.stamps
  tick : t.tick = s.tick

theorem SameLaunches.rfl : SameLaunches s s := ⟨Eq.refl _, Eq.refl _, Eq.refl _, Eq.refl _⟩

theorem SameLaunches.trans (h : SameLaunches a s) (h' : SameLaunches s t) : SameLaunches a t :=
  ⟨h'.launches.trans h.launches, h'.pending.trans h.pending, h'.stamps.trans h.stamps, h'.tick.trans h.tick⟩

theorem MemRun.sameLaunches (h : MemRun P s t) : SameLaunches s t := ⟨h.launches, h.pending, h.stamps, h.tick⟩

/-- Opening a window changes windows and fills alone. -/
theorem openWindow_eq {launch : Word} {core : CoreId} {pw : Word} {tbase : DWord} :
    ∃ ws fs, s.openWindow launch core pw tbase = { s with windows := ws, fills := fs } := by
  unfold State.openWindow State.requestFill
  dsimp only
  split
  · exact ⟨_, _, rfl⟩
  · split <;> exact ⟨_, _, rfl⟩

theorem openDemand_eq {o : CodeObject} {pkt : BitVec 1536} {launch : Word} {d : Demand} :
    ∃ ws fs rs, s.openDemand o pkt launch d = { s with windows := ws, fills := fs, regions := rs } := by
  obtain ⟨ws, fs, h⟩ := openWindow_eq (s := s) (launch := launch) (core := d.core) (pw := pktPw pkt d.core) (tbase := BitVec.ofNat 64 o.text)
  unfold State.openDemand
  rw [h]
  split <;> exact ⟨_, _, _, rfl⟩

theorem openDemands_eq {o : CodeObject} {pkt : BitVec 1536} {launch : Word} : ∀ (ds : List Demand) {s : State},
    ∃ ws fs rs, ds.foldl (fun s d => s.openDemand o pkt launch d) s = { s with windows := ws, fills := fs, regions := rs }
  | [], _ => ⟨_, _, _, rfl⟩
  | d :: ds, s => by
    obtain ⟨ws, fs, rs, h⟩ := openDemand_eq (s := s) (o := o) (pkt := pkt) (launch := launch) (d := d)
    obtain ⟨ws', fs', rs', h'⟩ := openDemands_eq (o := o) (pkt := pkt) (launch := launch) ds (s := s.openDemand o pkt launch d)
    exact ⟨ws', fs', rs', by rw [List.foldl_cons, h', h]⟩

section
variable {key : CtxKey} {launch : Word} {kind : CtxKind} {w index : Nat} {pair : Option (Fin 32)} {ar : Arch}

theorem startCtx_memRun : MemRun (fun _ => false) (s.addCtx key launch kind w index pair ar) (s.startCtx key launch kind w index pair ar) :=
  acquireMem_memRun rfl .rfl

theorem startCtx_sameLaunches : SameLaunches s (s.startCtx key launch kind w index pair ar) :=
  have hadd : SameLaunches s (s.addCtx key launch kind w index pair ar) := ⟨rfl, rfl, rfl, rfl⟩
  hadd.trans startCtx_memRun.sameLaunches

theorem startCtx_idents : (s.startCtx key launch kind w index pair ar).idents = s.idents ++ [⟨key, s.uids, launch, w, kind, pair⟩] :=
  startCtx_memRun.idents.trans idents_addCtx

/-- A context that is started is there, with the lanes that it got. -/
theorem mem_startCtx : ∃ z ∈ (s.startCtx key launch kind w index pair ar).ctxs, z.key = key ∧ z.launch = launch ∧ z.kind = kind ∧
    z.group = w ∧ z.arch.lanes = ar.lanes := by
  obtain ⟨d, hd, hkept⟩ := (startCtx_memRun (s := s) (key := key) (launch := launch) (kind := kind) (w := w) (index := index) (pair := pair)
    (ar := ar)).mem_ctxs (List.mem_append_right _ (List.mem_singleton_self _))
  exact ⟨d, hd, hkept.key, hkept.launch, hkept.kind, hkept.group, hkept.arch_lanes⟩

theorem mem_startCtx_of_mem {z : Ctx} (hz : z ∈ s.ctxs) : ∃ d ∈ (s.startCtx key launch kind w index pair ar).ctxs, z.Kept (fun _ => false) d :=
  startCtx_memRun.mem_ctxs (List.mem_append_left _ hz)

end

section
variable {o : CodeObject} {pkt : BitVec 1536} {launch : Word} {core : CoreId} {w : Nat}

theorem startThreads_sameLaunches : ∀ (n : Nat) {i : Nat} {s : State}, SameLaunches s (s.startThreads o pkt launch core w i n)
  | 0, _, _ => .rfl
  | n + 1, i, s => by
    unfold State.startThreads
    split
    · exact .rfl
    · exact startCtx_sameLaunches.trans (startThreads_sameLaunches n)

theorem startGangs_sameLaunches : ∀ (n : Nat) {i : Nat} {s : State}, SameLaunches s (s.startGangs o pkt launch core w i n)
  | 0, _, _ => .rfl
  | n + 1, i, s => by
    unfold State.startGangs
    dsimp only
    split
    · exact startCtx_sameLaunches.trans (startGangs_sameLaunches n)
    · split
      · exact .rfl
      · exact startCtx_sameLaunches.trans (startGangs_sameLaunches n)
    · exact .rfl

theorem placeGroup_sameLaunches : SameLaunches s (s.placeGroup o pkt launch core w) := by
  have hregion {rs : List Region} : SameLaunches s { s with regions := rs } := ⟨rfl, rfl, rfl, rfl⟩
  unfold State.placeGroup
  dsimp only
  split
  · exact hregion.trans (startGangs_sameLaunches _)
  · exact hregion.trans (startThreads_sameLaunches _)

theorem placeGroups_sameLaunches : ∀ (map : List CoreId) {w : Nat} {s : State}, SameLaunches s (s.placeGroups o pkt launch w map)
  | [], _, _ => .rfl
  | _ :: map, _, _ => placeGroup_sameLaunches.trans (placeGroups_sameLaunches map)

/-- A context that stands at the kernel entry as thread i of a workgroup. -/
structure Ctx.StandsAs (z : Ctx) (o : CodeObject) (pkt : BitVec 1536) (launch : Word) (core : CoreId) (w i : Nat) : Prop where
  ofLaunch : z.launch = launch
  onCore : z.key.core = core
  isThread : z.kind = .rod
  inGroup : z.group = w
  lanes : z.arch.lanes = [kernelLane o pkt launch w i]

theorem Ctx.StandsAs.kept {z d : Ctx} {i : Nat} (h : z.StandsAs o pkt launch core w i) (hk : z.Kept P d) : d.StandsAs o pkt launch core w i :=
  ⟨hk.launch.trans h.ofLaunch, hk.key ▸ h.onCore, hk.kind.trans h.isThread, hk.group.trans h.inGroup, hk.arch_lanes.trans h.lanes⟩

theorem kernelArch_lanes {ls : List Lane} : (s.kernelArch o pkt launch w ls).lanes = ls := by
  unfold State.kernelArch startArch Arch.setS
  dsimp only
  split <;> split <;> split <;> rfl

theorem startThreads_keeps {i : Nat} : ∀ (n : Nat) {j : Nat} {s : State}, (∃ z ∈ s.ctxs, z.StandsAs o pkt launch core w i) →
    ∃ z ∈ (s.startThreads o pkt launch core w j n).ctxs, z.StandsAs o pkt launch core w i
  | 0, _, _, h => h
  | n + 1, j, s, h => by
    unfold State.startThreads
    split
    · exact h
    · obtain ⟨z, hz, hstands⟩ := h
      obtain ⟨d, hd, hkept⟩ := mem_startCtx_of_mem hz
      exact startThreads_keeps n ⟨d, hd, hstands.kept hkept⟩

/-- Where the slots suffice, every thread of a workgroup starts. -/
theorem startThreads_stand {n i j : Nat} (hfree : n ≤ (s.slotsFree core).length) (hj : j < n) :
    ∃ z ∈ (s.startThreads o pkt launch core w i n).ctxs, z.StandsAs o pkt launch core w (i + j) := by
  induction n generalizing i j s with
  | zero => omega
  | succ n ih =>
    obtain ⟨c, hc⟩ := rodNumber_isSome (s := s) (core := core) (List.ne_nil_of_length_pos (by omega))
    unfold State.startThreads
    rw [hc]
    dsimp only
    cases j with
    | zero =>
      obtain ⟨z, hz, hkey, hlaunch, hkind, hgroup, hlanes⟩ := mem_startCtx (s := s) (key := ⟨core, c⟩) (launch := launch) (kind := .rod) (w := w)
        (index := 0) (pair := none) (ar := s.kernelArch o pkt launch w [kernelLane o pkt launch w i])
      exact startThreads_keeps n ⟨z, hz, hlaunch, hkey ▸ rfl, hkind, hgroup, hlanes.trans kernelArch_lanes⟩
    | succ j =>
      have hleft := slotsFree_le_append (core := core) (startCtx_idents (s := s) (key := ⟨core, c⟩) (launch := launch) (kind := .rod) (w := w)
        (index := 0) (pair := none) (ar := s.kernelArch o pkt launch w [kernelLane o pkt launch w i]))
      have hone : (Ident.slotsOn ⟨⟨core, c⟩, s.uids, launch, w, .rod, none⟩ core).length = 1 := by simp [Ident.slotsOn]
      rw [show i + (j + 1) = i + 1 + j by omega]
      exact ih (by omega) (by omega)

end

end Sys2Proof.Machine
end

section
namespace Sys2Proof.Machine
variable {s t : State} {order : Nat} {p : Pending} {o : CodeObject} {core : CoreId}

/-! ## LAUNCH_DISPATCH (R54, R58, R62) -/

/-- A state with a launch dispatched and its windows open, before its workgroups are placed. -/
def State.dispatching (s : State) (p : Pending) (o : CodeObject) : State :=
  (demandsOf o p.pkt p.map).foldl (fun s d => s.openDemand o p.pkt p.number d)
    { s with pending := s.pending.filter fun x => x.order != p.order, launches := s.launches ++ [p.launched s.tick] }

theorem dispatchLaunch_eq : s.dispatchLaunch p o = ((s.dispatching p o).placeGroups o p.pkt p.number 0 p.map).pushStamp p.order 2 0 p.number := rfl

theorem dispatching_eq : ∃ ws fs rs, s.dispatching p o = { s with
    pending := s.pending.filter fun x => x.order != p.order, launches := s.launches ++ [p.launched s.tick],
    windows := ws, fills := fs, regions := rs } := openDemands_eq _

/-- A launch that is dispatched runs, is no longer pending, and its second stamp write is due. -/
theorem dispatchLaunch_runs (hnew : s.launch? p.number = none) :
    (∀ e ∈ (s.dispatchLaunch p o).pending, e.order ≠ p.order) ∧ (s.dispatchLaunch p o).launch? p.number = some (p.launched s.tick) ∧
      stampDue s (s.dispatchLaunch p o) p.order 2 0 p.number := by
  obtain ⟨ws, fs, rs, hopen⟩ := dispatching_eq (s := s) (p := p) (o := o)
  have hplace := placeGroups_sameLaunches (o := o) (pkt := p.pkt) (launch := p.number) p.map (w := 0) (s := s.dispatching p o)
  rw [dispatchLaunch_eq]
  refine ⟨?_, ?_, stampDue_pushStamp (by decide) (hplace.tick.trans (hopen ▸ rfl)) (hplace.stamps.trans (hopen ▸ rfl))⟩
  · rw [pushStamp_pending, hplace.pending, hopen]
    exact fun e he => by simpa using (List.mem_filter.1 he).2
  · rw [pushStamp_launch?]
    unfold State.launch? at hnew ⊢
    rw [hplace.launches, hopen, List.find?_append, hnew]
    simp [Pending.launched]

theorem not_isBeam_of_isRod (h : isRod core = true) : isBeam core = false := by
  simp only [isRod, isBeam, Bool.and_eq_true, decide_eq_true_eq, Bool.and_eq_false_iff, beq_eq_false_iff_ne] at h ⊢
  omega

/-- A launch of one workgroup on a rod can be dispatched only where the rod has room for its threads (R58). -/
theorem slots_of_canDispatch (hobj : s.objects.find? (fun o => o.addr == pktObj p.pkt) = some o) (hcan : s.canDispatch p = true)
    (hmap : p.map = [core]) (hrod : isRod core = true) : pktWgsize p.pkt ≤ (s.slotsFree core).length := by
  unfold State.canDispatch at hcan
  rw [hobj] at hcan
  have hall := (Bool.and_eq_true _ _ ▸ hcan).2
  have hmem : (⟨core, 1, (leafBeams o p.pkt p.map).contains core⟩ : Demand) ∈ demandsOf o p.pkt p.map := by
    refine List.mem_map.2 ⟨core, List.mem_eraseDups.2 (by simp [hmap]), ?_⟩
    simp [hmap]
  have hfits := List.all_eq_true.1 hall _ hmem
  simp only [State.fits, slotsOf, not_isBeam_of_isRod hrod, Bool.and_eq_true, decide_eq_true_eq, Bool.false_eq_true, if_false, Nat.one_mul] at hfits
  obtain ⟨⟨_, hslots⟩, _⟩ := hfits
  exact hslots

/-- The threads of a workgroup on one rod stand at their kernel after the dispatch (R53, R54). -/
theorem dispatchLaunch_stand (hobj : s.objects.find? (fun o => o.addr == pktObj p.pkt) = some o) (hcan : s.canDispatch p = true)
    (hmap : p.map = [core]) (hrod : isRod core = true) {i : Nat} (hi : i < pktWgsize p.pkt) :
    ∃ z ∈ (s.dispatchLaunch p o).ctxs, z.StandsAs o p.pkt p.number core 0 i := by
  have hslots := slots_of_canDispatch hobj hcan hmap hrod
  obtain ⟨ws, fs, rs, hopen⟩ := dispatching_eq (s := s) (p := p) (o := o)
  have hplaced : ∃ z ∈ ((s.dispatching p o).placeGroups o p.pkt p.number 0 p.map).ctxs, z.StandsAs o p.pkt p.number core 0 i := by
    rw [hmap, State.placeGroups, State.placeGroups, State.placeGroup, not_isBeam_of_isRod hrod]
    have hstand := startThreads_stand (s := { s.dispatching p o with regions := (s.dispatching p o).regions ++ [freshRegion core p.number 0 (pktPw p.pkt core)] })
      (o := o) (pkt := p.pkt) (launch := p.number) (core := core) (w := 0) (n := pktWgsize p.pkt) (i := 0) (j := i) (by
        rw [hopen]
        exact hslots) hi
    rwa [Nat.zero_add] at hstand
  obtain ⟨z, hz, hstands⟩ := hplaced
  obtain ⟨d, hd, hkept⟩ := pushStamp_run.mem_ctxs hz
  exact ⟨d, hd, hstands.kept hkept⟩

/-- The lane of a thread that stands at its kernel (R54). -/
theorem kernelLane_eq {pkt : BitVec 1536} {launch : Word} {i : Nat} (hi : i < pktWgsize pkt) :
    (kernelLane o pkt launch 0 i).live = true ∧ (kernelLane o pkt launch 0 i).tid = launch ++ BitVec.ofNat 32 i ∧
      (kernelLane o pkt launch 0 i).pc = kernelEntry o pkt ∧ (o.vcnt ≠ 0 → (kernelLane o pkt launch 0 i).v[0] = BitVec.ofNat 32 i) := by
  unfold kernelLane
  rw [if_neg (by omega), Nat.zero_mul, Nat.zero_add]
  by_cases hv : o.vcnt = 0
  · simp [hv, freshLane, tidOf]
  · simp [hv, freshLane, tidOf]

theorem launchDispatch_runs (hfind : s.pending.find? (fun p => p.order == order) = some p)
    (hobj : s.objects.find? (fun o => o.addr == pktObj p.pkt) = some o) (hcan : s.canDispatch p = true)
    (hprio : s.highestReady (pktPrio p.pkt) = true) (hnew : s.launch? p.number = none) :
    ∃ t l, exec (.launchDispatch order) s = .next t ∧ (∀ e ∈ t.pending, e.order ≠ order) ∧ t.launch? p.number = some l ∧ l.st = .running ∧
      l.pkt = p.pkt ∧ l.map = p.map ∧ stampDue s t order 2 0 p.number ∧
      (p.map = [core] → isRod core = true → ∀ i, i < pktWgsize p.pkt → ∃ z ∈ t.ctxs, z.launch = p.number ∧ z.key.core = core ∧ z.kind = .rod ∧
        z.group = 0 ∧ (z.arch.lane 0).live = true ∧ (z.arch.lane 0).tid = p.number ++ BitVec.ofNat 32 i ∧
        (z.arch.lane 0).pc = kernelEntry o p.pkt ∧ (o.vcnt ≠ 0 → z.arch.vreg 0 0 = BitVec.ofNat 32 i)) := by
  obtain rfl : p.order = order := beq_iff_eq.1 (List.find?_some (p := fun x : Pending => x.order == order) hfind)
  have hexec : exec (.launchDispatch p.order) s = .next (s.dispatchLaunch p o) := by
    change execLaunchDispatch p.order s = _
    simp [execLaunchDispatch, hfind, hobj, hcan, hprio]
  obtain ⟨hpending, hlaunch, hstamp⟩ := dispatchLaunch_runs (o := o) hnew
  refine ⟨_, _, hexec, hpending, hlaunch, rfl, rfl, rfl, hstamp, fun hmap hrod i hi => ?_⟩
  obtain ⟨z, hz, hstands⟩ := dispatchLaunch_stand hobj hcan hmap hrod hi
  have hlane : z.arch.lane 0 = kernelLane o p.pkt p.number 0 i := by rw [Arch.lane, hstands.lanes, List.getD_cons_zero]
  refine ⟨z, hz, hstands.ofLaunch, hstands.onCore, hstands.isThread, hstands.inGroup, ?_⟩
  rw [Arch.vreg, hlane]
  exact kernelLane_eq hi

end Sys2Proof.Machine
end

section
namespace Sys2Proof.Machine
open Rules
variable {a s t : State} {c d : Ctx} {k : CtxKey}

/-! ## What happens around contexts between two instructions

A context that is live or drains waits for nothing: what other contexts and the gangs' tables do changes nothing of it but its pushes and
touched banks. -/

/-- Whether a context waits for nothing. -/
def CtxState.calm : CtxState → Bool
  | .parked _ => false
  | _ => true

theorem CtxState.calm_iff {st : CtxState} : st.calm = true ↔ st = .live ∨ st = .draining := by cases st <;> simp [CtxState.calm]

theorem CtxState.wakes_of_calm {st : CtxState} (h : st.calm = true) : st.wakes = false := by
  cases st with
  | parked w => simp [CtxState.calm] at h
  | _ => rfl

theorem distinct_congr (h : t.idents = s.idents) (hd : distinct s) : distinct t := by
  have hmap {u : State} : distinct u ↔ u.idents.Pairwise fun x y => x.key ≠ y.key ∧ x.uid ≠ y.uid := by
    rw [State.idents, List.pairwise_map]
    rfl
  exact hmap.2 (h ▸ hmap.1 hd)

theorem exists_mem_of_idents (h : t.idents = s.idents) (hc : c ∈ s.ctxs) : ∃ d ∈ t.ctxs, d.ident = c.ident := by
  have hmem : c.ident ∈ s.idents := List.mem_map_of_mem hc
  rw [← h] at hmem
  exact List.mem_map.1 hmem

/-- Contexts that share a key are one. -/
theorem eq_of_key (hd : distinct s) (hc : c ∈ s.ctxs) (hc' : d ∈ s.ctxs) (h : c.key = d.key) : c = d := by
  have hsymm : Std.Symm fun x y : Ctx => x.key ≠ y.key ∧ x.uid ≠ y.uid := ⟨fun _ _ hxy => ⟨hxy.1.symm, hxy.2.symm⟩⟩
  by_contra hne
  exact (List.Pairwise.forall hd hc hc' hne).1 h

theorem ctx?_of_mem (hd : distinct s) (hc : c ∈ s.ctxs) : s.ctx? c.key = some c := by
  cases h : s.ctx? c.key with
  | none => simpa using List.find?_eq_none.1 h c hc
  | some d => rw [eq_of_key hd (List.mem_of_find?_eq_some h) hc (State.ctx?_key h)]

/-- What a context that waits for nothing keeps. -/
structure Ctx.Calm (c d : Ctx) : Prop where
  st : d.st = c.st
  arch : d.arch.quiet = c.arch.quiet

/-- A state after steps that leave contexts between two instructions as they stand, and every launch. -/
structure CalmRun (s t : State) : Prop where
  launches : t.launches = s.launches
  ctxs : ∃ f : Ctx → Ctx, t.ctxs = s.ctxs.map f ∧ ∀ c ∈ s.ctxs, (f c).ident = c.ident ∧ (distinct s → c.st.calm = true → c.Calm (f c))

theorem CalmRun.idents (h : CalmRun s t) : t.idents = s.idents := by
  obtain ⟨_, f, hctxs, hf⟩ := h
  rw [State.idents, hctxs, List.map_map]
  exact List.map_congr_left fun c hc => (hf c hc).1

theorem CalmRun.rfl : CalmRun s s := ⟨Eq.refl _, id, (List.map_id _).symm, fun _ _ => ⟨Eq.refl _, fun _ _ => ⟨Eq.refl _, Eq.refl _⟩⟩⟩

theorem CalmRun.trans (h : CalmRun a s) (h' : CalmRun s t) : CalmRun a t := by
  have hidents := h.idents
  obtain ⟨hl, f, hctxs, hf⟩ := h
  obtain ⟨hl', g, hctxs', hg⟩ := h'
  refine ⟨hl'.trans hl, g ∘ f, by rw [hctxs', hctxs, List.map_map], fun c hc => ?_⟩
  obtain ⟨hid, hcalm⟩ := hf c hc
  obtain ⟨hid', hcalm'⟩ := hg (f c) (hctxs ▸ List.mem_map_of_mem hc)
  refine ⟨hid'.trans hid, fun hd hst => ?_⟩
  obtain ⟨hst1, harch1⟩ := hcalm hd hst
  obtain ⟨hst2, harch2⟩ := hcalm' (distinct_congr hidents hd) (hst1 ▸ hst)
  exact ⟨hst2.trans hst1, harch2.trans harch1⟩

theorem CalmRun.of_ctxs (h : CalmRun a s) (hl : t.launches = s.launches) (hc : t.ctxs = s.ctxs) : CalmRun a t :=
  h.trans ⟨hl, id, hc.trans (List.map_id _).symm, fun _ _ => ⟨Eq.refl _, fun _ _ => ⟨Eq.refl _, Eq.refl _⟩⟩⟩

theorem CalmRun.mapCtxs (h : CalmRun a s) {f : Ctx → Ctx} (hf : ∀ c : Ctx, (f c).ident = c.ident ∧ (c.st.calm = true → c.Calm (f c))) :
    CalmRun a { s with ctxs := s.ctxs.map f } :=
  h.trans ⟨Eq.refl _, f, Eq.refl _, fun c _ => ⟨(hf c).1, fun _ => (hf c).2⟩⟩

theorem CalmRun.modCtx (h : CalmRun a s) {f : Ctx → Ctx} (hf : ∀ c : Ctx, (f c).ident = c.ident ∧ (c.st.calm = true → c.Calm (f c))) :
    CalmRun a (s.modCtx k f) :=
  h.mapCtxs fun c => by
    split
    · exact hf c
    · exact ⟨Eq.refl _, fun _ => ⟨Eq.refl _, Eq.refl _⟩⟩

theorem MemRun.calmRun {P : CtxKey → Bool} (h : MemRun P s t) : CalmRun s t := by
  obtain ⟨f, hf, hctxs⟩ := h.ctxs
  exact ⟨h.launches, f, hctxs, fun c _ => ⟨(hf c).ident, fun _ hst => ⟨(hf c).st_eq (CtxState.wakes_of_calm hst), (hf c).arch⟩⟩⟩

theorem CalmRun.foldl {α : Type} {f : State → α → State} (xs : List α) (hf : ∀ {s} x, x ∈ xs → CalmRun a s → CalmRun a (f s x))
    (h : CalmRun a s) : CalmRun a (xs.foldl f s) :=
  List.foldlRecOn (motive := CalmRun a) xs f h fun _ ht x hx => hf x hx ht

/-- A change of a context that waited. -/
theorem CalmRun.modWaiting (h : CalmRun a s) {f : Ctx → Ctx} (hf : ∀ c : Ctx, (f c).ident = c.ident)
    (hk : ∃ c ∈ a.ctxs, c.key = k ∧ c.st.calm = false) : CalmRun a (s.modCtx k f) := by
  obtain ⟨hl, g, hctxs, hg⟩ := h
  obtain ⟨w, hw, rfl, hwaits⟩ := hk
  refine ⟨hl, fun c => if (g c).key == w.key then f (g c) else g c, by rw [State.modCtx, hctxs, List.map_map]; rfl, fun c hc => ?_⟩
  obtain ⟨hid, hcalm⟩ := hg c hc
  dsimp only
  split
  · next hkey =>
    refine ⟨(hf _).trans hid, fun hd hst => ?_⟩
    have hcw : c = w := eq_of_key hd hc hw ((congrArg Ident.key hid).symm.trans (beq_iff_eq.1 hkey))
    rw [← hcw, hst] at hwaits
    simp at hwaits
  · exact ⟨hid, hcalm⟩

/-- Where a context between two instructions is after such steps. -/
theorem CalmRun.mem_ctxs (h : CalmRun s t) (hd : distinct s) (hc : c ∈ s.ctxs) (hst : c.st.calm = true) :
    ∃ d ∈ t.ctxs, d.ident = c.ident ∧ c.Calm d := by
  obtain ⟨_, f, hctxs, hf⟩ := h
  obtain ⟨hid, hcalm⟩ := hf c hc
  exact ⟨f c, hctxs ▸ List.mem_map_of_mem hc, hid, hcalm hd hst⟩

theorem CalmRun.ctx? (h : CalmRun s t) (hd : distinct s) (hc : c ∈ s.ctxs) (hst : c.st.calm = true) :
    ∃ d, t.ctx? c.key = some d ∧ d.ident = c.ident ∧ c.Calm d := by
  obtain ⟨d, hmem, hid, hcalm⟩ := h.mem_ctxs hd hc hst
  have hkey : d.key = c.key := congrArg Ident.key hid
  exact ⟨d, hkey ▸ ctx?_of_mem (distinct_congr h.idents hd) hmem, hid, hcalm⟩

/-- The contexts of a launch after such steps are those that it had. -/
theorem CalmRun.of_mem (h : CalmRun s t) (hd : d ∈ t.ctxs) : ∃ c ∈ s.ctxs, d.ident = c.ident ∧ (distinct s → c.st.calm = true → c.Calm d) := by
  obtain ⟨_, f, hctxs, hf⟩ := h
  obtain ⟨c, hc, rfl⟩ := List.mem_map.1 (hctxs ▸ hd)
  exact ⟨c, hc, hf c hc⟩

/-! ### The contexts of a launch -/

theorem ctxsOf_keys {n : Word} : (s.ctxsOf n).map (·.key) = (s.idents.filter fun i => i.launch == n).map (·.key) := by
  rw [State.ctxsOf, State.idents, List.filter_map, List.map_map]
  rfl

theorem ctxsOf_keys_congr {n : Word} (h : t.idents = s.idents) : (t.ctxsOf n).map (·.key) = (s.ctxsOf n).map (·.key) := by
  rw [ctxsOf_keys, ctxsOf_keys, h]

theorem mem_ctxsOf {n : Word} : c ∈ s.ctxsOf n ↔ c ∈ s.ctxs ∧ c.launch = n := by simp [State.ctxsOf]

theorem launch?_modLaunch {n : Word} {f : Launch → Launch} (hf : ∀ l, l.number = n → (f l).number = n) :
    (s.modLaunch n f).launch? n = (s.launch? n).map f := by
  unfold State.launch? State.modLaunch
  rw [find_map_key (fun l : Launch => if l.number == n then f l else l) Launch.number n fun l => by
    split
    · next e => exact (hf l (beq_iff_eq.1 e)).trans (beq_iff_eq.1 e).symm
    · rfl]
  cases h : s.launches.find? fun l => l.number == n with
  | none => rfl
  | some l => rw [Option.map_some, Option.map_some, if_pos (List.find?_some (p := fun l : Launch => l.number == n) h)]

theorem CalmRun.launch? (h : CalmRun s t) {n : Word} : t.launch? n = s.launch? n := by simp only [State.launch?, h.launches]

/-! ### Trap slots, turns and rendezvous entries -/

theorem freeSlot_calmRun (h : CalmRun a s) : CalmRun a (s.freeSlot k) := h.of_ctxs rfl rfl

theorem wakeObuf_calmRun {core : CoreId} (h : CalmRun a s) : CalmRun a (s.wakeObuf core) :=
  h.mapCtxs fun c => by
    split
    · next e =>
      simp only [Bool.and_eq_true, beq_iff_eq] at e
      exact ⟨rfl, fun hst => by simp [e.2, CtxState.calm] at hst⟩
    · exact ⟨rfl, fun _ => ⟨rfl, rfl⟩⟩

theorem endTurn_calmRun (h : CalmRun a s) : CalmRun a (s.endTurn k) := by
  unfold State.endTurn
  split
  · exact wakeObuf_calmRun (h.modCtx fun _ => ⟨rfl, fun _ => ⟨rfl, rfl⟩⟩)
  · exact h

theorem mem_insertOn {α : Type} {f : α → Nat} {x y : α} : ∀ {ys : List α}, x ∈ insertOn f y ys ↔ x = y ∨ x ∈ ys
  | [] => by simp [insertOn]
  | z :: zs => by
    unfold insertOn
    split
    · simp
    · simp [mem_insertOn, or_left_comm]

theorem mem_sortOn {α : Type} {f : α → Nat} {x : α} : ∀ {ys : List α}, x ∈ sortOn f ys ↔ x ∈ ys
  | [] => Iff.rfl
  | y :: ys => by
    rw [sortOn, List.foldr_cons, mem_insertOn, List.mem_cons]
    exact or_congr_right mem_sortOn

theorem rdvJoin_eq {frame uid timeout : Nat} {launch key : Word} {leaf : DWord} (ht : s.rdvJoin frame uid launch leaf key timeout = some t) :
    ∃ rs ar, t = { s with rdv := rs, arrivals := ar } := by
  unfold State.rdvJoin at ht
  dsimp only at ht
  split at ht
  · exact ⟨_, _, (Option.some.inj ht).symm⟩
  · split at ht
    · simp at ht
    · exact ⟨_, _, (Option.some.inj ht).symm⟩

/-- A state with other contexts and another rendezvous table. -/
def State.regathered (s : State) (cs : List Ctx) (rs : List RdvEntry) (ar : Nat) : State := { s with ctxs := cs, rdv := rs, arrivals := ar }

/-- Looking up again changes the contexts that wait for an entry, and the table (R299). -/
theorem retryLookups_calmRun {frame : Nat} : CalmRun s (s.retryLookups frame) ∧ ∃ cs rs ar, s.retryLookups frame = s.regathered cs rs ar := by
  unfold State.retryLookups
  refine List.foldlRecOn (motive := fun u => CalmRun s u ∧ ∃ cs rs ar, u = s.regathered cs rs ar) _ _ ⟨.rfl, _, _, _, rfl⟩ ?_
  rintro u ⟨hu, cs, rs, ar, rfl⟩ c hc
  have hin := (List.mem_filter.1 (mem_sortOn.1 hc)).1
  split
  · next hst =>
    split
    · exact ⟨hu, _, _, _, rfl⟩
    · split
      · exact ⟨hu, _, _, _, rfl⟩
      · next ht =>
        obtain ⟨rs', ar', rfl⟩ := rdvJoin_eq ht
        have hjoined : CalmRun s { s.regathered cs rs ar with rdv := rs', arrivals := ar' } := hu.of_ctxs rfl rfl
        exact ⟨hjoined.modWaiting (fun _ => rfl) ⟨c, hin, rfl, by rw [hst]; rfl⟩, _, _, _, rfl⟩
  · exact ⟨hu, _, _, _, rfl⟩

theorem freeEntry_calmRun {frame num : Nat} (h : CalmRun a s) : CalmRun a (s.freeEntry frame num) :=
  (h.of_ctxs (t := { s with rdv := s.rdv.filter fun e => !(e.frame == frame && e.num == num) }) rfl rfl).trans retryLookups_calmRun.1

theorem freeEntry_eq {frame num : Nat} : ∃ cs rs ar, s.freeEntry frame num = s.regathered cs rs ar := by
  obtain ⟨_, cs, rs, ar, h⟩ := retryLookups_calmRun (s := { s with rdv := s.rdv.filter fun e => !(e.frame == frame && e.num == num) }) (frame := frame)
  exact ⟨cs, rs, ar, h⟩

theorem foldl_freeEntry_calmRun (es : List RdvEntry) (h : CalmRun a s) :
    CalmRun a (es.foldl (fun (s : State) e => s.freeEntry e.frame e.num) s) :=
  h.foldl es fun _ _ hu => freeEntry_calmRun hu

/-! ### Taking contexts (R389) -/

/-- A context between two instructions is taken where it stands. -/
theorem takePoint_of_calm (hd : distinct s) (hc : c ∈ s.ctxs) (hst : c.st.calm = true) : s.takePoint c.key = s.endTurn c.key := by
  obtain ⟨d, hctx, _, hcalm⟩ := (endTurn_calmRun (k := c.key) (.rfl (s := s))).ctx? hd hc hst
  unfold State.takePoint
  dsimp only
  rw [hctx]
  dsimp only
  rw [hcalm.st]
  rcases CtxState.calm_iff.1 hst with e | e <;> rw [e]

end Sys2Proof.Machine
end

section
namespace Sys2Proof.Machine
open Rules
variable {a s t : State} {c d : Ctx} {k : CtxKey} {n : Word}

/-! ## Replies that land before contexts are taken (R389) -/

/-- Whether a context waits for the reply of a request. -/
def CtxState.awaitsReply : CtxState → Bool
  | .parked (.reply _) => true
  | _ => false

theorem foldl_eq_self {α β : Type} {f : α → β → α} {x : α} : ∀ (ys : List β), (∀ y ∈ ys, f x y = x) → ys.foldl f x = x
  | [], _ => rfl
  | y :: ys, h => by
    rw [List.foldl_cons, h y List.mem_cons_self]
    exact foldl_eq_self ys fun z hz => h z (List.mem_cons_of_mem _ hz)

theorem Ctx.Kept.awaitsReply {P : CtxKey → Bool} (h : c.Kept P d) (hc : c.st.awaitsReply = false) : d.st.awaitsReply = false := by
  rcases h.st with e | ⟨_, e⟩
  · exact e ▸ hc
  · rw [e]
    rfl

/-- Where no reply is due, the contexts of lock-step pairs take their checkpoints, and no more happens. -/
theorem landAll_memRun (hd : distinct s) (hnone : ∀ c ∈ s.ctxsOf n, c.st.awaitsReply = false) : MemRun (fun _ => false) s (s.landAll n) := by
  have hckpt : MemRun (fun _ => false) s ((s.ctxsOf n).foldl (fun (s : State) (c : Ctx) => s.checkpoint c.key) s) :=
    MemRun.rfl.foldl (fun _ hu => checkpoint_memRun rfl hu) _
  generalize hu : (s.ctxsOf n).foldl (fun (s : State) (c : Ctx) => s.checkpoint c.key) s = u at hckpt
  have hland : s.landAll n = u := by
    unfold State.landAll
    rw [hu]
    refine foldl_eq_self _ fun d hmem => ?_
    obtain ⟨hdmem, hdlaunch⟩ := mem_ctxsOf.1 hmem
    obtain ⟨f, hf, hctxs⟩ := hckpt.ctxs
    obtain ⟨c, hc, rfl⟩ := List.mem_map.1 (hctxs ▸ hdmem)
    rw [ctx?_of_mem (distinct_congr hckpt.idents hd) hdmem]
    have hawait := (hf c).awaitsReply (hnone c (mem_ctxsOf.2 ⟨hc, (hf c).launch.symm.trans hdlaunch⟩))
    dsimp only
    split
    · next e =>
      rw [e] at hawait
      simp [CtxState.awaitsReply] at hawait
    · rfl
  exact hland ▸ hckpt

/-! ## Rounds in which nothing waits (R331) -/

/-- Whether no matrix operation waits in a round of a launch. -/
def State.idleRounds (s : State) (n : Word) : Prop := ∀ r ∈ s.regions, r.launch = n → ∀ i : Fin 8, r.cvg[i].waiting = []

theorem MemRun.idleRounds {P : CtxKey → Bool} (h : MemRun P s t) (hs : s.idleRounds n) : t.idleRounds n := by
  intro r hr hn i
  obtain ⟨r', hr', he⟩ := List.mem_map.1 (h.regions ▸ List.mem_map_of_mem hr)
  have hlaunch : r'.launch = r.launch := (congrArg Region.launch he :)
  have hcvg : r'.cvg = r.cvg := (congrArg Region.cvg he :)
  exact hcvg ▸ hs r' hr' (hlaunch.trans hn) i

theorem idleRounds_modRegion {core : CoreId} {launch : Word} {w : Nat} {f : Region → Region} (hs : s.idleRounds n)
    (hf : ∀ r, (∀ i : Fin 8, r.cvg[i].waiting = []) → ∀ i : Fin 8, (f r).cvg[i].waiting = []) (hl : ∀ r, (f r).launch = r.launch) :
    (s.modRegion core launch w f).idleRounds n := by
  intro r hr hn i
  obtain ⟨r', hr', rfl⟩ := List.mem_map.1 hr
  split at hn
  · next e =>
    rw [if_pos e]
    exact hf r' (hs r' hr' ((hl r').symm.trans hn)) i
  · next e =>
    rw [if_neg e]
    exact hs r' hr' hn i

theorem runRound_of_idle {core : CoreId} {w : Nat} {i : Fin 8} (hs : s.idleRounds n) :
    s.runRound core n w i = s ∨ ∃ v : CvgReg, v.waiting = [] ∧
      s.runRound core n w i = (s.modRegion core n w fun r => { r with cvg := r.cvg.set i v }).wakeObuf core := by
  unfold State.runRound
  cases hr : s.region? core n w with
  | none => exact .inl rfl
  | some r =>
    have hwait : r.cvg[i].waiting = [] := by
      have hp := List.find?_some hr
      simp only [Bool.and_eq_true, beq_iff_eq] at hp
      exact hs r (List.mem_of_find?_eq_some hr) hp.1.2 i
    dsimp only
    cases hm : r.cvg[i].mset with
    | none => exact .inl rfl
    | some m =>
      dsimp only
      split
      · refine .inr ?_
        cases hf : (s.beam core).fenced <;> cases hp : r.cvg[i].performed <;>
          simp only [hwait, hp, List.foldl_nil, if_true, if_false, Bool.false_eq_true]
        all_goals exact ⟨_, by split <;> rfl, rfl⟩
      · exact .inl rfl

theorem cvg_set_idle {cvg : Vector CvgReg 8} {v : CvgReg} {i : Fin 8} (hcvg : ∀ j : Fin 8, cvg[j].waiting = []) (hv : v.waiting = []) (j : Fin 8) :
    (cvg.set i v)[j].waiting = [] := by
  by_cases e : i.val = j.val
  · simp [e, hv]
  · simpa [Vector.getElem_set, e] using hcvg j

/-- A round in which nothing waits closes or stays as it is, and wakes only what waits for the operand buffer. -/
theorem runRound_idle_calm {core : CoreId} {w : Nat} (i : Fin 8) (hs : s.idleRounds n) (h : CalmRun a s) :
    (s.runRound core n w i).idleRounds n ∧ CalmRun a (s.runRound core n w i) := by
  rcases runRound_of_idle (core := core) (w := w) (i := i) hs with e | ⟨v, hv, e⟩
  · rw [e]
    exact ⟨hs, h⟩
  · rw [e]
    have hmod : (s.modRegion core n w fun r => { r with cvg := r.cvg.set i v }).idleRounds n :=
      idleRounds_modRegion hs (fun _ hr => cvg_set_idle hr hv) fun _ => rfl
    exact ⟨hmod, wakeObuf_calmRun (h.of_ctxs rfl rfl)⟩

theorem leaveRounds_idle_calm (hs : s.idleRounds c.launch) (h : CalmRun a s) :
    (s.leaveRounds c).idleRounds c.launch ∧ CalmRun a (s.leaveRounds c) := by
  unfold State.leaveRounds State.runRounds
  refine List.foldlRecOn (motive := fun u : State => u.idleRounds c.launch ∧ CalmRun a u) _ _ ⟨?_, h.of_ctxs rfl rfl⟩
    fun u hu i _ => runRound_idle_calm i hu.1 hu.2
  refine idleRounds_modRegion hs (fun r hr j => ?_) fun _ => rfl
  have hmap : (r.cvg.map fun v => if v.mset.isSome && !v.issued.contains c.index then { v with issued := v.issued ++ [c.index] } else v)[j].waiting =
      r.cvg[j].waiting := by
    simp only [Fin.getElem_fin, Vector.getElem_map]
    split <;> rfl
  exact hmap.trans (hr j)

/-! ## Contexts that drain (R75, R377) -/

/-- A context of a launch that drains. -/
def Ctx.drained (c : Ctx) : Ctx := { c with st := .draining }

/-- A state in which a context is about to drain: it has released its stores, and holds no trap slot, turn or message. -/
def State.letGo (s : State) (k : CtxKey) : State :=
  { ((s.releaseMem k .dev).freeSlot k).endTurn k with spawnQ := ((((s.releaseMem k .dev).freeSlot k).endTurn k).spawnQ).filter fun m => m.1 != k }

theorem letGo_calmRun (h : CalmRun a s) : CalmRun a (s.letGo k) :=
  (endTurn_calmRun (freeSlot_calmRun (h.trans (releaseMem_memRun (P := fun _ => false) rfl .rfl).calmRun))).of_ctxs rfl rfl

theorem endTurn_regions : (s.endTurn k).regions = s.regions := by
  unfold State.endTurn
  split <;> rfl

theorem letGo_idleRounds (hs : s.idleRounds n) : (s.letGo k).idleRounds n := by
  have hrel := (releaseMem_memRun (P := fun _ => false) (k := k) (sc := .dev) rfl (MemRun.rfl (s := s))).idleRounds hs
  intro r hr
  exact hrel r ((endTurn_regions (s := (s.releaseMem k .dev).freeSlot k)) ▸ hr)

/-- What follows the draining of a context: its entry is freed, and its gang counts as having signed. -/
theorem drain_calmRun (hd : distinct s) (hs : s.idleRounds n) (hc : c ∈ s.ctxs) (hkey : c.key = k) (hn : c.launch = n) :
    (s.drain k).idleRounds n ∧ CalmRun ((s.letGo k).modCtx k Ctx.drained) (s.drain k) := by
  have hidents : ((s.letGo k).modCtx k Ctx.drained).idents = s.idents := (idents_modCtx (f := Ctx.drained) fun _ => rfl).trans (letGo_calmRun .rfl).idents
  have hidle : ((s.letGo k).modCtx k Ctx.drained).idleRounds n := letGo_idleRounds hs
  have hdrain : s.drain k = match ((s.letGo k).modCtx k Ctx.drained).ctx? k with
      | none => (s.letGo k).modCtx k Ctx.drained
      | some c => match c.kind with
        | .called frame e =>
          (if ((s.letGo k).modCtx k Ctx.drained).rdv.any fun x => x.frame == frame && x.num == e && x.launch == c.launch then
            ((s.letGo k).modCtx k Ctx.drained).freeEntry frame e else (s.letGo k).modCtx k Ctx.drained).leaveRounds c
        | .gang => ((s.letGo k).modCtx k Ctx.drained).leaveRounds c
        | .rod => (s.letGo k).modCtx k Ctx.drained := rfl
  rw [hdrain]
  generalize (s.letGo k).modCtx k Ctx.drained = u at hidents hidle ⊢
  cases hu : u.ctx? k with
  | none => exact ⟨hidle, .rfl⟩
  | some d =>
    have hlaunch : d.launch = n := by
      obtain ⟨x, hx, he⟩ := exists_mem_of_idents hidents.symm (List.mem_of_find?_eq_some hu)
      have hkeys : x.key = c.key := (congrArg Ident.key he).trans ((State.ctx?_key hu).trans hkey.symm)
      have hlaunches : x.launch = d.launch := congrArg Ident.launch he
      exact hlaunches.symm.trans (eq_of_key hd hx hc hkeys ▸ hn)
    subst hlaunch
    dsimp only
    split
    · refine leaveRounds_idle_calm ?_ ?_
      · split
        · obtain ⟨cs, rs, ar, he⟩ := freeEntry_eq (s := u)
          rw [he]
          exact hidle
        · exact hidle
      · split
        · exact freeEntry_calmRun .rfl
        · exact .rfl
    · exact leaveRounds_idle_calm hidle .rfl
    · exact ⟨hidle, .rfl⟩

/-- A state in which the contexts of a launch drain one after another: those of `left` have yet to. -/
structure Ebbs (a : State) (n : Word) (left : List CtxKey) (u : State) : Prop where
  launches : u.launches = a.launches
  idents : u.idents = a.idents
  idle : u.idleRounds n
  ctxs : ∀ c ∈ u.ctxs, c.launch = n → c.st = .draining ∨ c.st = .live ∧ c.key ∈ left

theorem Ebbs.drain {left : List CtxKey} {u : State} (hd : distinct a) (hk : ∃ c ∈ a.ctxs, c.key = k ∧ c.launch = n) (h : Ebbs a n (k :: left) u) :
    Ebbs a n left (u.drain k) := by
  obtain ⟨b, hb, hbkey, hblaunch⟩ := hk
  have hdu : distinct u := distinct_congr h.idents hd
  obtain ⟨c, hc, hid⟩ := exists_mem_of_idents h.idents hb
  have hckey : c.key = k := (congrArg Ident.key hid).trans hbkey
  have hclaunch : c.launch = n := (congrArg Ident.launch hid).trans hblaunch
  obtain ⟨hidle, hafter⟩ := drain_calmRun hdu h.idle hc hckey hclaunch
  have hgo : CalmRun u (u.letGo k) := letGo_calmRun .rfl
  have hmod : ((u.letGo k).modCtx k Ctx.drained).idents = u.idents := (idents_modCtx (f := Ctx.drained) fun _ => rfl).trans hgo.idents
  refine ⟨(hafter.launches.trans hgo.launches).trans h.launches, (hafter.idents.trans hmod).trans h.idents, hidle, fun z hz hn => ?_⟩
  obtain ⟨y, hy, hzy, hcalm⟩ := hafter.of_mem hz
  obtain ⟨x, hx, rfl⟩ := List.mem_map.1 hy
  have hyx : (if (x.key == k) = true then x.drained else x).ident = x.ident := by split <;> rfl
  obtain ⟨w, hw, hxw, hcalmw⟩ := hgo.of_mem hx
  have hwn : w.launch = n := (congrArg Ident.launch (hzy.trans (hyx.trans hxw))).symm.trans hn
  have hxkey : x.key = w.key := congrArg Ident.key hxw
  have hzkey : z.key = w.key := congrArg Ident.key (hzy.trans (hyx.trans hxw))
  have hxst : x.st = w.st := (hcalmw hdu (CtxState.calm_iff.2 ((h.ctxs w hw hwn).elim .inr fun e => .inl e.1))).st
  have hdy := distinct_congr (hmod.trans h.idents) hd
  by_cases hkx : x.key = k
  · left
    rw [if_pos (beq_iff_eq.2 hkx)] at hcalm
    exact (hcalm hdy rfl).st
  · rw [if_neg (by simpa using hkx)] at hcalm
    rcases h.ctxs w hw hwn with e | ⟨e, hmem⟩
    · exact .inl ((hcalm hdy (by rw [hxst, e]; rfl)).st.trans (hxst.trans e))
    · refine .inr ⟨(hcalm hdy (by rw [hxst, e]; rfl)).st.trans (hxst.trans e), ?_⟩
      rw [hzkey]
      exact (List.mem_cons.1 hmem).resolve_left fun e => hkx (hxkey.trans e)

theorem Ebbs.drainAll (hd : distinct a) : ∀ {left : List CtxKey} {u : State}, (∀ k ∈ left, ∃ c ∈ a.ctxs, c.key = k ∧ c.launch = n) →
    Ebbs a n left u → Ebbs a n [] (left.foldl State.drain u)
  | [], _, _, h => h
  | k :: ks, _, hk, h =>
    have hrest : ∀ x ∈ ks, ∃ c ∈ a.ctxs, c.key = x ∧ c.launch = n := fun x hmem => hk x (List.mem_cons_of_mem k hmem)
    Ebbs.drainAll (left := ks) hd hrest (h.drain hd (hk k List.mem_cons_self))

end Sys2Proof.Machine
end

section
namespace Sys2Proof.Machine
open Rules
variable {a s t : State} {c d : Ctx} {k : CtxKey} {n : Word}

/-! ## The stop of an aborted launch (R377) -/

/-- Contexts between two instructions are taken where they stand. -/
theorem foldl_takePoint_calmRun (hd : distinct s) {keys : List CtxKey} (hk : ∀ k ∈ keys, ∃ c ∈ s.ctxs, c.key = k ∧ c.st.calm = true) :
    CalmRun s (keys.foldl State.takePoint s) := by
  refine CalmRun.rfl.foldl keys fun {u} k hmem hu => ?_
  obtain ⟨c, hc, rfl, hst⟩ := hk k hmem
  obtain ⟨d, hdmem, hid, hcalm⟩ := hu.mem_ctxs hd hc hst
  have hkey : d.key = c.key := congrArg Ident.key hid
  rw [← hkey, takePoint_of_calm (distinct_congr hu.idents hd) hdmem (hcalm.st ▸ hst)]
  exact endTurn_calmRun hu

/-- A context whose pushes are not performed. -/
def Ctx.unpushed (c : Ctx) : Ctx := { c with arch := { c.arch with pushes := [] } }

/-- What the contexts of an aborted launch give up when they stop: their pushes, their gated stores and the matrix operations that have
not completed. -/
def State.givenUp (s : State) (n : Word) (keys : List CtxKey) : State :=
  let s := keys.foldl (fun (s : State) k => s.modCtx k Ctx.unpushed) s
  { s with
    gates := s.gates.filter fun g => !keys.contains g.key,
    regions := s.regions.map fun r => if r.launch == n then { r with cvg := r.cvg.map fun v => { v with waiting := [] } } else r,
    beams := s.beams.map fun b => { b with ops := s.goOn b.core (b.ops.filter fun o => !keys.contains o.key) } }

/-- A launch whose contexts have stopped. -/
def Launch.unhalted (l : Launch) : Launch := { l with halt := none }

/-- The save records of an aborted launch's contexts (R390). -/
def State.savedAbort (s : State) (n : Word) (keys : List CtxKey) : State :=
  let now := (s.ctxsOf n).filter fun c => keys.contains c.key
  if now.isEmpty then s else s.writeSaveArea n 3 now

/-- The contexts of a launch that do not drain yet. -/
def State.undrained (s : State) (n : Word) : List CtxKey := ((s.ctxsOf n).filter fun c => c.st != .draining).map (·.key)

/-- A state in which the contexts of an aborted launch have stopped, and are about to drain. -/
def State.stopping (s : State) (n : Word) (keys : List CtxKey) : State :=
  (keys.foldl (fun (s : State) k => s.releaseMem k .dev) ((keys.foldl State.takePoint s).givenUp n keys)).savedAbort n keys

theorem stopAborted_eq (h : ∀ c ∈ (s.landAll n).ctxsOf n, c.st = .live ∨ c.st = .draining) :
    s.stopAborted n = ((((s.landAll n).undrained n).foldl State.drain ((s.landAll n).stopping n ((s.landAll n).undrained n))).modLaunch n
      Launch.unhalted) := by
  unfold State.stopAborted
  dsimp only
  rw [if_neg ?_]
  · rfl
  · rw [Bool.not_eq_true', Bool.not_eq_false]
    refine List.all_eq_true.2 fun c hc => ?_
    obtain ⟨hmem, hst⟩ := List.mem_filter.1 hc
    rcases h c hmem with e | e
    · simp [State.takeable, e]
    · simp [e] at hst

theorem foldl_unpushed_calmRun {keys : List CtxKey} (h : CalmRun a s) :
    CalmRun a (keys.foldl (fun (s : State) k => s.modCtx k Ctx.unpushed) s) :=
  h.foldl keys fun _ _ hu => hu.modCtx fun _ => ⟨rfl, fun _ => ⟨rfl, rfl⟩⟩

theorem givenUp_calmRun {keys : List CtxKey} (h : CalmRun a s) : CalmRun a (s.givenUp n keys) := (foldl_unpushed_calmRun h).of_ctxs rfl rfl

theorem givenUp_idleRounds {keys : List CtxKey} : (s.givenUp n keys).idleRounds n := by
  intro r hr hn i
  obtain ⟨r', _, rfl⟩ := List.mem_map.1 hr
  split at hn
  · next e =>
    rw [if_pos e]
    simp
  · next e => exact absurd (beq_iff_eq.2 hn) e

theorem savedAbort_eq {keys : List CtxKey} : ∃ rs x, s.savedAbort n keys = { s with reports := rs, freeCtr := x } := by
  unfold State.savedAbort
  dsimp only
  split <;> exact ⟨_, _, rfl⟩

theorem stopping_calmRun_idle {keys : List CtxKey} (hd : distinct s) (hk : ∀ k ∈ keys, ∃ c ∈ s.ctxs, c.key = k ∧ c.st.calm = true) :
    CalmRun s (s.stopping n keys) ∧ (s.stopping n keys).idleRounds n := by
  have hrel {u : State} : MemRun (fun _ => false) u (keys.foldl (fun (s : State) k => s.releaseMem k .dev) u) :=
    MemRun.rfl.foldl (fun _ hv => releaseMem_memRun rfl hv) keys
  obtain ⟨rs, x, hsave⟩ := savedAbort_eq (n := n) (keys := keys)
    (s := keys.foldl (fun (s : State) k => s.releaseMem k .dev) ((keys.foldl State.takePoint s).givenUp n keys))
  unfold State.stopping
  rw [hsave]
  exact ⟨((givenUp_calmRun (foldl_takePoint_calmRun hd hk)).trans hrel.calmRun).of_ctxs rfl rfl, hrel.idleRounds givenUp_idleRounds⟩

/-- The contexts of an aborted launch that stand between two instructions stop, and drain. -/
theorem stopAborted_ebbs (hd : distinct s) (hcalm : ∀ c ∈ s.ctxsOf n, c.st = .live ∨ c.st = .draining) :
    ∃ u, Ebbs s n [] u ∧ s.stopAborted n = u.modLaunch n Launch.unhalted := by
  have hland := landAll_memRun hd fun c hc => by rcases hcalm c hc with e | e <;> rw [e] <;> rfl
  have hrun := hland.calmRun
  have hstands : ∀ c ∈ (s.landAll n).ctxsOf n, c.st = .live ∨ c.st = .draining := by
    intro d hdmem
    obtain ⟨hin, hlaunch⟩ := mem_ctxsOf.1 hdmem
    obtain ⟨c, hc, hid, hkeep⟩ := hrun.of_mem hin
    have hst := hcalm c (mem_ctxsOf.2 ⟨hc, (congrArg Ident.launch hid).symm.trans hlaunch⟩)
    rw [(hkeep hd (CtxState.calm_iff.2 hst)).st]
    exact hst
  have hdland := distinct_congr hrun.idents hd
  have hkeys : ∀ k ∈ (s.landAll n).undrained n, ∃ c ∈ (s.landAll n).ctxs, c.key = k ∧ c.launch = n ∧ c.st.calm = true := by
    intro k hk
    obtain ⟨c, hc, rfl⟩ := List.mem_map.1 hk
    have hmem := (List.mem_filter.1 hc).1
    exact ⟨c, (mem_ctxsOf.1 hmem).1, rfl, (mem_ctxsOf.1 hmem).2, CtxState.calm_iff.2 (hstands c hmem)⟩
  obtain ⟨hstop, hidle⟩ := stopping_calmRun_idle (n := n) hdland fun k hk => by
    obtain ⟨c, hc, hkey, _, hst⟩ := hkeys k hk
    exact ⟨c, hc, hkey, hst⟩
  refine ⟨_, Ebbs.drainAll hd (fun k hk => ?_) ⟨hstop.launches.trans hrun.launches, hstop.idents.trans hrun.idents, hidle, fun z hz hn => ?_⟩,
    stopAborted_eq hstands⟩
  · obtain ⟨c, hc, rfl, hlaunch, _⟩ := hkeys k hk
    obtain ⟨b, hb, hid⟩ := exists_mem_of_idents hrun.idents.symm hc
    exact ⟨b, hb, congrArg Ident.key hid, (congrArg Ident.launch hid).trans hlaunch⟩
  · obtain ⟨c, hc, hid, hkeep⟩ := hstop.of_mem hz
    have hmem := mem_ctxsOf.2 ⟨hc, (congrArg Ident.launch hid).symm.trans hn⟩
    have hst := hstands c hmem
    have hzst := (hkeep hdland (CtxState.calm_iff.2 hst)).st
    rcases hst with e | e
    · refine .inr ⟨hzst.trans e, List.mem_map.2 ⟨c, List.mem_filter.2 ⟨hmem, by simp [e]⟩, (congrArg Ident.key hid).symm⟩⟩
    · exact .inl (hzst.trans e)

theorem abortComplete_stops {l : Launch} {code : Code} (hl : s.launch? n = some l) (hst : l.st = .aborting code) (hhalt : l.halt.isSome = true)
    (hd : distinct s) (hcalm : ∀ c ∈ s.ctxsOf n, c.st = .live ∨ c.st = .draining) :
    ∃ t m, exec (.abortComplete n) s = .next t ∧ t.launch? n = some m ∧ m.st = l.st ∧ m.halt = none ∧
      (t.ctxsOf n).map (·.key) = (s.ctxsOf n).map (·.key) ∧ ∀ c ∈ t.ctxsOf n, c.st = .draining := by
  obtain ⟨u, hebb, hstop⟩ := stopAborted_ebbs hd hcalm
  have hexec : exec (.abortComplete n) s = .next (s.stopAborted n) := by
    change execAbortComplete n s = _
    simp [execAbortComplete, hl, hst, hhalt]
  rw [hstop] at hexec
  refine ⟨_, l.unhalted, hexec, ?_, rfl, rfl, ctxsOf_keys_congr hebb.idents, fun c hc => ?_⟩
  · rw [launch?_modLaunch (f := Launch.unhalted) fun _ => id]
    simp only [State.launch?, hebb.launches]
    exact congrArg (Option.map _) hl
  · obtain ⟨hin, hlaunch⟩ := mem_ctxsOf.1 hc
    rcases hebb.ctxs c hin hlaunch with e | ⟨_, hmem⟩
    · exact e
    · exact absurd hmem List.not_mem_nil

/-! ## Ending a launch with a code (R377) -/

/-- A launch that is aborted, with why its contexts stop if it has any. -/
def Launch.aborted (l : Launch) (code : Code) (halt : Option Nat) : Launch := { l with st := .aborting code, halt := halt, saved := [] }

/-- Why the contexts of a launch that is aborted stop, if it has any. -/
def State.abortHalt (s : State) (n : Word) : Option Nat := if ((s.ctxs.filter fun c => c.launch == n).map (·.key)).isEmpty then none else some 3

/-- What an abort cuts off: the pushes and gated stores of the launch's contexts, and its jobs. -/
def State.cutOff (s : State) (n : Word) (code : Code) : State :=
  { s with
    gates := s.gates.filter fun g => !(((s.ctxs.filter fun c => c.launch == n).map (·.key)).contains g.key),
    ctxs := s.ctxs.map fun c => if c.launch == n then c.unpushed else c,
    jobs := s.jobs.map fun j => if j.launch == n && j.code.isNone then { j with code := some (code, false), waits := [] } else j }

theorem cutOff_calmRun {code : Code} (h : CalmRun a s) : CalmRun a (s.cutOff n code) := by
  have hpush : CalmRun a { s with ctxs := s.ctxs.map fun c => if c.launch == n then c.unpushed else c } := h.mapCtxs fun c => by
    split <;> exact ⟨rfl, fun _ => ⟨rfl, rfl⟩⟩
  exact hpush.of_ctxs rfl rfl

section
variable {l : Launch} {code : Code} (hl : s.launch? n = some l) (hst : l.st = .running ∨ l.st = .saved)
include hl hst

theorem abortLaunch_eq : s.abortLaunch n code = (s.rdv.filter fun e => e.launch == n).foldl (fun (s : State) e => s.freeEntry e.frame e.num)
    ((s.cutOff n code).modLaunch n fun l => l.aborted code (s.abortHalt n)) := by
  unfold State.abortLaunch
  rw [hl]
  dsimp only
  rcases hst with e | e <;> rw [e] <;> rfl

/-- An abort keeps the contexts between two instructions as they stand, but for their pushes. -/
theorem abortLaunch_calmRun : CalmRun ((s.cutOff n code).modLaunch n fun l => l.aborted code (s.abortHalt n)) (s.abortLaunch n code) :=
  abortLaunch_eq hl hst ▸ foldl_freeEntry_calmRun _ .rfl

/-- An abort puts the launch in its aborting state. -/
theorem abortLaunch_launch? : (s.abortLaunch n code).launch? n = some (l.aborted code (s.abortHalt n)) := by
  rw [(abortLaunch_calmRun hl hst).launch?, launch?_modLaunch (f := fun l => l.aborted code (s.abortHalt n)) fun _ => id]
  exact congrArg (Option.map _) hl

theorem abortLaunch_idents : (s.abortLaunch n code).idents = s.idents :=
  (abortLaunch_calmRun hl hst).idents.trans (cutOff_calmRun (code := code) .rfl).idents

end

theorem killLaunch_running {l : Launch} {code : Code} (hl : s.launch? n = some l) (hst : l.st = .running)
    (hnone : s.pending.find? (fun p => p.checked && p.number == n) = none) :
    (s.killLaunch n code).launch? n = some (l.aborted code (s.abortHalt n)) := by
  rw [State.killLaunch, hnone]
  exact abortLaunch_launch? hl (.inl hst)

theorem killLaunch_pending {p : Pending} {code : Code} (hfind : s.pending.find? (fun p => p.checked && p.number == n) = some p) :
    ((s.killLaunch n code).pending = s.pending.filter fun x => x.order != p.order) ∧ stampDue s (s.killLaunch n code) p.order 5 code.byte n := by
  rw [State.killLaunch, hfind]
  exact ⟨pushStamp_pending, stampDue_pushStamp (by decide) rfl rfl⟩

/-- A launch passes through its states as R54–R62 and R377 give them. -/
theorem launchesRun_holds : launchesRun := by
  refine ⟨fun s order p hfind hdead hchecked => ⟨fun map hcheck => launchCheck_accepts hfind hdead hchecked hcheck,
      fun code hcheck => launchCheck_rejects hfind hdead hchecked hcheck⟩,
    fun s order p o core hfind hobj hcan hprio hnew => launchDispatch_runs hfind hobj hcan hprio hnew, fun s n l hl => ⟨fun hst hquiet => ?_,
      fun code hst hhalt hquiet => ?_, fun code hst hhalt hd hcalm => abortComplete_stops hl hst hhalt hd hcalm, fun hst hnone => ?_⟩,
    fun s n p hfind => ?_⟩
  · exact ⟨_, launchDone_ends hl hst hquiet, finishLaunch_ends hl (by decide)⟩
  · exact ⟨_, abortComplete_ends hl hst hhalt hquiet, finishLaunch_ends hl (by decide)⟩
  · exact ⟨_, _, rfl, killLaunch_running hl hst hnone, rfl⟩
  · exact ⟨_, rfl, killLaunch_pending hfind⟩

/-- Settles O53: a stamp write that can be performed is one write at its home, and each event of a launch is a change of the launch
followed by the stamp write that it makes due. -/
theorem launchesRun : Obligations.LaunchesRun := ⟨stampsAreWritten_holds, launchesRun_holds⟩

end Sys2Proof.Machine
end

section
namespace Sys2Proof.Machine
open Rules
variable {a s t : State} {c d : Ctx} {k : CtxKey} {n : Word}

/-! ## Which contexts and launches there are

What brings a context to its point (R389) can complete its instruction, its matrix operation or its service, but no context and no
launch comes or goes. -/

/-- The contexts and the launches of a state, by name. -/
def State.roll (s : State) : List Ident × List Word := (s.idents, s.launches.map (·.number))

theorem roll_idents (h : t.roll = s.roll) : t.idents = s.idents := congrArg Prod.fst h

theorem isSome_launch?_of_roll (h : t.roll = s.roll) : (t.launch? n).isSome = (s.launch? n).isSome := by
  have hany {u : State} : (u.launch? n).isSome = (u.launches.map (·.number)).any fun m => m == n := by
    rw [Bool.eq_iff_iff, State.launch?, List.find?_isSome]
    simp
  rw [hany, hany]
  exact congrArg (fun ms => ms.any fun m => m == n) (congrArg Prod.snd h)

theorem CalmRun.roll (h : CalmRun s t) : t.roll = s.roll := Prod.ext h.idents (congrArg (List.map _) h.launches)

theorem modCtx_roll {f : Ctx → Ctx} (hf : ∀ c, (f c).ident = c.ident) : (s.modCtx k f).roll = s.roll := Prod.ext (idents_modCtx hf) rfl

theorem modLaunch_roll {f : Launch → Launch} (hf : ∀ l, (f l).number = l.number) : (s.modLaunch n f).roll = s.roll := by
  refine Prod.ext rfl (List.map_map.trans (List.map_congr_left fun l _ => ?_))
  dsimp only [Function.comp]
  split
  · exact hf l
  · rfl

theorem foldl_roll {α : Type} {f : State → α → State} (hf : ∀ s x, (f s x).roll = s.roll) : ∀ (xs : List α) (s : State), (xs.foldl f s).roll = s.roll
  | [], _ => rfl
  | x :: xs, s => (foldl_roll hf xs _).trans (hf s x)

theorem modRegion_roll {core : CoreId} {launch : Word} {w : Nat} {f : Region → Region} : (s.modRegion core launch w f).roll = s.roll := rfl

theorem setOps_roll {core : CoreId} {ops : List MatrixOp} : (s.setOps core ops).roll = s.roll := rfl

theorem wakeObuf_roll {core : CoreId} : (s.wakeObuf core).roll = s.roll := (wakeObuf_calmRun .rfl).roll

theorem matrixDone_roll {next : DWord} : (s.matrixDone k next).roll = s.roll := modCtx_roll fun _ => rfl

theorem roundMember_roll {p o : MatrixOp} {done : Bool} : (s.roundMember p done o).roll = s.roll := by
  unfold State.roundMember
  split
  · exact modCtx_roll fun _ => rfl
  · split
    · exact matrixDone_roll
    · rfl

theorem runRound_roll {core : CoreId} {launch : Word} {w : Nat} {i : Fin 8} : (s.runRound core launch w i).roll = s.roll := by
  have hfence {b : Bool} {os : List MatrixOp} : (if b then os.foldl (fun (s : State) o => s.modCtx o.key fun c =>
      { c with st := .parked (.roundBad .mmaerr) }) s else s).roll = s.roll := by
    split
    · refine foldl_roll (fun _ _ => ?_) _ _
      exact modCtx_roll fun _ => rfl
    · rfl
  have hstart {u : State} {o : MatrixOp} {ops : List MatrixOp} (hu : u.roll = s.roll) :
      ((u.setOps core ops).modCtx o.key fun c => { c with st := .parked (.matrix o.num) }).roll = s.roll := by
    refine Eq.trans (b := (u.setOps core ops).roll) ?_ (setOps_roll.trans hu)
    exact modCtx_roll fun _ => rfl
  unfold State.runRound
  split
  · rfl
  · dsimp only
    split
    · rfl
    · split
      · refine wakeObuf_roll.trans (modRegion_roll.trans ?_)
        split
        · refine (foldl_roll (fun _ _ => roundMember_roll) _ _).trans ?_
          split
          · exact hstart hfence
          · exact hfence
        · split
          · exact hstart hfence
          · exact hfence
      · rfl

/-! ### Matrix operations that stop (R333) -/

theorem removeOp_roll {o : MatrixOp} : (s.removeOp o).roll = s.roll := wakeObuf_roll

theorem completeOp_roll {o : MatrixOp} : (s.completeOp o).roll = s.roll := by
  have hmembers {u : State} : (o.members.foldl (fun s m => s.matrixDone m.1 m.2) u).roll = u.roll := foldl_roll (fun _ _ => matrixDone_roll) _ _
  have hown : (((s.sumOp o o.k).matrixDone o.key o.next).removeOp o).roll = s.roll := removeOp_roll.trans (matrixDone_roll.trans modRegion_roll)
  unfold State.completeOp
  dsimp only
  split
  · exact hmembers.trans hown
  · exact runRound_roll.trans (modRegion_roll.trans (hmembers.trans hown))

theorem recordProgress_roll {o : MatrixOp} {kdone : Nat} : (s.recordProgress o kdone k).roll = s.roll := modCtx_roll fun _ => rfl

theorem stopOp_roll {o : MatrixOp} : (s.stopOp o).roll = s.roll := by
  have hfree {u : State} : (o.keys.foldl (fun s k => s.modCtx k fun c => { c with st := .live }) u).roll = u.roll := by
    refine foldl_roll (fun _ _ => ?_) _ _
    exact modCtx_roll fun _ => rfl
  have hstop {kdone : Nat} : ((if o.started.isSome then
        o.keys.foldl (fun s k => s.recordProgress o kdone k) (s.sumOp o kdone)
      else o.keys.foldl (fun s k => s.modCtx k fun c => { c with st := .live }) s).removeOp o).roll = s.roll := by
    refine removeOp_roll.trans ?_
    split
    · exact (foldl_roll (fun _ _ => recordProgress_roll) _ _).trans modRegion_roll
    · exact hfree
  unfold State.stopOp
  dsimp only
  split
  · exact completeOp_roll
  · split
    · exact hstop
    · exact modRegion_roll.trans hstop

/-! ### Services that complete (R384) -/

theorem svcReply_roll {value : DWord} {status : Word} : (s.svcReply k value status).roll = s.roll := by
  have hmem {u : State} : MemRun (fun _ => false) u ((u.acquireMem k .dev).checkpoint k) := checkpoint_memRun rfl (acquireMem_memRun rfl .rfl)
  refine hmem.calmRun.roll.trans ((modCtx_roll fun c => ?_).trans (freeSlot_calmRun .rfl).roll)
  split <;> rfl

theorem serveAlloc_roll {choice : Option (Nat × Nat)} {x : DWord} {y : Word} : (s.serveAlloc k choice c x y).roll = s.roll := by
  unfold State.serveAlloc
  dsimp only
  split
  · rfl
  · split
    · exact svcReply_roll
    · split
      · exact svcReply_roll
      · split
        · exact svcReply_roll
        · split
          · exact svcReply_roll.trans (modLaunch_roll fun _ => rfl)
          · rfl

theorem serveFree_roll {x : DWord} {y : Word} : (s.serveFree k c x y).roll = s.roll := by
  unfold State.serveFree
  dsimp only
  split
  · exact svcReply_roll
  · exact svcReply_roll.trans (modLaunch_roll fun _ => rfl)

theorem servePost_roll {x : DWord} {y : Word} : (s.servePost k c x y).roll = s.roll := by
  unfold State.servePost
  split
  · exact svcReply_roll
  · split
    · exact svcReply_roll
    · exact svcReply_roll.trans (modCtx_roll fun _ => rfl)

theorem completeService_roll : (s.completeService k).roll = s.roll := by
  unfold State.completeService
  split
  · rfl
  · split
    · rfl
    · dsimp only
      split
      · exact serveAlloc_roll
      · split
        · exact serveFree_roll
        · split
          · exact servePost_roll
          · exact svcReply_roll

/-! ### The points of R389 -/

theorem takePoint_roll : (s.takePoint k).roll = s.roll := by
  have hlive {u : State} : (u.modCtx k fun c => { c with st := .live, woken := false }).roll = u.roll := modCtx_roll fun _ => rfl
  have hfree {u : State} : (u.freeSlot k).roll = u.roll := (freeSlot_calmRun .rfl).roll
  have hend : (s.endTurn k).roll = s.roll := (endTurn_calmRun .rfl).roll
  unfold State.takePoint
  dsimp only
  split
  · exact hend
  · split
    · split
      · exact hend
      · exact hlive.trans hend
    · exact hfree.trans hend
    · refine Eq.trans ?_ (hfree.trans hend)
      exact modCtx_roll fun _ => rfl
    · exact hend
    · split
      · exact stopOp_roll.trans hend
      · exact hend
    · split
      · exact stopOp_roll.trans hend
      · exact hlive.trans (modRegion_roll.trans hend)
    · split
      · exact completeService_roll.trans hend
      · exact hlive.trans (hfree.trans hend)
    · exact hlive.trans (hfree.trans hend)
    · exact hlive.trans (hfree.trans hend)
    · exact hlive.trans hend
    · exact hend

end Sys2Proof.Machine
end

section
namespace Sys2Proof.Machine
open Rules
variable {a s t : State} {c d : Ctx} {k : CtxKey} {n : Word}

/-! ## Saving a launch (R389) -/

/-- A state in which the contexts of a launch stand at their points, have released their stores, and are about to be saved. -/
def State.taken (s : State) (n : Word) : State :=
  let keys := (s.ctxsOf n).map (·.key)
  let u := keys.foldl State.takePoint (s.stopTimers n)
  keys.foldl (fun s k => s.release k .dev) ((u.rdv.filter fun e => e.launch == n && e.st != .running).foldl (fun (s : State) e => s.freeEntry e.frame e.num) u)

/-- A context as it is saved. -/
def State.savedCtx (s : State) (c : Ctx) : Ctx := { c with arch := { c.arch with tbase := s.tbaseOf c }, issued := none, yielded := [], turn := none }

theorem stopTimers_roll : (s.stopTimers n).roll = s.roll := modLaunch_roll fun _ => rfl

theorem foldl_release_memRun (keys : List CtxKey) : MemRun (fun _ => false) s (keys.foldl (fun (s : State) k => s.release k .dev) s) :=
  MemRun.rfl.foldl (fun _ hu => release_memRun rfl hu) keys

theorem taken_roll : (s.taken n).roll = s.roll :=
  (foldl_release_memRun _).calmRun.roll.trans ((foldl_freeEntry_calmRun _ .rfl).roll.trans ((foldl_roll (fun _ _ => takePoint_roll) _ _).trans stopTimers_roll))

/-- A launch whose contexts stand between two instructions is taken as it stands. -/
theorem taken_calmRun (hd : distinct s) (hlive : ∀ c ∈ s.ctxsOf n, c.st.calm = true) : CalmRun (s.stopTimers n) (s.taken n) := by
  have htake : CalmRun (s.stopTimers n) (((s.ctxsOf n).map (·.key)).foldl State.takePoint (s.stopTimers n)) := by
    refine foldl_takePoint_calmRun (s := s.stopTimers n) hd fun k hk => ?_
    obtain ⟨c, hc, rfl⟩ := List.mem_map.1 hk
    exact ⟨c, (mem_ctxsOf.1 hc).1, rfl, hlive c hc⟩
  exact (foldl_freeEntry_calmRun _ htake).trans (foldl_release_memRun _).calmRun

/-- What a save leaves: the launch, saved with its contexts, and nothing of it on the cores. -/
theorem saveLaunch_saves {why : Nat} (hl : (s.launch? n).isSome = true) :
    (∃ m u, (s.saveLaunch n why).launch? n = some m ∧ m.st = .saved ∧ m.saved = ((s.taken n).ctxsOf n).map (State.savedCtx u)) ∧
      (∀ c ∈ (s.saveLaunch n why).ctxs, c.launch ≠ n) ∧ (∀ r ∈ (s.saveLaunch n why).regions, r.launch ≠ n) ∧
      ∀ w ∈ (s.saveLaunch n why).windows, w.launch ≠ n := by
  obtain ⟨l, hl'⟩ := Option.isSome_iff_exists.1 ((isSome_launch?_of_roll (taken_roll (s := s) (n := n))).trans hl)
  refine ⟨?_, ?_, ?_, ?_⟩
  · have hmod {u : State} {f : Launch → Launch} (hu : u.launch? n = some l) (hf : ∀ l, l.number = n → (f l).number = n) :
        (u.modLaunch n f).launch? n = some (f l) := by rw [launch?_modLaunch hf, hu]; rfl
    exact ⟨_, (s.taken n).writeSaveArea n why ((s.taken n).ctxsOf n), hmod (u := (s.taken n).writeSaveArea n why ((s.taken n).ctxsOf n)) hl'
      (fun _ => id), rfl, rfl⟩
  · exact fun c hc => by simpa using (List.mem_filter.1 hc).2
  · exact fun r hr => by simpa using (List.mem_filter.1 hr).2
  · exact fun w hw => by simpa using (List.mem_filter.1 hw).2

/-- The contexts of a launch that is saved are those that it had. -/
theorem saved_keys {u : State} : (((s.taken n).ctxsOf n).map (State.savedCtx u)).map (·.key) = (s.ctxsOf n).map (·.key) := by
  rw [List.map_map]
  exact ctxsOf_keys_congr (roll_idents taken_roll)

/-- A context that stands between two instructions is saved with its registers. -/
theorem saved_regs {u : State} (hd : distinct s) (hlive : ∀ c ∈ s.ctxsOf n, c.st.calm = true) (hc : c ∈ s.ctxsOf n) :
    ∃ z ∈ ((s.taken n).ctxsOf n).map (State.savedCtx u), z.uid = c.uid ∧ z.arch.s = c.arch.s ∧ z.arch.a = c.arch.a ∧
      z.arch.lanes = c.arch.lanes ∧ z.arch.tags = c.arch.tags := by
  obtain ⟨d, hmem, hid, hcalm⟩ := (taken_calmRun hd hlive).mem_ctxs hd (mem_ctxsOf.1 hc).1 (hlive c hc)
  refine ⟨_, List.mem_map_of_mem (mem_ctxsOf.2 ⟨hmem, (congrArg Ident.launch hid).trans (mem_ctxsOf.1 hc).2⟩), (congrArg Ident.uid hid :), ?_⟩
  exact ⟨(congrArg Arch.s hcalm.arch :), (congrArg Arch.a hcalm.arch :), (congrArg Arch.lanes hcalm.arch :), (congrArg Arch.tags hcalm.arch :)⟩

/-! ## Pre-emption (R389) -/

/-- The self-tests of pairs are as they were. -/
theorem MemRun.pairTests {P : CtxKey → Bool} (h : MemRun P s t) {core : CoreId} :
    (t.tests.all fun x => x.target != .pair core) = s.tests.all fun x => x.target != .pair core := by
  have hall {xs : List SelfTest} : (xs.all fun x => x.target != .pair core) = (xs.filter fun x => !x.ofStorage).all fun x => x.target != .pair core := by
    rw [List.all_filter]
    refine congrArg (List.all xs) (funext fun x => ?_)
    cases hx : x.target <;> simp [SelfTest.ofStorage, hx]
  rw [hall, hall (xs := s.tests)]
  exact congrArg (fun u : State => u.tests.all fun x => x.target != .pair core) h.rest

theorem takeable_of_kept {P : CtxKey → Bool} (h : MemRun P s t) (hk : c.Kept P d) (hc : s.takeable c = true) : t.takeable d = true := by
  rcases hk.st with e | ⟨_, e⟩
  · unfold State.takeable at hc ⊢
    rw [e, hk.key, h.pairTests]
    exact hc
  · simp [State.takeable, e]

theorem awaitsReply_of_takeable (h : s.takeable c = true) : c.st.awaitsReply = false := by
  unfold State.takeable at h
  cases hst : c.st with
  | parked w =>
    cases w with
    | reply r => simp [hst] at h
    | _ => rfl
  | _ => rfl

/-- A state in which a launch is to stop for a save. -/
def State.halting (s : State) (n : Word) (why : Nat) : State := s.modLaunch n fun l => { l with halt := some why }

theorem landAll_halting {why : Nat} (hd : distinct s) (htake : ∀ c ∈ s.ctxsOf n, s.takeable c = true) :
    MemRun (fun _ => false) (s.halting n why) ((s.halting n why).landAll n) :=
  landAll_memRun hd fun c hc => awaitsReply_of_takeable (htake c hc)

section
variable {l : Launch} {why : Nat} (hl : s.launch? n = some l) (hst : l.st = .running) (hd : distinct s)
  (htake : ∀ c ∈ s.ctxsOf n, s.takeable c = true)
include hl hst hd htake

/-- A launch whose contexts are all at their points is saved in the step that stops it. -/
theorem preempt_eq : s.preempt n why = ((s.halting n why).landAll n).saveLaunch n why := by
  have hland := landAll_halting (why := why) hd htake
  have hall : ((s.halting n why).landAll n).allTakeable n = true := by
    unfold State.allTakeable
    rw [hland.calmRun.launch?, State.halting, launch?_modLaunch (f := fun l => { l with halt := some why }) fun _ => id, hl, Bool.and_eq_true]
    refine ⟨by simp [hst], List.all_eq_true.2 fun d hmem => ?_⟩
    obtain ⟨hin, hn⟩ := mem_ctxsOf.1 hmem
    obtain ⟨f, hf, hctxs⟩ := hland.ctxs
    obtain ⟨c, hc, rfl⟩ := List.mem_map.1 (hctxs ▸ hin)
    exact takeable_of_kept hland (hf c) (htake c (mem_ctxsOf.2 ⟨hc, (hf c).launch.symm.trans hn⟩))
  unfold State.preempt
  exact if_pos hall

theorem preempt_saves : (∃ m, (s.preempt n why).launch? n = some m ∧ m.st = .saved ∧ m.saved.map (·.key) = (s.ctxsOf n).map (·.key) ∧
      ((∀ c ∈ s.ctxsOf n, c.st = .live) → ∀ c ∈ s.ctxsOf n, ∃ z ∈ m.saved, z.uid = c.uid ∧ z.arch.s = c.arch.s ∧ z.arch.a = c.arch.a ∧
        z.arch.lanes = c.arch.lanes ∧ z.arch.tags = c.arch.tags)) ∧
    (∀ c ∈ (s.preempt n why).ctxs, c.launch ≠ n) ∧ (∀ r ∈ (s.preempt n why).regions, r.launch ≠ n) ∧ ∀ w ∈ (s.preempt n why).windows, w.launch ≠ n := by
  have hland := (landAll_halting (why := why) hd htake).calmRun
  have hsome : (((s.halting n why).landAll n).launch? n).isSome = true := by
    rw [hland.launch?, State.halting, launch?_modLaunch (f := fun l => { l with halt := some why }) fun _ => id, hl]
    rfl
  obtain ⟨⟨m, u, hm, hmst, hsaved⟩, hgone⟩ := saveLaunch_saves (why := why) hsome
  rw [preempt_eq hl hst hd htake]
  refine ⟨⟨m, hm, hmst, ?_, fun hlive c hc => ?_⟩, hgone⟩
  · rw [hsaved, saved_keys]
    exact ctxsOf_keys_congr hland.idents
  · have hdl : distinct ((s.halting n why).landAll n) := distinct_congr hland.idents hd
    have hcalm : ∀ d ∈ ((s.halting n why).landAll n).ctxsOf n, d.st.calm = true := by
      intro d hmem
      obtain ⟨hin, hn⟩ := mem_ctxsOf.1 hmem
      obtain ⟨b, hb, hid, hkeep⟩ := hland.of_mem hin
      have hbst := hlive b (mem_ctxsOf.2 ⟨hb, (congrArg Ident.launch hid).symm.trans hn⟩)
      rw [(hkeep hd (by rw [hbst]; rfl)).st, hbst]
      rfl
    obtain ⟨hin, hn⟩ := mem_ctxsOf.1 hc
    obtain ⟨d, hmem, hid, hkept⟩ := hland.mem_ctxs hd hin (by rw [hlive c hc]; rfl)
    obtain ⟨z, hz, huid, hs, ha, hlanes, htags⟩ := saved_regs (u := u) hdl hcalm (mem_ctxsOf.2 ⟨hmem, (congrArg Ident.launch hid).trans hn⟩)
    exact ⟨z, hsaved ▸ hz, huid.trans (congrArg Ident.uid hid), hs.trans (congrArg Arch.s hkept.arch :), ha.trans (congrArg Arch.a hkept.arch :),
      hlanes.trans (congrArg Arch.lanes hkept.arch :), htags.trans (congrArg Arch.tags hkept.arch :)⟩

/-- A watchdog saves the launch, and aborts it (R392). -/
theorem watchdogFire_aborts (hdue : l.timers.any (s.timerDue l) = true) :
    ∃ t m, exec (.watchdogFire n) s = .next t ∧ t.launch? n = some m ∧ m.st = .aborting .wdog ∧ ∀ c ∈ t.ctxs, c.launch ≠ n := by
  obtain ⟨⟨m, hm, hmst, _, _⟩, hgone, _, _⟩ := preempt_saves (why := 2) hl hst hd htake
  have hexec : exec (.watchdogFire n) s = .next (((s.preempt n 2).modStamp l.order fun t => { t with always := true }).abortLaunch n .wdog) := by
    change execWatchdogFire n s = _
    simp [execWatchdogFire, hl, hst, hdue, hm, hmst]
  have hm' : ((s.preempt n 2).modStamp l.order fun t => { t with always := true }).launch? n = some m := hm
  refine ⟨_, _, hexec, abortLaunch_launch? hm' (.inr hmst), rfl, fun c hc => ?_⟩
  obtain ⟨d, hd', hid⟩ := exists_mem_of_idents (abortLaunch_idents (code := .wdog) hm' (.inr hmst)).symm hc
  have hlaunch : d.launch = c.launch := congrArg Ident.launch hid
  exact hlaunch ▸ hgone d hd'

end

/-! ## Restore (R391) -/

/-- The slots that the contexts of a saved launch take on a core. -/
def slotDemand (cs : List Ctx) (core : CoreId) : Nat :=
  ((cs.filter fun c => c.key.core == core).map fun c => if c.pair.isSome then 2 else 1).foldl (· + ·) 0

theorem slotDemand_cons {cs : List Ctx} {core : CoreId} :
    slotDemand (c :: cs) core = (if c.key.core = core then if c.pair.isSome then 2 else 1 else 0) + slotDemand cs core := by
  have hsum {xs : List Nat} : ∀ {m : Nat}, xs.foldl (· + ·) m = m + xs.foldl (· + ·) 0 := by
    induction xs with
    | nil => simp
    | cons x xs ih =>
      intro m
      rw [List.foldl_cons, List.foldl_cons, ih, ih (m := 0 + x)]
      omega
  unfold slotDemand
  by_cases hc : c.key.core = core
  · rw [List.filter_cons_of_pos (by simpa using hc), List.map_cons, List.foldl_cons, hsum, if_pos hc]
    omega
  · rw [List.filter_cons_of_neg (by simpa using hc), if_neg hc]
    omega

theorem requestSlot_system_calm : (s.requestSlot k .system).idents = s.idents ∧ (s.requestSlot k .system).launches = s.launches := by
  have hgrant {u : State} : (u.granted k .system).idents = u.idents ∧ (u.granted k .system).launches = u.launches := by
    have hrel := (release_memRun (P := fun _ => false) (k := k) (sc := .dev) rfl (MemRun.rfl (s := u))).calmRun
    refine ⟨(idents_modCtx fun c => ?_).trans hrel.idents, hrel.launches⟩
    split <;> rfl
  unfold State.requestSlot
  dsimp only
  split
  · exact hgrant
  · exact ⟨rfl, rfl⟩

/-- A context is restored where its core has the slots for it. -/
theorem restoreCtx_restores (hfree : (if c.pair.isSome then 2 else 1) ≤ (s.slotsFree c.key.core).length) :
    ∃ i pair, (s.restoreCtx c).idents = s.idents ++ [⟨⟨c.key.core, i⟩, c.uid, c.launch, c.group, c.kind, pair⟩] ∧
      (pair : Option (Fin 32)).toList.length ≤ (if c.pair.isSome then 1 else 0) ∧ (s.restoreCtx c).launches = s.launches := by
  have hne : s.slotsFree c.key.core ≠ [] := List.ne_nil_of_length_pos (by split at hfree <;> omega)
  obtain ⟨i, hi⟩ : ∃ i, (if c.kind == .rod then s.rodNumber c.key.core else (s.slotsFree c.key.core).head?) = some i := by
    split
    · exact rodNumber_isSome hne
    · obtain ⟨x, xs, hcons⟩ := List.exists_cons_of_ne_nil hne
      exact ⟨x, by rw [hcons]; rfl⟩
  unfold State.restoreCtx
  dsimp only
  rw [hi]
  dsimp only
  have hacq {u : State} {key : CtxKey} : CalmRun u (u.acquireMem key .dev) := (acquireMem_memRun (P := fun _ => false) rfl .rfl).calmRun
  have hids {z : Ctx} : ({ s with ctxs := s.ctxs ++ [z] } : State).idents = s.idents ++ [z.ident] := by simp [State.idents]
  refine ⟨i, if c.pair.isSome then (s.slotsFree c.key.core).tail.head? else none, ?_, ?_, ?_⟩
  · split
    · exact requestSlot_system_calm.1.trans (hacq.idents.trans hids)
    · exact hacq.idents.trans hids
  · split
    · cases (s.slotsFree c.key.core).tail.head? <;> simp
    · simp
  · split
    · exact requestSlot_system_calm.2.trans hacq.launches
    · exact hacq.launches

/-- Where every core has the slots for them, the contexts of a saved launch are all there again. -/
theorem foldl_restoreCtx : ∀ (cs : List Ctx) {s : State}, (∀ c ∈ cs, slotDemand cs c.key.core ≤ (s.slotsFree c.key.core).length) →
    (cs.foldl State.restoreCtx s).launches = s.launches ∧ ∃ is, (cs.foldl State.restoreCtx s).idents = s.idents ++ is ∧ is.map (·.uid) = cs.map (·.uid)
  | [], s, _ => ⟨rfl, [], (List.append_nil _).symm, rfl⟩
  | c :: cs, s, h => by
    have hc := h c List.mem_cons_self
    rw [slotDemand_cons, if_pos rfl] at hc
    obtain ⟨i, pair, hid, hpair, hlaunches⟩ := restoreCtx_restores (s := s) (c := c) (by omega)
    obtain ⟨hl, is, his, huids⟩ := foldl_restoreCtx cs (s := s.restoreCtx c) fun d hd => by
      have hd' := h d (List.mem_cons_of_mem _ hd)
      rw [slotDemand_cons] at hd'
      have hleft := slotsFree_le_append (core := d.key.core) hid
      have hslots : (Ident.slotsOn ⟨⟨c.key.core, i⟩, c.uid, c.launch, c.group, c.kind, pair⟩ d.key.core).length ≤
          (if c.key.core = d.key.core then if c.pair.isSome then 2 else 1 else 0) := by
        unfold Ident.slotsOn
        split
        · rw [List.length_cons]
          split at hpair <;> simp_all
        · simp
      omega
    refine ⟨hl.trans hlaunches, _ :: is, his.trans (by rw [hid, List.append_assoc]; rfl), ?_⟩
    rw [List.map_cons, List.map_cons, huids]

theorem moved_nil {l : Launch} : l.moved [] = l := by
  calc l.moved [] = { l with
          map := l.map.map id, saved := l.saved.map id, savedRegs := l.savedRegs.map id, savedWins := l.savedWins.map id } := rfl
    _ = l := by simp only [List.map_id]

/-- A saved launch as it runs again. -/
def State.resumed (s : State) (l : Launch) : Launch :=
  { l with
    st := .running, halt := none, saved := [], savedRegs := [], savedWins := [],
    timers := l.timers.map fun t => { t with since := s.tick, spent := if t.group.isSome then 0 else t.spent } }

/-- A state with a saved launch's regions and windows there again, before its contexts. -/
def State.reopened (s : State) (l : Launch) : State :=
  l.savedWins.foldl (fun (s : State) w => s.openWindow l.number w.1 (pktPw l.pkt w.1) w.2.1)
    (State.modLaunch { s with regions := s.regions ++ l.savedRegs } l.number fun _ => s.resumed l)

theorem reopened_eq {l : Launch} : ∃ ws fs, s.reopened l =
    { State.modLaunch { s with regions := s.regions ++ l.savedRegs } l.number fun _ => s.resumed l with windows := ws, fills := fs } := by
  unfold State.reopened
  refine List.foldlRecOn (motive := fun u : State => ∃ ws fs, u =
    { State.modLaunch { s with regions := s.regions ++ l.savedRegs } l.number fun _ => s.resumed l with windows := ws, fills := fs }) _ _ ⟨_, _, rfl⟩ ?_
  rintro _ ⟨ws, fs, rfl⟩ w _
  obtain ⟨ws', fs', he⟩ := openWindow_eq (s := { State.modLaunch { s with regions := s.regions ++ l.savedRegs } l.number fun _ => s.resumed l with
    windows := ws, fills := fs }) (launch := l.number) (core := w.1) (pw := pktPw l.pkt w.1) (tbase := w.2.1)
  exact ⟨ws', fs', he⟩

theorem restore_runs {l : Launch} (hl : s.launch? n = some l) (hcan : s.canRestore l [] = true) (hprio : s.highestReady (pktPrio l.pkt) = true)
    (hwins : ∀ c ∈ l.saved, ∃ w ∈ l.savedWins, w.1 = c.key.core) :
    ∃ t m, exec (.restore n []) s = .next t ∧ t.launch? n = some m ∧ m.st = .running ∧ m.saved = [] ∧ ∀ c ∈ l.saved, ∃ z ∈ t.ctxs, z.uid = c.uid := by
  have hexec : exec (.restore n []) s = .next (l.saved.foldl State.restoreCtx (s.reopened l)) := by
    change execRestore n [] s = _
    simp only [execRestore, hl, hcan, hprio, Bool.and_self, if_true, moved_nil]
    rfl
  obtain ⟨ws, fs, hopen⟩ := reopened_eq (s := s) (l := l)
  have hfits : ∀ c ∈ l.saved, slotDemand l.saved c.key.core ≤ (s.slotsFree c.key.core).length := by
    intro c hc
    obtain ⟨w, hw, hcore⟩ := hwins c hc
    unfold State.canRestore at hcan
    rw [moved_nil, Bool.and_eq_true] at hcan
    have hfit := List.all_eq_true.1 hcan.2 c.key.core (List.mem_eraseDups.2 (hcore ▸ List.mem_map_of_mem hw))
    simp only [State.restoreFits, Bool.and_eq_true, decide_eq_true_eq] at hfit
    obtain ⟨⟨_, hslots⟩, _⟩ := hfit
    exact hslots
  obtain ⟨hlaunches, is, hids, huids⟩ := foldl_restoreCtx l.saved (s := s.reopened l) fun c hc => by
    rw [hopen]
    exact hfits c hc
  refine ⟨_, s.resumed l, hexec, ?_, rfl, rfl, fun c hc => ?_⟩
  · have hn := number_of_launch? hl
    have hmod : (s.modLaunch l.number fun _ => s.resumed l).launch? n = some (s.resumed l) := by
      rw [← hn] at hl ⊢
      rw [launch?_modLaunch (n := l.number) (f := fun _ => s.resumed l) fun _ _ => rfl, hl]
      rfl
    unfold State.launch? at hmod ⊢
    rw [hlaunches, hopen]
    exact hmod
  · obtain ⟨i, hi, huid⟩ := List.mem_map.1 (huids ▸ List.mem_map_of_mem (f := Ctx.uid) hc)
    have hin : i ∈ (l.saved.foldl State.restoreCtx (s.reopened l)).idents := hids ▸ List.mem_append_right _ hi
    obtain ⟨z, hz, rfl⟩ := List.mem_map.1 hin
    exact ⟨z, hz, huid⟩

/-- Settles O58: a save takes every context of the launch from the cores, a restore starts each again in a free slot of its core, and the
watchdog is a save followed by an abort. -/
theorem preemptionSaves : Obligations.PreemptionSaves := by
  unfold Obligations.PreemptionSaves
  refine ⟨fun s n l hl hst hd htake => ⟨fun hmay => ?_, watchdogFire_aborts hl hst hd htake⟩, fun s n l hl hcan hprio hwins =>
    restore_runs hl hcan hprio hwins⟩
  have hexec : exec (.preemption n) s = .next (s.preempt n 1) := by
    change execPreemption n s = _
    simp [execPreemption, hl, hmay]
  obtain ⟨⟨m, hm, hmst, hkeys, hregs⟩, hctxs, hregions, hwindows⟩ := preempt_saves (why := 1) hl hst hd htake
  exact ⟨_, m, hexec, hm, hmst, hctxs, hregions, hwindows, hkeys, hregs⟩

end Sys2Proof.Machine
end

section
namespace Sys2Proof.Machine
open Rules
variable {s t : State}

/-! ## A machine check of a home slice, and the stamp that it makes due (R60, R228, R377)

A machine check takes a dirty line from its home slice and aborts the launches of the line's PASID, one that still waits for dispatch too.
The abort of a waiting launch writes its stamp at once. The stamp may lie in the very line that was lost: its write then brings the line
into the slice again. -/

/-- A write to device memory leaves its line in the home slice. -/
theorem enterL2_write_mem {pasid : Option (BitVec 20)} {d : Nat} : ∃ y ∈ (s.enterL2 pasid true (.dev d)).l2, y.line = d / 128 := by
  unfold State.enterL2
  dsimp only
  split
  · next x hx =>
    have hline := List.find?_some hx
    refine ⟨_, List.mem_map_of_mem (List.mem_of_find?_eq_some hx), ?_⟩
    rw [if_pos hline]
  · exact ⟨_, List.mem_cons_self, rfl⟩

theorem putHomes_dev_eq : ∀ (bs : List Byte) {q : Nat} {s : State}, ∃ m, s.putHomes (.dev q) bs = { s with dev := m }
  | [], _, _ => ⟨_, rfl⟩
  | b :: bs, q, s => by
    obtain ⟨m, h⟩ := putHomes_dev_eq bs (q := q + 1) (s := s.putHome b (.dev q))
    exact ⟨m, h⟩

theorem homeWrite_mem_l2 {pasid : Option (BitVec 20)} {d : Nat} {bs : List Byte} : ∃ y ∈ (s.homeWrite pasid (.dev d) bs).l2, y.line = d / 128 := by
  obtain ⟨m, h⟩ := putHomes_dev_eq bs (q := d) (s := s.enterL2 pasid true (.dev d))
  unfold State.homeWrite
  rw [h]
  exact enterL2_write_mem

theorem stampNotify_l2 {x : Stamp} {w : StampWrite} : (s.stampNotify x w).l2 = s.l2 := by
  unfold State.stampNotify
  split <;> rfl

/-- A packet with an address at STAMP, and 0 elsewhere (R51). -/
def pktWithStamp (va : DWord) : BitVec 1536 := BitVec.ofNat 1536 (va.toNat * 256 ^ 0x28)

theorem pktStamp_pktWithStamp {va : DWord} : pktStamp (pktWithStamp va) = va := by
  have hlt : va.toNat * 256 ^ 0x28 < 2 ^ 1536 := calc
    va.toNat * 256 ^ 0x28 < 2 ^ 64 * 256 ^ 0x28 := Nat.mul_lt_mul_of_pos_right va.isLt (Nat.pow_pos (by decide))
    _ = 2 ^ (64 + 8 * 0x28) := by rw [show 256 = 2 ^ 8 by rfl, ← Nat.pow_mul, ← Nat.pow_add]
    _ ≤ 2 ^ 1536 := Nat.pow_le_pow_right (by decide) (by decide)
  rw [pktStamp, pktField, pktWithStamp, BitVec.toNat_ofNat, Nat.mod_eq_of_lt hlt, Nat.mul_div_cancel _ (Nat.pow_pos (by decide)),
    Nat.mod_eq_of_lt (Nat.lt_of_lt_of_le va.isLt (by decide)), BitVec.ofNat_toNat, BitVec.setWidth_eq]

section
variable {pkt : BitVec 1536} {m : Mem} {rs : List Report}

/-- A package in which the first line of device memory is dirty in its home slice, by the PASID of a launch that waits for dispatch. -/
def lineDirty (pkt : BitVec 1536) : State := { State.reset with
  l2 := [⟨0, some 5, true, 0⟩],
  pending := [⟨0, 7, pkt, .host 0 0, 5, true, [], [], [], false⟩],
  stamps := [⟨0, pkt, .host 0 0, 5, 7, [], [], [], 1, false, false⟩] }

/-- The package with the line lost, and the launch no longer waiting. -/
def lineLost (pkt : BitVec 1536) (m : Mem) (rs : List Report) : State := { lineDirty pkt with l2 := [], dev := m, reports := rs, pending := [] }

theorem machineCheck_lineDirty : ∃ m rs, exec (.machineCheck .slice 5 0) (lineDirty pkt) = .next ((lineLost pkt m rs).pushStamp 0 5 Code.memue.byte 7) := by
  obtain ⟨m, h⟩ := putHomes_dev_eq (lineBytes 0) (q := 0) (s := { lineDirty pkt with l2 := [] })
  have hcheck : exec (.machineCheck .slice 5 0) (lineDirty pkt) = .next (({ { lineDirty pkt with l2 := [] }.putHomes (.dev 0) (lineBytes 0) with
      reports := ({ lineDirty pkt with l2 := [] }.putHomes (.dev 0) (lineBytes 0)).reports ++ [Report.machineCheck (.dev 0)] }.recordBank
        (sliceCacheBank 0)).killPasid 5 .memue) := rfl
  rw [hcheck, h]
  exact ⟨m, _, rfl⟩

/-- The stamp's address is the first of device memory, in the domain aperture (R215). -/
theorem lineLost_resolve (hstamp : pktStamp pkt = 0x100000000000000) :
    (lineLost pkt m rs).resolve (serviceAccessor (Source.host 0 0).die 7 5 []) (pktStamp pkt) 16 16 .store = .ok (.dev 0) := by
  rw [hstamp]
  rfl

/-- The line of the stamp is in the slice again. -/
theorem pushStamp_lineLost (hstamp : pktStamp pkt = 0x100000000000000) :
    ∃ y ∈ ((lineLost pkt m rs).pushStamp 0 5 Code.memue.byte 7).l2, y.line = 0 := by
  obtain ⟨ts, h⟩ := pushStamp_performed (s := lineLost pkt m rs) (order := 0) (state := 5) (code := Code.memue.byte) (num := 7) (p := .dev 0)
    rfl rfl rfl rfl (show 1 < 5 by decide) (lineLost_resolve hstamp) rfl rfl rfl
  obtain ⟨y, hy, hline⟩ := homeWrite_mem_l2 (s := (lineLost pkt m rs).snoopLine (.dev 0)) (pasid := none) (d := 0)
    (bs := leBytes (StampWrite.word ⟨5, Code.memue.byte, 7, (lineLost pkt m rs).tick⟩).toNat 8 ++ leBytes (lineLost pkt m rs).tick 8)
  refine ⟨y, ?_, hline⟩
  rw [h]
  change y ∈ (State.stampNotify _ _ _).l2
  rw [stampNotify_l2]
  exact hy

end

/-- Refutes O55: a machine check of a dirty line of a home slice does not keep the line out of the slice, for the abort of a waiting launch
of the line's PASID writes that launch's stamp, which may lie in the line. -/
theorem not_linksAndErrors : ¬ Obligations.LinksAndErrors := by
  unfold Obligations.LinksAndErrors
  rintro ⟨_, _, _, _, _, hslice, _⟩
  obtain ⟨t, hexec, hdirty, _⟩ := hslice (lineDirty (pktWithStamp 0x100000000000000)) 5 0 ⟨0, some 5, true, 0⟩ rfl
  obtain ⟨m, rs, hcheck⟩ := machineCheck_lineDirty (pkt := pktWithStamp 0x100000000000000)
  obtain ⟨_, hgone, _⟩ := hdirty rfl
  obtain ⟨y, hy, hline⟩ := pushStamp_lineLost (m := m) (rs := rs) pktStamp_pktWithStamp
  have ht : t = (lineLost (pktWithStamp 0x100000000000000) m rs).pushStamp 0 5 Code.memue.byte 7 :=
    Host.Outcome.next.inj (hexec.symm.trans hcheck)
  exact hgone y (ht ▸ hy) hline

end Sys2Proof.Machine
end

section
namespace Sys2Proof.Machine
open Rules
variable {a s t u : State} {P Q : CtxKey → Bool} {iss : Issue} {c d e y : Ctx} {k : CtxKey} {r : Reg} {x : Word}

/-! ## Instructions of one uniform result -/

/-- Two architectural states with the same s and a registers and the same lanes. -/
structure Arch.SameRegs (x y : Arch) : Prop where
  s : y.s = x.s
  a : y.a = x.a
  lanes : y.lanes = x.lanes

theorem Arch.SameRegs.rfl {x : Arch} : x.SameRegs x := ⟨Eq.refl _, Eq.refl _, Eq.refl _⟩

theorem Arch.SameRegs.trans {x y z : Arch} (h : x.SameRegs y) (h' : y.SameRegs z) : x.SameRegs z :=
  ⟨h'.s.trans h.s, h'.a.trans h.a, h'.lanes.trans h.lanes⟩

theorem Ctx.Kept.sameRegs (h : c.Kept P d) : c.arch.SameRegs d.arch := ⟨h.arch_s, h.arch_a, h.arch_lanes⟩

/-- A destination of the s file is an s register. -/
theorem Reg.eq_s_of_uniform (h : (regType r == .uniform) = true) : ∃ i, r = .s i := by
  cases r with
  | s i => exact ⟨i, rfl⟩
  | _ => simp [regType] at h

/-- An instruction that writes its uniform result and goes on gives it. -/
theorem gives_of_sameRegs (hr : (regType r == .uniform) = true) {ar : Arch} (h : c.arch.SameRegs ar)
    (h' : ((ar.writeS r x).advance iss).SameRegs y.arch) : gives c y iss r x := by
  obtain ⟨i, rfl⟩ := Reg.eq_s_of_uniform hr
  refine ⟨⟨i, rfl, ?_⟩, ?_, ?_⟩
  · rw [h'.s, ← h.s]
    exact Arch.goto_s ..
  · rw [h'.a, ← h.a]
    exact Arch.goto_a ..
  · rw [h'.lanes, Arch.advance_lanes]
    exact pcs_lanes_congr h.lanes

theorem gives_of_kept (h : gives c d iss r x) (hk : d.Kept P y) : gives c y iss r x := by
  obtain ⟨⟨i, hi, hs⟩, ha, hl⟩ := h
  exact ⟨⟨i, hi, hk.arch_s.trans hs⟩, hk.arch_a.trans ha, hk.arch_lanes.trans hl⟩

/-- A context that gives a uniform result and goes on. -/
def Ctx.replied (c : Ctx) (iss : Issue) (r : Reg) (x : Word) : Ctx := { c with arch := (c.arch.writeS r x).advance iss }

/-- The issuing context's uniform result, and the next instruction. -/
def State.reply (s : State) (iss : Issue) (r : Reg) (x : Word) : State := s.modCtx iss.key fun c => c.replied iss r x

theorem reply_ctx? (hc : s.ctx? iss.key = some c) : (s.reply iss r x).ctx? iss.key = some (c.replied iss r x) :=
  ctx?_modCtx_some (f := fun c => c.replied iss r x) (fun _ => rfl) hc

/-- Where a result leaves its context, after memory operations and before others. -/
theorem reply_gives (hr : (regType r == .uniform) = true) (hst : c.st = .live) (hk : c.Kept P d)
    (hy : (d.replied iss r x).Kept Q y) : y.st = c.st ∧ gives c y iss r x ∧ y.away = c.away ∧ y.arch.mark = c.arch.mark := by
  have hdst : d.st = c.st := hk.st_eq (by rw [hst]; rfl)
  have hyst : y.st = d.st := hy.st_eq (by change d.st.wakes = false; rw [hdst, hst]; rfl)
  refine ⟨hyst.trans hdst, gives_of_sameRegs hr hk.sameRegs hy.sameRegs, hy.away.trans hk.away, ?_⟩
  have hmark : y.arch.mark = (d.replied iss r x).arch.mark := (congrArg Arch.mark hy.arch :)
  have hwrite : (d.arch.writeS r x).mark = d.arch.mark := by
    obtain ⟨i, rfl⟩ := Reg.eq_s_of_uniform hr
    rfl
  exact hmark.trans ((Arch.goto_mark ..).trans (hwrite.trans (congrArg Arch.mark hk.arch :)))

/-- An instruction whose result follows memory operations alone. -/
theorem reply_retire (hr : (regType r == .uniform) = true) (hc : s.ctx? iss.key = some c) (hst : c.st = .live) (h : MemRun P s u) :
    ∃ y, ((u.reply iss r x).retire iss.key).ctx? iss.key = some y ∧ y.st = c.st ∧ gives c y iss r x ∧ y.away = c.away := by
  obtain ⟨d, hd, hk⟩ := h.ctx? hc
  obtain ⟨y, hy, hk'⟩ := ctx?_retire (P := fun _ => false) (reply_ctx? (iss := iss) (r := r) (x := x) hd)
  obtain ⟨hyst, hgives, haway, _⟩ := reply_gives hr hst hk hk'
  exact ⟨y, hy, hyst, hgives, haway⟩

/-! ## MIGRATE (R88, R112) -/

/-- What MIGRATE comes to in the context of a thread. -/
def State.migrated (s : State) (home : Bool) (iss : Issue) (c : Ctx) (r : Reg) : State :=
  if home then
    if c.away then (s.reply iss r 0).comeHome iss.key else ((s.flushStreams iss.key).checkpoint iss.key).reply iss r 0
  else if c.away then s.reply iss r 0
  else if !s.enabled (boardReckoner (boardNo c.key.core)) then (s.release iss.key .dev).reply iss r 2
  else if Config.awayMax ≤ s.awayCount (boardNo c.key.core) then (s.release iss.key .dev).reply iss r 1
  else (s.reply iss r 0).goAway iss.key

theorem migrateOp_of_ready {home : Bool} (hk : c.kind = .rod) (h : Ready s iss c ⟨[], [r], []⟩ (regType r == .uniform) true [] []) :
    s.migrateOp home r = .next ((s.migrated home iss c r).retire iss.key) := by
  have hkey : c.key = iss.key := State.ctx?_key h.issuing.ctx
  refine (withIssue_of_issuing h.issuing _).trans ?_
  rw [if_neg (by simp [hk]), guarded_of _ h.names h.typed h.whole, State.migrated, hkey]
  dsimp only
  split
  · split <;> rfl
  · split
    · rfl
    · split
      · rfl
      · split <;> rfl

/-- A thread that moves to its reckoner (R88). -/
def Ctx.gone (c : Ctx) (place : Nat) (tbase : DWord) : Ctx := { c with away := true, place := some place, arch := { c.arch with tbase := tbase } }

theorem goAway_ctx? (hr : (regType r == .uniform) = true) (hc : s.ctx? iss.key = some c) (hst : c.st = .live) :
    ∃ y, (((s.reply iss r 0).goAway iss.key).retire iss.key).ctx? iss.key = some y ∧ y.st = c.st ∧ gives c y iss r 0 ∧ y.away = true := by
  obtain ⟨d, hd, hk⟩ := (release_memRun (P := fun _ => false) (k := iss.key) (sc := .dev) rfl .rfl).ctx? (reply_ctx? (r := r) (x := 0) hc)
  obtain ⟨hdst, _, _, _⟩ := reply_gives hr hst (Ctx.Kept.rfl (P := fun _ => false)) hk
  obtain ⟨y, hy, hk'⟩ := ctx?_retire (P := fun _ => false) (s := (s.reply iss r 0).goAway iss.key)
    (ctx?_modCtx_some (f := fun c => c.gone _ (State.tbaseOf _ c)) (fun _ => rfl) hd)
  have hregs : d.arch.SameRegs y.arch := ⟨hk'.arch_s, hk'.arch_a, hk'.arch_lanes⟩
  refine ⟨y, hy, (hk'.st_eq ?_).trans hdst, gives_of_sameRegs hr .rfl (hk.sameRegs.trans hregs), hk'.away⟩
  change d.st.wakes = false
  rw [hdst, hst]
  rfl

/-- A thread that is back on its rod, behind its release and acquire (R88). -/
def State.landHome (s : State) (k : CtxKey) : State :=
  ((s.release k .dev).modCtx k fun c => { c with away := false, place := none, ckpt := [c.arch], retired := 0 }).acquireMem k .dev

theorem comeHome_eq : s.comeHome k = match (s.landHome k).ctx? k, ((s.landHome k).ctx? k).bind fun c => (s.landHome k).window? c.launch k.core with
    | some c, some w => if w.tbase = c.arch.tbase then s.landHome k else (s.landHome k).moveWindow k c.launch k.core c.arch.tbase
    | _, _ => s.landHome k := rfl

/-- Where a thread lands: as it left, but home, and the windows are as they were. -/
theorem landHome_ctx? (hr : (regType r == .uniform) = true) (hc : s.ctx? iss.key = some c) (hst : c.st = .live) :
    (∃ y, ((s.reply iss r 0).landHome iss.key).ctx? iss.key = some y ∧ y.st = .live ∧ gives c y iss r 0 ∧ y.away = false ∧
      y.launch = c.launch ∧ y.arch.tbase = c.arch.tbase) ∧ ((s.reply iss r 0).landHome iss.key).windows = s.windows := by
  have hrel : MemRun (fun _ => false) (s.reply iss r 0) ((s.reply iss r 0).release iss.key .dev) := release_memRun rfl .rfl
  obtain ⟨d, hd, hk⟩ := hrel.ctx? (reply_ctx? (r := r) (x := 0) hc)
  obtain ⟨hdst, hgives, _, _⟩ := reply_gives hr hst (Ctx.Kept.rfl (P := fun _ => false)) hk
  have hacq : MemRun (fun _ => false) (((s.reply iss r 0).release iss.key .dev).modCtx iss.key fun c =>
      { c with away := false, place := none, ckpt := [c.arch], retired := 0 }) ((s.reply iss r 0).landHome iss.key) := acquireMem_memRun rfl .rfl
  obtain ⟨y, hy, hk'⟩ := hacq.ctx? (ctx?_modCtx_some (f := fun c => { c with away := false, place := none, ckpt := [c.arch], retired := 0 })
    (fun _ => rfl) hd)
  have hregs : d.arch.SameRegs y.arch := ⟨hk'.arch_s, hk'.arch_a, hk'.arch_lanes⟩
  refine ⟨⟨y, hy, (hk'.st_eq ?_).trans (hdst.trans hst), gives_of_sameRegs hr .rfl (hk.sameRegs.trans hregs), hk'.away,
    hk'.launch.trans hk.launch, ?_⟩, hacq.windows.trans hrel.windows⟩
  · change d.st.wakes = false
    rw [hdst, hst]
    rfl
  · have htb : y.arch.tbase = (c.replied iss r 0).arch.tbase := (congrArg Arch.tbase hk'.arch :).trans (congrArg Arch.tbase hk.arch :)
    obtain ⟨i, rfl⟩ := Reg.eq_s_of_uniform hr
    exact htb.trans (Arch.goto_tbase ..)

theorem requestFill_ctxs {launch : Word} {core : CoreId} {tbase : DWord} : (s.requestFill launch core tbase).ctxs = s.ctxs := by
  unfold State.requestFill
  split
  · rfl
  · dsimp only
    split <;> rfl

/-- A fill of a window that is asked for is pending, and the window shows the text that it is to show (R110). -/
theorem requestFill_pending {launch : Word} {core : CoreId} {tbase : DWord} {w : Window} (hw : s.window? launch core = some w) :
    ∃ v, (s.requestFill launch core tbase).window? launch core = some v ∧ v.tbase = tbase ∧
      (s.requestFill launch core tbase).fillPending launch core = true := by
  have hwin : (s.modWindow launch core fun w => { w with tbase := tbase }).window? launch core = some { w with tbase := tbase } := by
    have hw' : (s.windows.find? fun w => w.launch == launch && w.core == core) = some w := hw
    have htest := List.find?_some hw'
    have hmap : ∀ v : Window, ((if v.launch == launch && v.core == core then { v with tbase := tbase } else v).launch == launch &&
        (if v.launch == launch && v.core == core then { v with tbase := tbase } else v).core == core) = (v.launch == launch && v.core == core) := by
      intro v
      split <;> rfl
    simp only [State.window?, State.modWindow, List.find?_map, Function.comp_def, hmap, hw', Option.map_some]
    rw [if_pos htest]
  unfold State.requestFill
  rw [hw]
  dsimp only
  split
  · next hany =>
    refine ⟨_, hwin, rfl, ?_⟩
    obtain ⟨f, hf, hsame⟩ := List.any_eq_true.1 hany
    refine List.any_eq_true.2 ⟨_, List.mem_map_of_mem hf, ?_⟩
    by_cases hin : f.joined.contains (launch, core) = true
    · simp only [hsame, hin, Bool.not_true, Bool.and_false, Bool.false_eq_true, if_false]
    · simp only [hsame, hin, Bool.not_false, Bool.and_true, if_true]
      simp
  · exact ⟨_, hwin, rfl, by simp [State.fillPending]⟩

/-- What a thread that has landed does with its window. -/
theorem comeHome_of_landed (hy : (s.landHome k).ctx? k = some y) :
    s.comeHome k = match (s.landHome k).window? y.launch k.core with
      | some w => if w.tbase = y.arch.tbase then s.landHome k else (s.landHome k).moveWindow k y.launch k.core y.arch.tbase
      | none => s.landHome k := by
  rw [comeHome_eq, hy]
  cases h : (s.landHome k).window? y.launch k.core with
  | some w => simp only [Option.bind_some, h]
  | none => simp only [Option.bind_some, h]

section
variable (hr : (regType r == .uniform) = true) (hc : s.ctx? iss.key = some c) (hst : c.st = .live)
include hr hc hst

/-- A thread that lands where its window shows what it did goes on (R88, R112). -/
theorem comeHome_stays (hw : ∀ w, s.window? c.launch c.key.core = some w → w.tbase = c.arch.tbase) :
    ∃ y, (((s.reply iss r 0).comeHome iss.key).retire iss.key).ctx? iss.key = some y ∧ y.st = c.st ∧ gives c y iss r 0 ∧ y.away = false := by
  obtain ⟨⟨y, hy, hyst, hgives, haway, hl, htb⟩, hwins⟩ := landHome_ctx? (iss := iss) (r := r) hr hc hst
  have hhome : (s.reply iss r 0).comeHome iss.key = (s.reply iss r 0).landHome iss.key := by
    rw [comeHome_of_landed hy]
    split
    · next w hwin =>
      refine if_pos ((hw w ?_).trans htb.symm)
      rwa [State.window?, hwins, hl, ← State.ctx?_key hc] at hwin
    · rfl
  rw [hhome]
  obtain ⟨z, hz, hk⟩ := ctx?_retire (P := fun _ => false) hy
  exact ⟨z, hz, (hk.st_eq (by rw [hyst]; rfl)).trans (hyst.trans hst.symm), gives_of_kept hgives hk, hk.away.trans haway⟩

/-- A thread that lands where its window shows another text moves the window back, and waits for its fill (R88, R112). -/
theorem comeHome_moves {w : Window} (hw : s.window? c.launch c.key.core = some w) (hne : w.tbase ≠ c.arch.tbase) :
    ∃ y v, (((s.reply iss r 0).comeHome iss.key).retire iss.key).ctx? iss.key = some y ∧ y.st = .parked .fill ∧ gives c y iss r 0 ∧
      y.away = false ∧ (((s.reply iss r 0).comeHome iss.key).retire iss.key).window? c.launch c.key.core = some v ∧ v.tbase = c.arch.tbase ∧
      (((s.reply iss r 0).comeHome iss.key).retire iss.key).fillPending c.launch c.key.core = true := by
  obtain ⟨⟨y, hy, hyst, hgives, haway, hl, htb⟩, hwins⟩ := landHome_ctx? (iss := iss) (r := r) hr hc hst
  have hwin : ((s.reply iss r 0).landHome iss.key).window? c.launch c.key.core = some w := by rwa [State.window?, hwins]
  have hkey : c.key = iss.key := State.ctx?_key hc
  have hwin' : ((s.reply iss r 0).landHome iss.key).window? c.launch iss.key.core = some w := hkey ▸ hwin
  have hhome : (s.reply iss r 0).comeHome iss.key = (((s.reply iss r 0).landHome iss.key).requestFill c.launch c.key.core c.arch.tbase).modCtx
      iss.key fun c => { c with st := .parked .fill } := by
    rw [comeHome_of_landed hy, hl, htb, hkey, hwin']
    dsimp only
    rw [if_neg hne, State.moveWindow, hwin']
    rfl
  obtain ⟨v, hv, hvtb, hfill⟩ := requestFill_pending (tbase := c.arch.tbase) hwin
  have hreq : (((s.reply iss r 0).landHome iss.key).requestFill c.launch c.key.core c.arch.tbase).ctx? iss.key = some y := by
    rw [State.ctx?, requestFill_ctxs]
    exact hy
  have hpark := ctx?_modCtx_some (f := fun c => { c with st := .parked .fill }) (fun _ => rfl) hreq
  rw [hhome, retire_of_parked hpark (by simp)]
  exact ⟨_, v, hpark, rfl, hgives, haway, hv, hvtb, hfill⟩

end

/-! ### Each form -/

section
variable (hk : c.kind = .rod) (h : Ready s iss c ⟨[], [r], []⟩ (regType r == .uniform) true [] [])
include hk h

/-- MIGRATE.RK gives 0 where the thread is there or moves, 2 where the reckoner is not enabled, and 1 where it is full. -/
theorem exec_migrateRk : ∃ t y x, exec (.migrateRk r) s = .next t ∧ t.ctx? iss.key = some y ∧ y.st = c.st ∧ gives c y iss r x ∧
    (c.away = true → x = 0 ∧ y.away = true) ∧
    (c.away = false → s.enabled (boardReckoner (boardNo c.key.core)) = false → x = 2 ∧ y.away = false) ∧
    (c.away = false → s.enabled (boardReckoner (boardNo c.key.core)) = true → 256 ≤ s.awayCount (boardNo c.key.core) → x = 1 ∧ y.away = false) ∧
    (c.away = false → s.enabled (boardReckoner (boardNo c.key.core)) = true → s.awayCount (boardNo c.key.core) < 256 → x = 0 ∧ y.away = true) := by
  have hc := h.issuing.ctx
  have hst := h.issuing.ready
  have hrel : MemRun (fun _ => false) s (s.release iss.key .dev) := release_memRun rfl .rfl
  have hexec : exec (.migrateRk r) s = _ := migrateOp_of_ready (home := false) hk h
  rw [State.migrated, if_neg (by simp)] at hexec
  by_cases haway : c.away = true
  · obtain ⟨y, hy, hyst, hg, hya⟩ := reply_retire (x := 0) h.typed hc hst (MemRun.rfl (P := fun _ => false))
    rw [if_pos haway] at hexec
    exact ⟨_, y, 0, hexec, hy, hyst, hg, fun _ => ⟨rfl, hya.trans haway⟩, by simp [haway], by simp [haway], by simp [haway]⟩
  · rw [if_neg haway] at hexec
    rw [Bool.not_eq_true] at haway
    by_cases hen : s.enabled (boardReckoner (boardNo c.key.core)) = true
    · rw [if_neg (by simp [hen])] at hexec
      by_cases hfull : Config.awayMax ≤ s.awayCount (boardNo c.key.core)
      · obtain ⟨y, hy, hyst, hg, hya⟩ := reply_retire (x := 1) h.typed hc hst hrel
        rw [if_pos hfull] at hexec
        exact ⟨_, y, 1, hexec, hy, hyst, hg, by simp [haway], by simp [hen], fun _ _ _ => ⟨rfl, hya.trans haway⟩,
          fun _ _ hlt => absurd hfull (Nat.not_le.2 hlt)⟩
      · obtain ⟨y, hy, hyst, hg, hya⟩ := goAway_ctx? h.typed hc hst
        rw [if_neg hfull] at hexec
        exact ⟨_, y, 0, hexec, hy, hyst, hg, by simp [haway], by simp [hen], fun _ _ hle => absurd hle hfull, fun _ _ _ => ⟨rfl, hya⟩⟩
    · obtain ⟨y, hy, hyst, hg, hya⟩ := reply_retire (x := 2) h.typed hc hst hrel
      rw [if_pos (by simp [hen])] at hexec
      exact ⟨_, y, 2, hexec, hy, hyst, hg, by simp [haway], fun _ _ => ⟨rfl, hya.trans haway⟩, fun _ h => absurd h hen, fun _ h => absurd h hen⟩

/-- MIGRATE.HM of a thread that is home, or whose window at home shows its text, gives 0. -/
theorem exec_migrateHm_stays (hw : c.away = false ∨ ∀ w, s.window? c.launch c.key.core = some w → w.tbase = c.arch.tbase) :
    ∃ t y, exec (.migrateHm r) s = .next t ∧ t.ctx? iss.key = some y ∧ y.st = c.st ∧ gives c y iss r 0 ∧ y.away = false := by
  have hexec : exec (.migrateHm r) s = _ := migrateOp_of_ready (home := true) hk h
  rw [State.migrated, if_pos rfl] at hexec
  by_cases haway : c.away = true
  · rw [if_pos haway] at hexec
    obtain ⟨y, hy⟩ := comeHome_stays h.typed h.issuing.ctx h.issuing.ready (hw.resolve_left (by simp [haway]))
    exact ⟨_, y, hexec, hy⟩
  · rw [if_neg haway] at hexec
    obtain ⟨y, hy, hyst, hg, hya⟩ := reply_retire (x := 0) h.typed h.issuing.ctx h.issuing.ready
      (checkpoint_memRun (P := fun _ => false) (k := iss.key) rfl (flushStreams_memRun (k := iss.key) rfl .rfl))
    exact ⟨_, y, hexec, hy, hyst, hg, hya.trans (Bool.not_eq_true _ ▸ haway)⟩

/-- MIGRATE.HM of a thread whose window at home shows another text moves the window back and waits for its fill. -/
theorem exec_migrateHm_moves (haway : c.away = true) {w : Window} (hw : s.window? c.launch c.key.core = some w) (hne : w.tbase ≠ c.arch.tbase) :
    ∃ t y v, exec (.migrateHm r) s = .next t ∧ t.ctx? iss.key = some y ∧ y.st = .parked .fill ∧ gives c y iss r 0 ∧ y.away = false ∧
      t.window? c.launch c.key.core = some v ∧ v.tbase = c.arch.tbase ∧ t.fillPending c.launch c.key.core = true := by
  have hexec : exec (.migrateHm r) s = _ := migrateOp_of_ready (home := true) hk h
  rw [State.migrated, if_pos rfl, if_pos haway] at hexec
  obtain ⟨y, v, hy⟩ := comeHome_moves h.typed h.issuing.ctx h.issuing.ready hw hne
  exact ⟨_, y, v, hexec, hy⟩

end

/-! ## YIELD (R89) -/

/-- The other ready contexts of a context's core. -/
def State.othersReady (s : State) (c : Ctx) : List CtxKey :=
  (s.ctxs.filter fun x => x.core == c.core && x.key != c.key && s.ready x).map (·.key)

theorem mem_othersReady : k ∈ s.othersReady c ↔ k ≠ c.key ∧ ∃ x ∈ s.ctxs, x.key = k ∧ x.core = c.core ∧ s.ready x = true := by
  simp only [State.othersReady, List.mem_map, List.mem_filter, Bool.and_eq_true, beq_iff_eq, bne_iff_ne]
  constructor
  · rintro ⟨x, ⟨hx, ⟨hcore, hne⟩, hready⟩, rfl⟩
    exact ⟨hne, x, hx, rfl, hcore, hready⟩
  · rintro ⟨hne, x, hx, rfl, hcore, hready⟩
    exact ⟨x, ⟨hx, ⟨hcore, hne⟩, hready⟩, rfl⟩

/-- A context that goes on, but for others first. -/
def Ctx.yieldedTo (c : Ctx) (iss : Issue) (ks : List CtxKey) : Ctx := { c with arch := c.arch.advance iss, yielded := ks }

theorem exec_yield (h : Issuing s iss c) : ∃ t y, exec .yield s = .next t ∧ t.ctx? iss.key = some y ∧ y.st = c.st ∧ y.arch.s = c.arch.s ∧
    wentOn c y iss ∧ y.yielded = s.othersReady c := by
  have hkey : c.key = iss.key := State.ctx?_key h.ctx
  have hset : (s.setCtx (c.yieldedTo iss (s.othersReady c))).ctx? c.key = some (c.yieldedTo iss (s.othersReady c)) :=
    State.ctx?_setCtx_same (c := c.yieldedTo iss (s.othersReady c)) (hkey ▸ h.ctx)
  rw [hkey] at hset
  obtain ⟨y, hy, hk⟩ := ctx?_retire (P := fun _ => false) hset
  refine ⟨_, y, withIssueQuiet_of_issuing h _, hy, hk.st_eq ?_, hk.arch_s.trans (Arch.goto_s ..),
    ⟨hk.arch_a.trans (Arch.goto_a ..), hk.arch_lanes.trans Arch.advance_lanes⟩, (congrArg Ctx.yielded hk.still :)⟩
  exact congrArg CtxState.wakes h.ready

/-- Settles O51: each move of a thread is its result between memory operations, which keep it, and YIELD's list is the core's other ready
contexts. -/
theorem threadsMove : Obligations.ThreadsMove := by
  unfold Obligations.ThreadsMove
  refine fun s iss c => ⟨fun r hk h => ⟨exec_migrateRk hk h, exec_migrateHm_stays hk h, fun haway w hw hne => exec_migrateHm_moves hk h haway hw hne⟩,
    fun h => ?_⟩
  obtain ⟨t, y, hexec, hy, hst, hs, hon, hyield⟩ := exec_yield h
  exact ⟨t, y, hexec, hy, hst, hs, hon, fun k => by rw [hyield, mem_othersReady, State.ctx?_key h.ctx]⟩

end Sys2Proof.Machine
end

section
namespace Sys2Proof.Machine
open Rules
variable {a s t u : State} {P Q : CtxKey → Bool} {iss : Issue} {c d y z : Ctx} {k : CtxKey} {core : CoreId} {n : Word}

/-! ## The live set, and where a thread that gets its answer goes on -/

theorem Ctx.Kept.uh (h : c.Kept P d) : d.arch.uh = c.arch.uh := (congrArg Arch.uh h.arch :)
theorem Ctx.Kept.overlay (h : c.Kept P d) : d.arch.overlay = c.arch.overlay := (congrArg Arch.overlay h.arch :)
theorem Ctx.Kept.trapSet (h : c.Kept P d) : d.arch.trapSet = c.arch.trapSet := (congrArg Arch.trapSet h.arch :)

theorem Arch.liveMask_congr {x y : Arch} (h : y.lanes = x.lanes) : y.liveMask = x.liveMask := by
  unfold Arch.liveMask Arch.lane
  rw [h]

theorem Ctx.Kept.liveSet (h : c.Kept P d) : d.liveSet = c.liveSet := by
  simp only [Ctx.liveSet, h.kind, h.uh, h.overlay, h.trapSet, Arch.liveMask_congr h.arch_lanes]

/-- Where lanes are after they went to a PC depends on the lanes alone. -/
theorem Arch.goto_lanes_congr {x y : Arch} {m : BitVec 64} {pc : DWord} (h : y.lanes = x.lanes) : (y.goto m pc).lanes = (x.goto m pc).lanes := by
  rw [Arch.goto_lanes, Arch.goto_lanes]
  exact pcs_lanes_congr h

/-- The context of a SPAWN with its answer. -/
def Ctx.spawnAnswered (c : Ctx) (p : Pair) (next : DWord) (status value : Word) : Ctx :=
  { c with st := .live, arch := (c.arch.setPair 0 p (value ++ status)).goto c.liveSet next }

/-- The answer of a SPAWN in its pair, and the lanes behind it (R82). -/
theorem spawnReply_ctx? {p : Fin 32} {next : DWord} {status value : Word} (hc : s.ctx? k = some c) :
    ∃ y, (s.spawnReply k (.s p) next status value).ctx? k = some y ∧ y.st = .live ∧ pairAt y.arch 0 (.s p) = value ++ status ∧
      y.arch.lanes = (c.arch.goto c.liveSet next).lanes := by
  have hmod := ctx?_modCtx_some (f := fun c => c.spawnAnswered (.s p) next status value) (fun _ => rfl) hc
  obtain ⟨y, hy, hk⟩ := (checkpoint_memRun (P := fun _ => false) (k := k) rfl .rfl).ctx? hmod
  refine ⟨y, hy, hk.st_eq rfl, ?_, hk.arch_lanes.trans (Arch.goto_lanes_congr (by rw [Arch.setPair_s]))⟩
  have hs : y.arch.s = (c.arch.setPair 0 (.s p) (value ++ status)).s := hk.arch_s.trans (Arch.goto_s ..)
  exact (pairAt_s_congr hs).trans pairAt_setPair_s

theorem MemRun.spawnQ (h : MemRun P s t) : t.spawnQ = s.spawnQ := (congrArg State.spawnQ h.rest :)
theorem MemRun.disabled (h : MemRun P s t) : t.disabled = s.disabled := (congrArg State.disabled h.rest :)

theorem MemRun.enabled (h : MemRun P s t) : t.enabled core = s.enabled core := by rw [State.enabled, State.enabled, h.disabled]

theorem spawnReply_spawnQ {p : Pair} {next : DWord} {status value : Word} : (s.spawnReply k p next status value).spawnQ = s.spawnQ :=
  (checkpoint_memRun (P := fun _ => false) (k := k) rfl .rfl).spawnQ

/-! ## SPAWN (R82) -/

section
variable {p : Fin 32} {i : Fin 64} {b e : SPair}

/-- Whether a SPAWN finds no rod that takes its message: no enabled rod, or the odd one of a lock-step pair (R82). -/
def State.badCore (s : State) (c : Ctx) (core : CoreId) : Bool :=
  !(isRod core && s.enabled core) || (pktLockstep (s.pktOf c.launch) && coreSlot core % 2 == 1)

theorem MemRun.badCore (h : MemRun P s t) : t.badCore c core = s.badCore c core := by
  simp only [State.badCore, h.enabled, h.pktOf]

theorem badCore_iff : s.badCore c core = true ↔ (isRod core && s.enabled core) = false ∨ (pktLockstep (s.pktOf c.launch) = true ∧ coreSlot core % 2 = 1) := by
  simp [State.badCore, imp_iff_not_or]

/-- A SPAWN whose message is on its way. -/
def State.spawnSent (s : State) (iss : Issue) (core : CoreId) (pc args : DWord) (p : Pair) : State :=
  { s with spawnQ := s.spawnQ ++ [(iss.key, core, pc, args)] }.modCtx iss.key fun c => { c with st := .parked (.spawn p (after iss)) }

theorem exec_spawn (h : Ready s iss c ⟨[.s i], [], [(.s ⟨2 * p.val, by omega⟩, 2), (.s ⟨2 * b.k.val, by omega⟩, 2), (.s ⟨2 * e.k.val, by omega⟩, 2)]⟩
    true true [] []) : exec (.spawn (.s p) i b e) s = if (spairAt c b).toNat % 4 ≠ 0 then
      .next (s.deliver iss.key (Trap.one .align (spairAt c b) iss.pc))
    else .next ((if s.badCore c (c.arch.s[i].setWidth 14) then (s.release iss.key .dev).spawnReply iss.key (.s p) (after iss) 4 0
      else (s.release iss.key .dev).spawnSent iss (c.arch.s[i].setWidth 14) (spairAt c b) (spairAt c e) (.s p)).retire iss.key) := by
  refine (withIssue_of_issuing h.issuing _).trans ?_
  have hguard := guarded_of (s := s) (iss := iss) (c := c)
    (nm := ⟨[.s i], [], [pairName (.s p), pairName (pairOfS b), pairName (pairOfS e)]⟩) (typed := pairIsS (.s p)) (whole := true)
  have hrel : MemRun (fun _ => false) s (s.release iss.key .dev) := release_memRun rfl .rfl
  rw [hguard _ h.names rfl h.whole, Arch.spair_eq_spairAt, Arch.spair_eq_spairAt, State.ctx?_key h.issuing.ctx, ← hrel.badCore]
  dsimp only
  split
  · rfl
  · rw [← nextPc_eq_after]
    split
    · next hbad =>
      rw [if_pos (show (s.release iss.key .dev).badCore c (c.arch.s[i].setWidth 14) = true from hbad)]
      rfl
    · next hbad =>
      rw [if_neg (show ¬ (s.release iss.key .dev).badCore c (c.arch.s[i].setWidth 14) = true from hbad), State.spawnSent, ← nextPc_eq_after]
      rfl

section
variable (h : Ready s iss c ⟨[.s i], [], [(.s ⟨2 * p.val, by omega⟩, 2), (.s ⟨2 * b.k.val, by omega⟩, 2), (.s ⟨2 * e.k.val, by omega⟩, 2)]⟩
  true true [] []) (hal : (spairAt c b).toNat % 4 = 0)
include h hal

/-- SPAWN to an identifier that takes no message gives BADCORE, 4. -/
theorem exec_spawn_badCore (hbad : s.badCore c (c.arch.s[i].setWidth 14) = true) :
    ∃ t y, exec (.spawn (.s p) i b e) s = .next t ∧ t.ctx? iss.key = some y ∧ y.st = .live ∧ pairAt y.arch 0 (.s p) = 4 ∧
      y.arch.lanes = (c.arch.goto c.liveSet (after iss)).lanes := by
  obtain ⟨d, hd, hk⟩ := (release_memRun (P := fun _ => false) (k := iss.key) (sc := .dev) rfl .rfl).ctx? h.issuing.ctx
  obtain ⟨z, hz, hzst, hpair, hl⟩ := spawnReply_ctx? (p := p) (next := after iss) (status := 4) (value := 0) hd
  obtain ⟨y, hy, hk'⟩ := ctx?_retire (P := fun _ => false) hz
  refine ⟨_, y, by rw [exec_spawn h, if_neg (not_not.2 hal), if_pos hbad], hy, (hk'.st_eq (by rw [hzst]; rfl)).trans hzst, ?_, ?_⟩
  · exact (pairAt_s_congr hk'.arch_s).trans hpair
  · rw [hk'.arch_lanes, hl, hk.liveSet]
    exact Arch.goto_lanes_congr hk.arch_lanes

/-- SPAWN to an enabled rod sends its message and waits for the answer. -/
theorem exec_spawn_sends (hgood : s.badCore c (c.arch.s[i].setWidth 14) = false) :
    ∃ t y, exec (.spawn (.s p) i b e) s = .next t ∧ t.ctx? iss.key = some y ∧ y.st = .parked (.spawn (.s p) (after iss)) ∧
      y.arch.s = c.arch.s ∧ y.arch.lanes = c.arch.lanes ∧
      t.spawnQ = s.spawnQ ++ [(iss.key, c.arch.s[i].setWidth 14, spairAt c b, spairAt c e)] := by
  have hrel : MemRun (fun _ => false) s (s.release iss.key .dev) := release_memRun rfl .rfl
  obtain ⟨d, hd, hk⟩ := hrel.ctx? h.issuing.ctx
  have hsent : ((s.release iss.key .dev).spawnSent iss (c.arch.s[i].setWidth 14) (spairAt c b) (spairAt c e) (.s p)).ctx? iss.key =
      some { d with st := .parked (.spawn (.s p) (after iss)) } :=
    ctx?_modCtx_some (f := fun c => { c with st := .parked (.spawn (.s p) (after iss)) }) (fun _ => rfl) hd
  refine ⟨_, _, by rw [exec_spawn h, if_neg (not_not.2 hal), if_neg (Bool.eq_false_iff.1 hgood), retire_of_parked hsent (by simp)], hsent, rfl,
    hk.arch_s, hk.arch_lanes, ?_⟩
  change (s.release iss.key .dev).spawnQ ++ _ = _
  rw [hrel.spawnQ]

end

/-! ## The answer of a rod (R77, R82, R83) -/

theorem not_mem_slotsFree (hc : c ∈ s.ctxs) (hcore : c.key.core = core) : c.key.slot ∉ s.slotsFree core := by
  have hused : c.key.slot ∈ s.slotsUsed core := List.mem_flatMap.2 ⟨c, by simp [hc, hcore], by simp⟩
  simp [State.slotsFree, hused]

/-- The number of a rod's next context is no number of a context that is there. -/
theorem rodNumber_fresh {j : Fin 32} (h : s.rodNumber core = some j) (hc : c ∈ s.ctxs) : c.key ≠ ⟨core, j⟩ := by
  intro hkey
  refine not_mem_slotsFree hc (congrArg CtxKey.core hkey) ?_
  rw [hkey]
  exact List.mem_of_find?_eq_some h

theorem ctx?_addCtx {key : CtxKey} {launch : Word} {kind : CtxKind} {group index : Nat} {pair : Option (Fin 32)} {ar : Arch}
    (hc : s.ctx? k = some c) : (s.addCtx key launch kind group index pair ar).ctx? k = some c := by
  rw [State.ctx?, State.addCtx, List.find?_append]
  rw [show s.ctxs.find? (fun c => c.key == k) = some c from hc]
  rfl

theorem startArch_lanes {ls : List Lane} {o : CodeObject} {args uhnd ovh : DWord} {w : Nat} {top : Bool} :
    (startArch ls o args w uhnd ovh top).lanes = ls := by
  unfold startArch Arch.setS
  dsimp only
  split <;> split <;> split <;> rfl

/-- The lowest of some regions is there. -/
theorem lowRegion_isSome {rs : List Region} (h : rs ≠ []) : ∃ r, lowRegion rs = some r := by
  classical
  obtain ⟨r, hr, hmin⟩ := rs.toFinset.exists_min_image Region.w (by simpa using h)
  refine Option.isSome_iff_exists.1 (List.find?_isSome.2 ⟨r, by simpa using hr, ?_⟩)
  simpa using hmin

/-- The regions of a rod that have a free slot for a thread of a launch. -/
def State.openRegions (s : State) (launch : Word) (core : CoreId) : List Region :=
  (s.spawnRegions launch core).filter fun r => decide ((s.residents r).length < regionSlots (s.objectOf launch) core r.pw)

theorem openRegions_eq_nil {launch : Word}
    (h : ∀ r ∈ s.spawnRegions launch core, regionSlots (s.objectOf launch) core r.pw ≤ (s.residents r).length) : s.openRegions launch core = [] :=
  List.filter_eq_nil_iff.2 fun r hr => by simpa using h r hr

theorem openRegions_ne_nil {launch : Word}
    (h : ∃ r ∈ s.spawnRegions launch core, (s.residents r).length < regionSlots (s.objectOf launch) core r.pw) : s.openRegions launch core ≠ [] := by
  obtain ⟨r, hr, hslot⟩ := h
  exact List.ne_nil_of_mem (List.mem_filter.2 ⟨hr, by simpa using hslot⟩)

end

/-! ### The thread that a message starts -/

section
variable {pc args next : DWord} {r : Region} {j : Fin 32} {idx m : Nat} {p : Fin 32}

/-- The registers that a message's thread starts with. -/
def State.threadArch (s : State) (c : Ctx) (pc args : DWord) (r : Region) (idx : Nat) : Arch :=
  startArch [freshLane pc (tidOf c.launch idx) true] (s.objectOf c.launch) args r.w c.arch.uhnd c.arch.ovh (nfmtTop c.arch.nfmt)

/-- A thread that a message starts, before it acquires. -/
def State.threadAdded (s : State) (c : Ctx) (core : CoreId) (pc args : DWord) (r : Region) (j : Fin 32) (idx m : Nat) : State :=
  (s.addCtx ⟨core, j⟩ c.launch .rod r.w 0 none (s.threadArch c pc args r idx)).modLaunch c.launch fun l => { l with spawned := m + 1 }

/-- A thread that a message starts, and the answer to its sender. -/
def State.threadSpawned (s : State) (c : Ctx) (core : CoreId) (pc args : DWord) (p : Pair) (next : DWord) (r : Region) (j : Fin 32)
    (idx m : Nat) : State :=
  ((s.threadAdded c core pc args r j idx m).acquireMem ⟨core, j⟩ .dev).spawnReply c.key p next 0 (BitVec.ofNat 32 idx)

theorem threadAcquired_memRun : MemRun (fun _ => false) (s.threadAdded c core pc args r j idx m)
    ((s.threadAdded c core pc args r j idx m).acquireMem ⟨core, j⟩ .dev) := acquireMem_memRun rfl .rfl

/-- The sender has the index of its thread (R82). -/
theorem threadSpawned_ctx? (hc : s.ctx? c.key = some c) :
    ∃ y, (s.threadSpawned c core pc args (.s p) next r j idx m).ctx? c.key = some y ∧ y.st = .live ∧
      pairAt y.arch 0 (.s p) = BitVec.ofNat 32 idx ++ 0#32 := by
  have hadd : (s.threadAdded c core pc args r j idx m).ctx? c.key = some c := ctx?_addCtx hc
  obtain ⟨d, hd, _⟩ := threadAcquired_memRun.ctx? hadd
  obtain ⟨y, hy, hst, hpair, _⟩ := spawnReply_ctx? (p := p) (next := next) (status := 0) (value := BitVec.ofNat 32 idx) hd
  exact ⟨y, hy, hst, hpair⟩

theorem threadSpawned_spawnQ : (s.threadSpawned c core pc args (.s p) next r j idx m).spawnQ = s.spawnQ :=
  spawnReply_spawnQ.trans (threadAcquired_memRun.spawnQ)

/-- The new thread is there, at its PC and with its TID (R54, R82). -/
theorem mem_threadSpawned (hne : c.key ≠ ⟨core, j⟩) : ∃ z ∈ (s.threadSpawned c core pc args (.s p) next r j idx m).ctxs,
    z.key = ⟨core, j⟩ ∧ z.uid = s.uids ∧ z.kind = .rod ∧ z.launch = c.launch ∧ z.st = .live ∧ (z.arch.lane 0).pc = pc ∧
      (z.arch.lane 0).tid = c.launch ++ BitVec.ofNat 32 idx ∧ (z.arch.lane 0).live = true := by
  obtain ⟨x, hx, hk⟩ := (threadAcquired_memRun (s := s) (c := c) (core := core) (pc := pc) (args := args) (r := r) (j := j) (idx := idx)
    (m := m)).mem_ctxs (List.mem_append_right _ (List.mem_singleton_self _))
  have hkey : x.key = ⟨core, j⟩ := hk.key
  have hmod : x ∈ (((s.threadAdded c core pc args r j idx m).acquireMem ⟨core, j⟩ .dev).modCtx c.key fun c =>
      c.spawnAnswered (.s p) next 0 (BitVec.ofNat 32 idx)).ctxs :=
    List.mem_map.2 ⟨x, hx, if_neg (by simpa [hkey] using hne.symm)⟩
  obtain ⟨z, hz, hk'⟩ := (checkpoint_memRun (P := fun _ => false) (k := c.key) rfl .rfl).mem_ctxs hmod
  have hall := hk.trans hk'
  have hlane : z.arch.lane 0 = freshLane pc (tidOf c.launch idx) true := by
    have hl : z.arch.lanes = [freshLane pc (tidOf c.launch idx) true] := hall.arch_lanes.trans startArch_lanes
    rw [Arch.lane, hl]
    rfl
  exact ⟨z, hz, hall.key, (congrArg Ctx.uid hall.still :), hall.kind, hall.launch, hall.st_eq rfl, by rw [hlane]; rfl, by rw [hlane]; rfl, by rw [hlane]; rfl⟩

/-- What a rod's answer comes to. -/
theorem answerSpawn_eq {l : Launch} (hl : s.launch? c.launch = some l) : s.answerSpawn c core pc args (.s p) next =
    if (s.spawnRegions c.launch core).isEmpty then s.spawnReply c.key (.s p) next 2 0
    else if l.spawned = 2 ^ 32 - pktNwg l.pkt * pktWgsize l.pkt then s.spawnReply c.key (.s p) next 3 0
    else match lowRegion (s.openRegions c.launch core), s.rodNumber core with
      | some r, some j =>
        let u := s.threadSpawned c core pc args (.s p) next r j (pktNwg l.pkt * pktWgsize l.pkt + l.spawned) l.spawned
        if (s.objectOf c.launch).nfmtreq ≠ 0 ∧ nfmtTop c.arch.nfmt ≠ ((s.objectOf c.launch).nfmtreq == 2) then u.deliver ⟨core, j⟩ (Trap.one .nfmt pc pc) else u
      | _, _ => s.spawnReply c.key (.s p) next 1 (s.freecntOf core) := by
  have hpkt : s.pktOf c.launch = l.pkt := by simp [State.pktOf, hl]
  have hspawned : ((s.launch? c.launch).map (·.spawned)).getD 0 = l.spawned := by simp [hl]
  rw [State.answerSpawn, hpkt, hspawned]
  dsimp only
  split
  · rfl
  · split
    · rfl
    · rfl

/-- What a rod answers the sender of a message, case by case. -/
theorem answerSpawn_answers {l : Launch} {base : Nat} (hc : s.ctx? c.key = some c) (hl : s.launch? c.launch = some l)
    (hbase : base = pktNwg l.pkt * pktWgsize l.pkt) :
    ∃ u y, (u.ctx? c.key = some y ∧ y.st = .live ∧ u.spawnQ = s.spawnQ) ∧
      (s.spawnRegions c.launch core = [] → s.answerSpawn c core pc args (.s p) next = u ∧ pairAt y.arch 0 (.s p) = 2) ∧
      (s.spawnRegions c.launch core ≠ [] → l.spawned = 2 ^ 32 - base → s.answerSpawn c core pc args (.s p) next = u ∧ pairAt y.arch 0 (.s p) = 3) ∧
      (s.spawnRegions c.launch core ≠ [] → l.spawned ≠ 2 ^ 32 - base → s.openRegions c.launch core = [] →
        s.answerSpawn c core pc args (.s p) next = u ∧ pairAt y.arch 0 (.s p) = s.freecntOf core ++ 1#32) ∧
      (l.spawned ≠ 2 ^ 32 - base → s.openRegions c.launch core ≠ [] → ∀ j, s.rodNumber core = some j →
        (s.answerSpawn c core pc args (.s p) next =
          if (s.objectOf c.launch).nfmtreq = 0 ∨ nfmtTop c.arch.nfmt = decide ((s.objectOf c.launch).nfmtreq = 2) then u
          else u.deliver ⟨core, j⟩ (Trap.one .nfmt pc pc)) ∧
        pairAt y.arch 0 (.s p) = BitVec.ofNat 32 (base + l.spawned) ++ 0#32 ∧
        ∃ z ∈ u.ctxs, z.key = ⟨core, j⟩ ∧ z.uid = s.uids ∧ z.kind = .rod ∧ z.launch = c.launch ∧ z.st = .live ∧
          (z.arch.lane 0).pc = pc ∧ (z.arch.lane 0).tid = c.launch ++ BitVec.ofNat 32 (base + l.spawned) ∧ (z.arch.lane 0).live = true) := by
  have heq := answerSpawn_eq (core := core) (pc := pc) (args := args) (next := next) (p := p) hl
  have hreply {status value : Word} := spawnReply_ctx? (p := p) (next := next) (status := status) (value := value) hc
  rw [← hbase] at heq
  have hopen : s.openRegions c.launch core ≠ [] → s.spawnRegions c.launch core ≠ [] := fun h hrs => h (by simp [State.openRegions, hrs])
  by_cases hrs : s.spawnRegions c.launch core = []
  · rw [if_pos (by simp [hrs])] at heq
    obtain ⟨y, hy, hst, hpair, _⟩ := hreply (status := 2) (value := 0)
    exact ⟨_, y, ⟨hy, hst, spawnReply_spawnQ⟩, fun _ => ⟨heq, hpair⟩, fun h => absurd hrs h, fun h => absurd hrs h, fun _ h => absurd hrs (hopen h)⟩
  rw [if_neg (by simpa using hrs)] at heq
  by_cases hn : l.spawned = 2 ^ 32 - base
  · rw [if_pos hn] at heq
    obtain ⟨y, hy, hst, hpair, _⟩ := hreply (status := 3) (value := 0)
    exact ⟨_, y, ⟨hy, hst, spawnReply_spawnQ⟩, fun h => absurd h hrs, fun _ _ => ⟨heq, hpair⟩, fun _ h => absurd hn h, fun h => absurd hn h⟩
  rw [if_neg hn] at heq
  obtain ⟨y, hy, hst, hpair, _⟩ := hreply (status := 1) (value := s.freecntOf core)
  by_cases ho : s.openRegions c.launch core = []
  · rw [ho] at heq
    exact ⟨_, y, ⟨hy, hst, spawnReply_spawnQ⟩, fun h => absurd h hrs, fun _ h => absurd h hn, fun _ _ _ => ⟨heq, hpair⟩, fun _ h => absurd ho h⟩
  obtain ⟨r, hr⟩ := lowRegion_isSome ho
  rw [hr] at heq
  cases hj : s.rodNumber core with
  | none =>
    rw [hj] at heq
    exact ⟨_, y, ⟨hy, hst, spawnReply_spawnQ⟩, fun h => absurd h hrs, fun _ h => absurd h hn, fun _ _ h => absurd h ho, fun _ _ _ h => nomatch h⟩
  | some j =>
    rw [hj] at heq
    obtain ⟨y, hy, hst, hpair⟩ := threadSpawned_ctx? (core := core) (pc := pc) (args := args) (next := next) (r := r) (j := j) (idx := base + l.spawned)
      (m := l.spawned) (p := p) hc
    refine ⟨_, y, ⟨hy, hst, threadSpawned_spawnQ⟩, fun h => absurd h hrs, fun _ h => absurd h hn, fun _ _ h => absurd h ho, fun _ _ j' hj' => ?_⟩
    obtain rfl : j = j' := Option.some.inj hj'
    refine ⟨?_, hpair, mem_threadSpawned (rodNumber_fresh hj (List.mem_of_find?_eq_some hc))⟩
    rw [heq]
    dsimp only
    by_cases hreq : (s.objectOf c.launch).nfmtreq = 0
    · simp [hreq]
    · by_cases htop : nfmtTop c.arch.nfmt = decide ((s.objectOf c.launch).nfmtreq = 2)
      · rw [if_neg (fun h => h.2 htop), if_pos (.inr htop)]
      · rw [if_pos ⟨hreq, htop⟩, if_neg (fun h => h.elim hreq htop)]

end

/-- SPAWN_MESSAGE answers the oldest message of its rod (R83). -/
theorem exec_spawnMessage {m : CtxKey × CoreId × DWord × DWord} {p : Pair} {next : DWord} (hm : s.spawnQ.find? (fun m => m.2.1 == core) = some m)
    (hc : s.ctx? m.1 = some c) (hst : c.st = .parked (.spawn p next)) :
    exec (.spawnMessage core) s = .next ({ s with spawnQ := s.spawnQ.erase m }.answerSpawn c core m.2.2.1 m.2.2.2 p next) := by
  change execSpawnMessage core s = _
  unfold execSpawnMessage
  rw [hm]
  dsimp only
  rw [show State.ctx? { s with spawnQ := s.spawnQ.erase m } m.1 = some c from hc]
  dsimp only
  rw [hst]

/-! ## WAITFREE (R84, R85) -/

section
variable {r : Reg} {i j : Fin 64}

/-- A WAITFREE that waits for a notice of its rod. -/
def Ctx.awaitsFree (c : Ctx) (iss : Issue) (core : CoreId) (r : Reg) (old : Word) : Ctx :=
  { c with st := .parked (.waitfree core r old (after iss)) }

/-- A uniform result of the context that the state holds, which goes on. -/
theorem setCtx_replied (hr : (regType r == .uniform) = true) (hc : s.ctx? iss.key = some c) (hst : c.st = .live) {x : Word} :
    ∃ y, ((s.setCtx (c.replied iss r x)).retire iss.key).ctx? iss.key = some y ∧ y.st = c.st ∧ gives c y iss r x := by
  have hkey : c.key = iss.key := State.ctx?_key hc
  have hset : (s.setCtx (c.replied iss r x)).ctx? iss.key = some (c.replied iss r x) :=
    hkey ▸ State.ctx?_setCtx_same (c := c.replied iss r x) (hkey ▸ hc)
  obtain ⟨y, hy, hk⟩ := ctx?_retire (P := fun _ => false) hset
  obtain ⟨hyst, hg, _, _⟩ := reply_gives hr hst (Ctx.Kept.rfl (P := fun _ => false)) hk
  exact ⟨y, hy, hyst, hg⟩

section
variable (h : Ready s iss c ⟨[.s i, .s j], [r], []⟩ (regType r == .uniform) true [] [])
  (hcore : core = (c.arch.s[i]).setWidth 14)
include h hcore

theorem exec_waitfree (hl : s.inLockstep c = false) : exec (.waitfree r i j) s =
      .next ((if !(isRod core && s.enabled core) then s.setCtx (c.replied iss r c.arch.s[j])
        else if s.freecntOf core ≠ c.arch.s[j] then s.setCtx (c.replied iss r (s.freecntOf core))
        else s.modCtx iss.key fun x => x.awaitsFree iss core r c.arch.s[j]).retire iss.key) := by
  subst hcore
  refine (withIssue_of_issuing h.issuing _).trans ?_
  rw [guarded_of _ h.names h.typed h.whole]
  rw [checkpoint_of_free (State.ctx?_key h.issuing.ctx ▸ h.issuing.ctx) hl, State.ctx?_key h.issuing.ctx]
  have hdone : ∀ (b : Bool) (p : Prop) [Decidable p] (u v w : State), finish iss.key (if b then .done u else if p then .done v else .done w) =
      .next ((if b then u else if p then v else w).retire iss.key) := by
    intro b p _ u v w
    split
    · rfl
    · split <;> rfl
  simp only [Ctx.awaitsFree, Ctx.replied, ← nextPc_eq_after, State.ctx?_key h.issuing.ctx]
  exact hdone (!(isRod (c.arch.s[i].setWidth 14) && s.enabled (c.arch.s[i].setWidth 14))) (s.freecntOf (c.arch.s[i].setWidth 14) ≠ c.arch.s[j]) _ _ _

/-- WAITFREE of an identifier that names no enabled rod gives the old count. -/
theorem exec_waitfree_none (hl : s.inLockstep c = false) (hrod : (isRod core && s.enabled core) = false) :
    ∃ t y, exec (.waitfree r i j) s = .next t ∧ t.ctx? iss.key = some y ∧ y.st = c.st ∧ gives c y iss r c.arch.s[j] := by
  have hexec := exec_waitfree h hcore hl
  rw [if_pos (by simp [hrod])] at hexec
  obtain ⟨y, hy, hyst, hg⟩ := setCtx_replied h.typed h.issuing.ctx h.issuing.ready
  exact ⟨_, y, hexec, hy, hyst, hg⟩

/-- WAITFREE gives a count that differs from the old one. -/
theorem exec_waitfree_differs (hl : s.inLockstep c = false) (hrod : isRod core = true) (hen : s.enabled core = true)
    (hne : s.freecntOf core ≠ c.arch.s[j]) :
    ∃ t y, exec (.waitfree r i j) s = .next t ∧ t.ctx? iss.key = some y ∧ y.st = c.st ∧ gives c y iss r (s.freecntOf core) := by
  have hexec := exec_waitfree h hcore hl
  rw [if_neg (by simp [hrod, hen]), if_pos hne] at hexec
  obtain ⟨y, hy, hyst, hg⟩ := setCtx_replied h.typed h.issuing.ctx h.issuing.ready
  exact ⟨_, y, hexec, hy, hyst, hg⟩

/-- WAITFREE waits while the count is the old one. -/
theorem exec_waitfree_waits (hl : s.inLockstep c = false) (hrod : isRod core = true) (hen : s.enabled core = true)
    (heq : s.freecntOf core = c.arch.s[j]) :
    ∃ t y, exec (.waitfree r i j) s = .next t ∧ t.ctx? iss.key = some y ∧ y.arch = c.arch ∧
      y.st = .parked (.waitfree core r c.arch.s[j] (after iss)) := by
  have hexec := exec_waitfree h hcore hl
  have hpark := ctx?_modCtx_some (f := fun x => x.awaitsFree iss core r c.arch.s[j]) (fun _ => rfl) h.issuing.ctx
  rw [if_neg (by simp [hrod, hen]), if_neg (not_not.2 heq), retire_of_parked hpark (by simp [Ctx.awaitsFree])] at hexec
  exact ⟨_, _, hexec, hpark, rfl, rfl⟩

end
end

/-- Settles O49: a SPAWN's message waits for its rod, whose answer is the first of the four that applies, and the new thread is the context that
it adds. -/
theorem spawnsAreAnswered : Obligations.SpawnsAreAnswered := by
  unfold Obligations.SpawnsAreAnswered
  refine ⟨fun s iss c p i b e h => ⟨fun hal => ?_, fun hal hbad => exec_spawn_badCore h hal (badCore_iff.2 hbad), fun hal hrod hen hlock => ?_⟩,
    fun s core m c p next l rs base hm hc hst hl hrs hbase => ?_,
    fun s iss c r i j core h hcore hl => ⟨exec_waitfree_none h hcore hl, exec_waitfree_differs h hcore hl, exec_waitfree_waits h hcore hl⟩⟩
  · rw [exec_spawn h, if_pos hal]
  · refine exec_spawn_sends h hal (Bool.eq_false_iff.2 fun hbad => ?_)
    rcases badCore_iff.1 hbad with hno | ⟨hlk, hodd⟩
    · rw [hrod, hen] at hno
      exact absurd hno (by decide)
    · rcases hlock with hfree | heven
      · simp [hfree] at hlk
      · omega
  · subst hrs
    have hkey : c.key = m.1 := State.ctx?_key hc
    obtain ⟨u, y, hu, hnone, hused, hfull, hstarts⟩ := answerSpawn_answers (s := { s with spawnQ := s.spawnQ.erase m }) (core := core) (pc := m.2.2.1)
      (args := m.2.2.2) (next := next) (p := p) (hkey ▸ hc) hl hbase
    have hexec := exec_spawnMessage hm hc hst
    refine ⟨_, u, y, ⟨hexec, hkey ▸ hu.1, hu.2.1, hu.2.2⟩, hnone, hused, fun hrs hn hall => hfull hrs hn ?_, fun hn hsome j hj => hstarts hn ?_ j hj⟩
    · exact openRegions_eq_nil hall
    · exact openRegions_ne_nil hsome

end Sys2Proof.Machine
end

section
namespace Sys2Proof.Machine
open Rules
variable {a s t u : State} {P Q : CtxKey → Bool} {c d y : Ctx} {k : CtxKey} {p q : Place} {va : DWord} {g : GroupCell}

/-! ## What a write at any home leaves there -/

/-- The memory in which a place has its home. -/
def State.storeOf (s : State) : Place → Mem
  | .scratch core l w _ => ((s.region? core l w).map Region.scratch).getD []
  | p => s.memOf p

theorem homeByte_eq_storeOf : s.homeByte p = (s.storeOf p).get p.offset := by
  cases p with
  | scratch core l w o =>
    rw [State.homeByte, State.storeOf, Place.offset]
    cases s.region? core l w <;> rfl
  | _ => exact homeByte_eq_memOf rfl

theorem storeOf_plus {n : Nat} : s.storeOf (p.plus n) = s.storeOf p := by cases p <;> rfl

theorem exists_plus {n : Nat} : exists? s (p.plus n) = exists? s p := by cases p <;> rfl

/-- The places that exist are those of the regions that are there. -/
theorem MemRun.exists? (h : MemRun P a s) : exists? s p = exists? a p := by
  cases p with
  | scratch core l w o => simpa [Rules.exists?] using congrArg Option.isSome (h.region? (core := core) (l := l) (w := w))
  | _ => rfl

theorem region?_modRegion {core : CoreId} {l : Word} {w : Nat} {f : Region → Region} (hcore : ∀ r, (f r).core = r.core)
    (hl : ∀ r, (f r).launch = r.launch) (hw : ∀ r, (f r).w = r.w) :
    (s.modRegion core l w f).region? core l w = (s.region? core l w).map f := by
  unfold State.region? State.modRegion
  rw [List.find?_map]
  have hsame : ((fun r : Region => r.core == core && r.launch == l && r.w == w) ∘ fun r : Region =>
      if r.core == core && r.launch == l && r.w == w then f r else r) = fun r => r.core == core && r.launch == l && r.w == w := by
    funext r
    dsimp only [Function.comp]
    split
    · rw [hcore, hl, hw]
    · rfl
  rw [hsame]
  cases h : s.regions.find? fun r => r.core == core && r.launch == l && r.w == w with
  | none => rfl
  | some r => exact congrArg some (if_pos (List.find?_some h))

theorem storeOf_putHome {x : Byte} (h : exists? s p = true) : (s.putHome x p).storeOf p = (s.storeOf p).put p.offset x := by
  cases p with
  | scratch core l w o =>
    obtain ⟨r, hr⟩ := Option.isSome_iff_exists.1 h
    have hmod := region?_modRegion (s := s) (core := core) (l := l) (w := w) (f := fun r => { r with scratch := r.scratch.put o x })
      (fun _ => rfl) (fun _ => rfl) (fun _ => rfl)
    rw [State.putHome, State.storeOf, hmod, State.storeOf, hr]
    rfl
  | dev d => exact memOf_putHome (p := .dev d) rfl
  | host d => exact memOf_putHome (p := .host d) rfl
  | dom n d => exact memOf_putHome (p := .dom n d) rfl

theorem storeOf_putHomes : ∀ (bs : List Byte) {p : Place} {s : State}, exists? s p = true →
    (s.putHomes p bs).storeOf p = (s.storeOf p).putBytes p.offset bs
  | [], _, _, _ => rfl
  | b :: bs, p, s, h => by
    have hrun : MemRun (fun _ => false) s (s.putHome b p) := putHome_memRun p .rfl
    have hnext := storeOf_putHomes bs (p := p.plus 1) (s := s.putHome b p) (exists_plus.trans (hrun.exists?.trans h))
    rw [storeOf_plus, storeOf_plus, storeOf_putHome h, offset_plus] at hnext
    exact hnext

theorem homeBytes_eq_storeOf : ∀ (n : Nat) {p : Place}, s.homeBytes p n = (s.storeOf p).bytes p.offset n
  | 0, _ => rfl
  | n + 1, p => by
    have hnext := homeBytes_eq_storeOf n (p := p.plus 1)
    rw [storeOf_plus, offset_plus] at hnext
    rw [State.homeBytes, hnext, homeByte_eq_storeOf]
    rfl

theorem storeOf_wf (h : memoriesWf s) : (s.storeOf p).wf = true := by
  cases p with
  | scratch core l w o =>
    rw [State.storeOf]
    cases hr : s.region? core l w with
    | none => rfl
    | some r =>
      obtain ⟨_, _, _, hregs, _, _⟩ := h
      exact (hregs r (List.mem_of_find?_eq_some hr)).1
  | dev d => exact memOf_wf h (p := .dev d) rfl
  | host d => exact memOf_wf h (p := .host d) rfl
  | dom n d => exact memOf_wf h (p := .dom n d) rfl

theorem homeBytes_congr (h : ∀ q, s.homeByte q = t.homeByte q) : ∀ (n : Nat) {p : Place}, s.homeBytes p n = t.homeBytes p n
  | 0, _ => rfl
  | n + 1, p => by rw [State.homeBytes, State.homeBytes, h, homeBytes_congr h n]

theorem cellAt_congr (h : ∀ q, s.homeByte q = t.homeByte q) : s.cellAt p = t.cellAt p := by
  rw [State.cellAt, State.cellAt, homeBytes_congr h]

/-- Bytes that are written at a home that exists are there (R274). -/
theorem homeBytes_written {pasid : Option (BitVec 20)} (hwf : memoriesWf s) (h : exists? s p = true) {bs : List Byte} :
    (s.homeWrite pasid p bs).homeBytes p bs.length = bs := by
  have hnote {u : State} : (u.noteWrite p).homeBytes p bs.length = u.homeBytes p bs.length :=
    homeBytes_congr (fun q => by cases q <;> rfl) _
  have hex : exists? (s.enterL2 pasid true p) p = true := (enterL2_memRun (P := fun _ => false) p .rfl).exists?.trans h
  rw [State.homeWrite, hnote, homeBytes_eq_storeOf, storeOf_putHomes _ hex, Mem.bytes_putBytes (storeOf_wf (enterL2_memoriesWf hwf _ _ _))]

/-! ## Counting corrected errors changes no memory (R226) -/

/-- A state but for the counts of its storage's corrected errors, and what follows from them. -/
def State.uncounted (s : State) : State := { s with ecc := [], rowSpares := [], tests := [] }

theorem remapRow_uncounted {r : Nat} : (s.remapRow r).uncounted = s.uncounted := by
  unfold State.remapRow
  split
  · rfl
  · split <;> rfl

theorem uncounted_ite {b : Prop} [Decidable b] (hs : s.uncounted = a.uncounted) (ht : t.uncounted = a.uncounted) :
    (if b then s else t).uncounted = a.uncounted := by
  split
  · exact hs
  · exact ht

theorem countCorrected_uncounted {x : Slice} : (s.countCorrected x).uncounted = s.uncounted := by
  unfold State.countCorrected
  cases x with
  | row r => exact uncounted_ite rfl remapRow_uncounted
  | bank b => exact uncounted_ite rfl rfl

theorem countFlaws_uncounted {fs : List Flaw} : (s.countFlaws fs).uncounted = s.uncounted :=
  List.foldlRecOn (motive := fun u => State.uncounted u = s.uncounted) _ _ rfl fun _ h _ _ => countCorrected_uncounted.trans h

theorem noteRead_uncounted {n : Nat} : (s.noteRead p n).uncounted = s.uncounted := countFlaws_uncounted

theorem noteLine_uncounted {f : Nat} {pasid : BitVec 20} {v n : Nat} : (s.noteLine f pasid v n).uncounted = s.uncounted := by
  unfold State.noteLine
  split
  · rfl
  · exact countFlaws_uncounted

theorem putHome_uncounted {x : Byte} : (s.putHome x p).uncounted = s.uncounted.putHome x p := by
  cases p with
  | dom q d =>
    simp only [State.putHome]
    exact apply_ite ..
  | _ => rfl

theorem writeLineBytes_uncounted {l : CacheLine} : ∀ (n : Nat) {i : Nat} {s : State},
    (s.writeLineBytes l i n).uncounted = s.uncounted.writeLineBytes l i n
  | 0, _, _ => rfl
  | n + 1, i, s => by
    rw [State.writeLineBytes, writeLineBytes_uncounted n, State.writeLineBytes, apply_ite State.uncounted, putHome_uncounted]

theorem homeBytes_uncounted {n : Nat} : s.uncounted.homeBytes p n = s.homeBytes p n := homeBytes_congr (fun q => by cases q <;> rfl) n

theorem enterL2_uncounted {pasid : Option (BitVec 20)} {w : Bool} : (s.enterL2 pasid w p).uncounted = s.uncounted.enterL2 pasid w p := by
  cases p with
  | dev d =>
    unfold State.enterL2
    dsimp only
    rw [homeBytes_uncounted]
    cases h : s.l2.find? fun x => x.line == d / 128 with
    | none =>
      have h' : (s.uncounted.l2.find? fun x => x.line == d / 128) = none := h
      rw [h']
      rfl
    | some x =>
      have h' : (s.uncounted.l2.find? fun x => x.line == d / 128) = some x := h
      rw [h']
      exact apply_ite State.uncounted _ _ _
  | _ => rfl

theorem noteWrite_uncounted : (s.noteWrite p).uncounted = s.uncounted.noteWrite p := by
  have hphase : ∀ q, s.uncounted.phaseAt q = s.phaseAt q := fun q => by rw [State.phaseAt, State.phaseAt, homeBytes_uncounted]
  simp only [State.noteWrite, hphase]
  rfl

/-- A line written back, but for the errors that reading it corrects. -/
def State.writtenBack (s : State) (l : CacheLine) : State :=
  let s := ((s.enterL2 (some l.pasid) true l.place).writeLineBytes l 0 128).noteWrite l.place
  { s with cache := s.cache.map fun x => if x.holds l.frame l.pasid (128 * l.line) then { x with dirty := 0 } else x }

theorem writeBack_eq {l : CacheLine} : s.writeBack l = if s.unreachable l.place then s.loseLine l
    else (s.noteLine l.frame l.pasid (128 * l.line) 128).writtenBack l := rfl

theorem writtenBack_uncounted {l : CacheLine} : (s.writtenBack l).uncounted = s.uncounted.writtenBack l := by
  rw [State.writtenBack, State.writtenBack, ← enterL2_uncounted, ← writeLineBytes_uncounted, ← noteWrite_uncounted]
  rfl

theorem writeBack_uncounted {l : CacheLine} : (s.writeBack l).uncounted = (s.uncounted.writeBack l).uncounted := by
  have hreach : s.uncounted.unreachable l.place = s.unreachable l.place := by cases l.place <;> rfl
  rw [writeBack_eq, writeBack_eq, hreach]
  split
  · rfl
  · rw [writtenBack_uncounted, writtenBack_uncounted, noteLine_uncounted, noteLine_uncounted]
    rfl

theorem cleaned_uncounted {l : CacheLine} : (if l.dirty == 0 then s else s.writeBack l).uncounted =
    (if l.dirty == 0 then s.uncounted else s.uncounted.writeBack l).uncounted := by
  split
  · rfl
  · exact writeBack_uncounted

theorem bankLines_uncounted {f b : Nat} : s.uncounted.bankLines f b = s.bankLines f b := rfl

theorem bankHosts_uncounted {f b : Nat} : s.uncounted.bankHosts f b = s.bankHosts f b := rfl

theorem roomFor_uncounted {f line : Nat} : (s.roomFor f line).uncounted = (s.uncounted.roomFor f line).uncounted := by
  unfold State.roomFor
  dsimp only
  rw [bankLines_uncounted, bankHosts_uncounted]
  split
  · rfl
  · split
    · next l _ => exact congrArg (fun u : State => { u with cache := u.cache.filter fun x => !(x.holds l.frame l.pasid (128 * l.line)) }) cleaned_uncounted
    · split <;> rfl

/-- The line that an access of a frame takes, where the frame has it or room for it (R219). -/
def State.lineTaken (s : State) (f : Nat) (pasid : BitVec 20) (v pa : Nat) (own : Bool) (h : HostLine) : State :=
  { s with hostLines := h :: s.hostLines.filterMap fun x =>
      if x.holds f pasid v then none
      else if x.pa == pa / 128 then (if own then none else some { x with own := false, dirty := false }) else some x }

theorem takeLine_uncounted {f : Nat} {pasid : BitVec 20} {v pa : Nat} {own write : Bool} :
    (s.takeLine f pasid v pa own write).uncounted = (s.uncounted.takeLine f pasid v pa own write).uncounted := by
  have hroom (b : Bool) : (if b then s else s.roomFor f (v / 128)).uncounted = (if b then s.uncounted else s.uncounted.roomFor f (v / 128)).uncounted := by
    split
    · rfl
    · exact roomFor_uncounted
  unfold State.takeLine
  rw [homeBytes_uncounted, show s.uncounted.frameCxl f = s.frameCxl f from rfl, show s.uncounted.hostLines = s.hostLines from rfl]
  split
  · exact congrArg (fun u : State => u.lineTaken f pasid v pa own _) (hroom _)
  · rfl

/-- A location at its serialization point is the same whether or not errors are counted. -/
theorem syncHome_uncounted : (s.syncHome c va p).uncounted = (s.uncounted.syncHome c va p).uncounted := by
  unfold State.syncHome
  have hline : ∀ f pasid v, s.uncounted.line? f pasid v = s.line? f pasid v := fun _ _ _ => rfl
  rw [show s.uncounted.pasidOf c.launch = s.pasidOf c.launch from rfl]
  simp only [hline]
  split
  · rfl
  · exact takeLine_uncounted
  · split
    · rfl
    · split
      · exact cleaned_uncounted
      · rfl

theorem cellAt_uncounted : s.uncounted.cellAt p = s.cellAt p := by rw [State.cellAt, State.cellAt, homeBytes_uncounted]

/-- A cell is the same whether or not the read of it is counted. -/
theorem cellAt_noteRead {n : Nat} : ((s.noteRead q n).syncHome c va p).cellAt p = (s.syncHome c va p).cellAt p := by
  rw [← cellAt_uncounted, syncHome_uncounted, noteRead_uncounted, ← syncHome_uncounted, cellAt_uncounted]

/-! ## One update of a group cell (R78, R79) -/

/-- A cell whose fields fit its 16 bytes. -/
structure GroupCell.Fits (g : GroupCell) : Prop where
  members : g.members < 2 ^ 32
  arrived : g.arrived < 2 ^ 32
  joins : g.joins < 2 ^ 16
  leaves : g.leaves < 2 ^ 16

theorem ofNat_fits {x : Nat} : (GroupCell.ofNat x).Fits :=
  ⟨Nat.mod_lt _ (by decide), Nat.mod_lt _ (by decide), Nat.mod_lt _ (by decide), Nat.mod_lt _ (by decide)⟩

theorem toNat_lt (h : g.Fits) : g.toNat < 256 ^ 16 := by
  obtain ⟨hm, ha, hj, hl⟩ := h
  have hp := g.phase.isLt
  unfold GroupCell.toNat
  omega

theorem ofNat_toNat (h : g.Fits) : GroupCell.ofNat g.toNat = g := by
  obtain ⟨hm, ha, hj, hl⟩ := h
  obtain ⟨members, arrived, phase, joins, leaves⟩ := g
  have hp := phase.isLt
  simp only [GroupCell.ofNat, GroupCell.toNat, GroupCell.mk.injEq] at *
  refine ⟨by omega, by omega, BitVec.eq_of_toNat_eq ?_, by omega, by omega⟩
  rw [BitVec.toNat_ofNat]
  omega

theorem GroupCell.Fits.close (h : g.Fits) : g.close.Fits := by
  unfold GroupCell.close
  split
  · exact ⟨Nat.mod_lt _ (by decide), Nat.two_pow_pos _, Nat.two_pow_pos _, Nat.two_pow_pos _⟩
  · exact h

/-- An update that a cell takes leaves one that fits. -/
def fitting (f : GroupCell → Option GroupCell) : Prop := ∀ g x, g.Fits → f g = some x → x.Fits

theorem fitting_join {n : Nat} : fitting fun g => g.join n := by
  intro g x h hx
  obtain ⟨hm, ha, hj, hl⟩ := h
  dsimp only [GroupCell.join] at hx
  split at hx
  · simp at hx
  · next hroom =>
    obtain rfl := Option.some.inj hx
    exact GroupCell.Fits.close ⟨hm, ha, by simp only; omega, hl⟩

theorem fitting_leave {n : Nat} : fitting fun g => g.leave n := by
  intro g x h hx
  obtain ⟨hm, ha, hj, hl⟩ := h
  dsimp only [GroupCell.leave] at hx
  split at hx
  · simp at hx
  · next hroom =>
    obtain rfl := Option.some.inj hx
    exact GroupCell.Fits.close ⟨hm, by simp only; omega, hj, Nat.mod_lt _ (by decide)⟩

theorem fitting_arrive {n : Nat} : fitting fun g => g.arrive n := by
  intro g x h hx
  obtain ⟨hm, ha, hj, hl⟩ := h
  dsimp only [GroupCell.arrive] at hx
  split at hx
  · simp at hx
  · next hroom =>
    obtain rfl := Option.some.inj hx
    exact GroupCell.Fits.close ⟨hm, by simp only; omega, hj, hl⟩

/-- A store at device scope of bytes to a place that exists and that a route reaches is there (R274). -/
theorem homeBytes_storeBytes {f : Option Nat} {pasid : BitVec 20} {v : Nat} {bs : List Byte} (hwf : memoriesWf s) (hp : exists? s p = true)
    (hreach : s.unreachable p = false) : (s.storeBytes f pasid v p .dev bs).homeBytes p bs.length = bs := by
  have hwrite {u : State} (hu : memoriesWf u) (hrun : MemRun (fun _ => false) s u) :
      (u.homeWrite (some pasid) p bs).homeBytes p bs.length = bs := homeBytes_written hu (hrun.exists?.trans hp)
  unfold State.storeBytes
  rw [if_neg (by simp [hreach])]
  split
  · split
    · exact hwrite (takeLine_memoriesWf hwf _ _ _ _ _ _) (takeLine_memRun .rfl)
    · exact hwrite (snoopLine_memoriesWf hwf _) (snoopLine_memRun _ .rfl)
  · rw [if_neg (by simp)]
    refine (homeBytes_congr (fun q => by cases q <;> rfl) _).trans (hwrite ?_ ?_)
    · split
      · exact ite_memoriesWf hwf (writeBack_memoriesWf hwf _)
      · exact hwf
    · split
      · exact .ite .rfl (writeBack_memRun .rfl)
      · exact .rfl

theorem cellAt_stored {f : Option Nat} {pasid : BitVec 20} {v : Nat} (hwf : memoriesWf s) (hp : exists? s p = true)
    (hreach : s.unreachable p = false) (hg : g.Fits) : (s.storeBytes f pasid v p .dev (leBytes g.toNat 16)).cellAt p = g := by
  have hbytes := homeBytes_storeBytes (f := f) (pasid := pasid) (v := v) (bs := leBytes g.toNat 16) hwf hp hreach
  rw [leBytes_length] at hbytes
  rw [State.cellAt, hbytes, leNat_leBytes, Nat.mod_eq_of_lt (toNat_lt hg), ofNat_toNat hg]

/-- Whether a route reaches a place is nothing that memory operations change. -/
theorem MemRun.unreachable (h : MemRun P a s) : s.unreachable p = a.unreachable p := by
  have hpkg : s.pkg = a.pkg := (congrArg State.pkg h.rest :)
  have hdomain : s.domain = a.domain := (congrArg State.domain h.rest :)
  have hysl : s.ysl = a.ysl := (congrArg State.ysl h.rest :)
  cases p with
  | dom q d => simp only [State.unreachable, State.deadPeers, hpkg, hdomain, hysl]
  | _ => rfl

theorem updateCell_memRun {f : GroupCell → Option GroupCell} (hk : P c.key = false) (h : MemRun P a s) : MemRun P a (s.updateCell c va p f).1 := by
  have hsync : MemRun P a ((s.noteRead p 16).syncHome c va p) := syncHome_memRun (noteRead_memRun h)
  dsimp only [State.updateCell]
  split
  · exact hsync
  · exact touch_memRun hk (storeBytes_memRun hsync)

/-- What one update of a cell comes to: its value before it, whether it took place, and its value after it. -/
theorem updateCell_cell {f : GroupCell → Option GroupCell} (hwf : memoriesWf s) (hp : exists? s p = true) (hreach : s.unreachable p = false)
    (hf : fitting f) (hg : g = (s.syncHome c va p).cellAt p) :
    (s.updateCell c va p f).2 = (g, (f g).isSome) ∧ (s.updateCell c va p f).1.cellAt p = (f g).getD g := by
  have hsync : MemRun (fun _ => false) s ((s.noteRead p 16).syncHome c va p) := syncHome_memRun (noteRead_memRun .rfl)
  have hold : ((s.noteRead p 16).syncHome c va p).cellAt p = g := cellAt_noteRead.trans hg.symm
  dsimp only [State.updateCell]
  rw [hold]
  cases hx : f g with
  | none => exact ⟨rfl, hold⟩
  | some x =>
    refine ⟨rfl, (cellAt_congr fun q => modCtx_homeByte).trans (cellAt_stored ?_ (hsync.exists?.trans hp) (hsync.unreachable.trans hreach) ?_)⟩
    · exact syncHome_memoriesWf (noteRead_memoriesWf hwf)
    · exact hf g x (hg ▸ ofNat_fits) hx

/-- What the checks of an address come to, where a place is one that a route reaches (R364). -/
def Resolved.reached (s : State) : Resolved → Prop
  | .ok p => s.unreachable p = false
  | _ => True

theorem reached_ite {b : Prop} [Decidable b] {x y : Resolved} (hx : x.reached s) (hy : y.reached s) : (if b then x else y).reached s := by
  split
  · exact hx
  · exact hy

theorem resolvePhysical_reached {x : Accessor} {pa : Nat} {kind : AccessKind} : (s.resolvePhysical x pa kind).reached s := by
  unfold State.resolvePhysical
  refine reached_ite (reached_ite trivial rfl) (reached_ite trivial ?_)
  split
  · refine reached_ite rfl ?_
    split
    · exact reached_ite rfl trivial
    · trivial
  · rfl

theorem resolveShared_reached {x : Accessor} {v : Nat} {kind : AccessKind} : (s.resolveShared x v kind).reached s := by
  unfold State.resolveShared
  refine reached_ite trivial ?_
  split
  · refine reached_ite resolvePhysical_reached ?_
    split <;> trivial
  · split
    · rfl
    · split <;> trivial

theorem resolveDomain_reached {x : Accessor} {v : Nat} {kind : AccessKind} : (s.resolveDomain x v kind).reached s := by
  unfold State.resolveDomain
  refine reached_ite trivial (reached_ite (reached_ite trivial rfl) (reached_ite trivial ?_))
  split
  · trivial
  · next h => simpa [Resolved.reached, State.unreachable] using fun _ => h

theorem resolveLocal_reached {x : Accessor} {v n : Nat} : (s.resolveLocal x v n).reached s := by
  unfold State.resolveLocal
  refine reached_ite trivial (reached_ite trivial ?_)
  split
  · trivial
  · exact reached_ite trivial rfl

theorem resolve_reached {x : Accessor} {n al : Nat} {kind : AccessKind} : (s.resolve x va n al kind).reached s := by
  unfold State.resolve
  refine reached_ite trivial (reached_ite trivial (reached_ite trivial ?_))
  split
  · exact resolveDomain_reached
  · exact resolveDomain_reached
  · exact resolveLocal_reached
  · trivial
  · exact resolveShared_reached

/-- A cell's place is one that a route reaches. -/
theorem resolveCell_reached : (s.resolveCell c va).reached s := by
  unfold State.resolveCell State.resolveWrite
  have h := resolve_reached (s := s) (x := s.accessor c) (va := va) (n := 16) (al := 16) (kind := .atomic none)
  split
  · next p hp =>
    rw [hp] at h
    exact reached_ite trivial (reached_ite trivial h)
  · exact h

theorem resolveCell_reaches (h : s.resolveCell c va = .ok p) : s.unreachable p = false := by
  have hres := resolveCell_reached (s := s) (c := c) (va := va)
  rwa [h] at hres

/-! ## Where an update leaves its context -/

section
variable {iss : Issue} {r : Reg}

/-- A change of each of some lanes that may be repeated. -/
theorem Arch.lane_forLanes {ar : Arch} {f : Lane → Lane} (hf : ∀ l, f (f l) = f l) {n : Nat} {ls : List Nat} (hn : n < ar.lanes.length) :
    (ar.forLanes ls fun ar i => ar.modLane i f).lane n = if n ∈ ls then f (ar.lane n) else ar.lane n := by
  simp only [Arch.lane, List.getD_eq_getElem?_getD]
  rw [Arch.forLanes_modLane_getElem? hf]
  split <;> simp [hn]

theorem Arch.lanes_of_live {ar : Arch} {n : Nat} (h : (ar.lane n).live = true) : n < ar.lanes.length := by
  by_contra hn
  rw [Arch.lane, List.getD_eq_default _ _ (Nat.not_lt.1 hn)] at h
  simp [Lane.dead] at h

theorem mem_lanesOf_of {m : BitVec 64} {n : Nat} (h : m.getLsbD n = true) : n ∈ lanesOf m := by
  simpa [lanesOf, h] using BitVec.lt_of_getLsbD h

/-- A context that went on behind an update of a cell, with its status, and its lanes' GIDs where it took place. -/
def Ctx.membered (c : Ctx) (iss : Issue) (r : Reg) (took : Bool) (refusal : Word) (gid : DWord → DWord) : Ctx :=
  let ar := c.arch.writeS r (if took then 0 else refusal)
  { c with arch := (if took then ar.putGid iss.exec gid else ar).advance iss, refused := [] }

theorem membered_s {i : Fin 64} {took : Bool} {refusal : Word} {gid : DWord → DWord} :
    (c.membered iss (.s i) took refusal gid).arch.s = c.arch.s.set i (if took then 0 else refusal) := by
  refine (Arch.goto_s ..).trans ?_
  split
  · exact Arch.forLanes_keeps Arch.s (fun ar i => ar.modLane i _) (fun _ _ => rfl) _ _
  · rfl

/-- Where the active lanes of an update are, and their GIDs. -/
theorem membered_lane {i : Fin 64} {took : Bool} {refusal : Word} {gid : DWord → DWord} (hgid : ∀ x, gid (gid x) = gid x) {n : Nat}
    (hn : iss.exec.getLsbD n = true) (hlive : (c.arch.lane n).live = true) :
    (((c.membered iss (.s i) took refusal gid).arch.lane n).pc = after iss) ∧
      ((c.membered iss (.s i) took refusal gid).arch.lane n).gid = if took then gid (c.arch.lane n).gid else (c.arch.lane n).gid := by
  have hlen : n < c.arch.lanes.length := Arch.lanes_of_live hlive
  have hmem : n ∈ lanesOf iss.exec := mem_lanesOf_of hn
  rw [← nextPc_eq_after]
  cases took with
  | false =>
    have hgo := Arch.lane_forLanes (ar := c.arch.setS i refusal) (f := fun l => { l with pc := iss.pc + BitVec.ofNat 64 iss.len }) (fun _ => rfl)
      (ls := lanesOf iss.exec) (n := n) hlen
    rw [if_pos hmem] at hgo
    exact ⟨congrArg Lane.pc hgo, (congrArg Lane.gid hgo :)⟩
  | true =>
    have hset := Arch.lane_forLanes (ar := c.arch.setS i 0) (f := fun l => { l with gid := gid l.gid }) (fun l => by simp [hgid])
      (ls := lanesOf iss.exec) (n := n) hlen
    have hlen' : n < ((c.arch.setS i 0).putGid iss.exec gid).lanes.length := by
      refine Arch.lanes_of_live ((congrArg Lane.live hset).trans ?_)
      rw [if_pos hmem]
      exact hlive
    have hgo := Arch.lane_forLanes (ar := (c.arch.setS i 0).putGid iss.exec gid) (f := fun l => { l with pc := iss.pc + BitVec.ofNat 64 iss.len })
      (fun _ => rfl) (ls := lanesOf iss.exec) hlen'
    rw [if_pos hmem] at hgo hset
    exact ⟨congrArg Lane.pc hgo, (congrArg Lane.gid hgo).trans (congrArg Lane.gid hset)⟩

/-- The end of an instruction outside lock-step: no checkpoint is due, and nothing counts it. -/
theorem settled_free {f : Ctx → Ctx} (h : MemRun P s u) (hc : s.ctx? k = some c) (hl : s.inLockstep c = false)
    (hident : ∀ c, (f c).ident = c.ident) (haway : ∀ c, (f c).away = c.away) :
    ∃ d, c.Kept P d ∧ ((u.modCtx k f).checkpoint k).retire k = u.modCtx k f ∧ (u.modCtx k f).ctx? k = some (f d) := by
  obtain ⟨d, hd, hk⟩ := h.ctx? hc
  have hf : (u.modCtx k f).ctx? k = some (f d) := ctx?_modCtx_some (fun c => congrArg Ident.key (hident c)) hd
  have hfree : (u.modCtx k f).inLockstep (f d) = false := by
    refine Eq.trans ?_ ((h.inLockstep hk).trans hl)
    have hlaunch : (f d).launch = d.launch := congrArg Ident.launch (hident d)
    have hkind : (f d).kind = d.kind := congrArg Ident.kind (hident d)
    simp only [State.inLockstep, hlaunch, hkind, haway]
    rfl
  refine ⟨d, hk, ?_, hf⟩
  rw [checkpoint_of_free hf hfree, retire_of_not_lockstep hf hfree]

/-! ## JOIN and LEAVE (R86) -/

section
variable {sa : SPair} {refusal : Word} {f : GroupCell → Nat → Option GroupCell} {gid : DWord → DWord → DWord}

/-- The update of a JOIN or LEAVE. -/
def State.memberUpdate (s : State) (iss : Issue) (c : Ctx) (va : DWord) (p : Place) (f : GroupCell → Nat → Option GroupCell) : State × GroupCell × Bool :=
  (s.release iss.key (cellScope va p)).updateCell c va p fun g => f g (lanesOf iss.exec).length

theorem flushed_of_drained (hc : s.ctx? k = some c) (hd : drained c) (hl : s.inLockstep c = false) :
    (s.flushStreams k).checkpoint k = s := by
  rw [flushStreams_of_none hc hd, checkpoint_of_free hc hl]

theorem memberOp_of_ready (h : Ready s iss c (pairNames r sa) (regType r == .uniform) true [] []) (hp : s.resolveCell c (spairAt c sa) = .ok p)
    (hd : drained c) (hl : s.inLockstep c = false) : s.memberOp r sa refusal f gid =
      .next (((((s.memberUpdate iss c (spairAt c sa) p f).1.acquireMem iss.key (cellScope (spairAt c sa) p)).modCtx iss.key fun x =>
        x.membered iss r (s.memberUpdate iss c (spairAt c sa) p f).2.2 refusal (gid (spairAt c sa))).checkpoint iss.key).retire iss.key) := by
  have hkey : c.key = iss.key := State.ctx?_key h.issuing.ctx
  refine (withIssue_of_issuing h.issuing _).trans ?_
  have hguard := guarded_of (s := s) (iss := iss) (c := c) (nm := ⟨[], [r], [pairName (pairOfS sa)]⟩) (typed := regType r == .uniform) (whole := true)
  rw [hguard _ h.names h.typed h.whole, Arch.spair_eq_spairAt, hkey]
  dsimp only
  rw [hp]
  dsimp only
  rw [flushed_of_drained h.issuing.ctx hd hl, finish_done]
  rfl

/-- What JOIN and LEAVE give: the status, the GIDs, and the cell. -/
theorem memberOp_gives {i : Fin 64} {n : Nat} (h : Ready s iss c (pairNames (.s i) sa) (regType (.s i) == .uniform) true [] [])
    (hp : s.resolveCell c (spairAt c sa) = .ok p) (hex : exists? s p = true) (hd : drained c) (hl : s.inLockstep c = false) (hwf : memoriesWf s)
    (hg : g = ((s.release iss.key (cellScope (spairAt c sa) p)).syncHome c (spairAt c sa) p).cellAt p) (hn : n = (lanesOf iss.exec).length)
    (hf : fitting fun g => f g n) (hgid : ∀ x, gid (spairAt c sa) (gid (spairAt c sa) x) = gid (spairAt c sa) x) :
    ∃ t y, s.memberOp (.s i) sa refusal f gid = .next t ∧ t.ctx? iss.key = some y ∧ y.st = c.st ∧
      y.arch.s = c.arch.s.set i (if (f g n).isSome then 0 else refusal) ∧
      (∀ l, iss.exec.getLsbD l = true → (y.arch.lane l).pc = after iss ∧
        (y.arch.lane l).gid = if (f g n).isSome then gid (spairAt c sa) (c.arch.lane l).gid else (c.arch.lane l).gid) ∧
      t.cellAt p = (f g n).getD g := by
  subst hn
  have hrel : MemRun (fun _ => false) s (s.release iss.key (cellScope (spairAt c sa) p)) := release_memRun rfl .rfl
  have hreach := resolveCell_reaches hp
  obtain ⟨htook, hcell⟩ := updateCell_cell (c := c) (va := spairAt c sa) (f := fun g => f g (lanesOf iss.exec).length)
    (release_memoriesWf hwf) (hrel.exists?.trans hex) (hrel.unreachable.trans hreach) hf hg
  have hrun : MemRun (fun _ => false) s ((s.memberUpdate iss c (spairAt c sa) p f).1.acquireMem iss.key (cellScope (spairAt c sa) p)) :=
    acquireMem_memRun rfl (updateCell_memRun rfl hrel)
  have htook' : (s.memberUpdate iss c (spairAt c sa) p f).2.2 = (f g (lanesOf iss.exec).length).isSome := congrArg Prod.snd htook
  obtain ⟨d, hk, hend, hy⟩ := settled_free (f := fun x => x.membered iss (.s i) (s.memberUpdate iss c (spairAt c sa) p f).2.2 refusal
    (gid (spairAt c sa))) hrun h.issuing.ctx hl (fun _ => rfl) (fun _ => rfl)
  refine ⟨_, _, memberOp_of_ready h hp hd hl, (congrArg (State.ctx? · iss.key) hend).trans hy, ?_, ?_, fun l hlane => ?_, ?_⟩
  · exact hk.st_eq (by rw [h.issuing.ready]; rfl)
  · rw [membered_s, htook', hk.arch_s]
  · have hlane? : d.arch.lane l = c.arch.lane l := by rw [Arch.lane, Arch.lane, hk.arch_lanes]
    have hat := membered_lane (c := d) (i := i) (took := (s.memberUpdate iss c (spairAt c sa) p f).2.2) (refusal := refusal) hgid hlane
      (hlane? ▸ h.issuing.live l hlane)
    rw [hlane?] at hat
    rwa [htook'] at hat ⊢
  · rw [hend]
    refine (cellAt_congr fun q => ?_).trans hcell
    rw [modCtx_homeByte, acquireMem_homeByte]
    rfl

theorem lanesOf_length_pos {m : BitVec 64} (h : m ≠ 0) : 0 < (lanesOf m).length := by
  refine List.length_pos_iff.2 fun hnil => h (BitVec.eq_of_getLsbD_eq fun i hi => ?_)
  have hnot : i ∉ lanesOf m := by simp [hnil]
  simpa [lanesOf, hi] using hnot

/-- A JOIN for which the cell has room. -/
theorem join_of_room {n : Nat} (hn : 0 < n) (hj : g.joins + n ≤ 0xFFFF) (hm : g.members + g.joins + n ≤ 0xFFFFFFFF) : g.join n =
    some (if g.arrived = g.members then ⟨(g.members + (g.joins + n) - g.leaves) % 2 ^ 32, 0, g.phase + 1, 0, 0⟩ else { g with joins := g.joins + n }) := by
  rw [GroupCell.join, if_neg (by omega), GroupCell.close]
  refine congrArg some (if_congr ?_ rfl rfl)
  simp only [and_iff_left_iff_imp]
  omega

/-- A LEAVE of members. -/
theorem leave_of_members {n : Nat} (hn : 0 < n) (ha : g.arrived + n ≤ g.members) (hl : g.leaves + n ≤ g.members) : g.leave n =
    some (if g.arrived + n = g.members then ⟨(g.members + g.joins - (g.leaves + n) % 2 ^ 16) % 2 ^ 32, 0, g.phase + 1, 0, 0⟩
      else { g with arrived := g.arrived + n, leaves := (g.leaves + n) % 2 ^ 16 }) := by
  rw [GroupCell.leave, if_neg (by omega), GroupCell.close]
  refine congrArg some (if_congr ?_ rfl rfl)
  simp only [and_iff_left_iff_imp]
  omega

end

/-- The GID of a lane that leaves the cell at an address (R86). -/
def leftGid (addr gid : DWord) : DWord := if gid = addr then 0 else gid

theorem leftGid_idem {addr : DWord} (gid : DWord) : leftGid addr (leftGid addr gid) = leftGid addr gid := by
  unfold leftGid
  split
  · exact ite_self _
  · rfl

/-- JOIN and LEAVE do to their cell what R86 says, and their lanes' GIDs and the status follow. -/
theorem groupsJoinAndLeave_holds : groupsJoinAndLeave := by
  intro s iss c r sa p m g n h hp hex hd hl hwf hm hg hn
  obtain ⟨i, rfl⟩ := Reg.eq_s_of_uniform h.typed
  have hpos : 0 < n := hn ▸ lanesOf_length_pos h.issuing.active
  subst hm
  constructor
  · obtain ⟨t, y, hexec, hy, hst, hs, hlanes, hcell⟩ := memberOp_gives (refusal := 1) (f := GroupCell.join) (gid := fun addr _ => addr)
      h hp hex hd hl hwf hg hn fitting_join (fun _ => rfl)
    refine ⟨t, y, _, hexec, hy, hst, ⟨i, rfl, hs⟩, fun l hlane => ⟨(hlanes l hlane).1, ?_⟩, fun hfull => ?_, fun hj hmem => ?_⟩
    · rw [(hlanes l hlane).2]
      cases (g.join n).isSome <;> rfl
    · have hnone : g.join n = none := if_pos hfull
      rw [hnone] at hcell ⊢
      exact ⟨rfl, hcell⟩
    · rw [join_of_room hpos hj hmem] at hcell ⊢
      exact ⟨rfl, hcell⟩
  · obtain ⟨t, y, hexec, hy, hst, hs, hlanes, hcell⟩ := memberOp_gives (refusal := 2) (f := GroupCell.leave)
      (gid := leftGid) h hp hex hd hl hwf hg hn fitting_leave leftGid_idem
    refine ⟨t, y, _, hexec, hy, hst, ⟨i, rfl, hs⟩, fun l hlane => ⟨(hlanes l hlane).1, ?_⟩, fun hfew => ?_, fun ha hlv => ?_⟩
    · rw [(hlanes l hlane).2]
      cases (g.leave n).isSome <;> simp [leftGid]
    · have hnone : g.leave n = none := if_pos hfew
      rw [hnone] at hcell ⊢
      exact ⟨rfl, hcell⟩
    · rw [leave_of_members hpos ha hlv] at hcell ⊢
      exact ⟨rfl, hcell⟩

end

end Sys2Proof.Machine
end

section
namespace Sys2Proof.Machine
open Rules
variable {a s t u : State} {P Q : CtxKey → Bool} {iss : Issue} {c d y : Ctx} {k : CtxKey} {p q : Place} {va : DWord} {g : GroupCell} {r : Reg}
  {sc : Scope} {phase : Word}

/-! ## BAR (R354–R356) -/

/-- A thread that a barrier's phase has let on. -/
def Ctx.barPassed (c : Ctx) (iss : Issue) (r : Reg) : Ctx :=
  { c with refused := [], arch := ({ c.arch with mark := none }.writeS r 0).advance iss }

/-- A thread that waits for its phase to end, with its mark. -/
def Ctx.barParked (c : Ctx) (iss : Issue) (p : Place) (phase : Word) : Ctx :=
  { c with st := .parked (.barrier p phase), refused := [], arch := { c.arch with mark := some (iss.pc, phase) } }

/-- A thread whose lanes are no members. -/
def Ctx.barRefused (c : Ctx) (iss : Issue) (r : Reg) : Ctx := { c with refused := [], arch := (c.arch.writeS r 1).advance iss }

theorem barWait_eq : s.barWait iss k sc r p phase =
    if (s.cellAt p).phase = phase then (s.modCtx k fun c => c.barParked iss p phase).checkpoint k
    else ((s.acquireMem k sc).modCtx k fun c => c.barPassed iss r).checkpoint k := rfl

/-- The update of a BAR that arrives. -/
def State.barUpdate (s : State) (iss : Issue) (c : Ctx) (va : DWord) (p : Place) (sc : Scope) : State × GroupCell × Bool :=
  (s.release iss.key sc).updateCell c va p fun g => g.arrive (lanesOf iss.exec).length

/-- The release that an arrival at frame scope is (R288). -/
def State.barReleased (s : State) (c : Ctx) (va : DWord) (p : Place) (sc : Scope) : State :=
  if sc == .frm then s.registerReleaser c.frame? (domainAperture va) p else s

theorem barReleased_memRun (h : MemRun P a s) : MemRun P a (s.barReleased c va p sc) := .ite (registerReleaser_memRun h) h

theorem barReleased_cellAt : (s.barReleased c va p sc).cellAt q = s.cellAt q := by
  unfold State.barReleased
  split
  · exact cellAt_congr fun _ => registerReleaser_homeByte
  · rfl

/-- An arrival of a launch without a log is not logged. -/
theorem logArrival_of_none {record : List Byte} (h : (s.launch? c.launch).bind Launch.logRing = none) : s.logArrival c record = s := by
  unfold State.logArrival
  rw [h]

theorem MemRun.launch? (h : MemRun P a s) {n : Word} : s.launch? n = a.launch? n := by rw [State.launch?, State.launch?, h.launches]

section
variable {sa : SPair}

/-- A BAR whose cell resolves: at its mark it only waits, and elsewhere it arrives. -/
def State.barEffect (s : State) (iss : Issue) (c : Ctx) (sc : Scope) (r : Reg) (va : DWord) (p : Place) : Eff :=
  match c.arch.mark with
  | some (pc, phase) => if pc = iss.pc then .done (s.barWait iss iss.key sc r p phase) else execBar64.arrive sc r s iss c va p
  | none => execBar64.arrive sc r s iss c va p

section
variable (h : Ready s iss c (pairNames r sa) (regType r == .uniform) true [] []) (hp : s.resolveCell c (spairAt c sa) = .ok p)
include h hp

theorem exec_bar : exec (.bar64 sc r sa) s = finish iss.key (s.barEffect iss c sc r (spairAt c sa) p) := by
  refine (withIssue_of_issuing h.issuing _).trans ?_
  have hguard := guarded_of (s := s) (iss := iss) (c := c) (nm := ⟨[], [r], [pairName (pairOfS sa)]⟩) (typed := regType r == .uniform) (whole := true)
  rw [hguard _ h.names h.typed h.whole, Arch.spair_eq_spairAt]
  dsimp only
  rw [hp, State.ctx?_key h.issuing.ctx]
  rfl

theorem exec_bar_marked (hm : c.arch.mark = some (iss.pc, phase)) :
    exec (.bar64 sc r sa) s = .next ((s.barWait iss iss.key sc r p phase).retire iss.key) := by
  rw [exec_bar h hp, State.barEffect, hm]
  dsimp only
  rw [if_pos rfl, finish_done]

theorem exec_bar_unmarked (hm : c.arch.mark.map (·.1) ≠ some iss.pc) :
    exec (.bar64 sc r sa) s = finish iss.key (execBar64.arrive sc r s iss c (spairAt c sa) p) := by
  rw [exec_bar h hp, State.barEffect]
  split
  · next pc _ hmark => rw [if_neg fun e => hm (by rw [hmark, e]; rfl)]
  · rfl

end

/-- What an arrival comes to. -/
theorem arrive_eq (hkey : c.key = iss.key) (hfree : (s.release iss.key sc).checkpoint iss.key = s.release iss.key sc) :
    execBar64.arrive sc r s iss c va p = if (s.barUpdate iss c va p sc).2.2 then
      .done ((((s.barUpdate iss c va p sc).1.barReleased c va p sc).logArrival c
        (s.arrivalRecord c iss.exec va (s.barUpdate iss c va p sc).2.1.phase)).barWait iss iss.key sc r p (s.barUpdate iss c va p sc).2.1.phase)
    else .done (((s.barUpdate iss c va p sc).1.modCtx iss.key fun x => x.barRefused iss r).checkpoint iss.key) := by
  unfold execBar64.arrive
  dsimp only
  rw [hkey, hfree]
  rfl

/-- Where a thread is whose phase has ended (R354). -/
theorem barWait_ended (hr : (regType r == .uniform) = true) (h : MemRun (fun _ => false) s u) (hc : s.ctx? iss.key = some c) (hst : c.st = .live)
    (hl : s.inLockstep c = false) (hphase : (u.cellAt p).phase ≠ phase) :
    ∃ t y, (u.barWait iss iss.key sc r p phase).retire iss.key = t ∧ t.ctx? iss.key = some y ∧ y.st = c.st ∧ gives c y iss r 0 ∧
      y.arch.mark = none ∧ t.cellAt p = u.cellAt p := by
  obtain ⟨i, rfl⟩ := Reg.eq_s_of_uniform hr
  have hacq : MemRun (fun _ => false) s (u.acquireMem iss.key sc) := acquireMem_memRun rfl h
  obtain ⟨d, hk, hend, hy⟩ := settled_free (f := fun x => x.barPassed iss (.s i)) hacq hc hl (fun _ => rfl) (fun _ => rfl)
  rw [barWait_eq, if_neg hphase]
  refine ⟨_, _, rfl, (congrArg (State.ctx? · iss.key) hend).trans hy, hk.st_eq (by rw [hst]; rfl), ?_, Arch.goto_mark .., ?_⟩
  · exact gives_of_sameRegs (ar := { d.arch with mark := none }) rfl ⟨hk.arch_s, hk.arch_a, hk.arch_lanes⟩ .rfl
  · rw [hend]
    exact cellAt_congr fun q => by rw [modCtx_homeByte, acquireMem_homeByte]

/-- Where a thread is whose phase lacks members (R354). -/
theorem barWait_waits (h : MemRun P s u) (hc : s.ctx? iss.key = some c) (hl : s.inLockstep c = false) (hphase : (u.cellAt p).phase = phase) :
    ∃ t y, (u.barWait iss iss.key sc r p phase).retire iss.key = t ∧ t.ctx? iss.key = some y ∧ y.st = .parked (.barrier p phase) ∧
      y.arch.mark = some (iss.pc, phase) ∧ y.arch.s = c.arch.s ∧ y.arch.lanes = c.arch.lanes ∧ t.cellAt p = u.cellAt p := by
  obtain ⟨d, hk, hend, hy⟩ := settled_free (f := fun x => x.barParked iss p phase) h hc hl (fun _ => rfl) (fun _ => rfl)
  rw [barWait_eq, if_pos hphase]
  refine ⟨_, _, rfl, (congrArg (State.ctx? · iss.key) hend).trans hy, rfl, rfl, hk.arch_s, hk.arch_lanes, ?_⟩
  rw [hend]
  exact cellAt_congr fun q => modCtx_homeByte

theorem phase_succ_ne {x : Word} : x + 1 ≠ x := by bv_omega

/-- An arrival that completes the phase (R79). -/
theorem arrive_of_all {n : Nat} (hn : 0 < n) (h : g.members = g.arrived + n) :
    g.arrive n = some ⟨(g.members + g.joins - g.leaves) % 2 ^ 32, 0, g.phase + 1, 0, 0⟩ := by
  rw [GroupCell.arrive, if_neg (by omega), GroupCell.close, if_pos (by simp only; omega)]

/-- An arrival after which members are missing. -/
theorem arrive_of_some {n : Nat} (h : g.arrived + n < g.members) : g.arrive n = some { g with arrived := g.arrived + n } := by
  rw [GroupCell.arrive, if_neg (by omega), GroupCell.close, if_neg (by simp only; omega)]

/-- Settles O34: a BAR at its mark only waits, and any other is one update of its cell, whose outcome is that of the arrival of its lanes. -/
theorem barrierArrives : Obligations.BarrierArrives := by
  unfold Obligations.BarrierArrives
  intro s iss c sc r sa p m g h hp hex hlog hd hl hwf
  have hc := h.issuing.ctx
  have hst := h.issuing.ready
  refine ⟨fun phase hmark hphase => ?_, fun hmark hm hg => ?_⟩
  · obtain ⟨t, y, ht, hy, hyst, hgives, hnone, _⟩ := barWait_ended (sc := sc) h.typed .rfl hc hst hl hphase
    exact ⟨t, y, (exec_bar_marked h hp hmark).trans (congrArg _ ht), hy, hyst, hgives, hnone⟩
  subst hm
  have hrel : MemRun (fun _ => false) s (s.release iss.key sc) := release_memRun rfl .rfl
  have hreach := resolveCell_reaches hp
  obtain ⟨htook, hcell⟩ := updateCell_cell (c := c) (va := spairAt c sa) (f := fun g => g.arrive (lanesOf iss.exec).length)
    (release_memoriesWf hwf) (hrel.exists?.trans hex) (hrel.unreachable.trans hreach) fitting_arrive hg
  have hupd : MemRun (fun _ => false) s (s.barUpdate iss c (spairAt c sa) p sc).1 := updateCell_memRun rfl hrel
  have hfree : (s.release iss.key sc).checkpoint iss.key = s.release iss.key sc := by
    obtain ⟨e, he, hk⟩ := hrel.ctx? hc
    exact checkpoint_of_free he ((hrel.inLockstep hk).trans hl)
  have hexec := (exec_bar_unmarked h hp hmark).trans (congrArg (finish iss.key) (arrive_eq (sc := sc) (r := r) (State.ctx?_key hc) hfree))
  obtain ⟨v, hv⟩ : ∃ v, v = (s.barUpdate iss c (spairAt c sa) p sc).1.barReleased c (spairAt c sa) p sc := ⟨_, rfl⟩
  have hvrun : MemRun (fun _ => false) s v := hv ▸ barReleased_memRun hupd
  have hvcell : v.cellAt p = (g.arrive (lanesOf iss.exec).length).getD g := hv ▸ barReleased_cellAt.trans hcell
  have hnolog {record : List Byte} : v.logArrival c record = v := logArrival_of_none (hvrun.launch?.symm ▸ hlog)
  rw [show (s.barUpdate iss c (spairAt c sa) p sc).2 = _ from htook, ← hv, hnolog] at hexec
  dsimp only at hexec
  rcases Nat.lt_trichotomy g.members (g.arrived + (lanesOf iss.exec).length) with hlt | heq | hgt
  · have hnone : g.arrive (lanesOf iss.exec).length = none := if_pos hlt
    rw [hnone] at hexec
    obtain ⟨d, hk, hend, hy⟩ := settled_free (f := fun x => x.barRefused iss r) hupd hc hl (fun _ => rfl) (fun _ => rfl)
    refine ⟨_, _, hexec, (congrArg (State.ctx? · iss.key) hend).trans hy, fun _ => ⟨hk.st_eq (by rw [hst]; rfl), ?_⟩, fun h => absurd h (by omega),
      fun h => absurd h (by omega)⟩
    exact gives_of_sameRegs (ar := d.arch) h.typed hk.sameRegs .rfl
  · have hsome := arrive_of_all (lanesOf_length_pos h.issuing.active) heq
    rw [hsome] at hexec hvcell
    obtain ⟨t, y, ht, hy, hyst, hgives, _, htcell⟩ := barWait_ended (sc := sc) (phase := g.phase) (p := p) h.typed hvrun hc hst hl
      (by rw [hvcell]; exact phase_succ_ne)
    exact ⟨t, y, hexec.trans (congrArg _ ht), hy, fun h => absurd h (by omega), fun _ => ⟨hyst, hgives, htcell.trans hvcell⟩,
      fun h => absurd h (by omega)⟩
  · rw [arrive_of_some hgt] at hexec hvcell
    obtain ⟨t, y, ht, hy, hyst, hmk, hs, hlanes, htcell⟩ := barWait_waits (sc := sc) (phase := g.phase) (p := p) (r := r) hvrun hc hl (by rw [hvcell]; rfl)
    exact ⟨t, y, hexec.trans (congrArg _ ht), hy, fun h => absurd h (by omega), fun h => absurd h (by omega),
      fun _ => ⟨hyst, hmk, hs, hlanes, htcell.trans hvcell⟩⟩

end

end Sys2Proof.Machine
end

section
namespace Sys2Proof.Machine
open Rules
variable {a s t u v : State} {P Q : CtxKey → Bool} {iss : Issue} {c d e y z : Ctx} {k : CtxKey} {m : BitVec 64} {core : CoreId} {launch : Word} {w : Nat}

/-! ## Lanes that end (R87) -/

/-- What a change keeps of a lane, a change of many lanes keeps of each. -/
theorem Arch.lane_forLanes_keeps {α : Type} (g : Lane → α) {f : Lane → Lane} (hg : ∀ l, g (f l) = g l) (ls : List Nat) (ar : Arch) (n : Nat) :
    g ((ar.forLanes ls fun ar i => ar.modLane i f).lane n) = g (ar.lane n) := by
  refine Arch.forLanes_keeps (fun ar => g (ar.lane n)) _ (fun ar i => ?_) ls ar
  simp only [Arch.lane, Arch.modLane, List.getD_eq_getElem?_getD, List.getElem?_modify]
  split
  · cases ar.lanes[n]? <;> simp [hg]
  · simp

/-- Two architectural states whose lanes are at the same PCs, and live alike. -/
structure Arch.SameLives (x y : Arch) : Prop where
  length : y.lanes.length = x.lanes.length
  live : ∀ n, (y.lane n).live = (x.lane n).live
  pc : ∀ n, (y.lane n).pc = (x.lane n).pc

theorem Arch.SameLives.rfl {x : Arch} : x.SameLives x := ⟨Eq.refl _, fun _ => Eq.refl _, fun _ => Eq.refl _⟩

theorem Arch.SameLives.trans {x y z : Arch} (h : x.SameLives y) (h' : y.SameLives z) : x.SameLives z :=
  ⟨h'.length.trans h.length, fun n => (h'.live n).trans (h.live n), fun n => (h'.pc n).trans (h.pc n)⟩

theorem Arch.SameLives.of_lanes {x y : Arch} (h : y.lanes = x.lanes) : x.SameLives y := by
  refine ⟨congrArg List.length h, fun n => ?_, fun n => ?_⟩ <;> rw [Arch.lane, Arch.lane, h]

theorem Arch.forLanes_length {f : Lane → Lane} (ls : List Nat) (ar : Arch) :
    (ar.forLanes ls fun ar i => ar.modLane i f).lanes.length = ar.lanes.length :=
  Arch.forLanes_keeps (fun ar => ar.lanes.length) _ (fun _ _ => List.length_modify ..) ls ar

theorem Arch.forLanes_sameLives {f : Lane → Lane} (hlive : ∀ l, (f l).live = l.live) (hpc : ∀ l, (f l).pc = l.pc) (ls : List Nat) (ar : Arch) :
    ar.SameLives (ar.forLanes ls fun ar i => ar.modLane i f) :=
  ⟨Arch.forLanes_length ls ar, Arch.lane_forLanes_keeps Lane.live hlive ls ar, Arch.lane_forLanes_keeps Lane.pc hpc ls ar⟩

theorem Arch.holdAgain_sameLives {ar : Arch} : ar.SameLives ar.holdAgain :=
  (Arch.forLanes_sameLives (f := fun l => { l with held := l.live }) (fun _ => rfl) (fun _ => rfl) (lanesOf ar.heldSet) ar).trans (.of_lanes rfl)

/-- The end of a handler and the hold rule concern only what is held (R126, R127). -/
theorem Arch.endHandler_sameLives {ar : Arch} : ar.SameLives ar.endHandler := by
  unfold Arch.endHandler
  split
  · exact .trans (y := { ar with uh := false, overlay := false, trapSet := 0 }) (.of_lanes rfl) Arch.holdAgain_sameLives
  · exact .rfl

theorem Arch.releaseHeld_sameLives {ar : Arch} : ar.SameLives ar.releaseHeld := by
  unfold Arch.releaseHeld
  dsimp only
  split
  · exact .rfl
  · exact Arch.forLanes_sameLives (f := fun l => { l with meet := 0, held := false }) (fun _ => rfl) (fun _ => rfl) _ _

/-- The lanes after some of them have ended. -/
def Arch.lanesEnded (ar : Arch) (m : BitVec 64) : Arch :=
  (ar.forLanes (lanesOf m) fun ar i => ar.modLane i fun l => { l with live := false, held := false }).endHandler.releaseHeld

theorem lanesEnded_sameLives {ar : Arch} : (ar.forLanes (lanesOf m) fun ar i => ar.modLane i fun l => { l with live := false, held := false }).SameLives
    (ar.lanesEnded m) := Arch.endHandler_sameLives.trans Arch.releaseHeld_sameLives

theorem lanesEnded_live {ar : Arch} {n : Nat} : ((ar.lanesEnded m).lane n).live = ((ar.lane n).live && !(m.getLsbD n)) := by
  refine (lanesEnded_sameLives.live n).trans ?_
  by_cases hn : n < ar.lanes.length
  · rw [Arch.lane_forLanes (f := fun l => { l with live := false, held := false }) (fun _ => rfl) hn]
    by_cases hm : m.getLsbD n = true
    · rw [if_pos (mem_lanesOf_of hm)]
      simp [hm]
    · rw [if_neg (by simp [lanesOf, hm])]
      simp [hm]
  · have hdead {x : Arch} (hx : x.lanes.length = ar.lanes.length) : (x.lane n).live = false :=
      Bool.eq_false_iff.2 fun h => hn (hx ▸ Arch.lanes_of_live h)
    rw [hdead (Arch.forLanes_length _ _), hdead rfl]
    rfl

theorem lanesEnded_pc {ar : Arch} {n : Nat} : ((ar.lanesEnded m).lane n).pc = (ar.lane n).pc :=
  (lanesEnded_sameLives.pc n).trans (Arch.lane_forLanes_keeps Lane.pc (f := fun l => { l with live := false, held := false }) (fun _ => rfl) _ _ n)

theorem lanesEnded_length {ar : Arch} : (ar.lanesEnded m).lanes.length = ar.lanes.length :=
  lanesEnded_sameLives.length.trans (Arch.forLanes_length _ _)

/-- A lane is in the mask of the live lanes where it lives (R123). -/
theorem getLsbD_liveMask {ar : Arch} {n : Nat} (hn : n < 64) : ar.liveMask.getLsbD n = (ar.lane n).live := by
  have hfold : ∀ N, ((List.range N).foldl (fun m i => if (ar.lane i).live then m ||| (1#64 <<< i) else m) 0#64).getLsbD n =
      (decide (n < N) && (ar.lane n).live) := by
    intro N
    induction N with
    | zero => simp
    | succ N ih =>
      have hbit : (1#64 <<< N).getLsbD n = decide (n = N) := by
        rw [BitVec.getLsbD_shiftLeft, BitVec.getLsbD_one, Bool.eq_iff_iff]
        simp only [Bool.and_eq_true, decide_eq_true_eq, Bool.not_eq_true', decide_eq_false_iff_not]
        omega
      rw [List.range_succ, List.foldl_append, List.foldl_cons, List.foldl_nil]
      by_cases hnN : n = N
      · subst hnN
        split
        · next hl => simp [ih, hbit, hl]
        · next hl => simp [ih, Bool.eq_false_iff.2 hl]
      · have hlt : decide (n < N + 1) = decide (n < N) := decide_eq_decide.2 (by omega)
        split
        · rw [BitVec.getLsbD_or, ih, hbit, decide_eq_false hnN, hlt, Bool.or_false]
        · rw [ih, hlt]
  refine (hfold ar.lanes.length).trans ?_
  by_cases hlen : n < ar.lanes.length
  · simp [hlen]
  · rw [Bool.eq_false_iff.2 fun h => hlen (Arch.lanes_of_live h), Bool.and_false]

theorem liveMask_eq_zero_iff {ar : Arch} (hlen : ar.lanes.length ≤ 64) : ar.liveMask = 0 ↔ ∀ n, (ar.lane n).live = false := by
  constructor
  · intro h n
    by_cases hn : n < 64
    · rw [← getLsbD_liveMask hn, h]
      simp
    · exact Bool.eq_false_iff.2 fun hl => hn (lt_of_lt_of_le (Arch.lanes_of_live hl) hlen)
  · exact fun h => BitVec.eq_of_getLsbD_eq fun i hi => by rw [getLsbD_liveMask hi, h]; exact BitVec.getLsbD_zero.symm

/-- A context some of whose lanes have ended. -/
def Ctx.lanesEnded (c : Ctx) (m : BitVec 64) : Ctx := { c with arch := c.arch.lanesEnded m }

/-- Ending lanes drains a context whose last live lanes they are (R87). -/
theorem endLanes_of_ctx? (hc : s.ctx? k = some c) : s.endLanes k m =
    if (c.arch.lanesEnded m).liveMask == 0 then (s.modCtx k fun c => c.lanesEnded m).drain k else s.modCtx k fun c => c.lanesEnded m := by
  have hmod : (s.modCtx k fun c => c.lanesEnded m).ctx? k = some (c.lanesEnded m) := ctx?_modCtx_some (fun _ => rfl) hc
  have hend : s.endLanes k m = match (s.modCtx k fun c => c.lanesEnded m).ctx? k with
    | some c => if c.arch.liveMask == 0 then (s.modCtx k fun c => c.lanesEnded m).drain k else s.modCtx k fun c => c.lanesEnded m
    | none => s.modCtx k fun c => c.lanesEnded m := rfl
  rw [hend, hmod]
  rfl

/-! ## A context that drains (R75) -/

/-- A state that is as another for one context and in its regions. -/
structure Spares (k : CtxKey) (s t : State) : Prop where
  regions : t.regions = s.regions
  ctx : t.ctx? k = s.ctx? k

theorem Spares.rfl : Spares k s s := ⟨Eq.refl _, Eq.refl _⟩

theorem Spares.trans (h : Spares k s t) (h' : Spares k t u) : Spares k s u := ⟨h'.regions.trans h.regions, h'.ctx.trans h.ctx⟩

theorem Spares.modCtx {j : CtxKey} {f : Ctx → Ctx} (h : Spares k s t) (hf : ∀ c, (f c).key = c.key) (hj : j ≠ k) : Spares k s (t.modCtx j f) := by
  refine h.trans ⟨Eq.refl _, ?_⟩
  rw [State.ctx?_modCtx _ _ _ _ hf]
  cases hc : t.ctx? k with
  | none => rfl
  | some c => simp [State.ctx?_key hc, hj.symm]

theorem Spares.of_ctxs (h : Spares k s t) (hr : u.regions = t.regions) (hc : u.ctxs = t.ctxs) : Spares k s u :=
  h.trans ⟨hr, by rw [State.ctx?, State.ctx?, hc]⟩

theorem Spares.ite {b : Prop} [Decidable b] (ht : Spares k s t) (hu : Spares k s u) : Spares k s (if b then t else u) := by
  split
  · exact ht
  · exact hu

/-- What waits for the operand buffer tries again; any other context does not notice. -/
theorem wakeObuf_ctx? (hc : s.ctx? k = some c) (hst : c.st ≠ .parked .obuf) : (s.wakeObuf core).ctx? k = some c := by
  unfold State.wakeObuf State.ctx?
  rw [find_map_key _ Ctx.key k fun c => by split <;> rfl, show s.ctxs.find? (fun c => c.key == k) = some c from hc, Option.map_some,
    if_neg (by simp [hst])]

theorem roundMember_spares {p o : MatrixOp} {done : Bool} (ho : o.key ≠ k) : Spares k s (s.roundMember p done o) := by
  unfold State.roundMember
  exact .ite (.modCtx .rfl (fun _ => rfl) ho) (.ite (.modCtx .rfl (fun _ => rfl) ho) (.of_ctxs .rfl rfl rfl))

theorem foldl_spares {α : Type} {f : State → α → State} (xs : List α) (hf : ∀ {t} x, x ∈ xs → Spares k t (f t x)) : Spares k s (xs.foldl f s) :=
  List.foldlRecOn (motive := Spares k s) xs f .rfl fun _ ht x hx => ht.trans (hf x hx)

/-- Whether no matrix operation of a context waits in the rounds of a region. -/
def Region.unqueued (r : Region) (k : CtxKey) : Prop := ∀ n : Fin 8, ∀ o ∈ r.cvg[n].waiting, o.key ≠ k

/-- Whether no matrix operation of a context waits in the rounds of an allocation. -/
def State.unqueued (s : State) (core : CoreId) (launch : Word) (w : Nat) (k : CtxKey) : Prop :=
  ∀ r, s.region? core launch w = some r → r.unqueued k


/-! ### The stages of a round (R331) -/

/-- On a fenced column the operations that wait fault (R335). -/
def State.roundFaults (s : State) (core : CoreId) (v : CvgReg) : State :=
  if (s.beam core).fenced then v.waiting.foldl (fun (s : State) o => s.modCtx o.key fun c => { c with st := .parked (.roundBad .mmaerr) }) s else s

/-- What waits then. -/
def State.roundWaiting (s : State) (core : CoreId) (v : CvgReg) : CvgReg := if (s.beam core).fenced then { v with waiting := [] } else v

/-- The earliest-issued operation is performed. -/
def State.roundChooses (s : State) (core : CoreId) (v : CvgReg) : State × CvgReg :=
  match v.performed, v.waiting with
  | none, o :: os =>
    let s := s.setOps core ((s.beam core).ops ++ [o])
    (s.modCtx o.key fun c => { c with st := .parked (.matrix o.num) }, { v with performed := some o, waiting := os })
  | _, _ => (s, v)

/-- The others are judged by it. -/
def State.roundJudges (s : State) (v : CvgReg) : State :=
  match v.performed with
  | some p => v.waiting.foldl (fun (s : State) o => s.roundMember p v.done o) s
  | none => s

section
variable {v : CvgReg} (h : ∀ o ∈ v.waiting, o.key ≠ k)
include h

theorem roundFaults_spares : Spares k s (s.roundFaults core v) := .ite (foldl_spares _ fun o ho => .modCtx .rfl (fun _ => rfl) (h o ho)) .rfl

theorem roundWaiting_unqueued : ∀ o ∈ (s.roundWaiting core v).waiting, o.key ≠ k := by
  unfold State.roundWaiting
  split
  · simp
  · exact h

theorem roundChooses_spares : Spares k s (s.roundChooses core v).1 ∧ ∀ o ∈ (s.roundChooses core v).2.waiting, o.key ≠ k := by
  unfold State.roundChooses
  split
  · next o os _ hw =>
    rw [hw] at h
    exact ⟨.modCtx (.of_ctxs .rfl rfl rfl) (fun _ => rfl) (h o List.mem_cons_self), fun x hx => h x (List.mem_cons_of_mem _ hx)⟩
  · exact ⟨.rfl, h⟩

theorem roundJudges_spares : Spares k s (s.roundJudges v) := by
  unfold State.roundJudges
  split
  · exact foldl_spares _ fun o ho => roundMember_spares (h o ho)
  · exact .rfl

end

theorem waiting_closed {b : Prop} [Decidable b] {v : CvgReg} (h : v.waiting = []) : (if b then CvgReg.idle else v).waiting = [] := by
  split
  · rfl
  · exact h

/-- A round runs on the contexts whose operations wait in it, and leaves none waiting. -/
theorem runRound_spares {n : Fin 8} (h : s.unqueued core launch w k) : s.runRound core launch w n = s ∨ ∃ u v, Spares k s u ∧ v.waiting = [] ∧
    s.runRound core launch w n = (u.modRegion core launch w fun r => { r with cvg := r.cvg.set n v }).wakeObuf core := by
  unfold State.runRound
  cases hr : s.region? core launch w with
  | none => exact .inl rfl
  | some r =>
    have hwait : ∀ o ∈ r.cvg[n].waiting, o.key ≠ k := h r hr n
    dsimp only
    generalize r.cvg[n] = x at hwait ⊢
    obtain ⟨signed, mset, issued, waiting, performed, done⟩ := x
    cases mset with
    | none => exact .inl rfl
    | some m =>
      have hfault := roundFaults_spares (s := s) (core := core) hwait
      obtain ⟨hchoose, hleft⟩ := roundChooses_spares (s := s.roundFaults core ⟨signed, some m, issued, waiting, performed, done⟩) (core := core)
        (roundWaiting_unqueued (s := s) (core := core) hwait)
      have hjudge := roundJudges_spares (s := ((s.roundFaults core ⟨signed, some m, issued, waiting, performed, done⟩).roundChooses core
        (s.roundWaiting core ⟨signed, some m, issued, waiting, performed, done⟩)).1) hleft
      dsimp only
      split
      · exact .inr ⟨_, _, hfault.trans (hchoose.trans hjudge), waiting_closed rfl, rfl⟩
      · exact .inl rfl

theorem unqueued_modRegion {f : Region → Region} (h : s.unqueued core launch w k) (hcore : ∀ r, (f r).core = r.core) (hl : ∀ r, (f r).launch = r.launch)
    (hw : ∀ r, (f r).w = r.w) (hf : ∀ r, r.unqueued k → (f r).unqueued k) : (s.modRegion core launch w f).unqueued core launch w k := by
  intro r hr
  rw [region?_modRegion hcore hl hw] at hr
  obtain ⟨r', hr', rfl⟩ := Option.map_eq_some_iff.1 hr
  exact hf r' (h r' hr')

theorem unqueued_set {r : Region} {n : Fin 8} {v : CvgReg} (h : r.unqueued k) (hv : v.waiting = []) : Region.unqueued { r with cvg := r.cvg.set n v } k := by
  intro j o ho
  by_cases e : n.val = j.val
  · simp [e, hv] at ho
  · exact h j o (by simpa [Vector.getElem_set, e] using ho)

/-- A round leaves a context that does not wait as it stands. -/
theorem runRound_keeps {n : Fin 8} (h : s.unqueued core launch w k) (hc : s.ctx? k = some c) (hst : c.st ≠ .parked .obuf) :
    (s.runRound core launch w n).unqueued core launch w k ∧ (s.runRound core launch w n).ctx? k = some c := by
  rcases runRound_spares (n := n) h with e | ⟨u, v, hu, hv, e⟩
  · rw [e]
    exact ⟨h, hc⟩
  · rw [e]
    have hunq : u.unqueued core launch w k := fun r hr => h r (by rwa [State.region?, hu.regions] at hr)
    refine ⟨?_, wakeObuf_ctx? (hu.ctx.trans hc) hst⟩
    exact unqueued_modRegion (f := fun r => { r with cvg := r.cvg.set n v }) hunq (fun _ => rfl) (fun _ => rfl) (fun _ => rfl) fun r hr => unqueued_set hr hv

/-- A gang that leaves its rounds stays as it stands, where no operation of its own waits in them (R331). -/
theorem leaveRounds_keeps (h : s.unqueued d.key.core d.launch d.group k) (hc : s.ctx? k = some c) (hst : c.st ≠ .parked .obuf) :
    (s.leaveRounds d).unqueued d.key.core d.launch d.group k ∧ (s.leaveRounds d).ctx? k = some c := by
  unfold State.leaveRounds State.runRounds
  refine List.foldlRecOn (motive := fun u : State => u.unqueued d.key.core d.launch d.group k ∧ u.ctx? k = some c) _ _ ⟨?_, hc⟩
    fun u hu n _ => runRound_keeps hu.1 hu.2 hst
  refine unqueued_modRegion h (fun _ => rfl) (fun _ => rfl) (fun _ => rfl) fun r hr n o ho => hr n o ?_
  simp only [Fin.getElem_fin, Vector.getElem_map] at ho
  split at ho <;> exact ho

/-- What a context keeps that is about to drain, and the regions with it. -/
theorem letGo_ctx? (hc : s.ctx? k = some c) (hst : c.st = .live) : ∃ d, (s.letGo k).ctx? k = some d ∧ d.ident = c.ident ∧ d.arch.lanes = c.arch.lanes := by
  obtain ⟨d, hd, hk⟩ := (releaseMem_memRun (P := fun _ => false) (k := k) (sc := .dev) rfl .rfl).ctx? hc
  have hdst : d.st = .live := (hk.st_eq (by rw [hst]; rfl)).trans hst
  have hslot : ((s.releaseMem k .dev).freeSlot k).ctx? k = some d := hd
  by_cases hturn : d.turn.isSome = true
  · refine ⟨{ d with turn := none }, ?_, hk.ident, hk.arch_lanes⟩
    have hend : (((s.releaseMem k .dev).freeSlot k).endTurn k).ctx? k = some { d with turn := none } := by
      rw [State.endTurn, hslot, if_pos (by simpa using hturn)]
      exact wakeObuf_ctx? (ctx?_modCtx_some (f := fun c => { c with turn := none }) (fun _ => rfl) hslot) (by simp [hdst])
    exact hend
  · refine ⟨d, ?_, hk.ident, hk.arch_lanes⟩
    have hend : (((s.releaseMem k .dev).freeSlot k).endTurn k).ctx? k = some d := by
      rw [State.endTurn, hslot, if_neg (by simpa using hturn)]
      exact hslot
    exact hend

theorem letGo_regions : (s.letGo k).regions.map Region.dry = s.regions.map Region.dry := by
  have hrel : MemRun (fun _ => false) s (s.releaseMem k .dev) := releaseMem_memRun rfl .rfl
  have hslot : ((s.releaseMem k .dev).freeSlot k).regions = (s.releaseMem k .dev).regions := rfl
  change (((s.releaseMem k .dev).freeSlot k).endTurn k).regions.map _ = _
  rw [endTurn_regions, hslot, hrel.regions]

theorem unqueued_of_dry (h : s.unqueued core launch w k) (hr : t.regions.map Region.dry = s.regions.map Region.dry) : t.unqueued core launch w k := by
  intro r hrt
  have hmap : (t.region? core launch w).map Region.dry = (s.region? core launch w).map Region.dry := by rw [region?_map_dry, region?_map_dry, hr]
  rw [hrt] at hmap
  obtain ⟨r', hr', hdry⟩ := Option.map_eq_some_iff.1 hmap.symm
  have hcvg : r'.cvg = r.cvg := (congrArg Region.cvg hdry :)
  exact fun n o ho => h r' hr' n o (hcvg ▸ ho)

/-- A thread or launched gang that drains (R75). -/
theorem drain_ctx? (hc : s.ctx? k = some c) (hst : c.st = .live) (hcalled : c.isCalled = false) (h : s.unqueued c.key.core c.launch c.group k) :
    ∃ y, (s.drain k).ctx? k = some y ∧ y.st = .draining ∧ y.arch.lanes = c.arch.lanes := by
  obtain ⟨d, hd, hident, hlanes⟩ := letGo_ctx? hc hst
  have hmod : ((s.letGo k).modCtx k Ctx.drained).ctx? k = some d.drained := ctx?_modCtx_some (fun _ => rfl) hd
  have hkey : d.key = c.key := congrArg Ident.key hident
  have hlaunch : d.launch = c.launch := congrArg Ident.launch hident
  have hgroup : d.group = c.group := congrArg Ident.group hident
  have hkind : d.kind = c.kind := congrArg Ident.kind hident
  have hdrain : s.drain k = match ((s.letGo k).modCtx k Ctx.drained).ctx? k with
      | none => (s.letGo k).modCtx k Ctx.drained
      | some c => match c.kind with
        | .called frame e =>
          (if ((s.letGo k).modCtx k Ctx.drained).rdv.any fun x => x.frame == frame && x.num == e && x.launch == c.launch then
            ((s.letGo k).modCtx k Ctx.drained).freeEntry frame e else (s.letGo k).modCtx k Ctx.drained).leaveRounds c
        | .gang => ((s.letGo k).modCtx k Ctx.drained).leaveRounds c
        | .rod => (s.letGo k).modCtx k Ctx.drained := rfl
  rw [hmod] at hdrain
  dsimp only at hdrain
  rw [show d.drained.kind = c.kind from hkind] at hdrain
  refine ⟨d.drained, ?_, rfl, hlanes⟩
  cases hk : c.kind with
  | rod =>
    rw [hk] at hdrain
    exact hdrain ▸ hmod
  | gang =>
    rw [hk] at hdrain
    have hunq : ((s.letGo k).modCtx k Ctx.drained).unqueued d.drained.key.core d.drained.launch d.drained.group k := by
      rw [show d.drained.key = c.key from hkey, show d.drained.launch = c.launch from hlaunch, show d.drained.group = c.group from hgroup]
      exact unqueued_of_dry h letGo_regions
    exact hdrain ▸ (leaveRounds_keeps hunq hmod (by simp [Ctx.drained])).2
  | called f e => simp [Ctx.isCalled, hk] at hcalled

end Sys2Proof.Machine
end

section
namespace Sys2Proof.Machine
open Rules
variable {a s t u v : State} {P Q : CtxKey → Bool} {iss : Issue} {c d e y z : Ctx} {k : CtxKey} {m : BitVec 64}

/-! ## The checks of an address, and what memory operations leave of them -/

theorem rest_resolveLocal {x : Accessor} {va n : Nat} : (s.rest P).resolveLocal x va n = s.resolveLocal x va n := by
  have hregion {core : CoreId} {w : Nat} : (s.rest P).region? core x.launch w = (s.region? core x.launch w).map Region.dry := region?_map_dry.symm
  unfold State.resolveLocal
  dsimp only
  rw [hregion]
  cases s.region? (BitVec.ofNat 14 (va / 2 ^ 40)) x.launch (va / 2 ^ 20 % 2 ^ 20) <;> rfl

/-- The checks of an address rest on nothing that memory operations change. -/
theorem rest_resolve {x : Accessor} {va : DWord} {n al : Nat} {kind : AccessKind} : (s.rest P).resolve x va n al kind = s.resolve x va n al kind := by
  unfold State.resolve
  dsimp only
  rw [rest_resolveLocal]
  rfl

theorem MemRun.resolve (h : MemRun P s t) {x : Accessor} {va : DWord} {n al : Nat} {kind : AccessKind} :
    t.resolve x va n al kind = s.resolve x va n al kind := by
  rw [← rest_resolve (P := P), h.rest, rest_resolve]

/-- A cell's page is missing where its address's translation is. -/
theorem resolveCell_miss_iff {va : DWord} {w : PageWait} :
    s.resolveCell c va = .miss w ↔ s.resolve (s.accessor c) va 16 16 (.atomic none) = .miss w := by
  unfold State.resolveCell State.resolveWrite
  cases s.resolve (s.accessor c) va 16 16 (.atomic none) with
  | ok p =>
    dsimp only
    split
    · simp
    · split <;> simp
  | _ => rfl

/-! ## The LEAVEs of an EXIT (R87) -/

/-- A context of which lanes have left their groups. -/
structure Ctx.Left (c d : Ctx) : Prop where
  ident : d.ident = c.ident
  away : d.away = c.away
  refused : d.refused = c.refused
  st : d.st = c.st
  lives : c.arch.SameLives d.arch
  gid : ∀ n, (d.arch.lane n).gid = 0 ∨ (d.arch.lane n).gid = (c.arch.lane n).gid

theorem Ctx.Left.trans (h : c.Left d) (h' : d.Left e) : c.Left e := by
  refine ⟨h'.ident.trans h.ident, h'.away.trans h.away, h'.refused.trans h.refused, h'.st.trans h.st, h.lives.trans h'.lives, fun n => ?_⟩
  rcases h'.gid n with h0 | hs
  · exact .inl h0
  · rw [hs]
    exact h.gid n

theorem Ctx.Kept.left (h : c.Kept P d) (hst : c.st = .live) : c.Left d :=
  ⟨h.ident, h.away, h.refused, h.st_eq (by rw [hst]; rfl), .of_lanes h.arch_lanes, fun n => .inr (by rw [Arch.lane, h.arch_lanes]; rfl)⟩

/-- Lanes that leave their group have no GID. -/
def Ctx.ungrouped (c : Ctx) (ls : List Nat) : Ctx := { c with arch := c.arch.forLanes ls fun ar i => ar.modLane i fun l => { l with gid := 0 } }

theorem ungrouped_left {ls : List Nat} : c.Left (c.ungrouped ls) := by
  refine ⟨rfl, rfl, rfl, rfl, Arch.forLanes_sameLives (f := fun l => { l with gid := 0 }) (fun _ => rfl) (fun _ => rfl) _ _, fun n => ?_⟩
  by_cases hn : n < c.arch.lanes.length
  · rw [Ctx.ungrouped, Arch.lane_forLanes (f := fun l => { l with gid := 0 }) (fun _ => rfl) hn]
    split
    · exact .inl rfl
    · exact .inr rfl
  · refine .inl ?_
    rw [Arch.lane, List.getD_eq_default _ _ (by rw [Ctx.ungrouped, Arch.forLanes_length]; exact Nat.not_lt.1 hn)]
    rfl

/-- A state in which lanes of a context have left their groups: the checks of addresses come to the same, and so do the regions. -/
structure LeaveRun (k : CtxKey) (c : Ctx) (s u : State) : Prop where
  launches : u.launches = s.launches
  resolve : ∀ x va n al kind, u.resolve x va n al kind = s.resolve x va n al kind
  regions : u.regions.map Region.dry = s.regions.map Region.dry
  ctx : ∃ d, u.ctx? k = some d ∧ c.Left d

theorem LeaveRun.memRun (h : LeaveRun k c s u) (hst : c.st = .live) (h' : MemRun P u v) : LeaveRun k c s v := by
  obtain ⟨d, hd, hleft⟩ := h.ctx
  obtain ⟨e, he, hk⟩ := h'.ctx? hd
  exact ⟨h'.launches.trans h.launches, fun _ _ _ _ _ => h'.resolve.trans (h.resolve ..), h'.regions.trans h.regions, e, he,
    hleft.trans (hk.left (hleft.st.trans hst))⟩

theorem LeaveRun.ungrouped (h : LeaveRun k c s u) (ls : List Nat) : LeaveRun k c s (u.modCtx k fun c => c.ungrouped ls) := by
  obtain ⟨d, hd, hleft⟩ := h.ctx
  exact ⟨h.launches, h.resolve, h.regions, _, ctx?_modCtx_some (f := fun c => c.ungrouped ls) (fun _ => rfl) hd, hleft.trans ungrouped_left⟩

theorem LeaveRun.resolveCell_miss (h : LeaveRun k c s u) {va : DWord} {w : PageWait} (hleft : c.Left d) :
    u.resolveCell d va = .miss w ↔ s.resolveCell c va = .miss w := by
  have hacc : u.accessor d = s.accessor c := by
    have hkey : d.key = c.key := congrArg Ident.key hleft.ident
    have hlaunch : d.launch = c.launch := congrArg Ident.launch hleft.ident
    have hgroup : d.group = c.group := congrArg Ident.group hleft.ident
    simp only [State.accessor, Ctx.core, State.pasidOf, State.launch?, h.launches, hkey, hlaunch, hgroup, hleft.away, hleft.refused]
  rw [resolveCell_miss_iff, resolveCell_miss_iff, hacc, h.resolve]

/-- Where no cell misses its page, every lane leaves its group. -/
theorem exitLeaves_leaveRun (hst : c.st = .live)
    (hmiss : ∀ n w, m.getLsbD n = true → (c.arch.lane n).gid ≠ 0 → s.resolveCell c (c.arch.lane n).gid ≠ .miss w) :
    ∀ (n : Nat) {u : State}, LeaveRun k c s u → ∃ v, u.exitLeaves k m n = (v, none) ∧ LeaveRun k c s v
  | 0, u, h => ⟨u, rfl, h⟩
  | n + 1, u, h => by
    obtain ⟨d, hd, hleft⟩ := h.ctx
    unfold State.exitLeaves
    rw [hd]
    dsimp only
    split
    · exact ⟨u, rfl, h⟩
    · next g hg =>
      obtain ⟨i, hi, hgid⟩ := List.mem_filterMap.1 (List.mem_of_find?_eq_some hg)
      obtain ⟨hnonzero, hdg⟩ : (d.arch.lane i).gid ≠ 0 ∧ (d.arch.lane i).gid = g := by simpa using hgid
      have hcg : (c.arch.lane i).gid = g := ((hleft.gid i).resolve_left hnonzero).symm.trans hdg
      have hlane : m.getLsbD i = true := (List.mem_filter.1 hi).2
      have hrun {x : State} (hx : LeaveRun k c s x) := exitLeaves_leaveRun hst hmiss n hx
      split
      · next w hw =>
        refine absurd ((h.resolveCell_miss hleft).1 hw) (hcg ▸ hmiss i w hlane ?_)
        rw [hcg, ← hdg]
        exact hnonzero
      · exact hrun (h.ungrouped _)
      · next p _ =>
        have hupd : MemRun (fun _ => false) u (((u.releaseMem k (cellScope g p)).updateCell d g p fun x =>
            x.leave ((lanesOf m).filter fun i => (d.arch.lane i).gid == g).length).1.acquireMem k (cellScope g p)) :=
          acquireMem_memRun rfl (updateCell_memRun rfl (releaseMem_memRun rfl .rfl))
        exact hrun ((h.memRun hst hupd).ungrouped _)

/-! ## EXIT (R87) -/

theorem exec_exit_called {f n : Nat} (h : Issuing s iss c) (hk : c.kind = .called f n) :
    exec .exit64 s = .next (s.deliver iss.key (Trap.one .ill iss.pc iss.pc)) := by
  refine (withIssueIf_of_issuing h _ _).trans ?_
  rw [hk]
  rfl

theorem exec_exit (h : Issuing s iss c) (hcalled : c.isCalled = false) : exec .exit64 s = .next ((s.exitLanes iss.key iss.exec).retire iss.key) := by
  refine (withIssueIf_of_issuing h _ _).trans ?_
  rw [State.ctx?_key h.ctx]
  cases hk : c.kind with
  | called f n => simp [Ctx.isCalled, hk] at hcalled
  | _ => rfl

/-- What EXIT of lanes comes to whose cells miss no page: a context whose last live lanes they are drains. -/
theorem endLanes_ends (hc : s.ctx? k = some c) (hst : c.st = .live) (hcalled : c.isCalled = false) (hlen : c.arch.lanes.length ≤ 64)
    (hq : s.unqueued c.key.core c.launch c.group k) : ∃ y, (s.endLanes k m).ctx? k = some y ∧ (c.arch.lanesEnded m).SameLives y.arch ∧
      ((∀ n, ((c.arch.lanesEnded m).lane n).live = false) → y.st = .draining) ∧
      ((¬ ∀ n, ((c.arch.lanesEnded m).lane n).live = false) → y.st = .live) := by
  have hmod : (s.modCtx k fun c => c.lanesEnded m).ctx? k = some (c.lanesEnded m) := ctx?_modCtx_some (fun _ => rfl) hc
  rw [endLanes_of_ctx? hc]
  have hiff := liveMask_eq_zero_iff (ar := c.arch.lanesEnded m) (lanesEnded_length.trans_le hlen)
  by_cases hdead : ∀ n, ((c.arch.lanesEnded m).lane n).live = false
  · rw [if_pos (by simpa using hiff.2 hdead)]
    obtain ⟨y, hy, hyst, hlanes⟩ := drain_ctx? hmod hst hcalled hq
    exact ⟨y, hy, .of_lanes hlanes, fun _ => hyst, fun h => absurd hdead h⟩
  · rw [if_neg (by simpa using fun h => hdead (hiff.1 h))]
    exact ⟨_, hmod, .rfl, fun h => absurd h hdead, fun _ => hst⟩

/-- EXIT ends its lanes, and drains a context that has no other (R87). -/
theorem lanesExit_holds : lanesExit := by
  intro s iss c h
  refine ⟨fun f n hk => exec_exit_called h hk, fun hcalled hmiss hq => ?_⟩
  have hrel : LeaveRun iss.key c s (s.release iss.key .dev) := by
    have hself : LeaveRun iss.key c s s := ⟨rfl, fun _ _ _ _ _ => rfl, rfl, c, h.ctx, Ctx.Kept.left (P := fun _ => false) .rfl h.ready⟩
    exact hself.memRun h.ready (release_memRun (P := fun _ => false) rfl .rfl)
  obtain ⟨u, hu, hrun⟩ := exitLeaves_leaveRun h.ready hmiss 64 hrel
  have hexit : s.exitLanes iss.key iss.exec = u.endLanes iss.key iss.exec := by rw [State.exitLanes, hu]
  obtain ⟨d, hd, hleft⟩ := hrun.ctx
  have his : d.isCalled = c.isCalled := by
    have hkind : d.kind = c.kind := congrArg Ident.kind hleft.ident
    simp only [Ctx.isCalled, hkind]
  have hlen : d.arch.lanes.length ≤ 64 := by
    rw [hleft.lives.length]
    rcases h.shaped with e | e | e <;> omega
  have hqueue : u.unqueued d.key.core d.launch d.group iss.key := by
    have hkey : d.key = c.key := congrArg Ident.key hleft.ident
    have hlaunch : d.launch = c.launch := congrArg Ident.launch hleft.ident
    have hgroup : d.group = c.group := congrArg Ident.group hleft.ident
    rw [hkey, hlaunch, hgroup]
    exact unqueued_of_dry (fun r hr n o ho => hq r n o hr ho) hrun.regions
  obtain ⟨z, hz, hlives, hdrains, hgoes⟩ := endLanes_ends (m := iss.exec) hd (hleft.st.trans h.ready) (his.trans hcalled) hlen hqueue
  have hlive : ∀ n, (z.arch.lane n).live = ((c.arch.lane n).live && !(iss.exec.getLsbD n)) := fun n => by
    rw [hlives.live, lanesEnded_live, hleft.lives.live]
  have hdead : (∀ n, ((d.arch.lanesEnded iss.exec).lane n).live = false) ↔ ∀ n, (c.arch.lane n).live = true → iss.exec.getLsbD n = true := by
    refine forall_congr' fun n => ?_
    rw [lanesEnded_live, hleft.lives.live]
    cases (c.arch.lane n).live <;> simp
  obtain ⟨y, hy, hk⟩ := ctx?_retire (P := fun _ => false) hz
  have hyst : y.st = z.st := by
    refine hk.st_eq (CtxState.wakes_of_calm (CtxState.calm_iff.2 ?_))
    by_cases hall : ∀ n, ((d.arch.lanesEnded iss.exec).lane n).live = false
    · exact .inr (hdrains hall)
    · exact .inl (hgoes hall)
  have hys : z.arch.SameLives y.arch := .of_lanes hk.arch_lanes
  refine ⟨_, y, exec_exit h hcalled, by rw [hexit]; exact hy, fun n => (hys.live n).trans (hlive n), fun n _ => ?_, fun hall => ?_, fun hsome => ?_⟩
  · rw [hys.pc, hlives.pc, lanesEnded_pc, hleft.lives.pc]
  · exact hyst.trans (hdrains (hdead.2 hall))
  · obtain ⟨n, hln, hn⟩ := hsome
    exact (hyst.trans (hgoes fun hall => by simp [hdead.1 hall n hln] at hn)).trans h.ready.symm

/-- Settles O50: JOIN and LEAVE are one update of their cell, and EXIT leaves the groups of its lanes and ends them. -/
theorem groupsAndExit : Obligations.GroupsAndExit := ⟨groupsJoinAndLeave_holds, lanesExit_holds⟩

end Sys2Proof.Machine
end
